-- ==== Sys2Proof/Word.lean ====
section
/-! DEFINITION. The plainest data of the model: bytes, vector registers, and sparse tables with a default. -/

namespace Sys2Proof

/-- One byte. -/
abbrev Byte := BitVec 8

/-- A vector register or flit payload: 256 bytes, 64 lanes of 32 bits, lane 0 lowest (R120, R145). -/
abbrev Vec := BitVec 2048

/-- A sparse table: rising keys; a key that is not listed has the table's default. -/
abbrev Tab (α : Type) := List (Nat × α)

/-- The value at key `k`, `d` where none is listed. -/
def Tab.get {α : Type} (d : α) : Tab α → Nat → α
  | [], _ => d
  | (j, v) :: t, k => if j = k then v else Tab.get d t k

/-- The table with `v` at key `k`. -/
def Tab.set {α : Type} : Tab α → Nat → α → Tab α
  | [], k, v => [(k, v)]
  | (j, w) :: t, k, v =>
    if j = k then (k, v) :: t
    else if k < j then (k, v) :: (j, w) :: t
    else (j, w) :: Tab.set t k v

/-- The table with the value at `k` changed by `f`. -/
def Tab.mod {α : Type} (d : α) (t : Tab α) (k : Nat) (f : α → α) : Tab α :=
  Tab.set t k (f (Tab.get d t k))

end Sys2Proof
end

