-- ==== Sys2Proof/Syntax.lean ====
section
/-! DEFINITION. The part's commands: one constructor of `Instr` for each row of spec/opcode_table.json, with the
operands the outside world gives. Names follow the table's mnemonics. -/

namespace Sys2Proof

abbrev CoreId := Fin 1024
abbrev RegionId := Fin 16
abbrev PortId := Fin 32
abbrev StackId := Fin 12
abbrev EngineId := Fin 32
abbrev ChanId := Fin 64

/-- A Glazin port (R458). -/
inductive GPort where
  | a
  | b
  deriving DecidableEq, Repr

/-- Who writes or reads an object dictionary entry: a control node over Glazin, or the service UART's console. -/
inductive OdSrc where
  | node0
  | node1
  | uart
  deriving DecidableEq, Repr

/-- A console command of the service UART (R25). -/
inductive ConsoleCmd where
  | read (index sub : Nat)
  | write (index sub : Nat) (data : List Byte)
  | log (seq : Nat)
  deriving DecidableEq, Repr

/-- A temperature sensor of R44. -/
inductive Sensor where
  | region (r : RegionId)
  | stack (k : StackId)
  | optics (e : Fin 8)
  | mgmt
  deriving DecidableEq, Repr

/-- One of the four slots of a bundle (R121). -/
inductive Slot where
  | m
  | v
  | l
  | c
  deriving DecidableEq, Repr

/-- A credit-class message: channel 1-7, period flag, 64-byte header, data units of 64 bytes (R227, R228). -/
structure Msg where
  vc : Nat
  period : Bool
  hdr : BitVec 512
  units : List (BitVec 512)
  deriving DecidableEq, Repr

/-- A received Glazin frame, with the opcode it bears (R462). -/
structure GFrame where
  fcsOk : Bool
  etherType : BitVec 16
  version : Byte
  flags : Byte
  node : Byte
  position : Byte
  chainLength : Byte
  chip : BitVec 16
  sequence : BitVec 16
  status : BitVec 16
  index : BitVec 16
  sub : Byte
  offset : Nat
  length : Nat
  total : Nat
  opcode : Byte
  data : List Byte
  deriving DecidableEq, Repr

/-- A received TIME message: its port, its IEEE 1588 bytes, the receive timestamp in 2^-16 ns, and the go-back or
lateness the link saw (R278, R283). -/
structure TimeMsg where
  port : PortId
  bytes : List Byte
  rx : Nat
  delayed : Bool
  deriving DecidableEq, Repr

/-- The commands of the part. -/
inductive Instr where
  -- supply, reset and test port (01, 14, 16)
  | inputPowerArrival (aMv bMv : Nat)
  | inputUndervoltage (aMv bMv : Nat)
  | inputOvervoltage (aMv bMv : Nat)
  | inputOvercurrent (ma : Nat)
  | alwaysOnDomainStop (aMv bMv : Nat)
  | bladeLoss (blade : Fin 2) (mv : Nat)
  | inputSwitchReverseOpen
  | refclkLoss
  | wake (lowNs : Nat)
  | wakePattern (port : GPort) (onPeriods : Nat)
  | coldReset (lowNs : Nat)
  | resetRelease
  | bootComplete (ms : Nat)
  | watchdogExpiry
  | governorSample (loadMw : Nat)
  | unitAdmission
  | envelopeExceeded (loadMw : Nat)
  | tempWarn (x : Sensor) (c : Int)
  | overtempShutdown (x : Sensor) (c : Int)
  | alertClear (src : OdSrc) (data : List Byte)
  | uartRxCharacter (ch : Byte)
  | uartConsoleCommand (cmd : ConsoleCmd)
  | testLogicReset
  | samplePreload
  | extest
  | authMailbox
  | testAccessInstruction (op : Fin 64)
  | bypass (op : Byte)
  | challenge
  | piece (off : Nat) (data : List Byte)
  | submit (len : Nat)
  | status
  | lock
  -- core operations (04): core, bits [57:0] of the operation's slot, and the bundle's other slots
  | nop (core : CoreId) (unit : Slot) (w : BitVec 58) (rest : BitVec 256)
  | mma (core : CoreId) (w : BitVec 58) (rest : BitVec 256)
  | mclr (core : CoreId) (w : BitVec 58) (rest : BitVec 256)
  | rdout (core : CoreId) (w : BitVec 58) (rest : BitVec 256)
  | fop (core : CoreId) (w : BitVec 58) (rest : BitVec 256)
  | fcmp (core : CoreId) (w : BitVec 58) (rest : BitVec 256)
  | iop (core : CoreId) (w : BitVec 58) (rest : BitVec 256)
  | icmp (core : CoreId) (w : BitVec 58) (rest : BitVec 256)
  | cvt (core : CoreId) (w : BitVec 58) (rest : BitVec 256)
  | quant (core : CoreId) (w : BitVec 58) (rest : BitVec 256)
  | dequant (core : CoreId) (w : BitVec 58) (rest : BitVec 256)
  | sfu (core : CoreId) (w : BitVec 58) (rest : BitVec 256)
  | rng (core : CoreId) (w : BitVec 58) (rest : BitVec 256)
  | wadd (core : CoreId) (w : BitVec 58) (rest : BitVec 256)
  | wcvt (core : CoreId) (w : BitVec 58) (rest : BitVec 256)
  | perm (core : CoreId) (w : BitVec 58) (rest : BitVec 256)
  | pop (core : CoreId) (w : BitVec 58) (rest : BitVec 256)
  | ld (core : CoreId) (w : BitVec 58) (rest : BitVec 256)
  | st (core : CoreId) (w : BitVec 58) (rest : BitVec 256)
  | ldw (core : CoreId) (w : BitVec 58) (rest : BitVec 256)
  | ldws (core : CoreId) (w : BitVec 58) (rest : BitVec 256)
  | aop (core : CoreId) (w : BitVec 58) (rest : BitVec 256)
  | loop (core : CoreId) (w : BitVec 58) (rest : BitVec 256)
  | jump (core : CoreId) (w : BitVec 58) (rest : BitVec 256)
  | halt (core : CoreId) (w : BitVec 58) (rest : BitVec 256)
  | send (core : CoreId) (w : BitVec 58) (rest : BitVec 256)
  | recv (core : CoreId) (w : BitVec 58) (rest : BitVec 256)
  | fld (core : CoreId) (w : BitVec 58) (rest : BitVec 256)
  | fst (core : CoreId) (w : BitVec 58) (rest : BitVec 256)
  | feng (core : CoreId) (w : BitVec 58) (rest : BitVec 256)
  | wait (core : CoreId) (w : BitVec 58) (rest : BitVec 256)
  | flags (core : CoreId) (w : BitVec 58) (rest : BitVec 256)
  | sread (core : CoreId) (w : BitVec 58) (rest : BitVec 256)
  | step (core : CoreId) (w : BitVec 58) (rest : BitVec 256)
  -- banks, far queues, bridges (02, 04)
  | bankBeat (r : RegionId)
  | backgroundAccess (r : RegionId) (tier : Fin 4)
  | farDispatch (r : RegionId)
  | farRequestComplete (core : CoreId) (q : Fin 4) (tag : BitVec 16)
  | holdEnd (r : RegionId)
  | waitTimeout (r : RegionId)
  | neighbourBridgeTransfer (core : CoreId) (stream : Fin 8)
  | spineBridgeEntry (core : CoreId) (stream : Fin 8)
  -- scheduled fabric (05)
  | slotTick
  | pendingForward (port : PortId)
  | pendingLanding (port : PortId)
  | landingStreamArrival (r : RegionId)
  | deadlineMiss
  -- link (06)
  | codewordReceive (port : PortId) (index : Nat) (symbols : List (BitVec 10))
  | flitReceive (port : PortId) (flit : BitVec 2176)
  | idleControlFlit (port : PortId) (flit : BitVec 2176)
  | widthReq (port : PortId) (flit : BitVec 2176)
  | retrainReq (port : PortId) (flit : BitVec 2176)
  | replayTimeout (port : PortId)
  | signalDetect (port : PortId)
  | lockComplete (port : PortId) (lanes : Byte) (swapped : Bool)
  | identityBlockReceive (port : PortId) (block : BitVec 512)
  | rateComplete (port : PortId) (rxLanes txLanes : Byte)
  | alignComplete (port : PortId) (flight : Nat) (phase : Fin 16) (credits : List (BitVec 16))
  | trainTimeout (port : PortId)
  | backoffExpiry (port : PortId)
  | laneFailed (port : PortId) (lane : Fin 8)
  | widthSwitch (port : PortId)
  | widthDecodeTimeout (port : PortId)
  | portReset (src : OdSrc) (data : List Byte)
  -- frames and time (05, 07)
  | frameBoundary
  | clauseCopyComplete
  | wrapEvent
  | sync (m : TimeMsg)
  | followUp (m : TimeMsg)
  | pdelayReq (m : TimeMsg)
  | pdelayResp (m : TimeMsg)
  | pdelayRespFollowUp (m : TimeMsg)
  | announce (m : TimeMsg)
  | syncTransmit (d : Fin 2)
  | announceTransmit (d : Fin 2)
  | pdelayReqTransmit
  | transmitTimestamp (port : PortId) (ident : BitVec 12) (domain : Fin 2)
  | masterLost (d : Fin 2)
  | timeLost
  | slewComplete
  | tsPop (src : OdSrc)
  | ntSet (src : OdSrc) (data : List Byte)
  | timeSelect (src : OdSrc) (data : List Byte)
  | domainRoleWrite (src : OdSrc) (d : Fin 2) (data : List Byte)
  -- remote requests, routing, management (08, 13, 15)
  | reqRead (port : PortId) (m : Msg)
  | reqWrite (port : PortId) (m : Msg)
  | reqEngineItem (port : PortId) (m : Msg)
  | rspReadData (port : PortId) (m : Msg)
  | rspWriteDone (port : PortId) (m : Msg)
  | rspEngineDone (port : PortId) (m : Msg)
  | svcRead (port : PortId) (m : Msg)
  | svcWrite (port : PortId) (m : Msg)
  | messageForward (port : PortId) (m : Msg)
  | discovery (port : PortId) (m : Msg)
  | discoveryTransmit
  | quench (port : PortId) (m : Msg)
  | recoveryHeld
  | offer (m : Msg)
  | accept (m : Msg)
  | custodyPushDone
  | complete (m : Msg)
  | confirm (m : Msg)
  | refuse (m : Msg)
  | check (m : Msg)
  | release (m : Msg)
  | lost (m : Msg)
  | custodyTimeout
  | pairRequest (src : OdSrc) (data : List Byte)
  | detachRequest (src : OdSrc) (data : List Byte)
  | custodyRelease (src : OdSrc) (data : List Byte)
  | chipNumberWrite (src : OdSrc) (data : List Byte)
  | manifestWrite (src : OdSrc) (data : List Byte)
  | rankTableWrite (src : OdSrc) (data : List Byte)
  | routeTableWrite (src : OdSrc) (data : List Byte)
  -- stack engines and memory (10)
  | stackEngineTake (k : StackId) (e : EngineId)
  | gather (k : StackId) (e : EngineId)
  | scatter (k : StackId) (e : EngineId)
  | fill (k : StackId) (e : EngineId)
  | copy (k : StackId) (e : EngineId)
  | scrub (k : StackId) (e : EngineId)
  | packKv (k : StackId) (e : EngineId)
  | unpackKv (k : StackId) (e : EngineId)
  | crc64 (k : StackId) (e : EngineId)
  | stackSelfRefreshEntry (k : StackId)
  | leakTick (counter : Fin 28)
  | scrubStart (src : OdSrc) (data : List Byte)
  | scrubAbort (src : OdSrc) (data : List Byte)
  | scrubDone
  -- DMA (11)
  | dmaStart (src : OdSrc) (data : List Byte)
  | dmaStop (src : OdSrc) (data : List Byte)
  | dmaTimerFire (t : Fin 16)
  | descriptorFetch (ch : ChanId)
  | dmaSegmentDone (ch : ChanId) (seg : Fin 64) (reason : Byte)
  | dmaRemoteTimeout (ch : ChanId) (seg : Fin 64)
  | descriptorComplete (ch : ChanId)
  -- clocking and power (12)
  | ceilingUpdate (temps : List Int) (ageing : List Nat)
  | shortStop (r : RegionId)
  | shortStopResume (r : RegionId)
  | shadowPllLock (r : RegionId) (locked : Bool)
  | synchronisedSwitch
  | pllUnlock (r : RegionId)
  | droopStretch (r : RegionId) (periods : Nat)
  | frameHoldResume
  | clockModeWrite (src : OdSrc) (data : List Byte)
  | freqChangeModeWrite (src : OdSrc) (data : List Byte)
  | targetStepWrite (src : OdSrc) (data : List Byte)
  | regionLight (src : OdSrc) (data : List Byte)
  | stackActive (src : OdSrc) (data : List Byte)
  | groupEnable (src : OdSrc) (data : List Byte)
  | sleepRequest (src : OdSrc) (data : List Byte)
  | failedMaskWrite (src : OdSrc) (data : List Byte)
  | spareCore (src : OdSrc) (data : List Byte)
  | weightRepaired (region : RegionId) (data : BitVec 512)
  -- Glazin and object dictionary (13)
  | read (port : GPort) (f : GFrame)
  | write (port : GPort) (f : GFrame)
  | blockRead (port : GPort) (f : GFrame)
  | blockWrite (port : GPort) (f : GFrame)
  | event (port : GPort) (f : GFrame)
  | beacon (port : GPort) (f : GFrame)
  | beaconHoldExpiry (port : GPort)
  | glazinLinkUp (port : GPort)
  | glazinPortDown (port : GPort)
  | odWrite (src : OdSrc) (index sub : Nat) (data : List Byte)
  | txnBegin (src : OdSrc) (data : List Byte)
  | txnCommit (src : OdSrc) (data : List Byte)
  | txnRollback (src : OdSrc) (data : List Byte)
  | txnTimeout
  | jobStart (src : OdSrc) (data : List Byte)
  | jobAbort (src : OdSrc) (data : List Byte)
  | quenchRequested (src : OdSrc) (data : List Byte)
  | jobEnded
  | loadStart (src : OdSrc) (data : List Byte)
  | imageBlock (src : OdSrc) (offset total : Nat) (data : List Byte)
  | loadAbort (src : OdSrc) (data : List Byte)
  | coldResetWrite (src : OdSrc) (data : List Byte)
  | warmReset (src : OdSrc) (data : List Byte)
  | jobReset (src : OdSrc) (data : List Byte)
  | replayRelease (src : OdSrc) (data : List Byte)
  | runStart (src : OdSrc) (data : List Byte)
  | adoptStart (src : OdSrc) (data : List Byte)
  | custodyAdopted
  -- security (16)
  | fwInstall (src : OdSrc) (offset total : Nat) (data : List Byte)
  | rollbackCommit (src : OdSrc) (data : List Byte)
  | recordInstall (src : OdSrc) (data : List Byte)
  | quoteNonce (src : OdSrc) (data : List Byte)
  | quote (src : OdSrc) (offset length : Nat)
  | testChallenge (src : OdSrc)
  | testToken (src : OdSrc) (data : List Byte)
  | testLock (src : OdSrc) (data : List Byte)
  | logClear (src : OdSrc) (data : List Byte)
  | portEnable (src : OdSrc) (data : List Byte)
  | leakPeriodMs (src : OdSrc) (data : List Byte)
  | dmaTimerEnable (src : OdSrc) (data : List Byte)
  | weightRepairTimeout
  | pllLock (r : RegionId)
  deriving DecidableEq, Repr

end Sys2Proof
end

