-- ==== Sys2Proof/Config.lean ====
section
/-! DEFINITION. What one part fixes, and the free values: constants with no body, which nothing in Lean can evaluate. -/

namespace Sys2Proof

/-- The device serial of the identity certificate (R254, R507). Free: any 64-bit value. -/
opaque Config.serial : BitVec 64

/-- The SRAM or DRAM byte that a core sees, or leaves, where R72 and R154 call the data undefined. Free. -/
opaque Config.freeByte : Nat → Byte

/-- An FP32 result of a special function that the model's bracket could not decide. Free. -/
opaque Config.freeSfu : Nat → BitVec 32 → BitVec 32

/-- The security block's random source: the n-th 32-byte challenge (R572). Free. -/
opaque Config.challenge : Nat → List Byte

/-- The identity key's Ed25519 signature of a message (R571). Free. -/
opaque Config.ed25519Sign : List Byte → Vector Byte 64

/-- The identity key's ML-DSA-65 signature of a message with a context string (R571). Free. -/
opaque Config.mldsaSign : List Byte → List Byte → Vector Byte 3309

/-- The Helmenor root keys in the boot ROM: Ed25519 and ML-DSA-65 (R564). Free. -/
opaque Config.rootEd : Vector Byte 32
opaque Config.rootMldsa : Vector Byte 1952

/-- The anti-rollback MAC key, derived from the PUF (R567). Free. -/
opaque Config.macKey : List Byte

/-- The SHA-384 digest of the boot ROM, recorded at each boot (R567, R570). Free. -/
opaque Config.romDigest : Vector Byte 48

/-- The value an entry of the locked test range 0xF000 reads (R472): the spec lists none of its entries. Free. -/
opaque Config.testEntry : Nat → List Byte

/-- What the 13 boundary cells capture: the spec names neither their order nor the lands they sample (R26). Free. -/
opaque Config.boundaryCells : Nat → BitVec 13

/-- The block of the range 0xF000 that a test access instruction reaches: its opcode less 0x40, and which scan (R26). Free. -/
opaque Config.testScan : Nat → Nat → List Byte

/-- The servo's prediction of a domain's offset in 2^-16 ns (R290): domain, valid Syncs seen so far. Free. -/
opaque Config.servoPrediction : Nat → Nat → Int

/-- The servo's measure of a domain's frequency against the part's time base, in parts per billion (R289): domain, valid
Syncs seen so far. Free. -/
opaque Config.servoFreq : Nat → Nat → Int

/-- What a LOOP still open at the step a part joins at had read at its issue, which the part has never run (R137, R558): the value of
its Adyn register, and whether its predicate was off. Free: by core, step and the LOOP's bundle. -/
opaque Config.joinLoop : Nat → Nat → Nat → Nat × Bool

/-- Whether a unit of a failed DMA segment holds its new bytes: bit 0 (R409). Free. -/
opaque Config.freeDma : Nat → Byte

/-- The entries that the EVENT frames of a discovery message carry to the control nodes (R333, R463): the spec gives them no code and
no layout. Free. -/
opaque Config.discoveryEvents : List Byte → List (List Byte)

/-- The reason of the REFUSE that answers an OFFER with a count or a length of zero: R10 refuses it, and R501 lists no reason for
it. Free. -/
opaque Config.zeroOfferReason : Byte

end Sys2Proof
end

