-- ==== Sys2Proof/Machine/Bytes.lean ====
section
/-! DEFINITION. Bit fields, byte strings and lanes: bit ranges are [msb:lsb] (R6), multibyte fields little-endian (R7). -/

namespace Sys2Proof.Machine

/-- Bits [hi:lo] of a number. -/
def bits (x hi lo : Nat) : Nat := x / 2 ^ lo % 2 ^ (hi + 1 - lo)

/-- Bit `i` of a number. -/
def bit (x i : Nat) : Bool := Nat.testBit x i

/-- A number with bit `i` set or cleared. -/
def setBit (x i : Nat) (b : Bool) : Nat :=
  if Nat.testBit x i then (if b then x else x - 2 ^ i) else (if b then x + 2 ^ i else x)

/-- Positions of the set bits of a number below `n`, ascending. -/
def bitsSet (x n : Nat) : List Nat := (List.range n).filter fun i => Nat.testBit x i

/-- A byte string read as a little-endian number (R7). -/
def leNat : List Byte → Nat
  | [] => 0
  | b :: t => b.toNat + 256 * leNat t

/-- The low `n` bytes of a number, little-endian. -/
def toLE : Nat → Nat → List Byte
  | 0, _ => []
  | n + 1, x => BitVec.ofNat 8 x :: toLE n (x / 256)

/-- A byte string read as a big-endian number, the order of IEEE 1588 fields (R7). -/
def beNat (l : List Byte) : Nat := leNat l.reverse

/-- The low `n` bytes of a number, big-endian. -/
def toBE (n x : Nat) : List Byte := (toLE n x).reverse

/-- `n` bytes of a string from offset `o`. -/
def slice (l : List Byte) (o n : Nat) : List Byte := (l.drop o).take n

/-- The little-endian field of `n` bytes at offset `o`. -/
def field (l : List Byte) (o n : Nat) : Nat := leNat (slice l o n)

/-- `n` zero bytes. -/
def zeros (n : Nat) : List Byte := List.replicate n 0

/-- A number of `n` bits read as two's complement. -/
def sext (n x : Nat) : Int := if x % 2 ^ n < 2 ^ (n - 1) then (x % 2 ^ n : Nat) else ((x % 2 ^ n : Nat) : Int) - 2 ^ n

/-- An integer as `n`-bit two's complement. -/
def twos (n : Nat) (x : Int) : Nat := (x % (2 ^ n : Int)).toNat

/-- Lane `k` of a vector register (R120). -/
def lane (v : Vec) (k : Nat) : BitVec 32 := v.extractLsb' (32 * k) 32

/-- Byte `k` of a vector register. -/
def vbyte (v : Vec) (k : Nat) : Byte := v.extractLsb' (8 * k) 8

/-- A vector register from its 64 lanes. -/
def ofLanes (f : Nat → BitVec 32) : Vec :=
  (List.range 64).foldl (fun acc k => acc ||| ((f k).setWidth 2048 <<< (32 * k))) 0

/-- A wide bit vector from a byte string, byte 0 lowest. -/
def ofBytes (w : Nat) (l : List Byte) : BitVec w := BitVec.ofNat w (leNat l)

/-- The `n` bytes of a bit vector. -/
def bytesOf {w : Nat} (n : Nat) (x : BitVec w) : List Byte := toLE n x.toNat

/-- The mask whose lane `k` is all ones where bit `k` of `p` is on. -/
def laneMask (p : BitVec 64) : Vec := ofLanes fun k => if p.getLsbD k then 0xFFFFFFFF else 0

/-- `old` with the bits selected by `mask` taken from `new`. -/
def merge {w : Nat} (old mask new : BitVec w) : BitVec w := (old &&& ~~~mask) ||| (new &&& mask)

/-- Ceiling of a quotient. -/
def ceilDiv (a b : Nat) : Nat := (a + b - 1) / b

end Sys2Proof.Machine
end

