-- ==== Sys2Proof/Machine/OdTable.lean ====
section
/-! DEFINITION. The object dictionary as the spec's entry tables give it (R48, R82, R164, R215, R270, R300, R338, R367,
R398, R423, R457, R507, R526, R562, R576): one row an entry, and a named key for each register. -/

namespace Sys2Proof.Machine

/-- A register's key: index, subindex and, for entries a select register multiplexes, the instance. -/
def regKey (index sub : Nat) (inst : Nat := 0) : Nat := index * 65536 + sub * 256 + inst

/-- Access rights of R472. -/
inductive Acc where
  | ro
  | rw
  | rwj
  | wo
  deriving DecidableEq, Repr

/-- Persistence classes of R516; `c` is a constant. -/
inductive Per where
  | v
  | w
  | k
  | c
  deriving DecidableEq, Repr

/-- How a value is encoded (R471). -/
inductive Ty where
  | nat
  | int
  | blob
  deriving DecidableEq, Repr

/-- One dictionary entry: its place, type, size in bytes, access, persistence, default, range, and the key of the
select register that names its instance (0: none). -/
structure OdEntry where
  index : Nat
  sub : Nat
  ty : Ty
  size : Nat
  acc : Acc
  per : Per
  dflt : Nat
  lo : Int
  hi : Int
  sel : Nat
  deriving DecidableEq, Repr

/-- Entries from index 0x1000 on. -/
def odTable0 : List OdEntry := [
  ⟨0x1000, 0, .nat, 1, .ro, .c, 0x6, 0, 255, 0⟩,
  ⟨0x1000, 1, .blob, 0, .ro, .c, 0x0, 0, 0, 0⟩,
  ⟨0x1000, 2, .blob, 0, .ro, .c, 0x0, 0, 0, 0⟩,
  ⟨0x1000, 3, .nat, 8, .ro, .k, 0x0, 0, 18446744073709551615, 0⟩,
  ⟨0x1000, 4, .nat, 4, .ro, .v, 0x0, 0, 4294967295, 0⟩,
  ⟨0x1000, 5, .nat, 2, .ro, .c, 0x100, 0, 65535, 0⟩,
  ⟨0x1000, 6, .nat, 2, .ro, .c, 0x1, 0, 65535, 0⟩,
  ⟨0x1010, 0, .nat, 1, .ro, .c, 0x7, 0, 255, 0⟩,
  ⟨0x1010, 1, .nat, 1, .ro, .v, 0xFF, 0, 255, 0⟩,
  ⟨0x1010, 2, .nat, 1, .ro, .v, 0x0, 0, 255, 0⟩,
  ⟨0x1010, 3, .nat, 1, .ro, .v, 0x0, 0, 1, 0⟩,
  ⟨0x1010, 4, .nat, 1, .ro, .v, 0x0, 0, 1, 0⟩,
  ⟨0x1010, 5, .nat, 4, .ro, .w, 0x0, 0, 4294967295, 0⟩,
  ⟨0x1010, 6, .nat, 4, .ro, .v, 0x0, 0, 4294967295, 0⟩,
  ⟨0x1010, 7, .nat, 4, .ro, .w, 0x0, 0, 4294967295, 0⟩,
  ⟨0x2100, 0, .nat, 1, .ro, .c, 0x5, 0, 255, 0⟩,
  ⟨0x2100, 1, .nat, 4, .ro, .v, 0x0, 0, 4294967295, 0⟩,
  ⟨0x2100, 2, .nat, 4, .ro, .v, 0x0, 0, 4294967295, 0⟩,
  ⟨0x2100, 3, .nat, 4, .ro, .v, 0x0, 0, 4294967295, 0⟩,
  ⟨0x2100, 4, .nat, 4, .ro, .v, 0x0, 0, 4294967295, 0⟩,
  ⟨0x2100, 5, .nat, 1, .ro, .v, 0x0, 0, 255, 0⟩,
  ⟨0x2101, 0, .nat, 1, .ro, .c, 0x7, 0, 255, 0⟩,
  ⟨0x2101, 1, .nat, 2, .rwj, .k, 0x190, 50, 400, 0⟩,
  ⟨0x2101, 2, .nat, 1, .rwj, .k, 0x1, 0, 1, 0⟩,
  ⟨0x2101, 3, .nat, 2, .ro, .v, 0x0, 0, 65535, 0⟩,
  ⟨0x2101, 4, .nat, 2, .ro, .v, 0x0, 0, 65535, 0⟩,
  ⟨0x2101, 5, .nat, 2, .ro, .v, 0x0, 0, 65535, 0⟩,
  ⟨0x2101, 6, .nat, 1, .ro, .v, 0x0, 0, 4, 0⟩,
  ⟨0x2101, 7, .nat, 4, .ro, .w, 0x0, 0, 4294967295, 0⟩,
  ⟨0x2102, 0, .nat, 1, .ro, .c, 0x5, 0, 255, 0⟩,
  ⟨0x2102, 1, .int, 4, .ro, .v, 0x0, -2147483648, 2147483647, 0⟩,
  ⟨0x2102, 2, .int, 4, .ro, .v, 0x0, -2147483648, 2147483647, 0⟩,
  ⟨0x2102, 3, .int, 4, .ro, .v, 0x0, -2147483648, 2147483647, 0⟩,
  ⟨0x2102, 4, .int, 4, .ro, .v, 0x0, -2147483648, 2147483647, 0⟩,
  ⟨0x2102, 5, .nat, 2, .ro, .w, 0x0, 0, 65535, 0⟩,
  ⟨0x2103, 0, .nat, 1, .ro, .c, 0x3, 0, 255, 0⟩,
  ⟨0x2103, 1, .nat, 1, .wo, .v, 0x0, 0, 1, 0⟩,
  ⟨0x2103, 2, .nat, 1, .rw, .k, 0x1, 0, 1, 0⟩,
  ⟨0x2103, 3, .nat, 4, .ro, .v, 0x0, 0, 4294967295, 0⟩,
  ⟨0x2200, 0, .nat, 1, .ro, .c, 0x6, 0, 255, 0⟩]

/-- Entries from index 0x2200 on. -/
def odTable1 : List OdEntry := [
  ⟨0x2200, 1, .nat, 4, .ro, .k, 0x0, 0, 4294967295, 0⟩,
  ⟨0x2200, 2, .nat, 2, .ro, .k, 0x0, 0, 65535, 0⟩,
  ⟨0x2200, 3, .nat, 1, .ro, .k, 0x0, 0, 255, 0⟩,
  ⟨0x2200, 4, .nat, 2, .ro, .v, 0x0, 0, 65535, 0⟩,
  ⟨0x2200, 5, .nat, 1, .ro, .v, 0x0, 0, 64, 0⟩,
  ⟨0x2200, 6, .nat, 2, .ro, .k, 0x0, 0, 65535, 0⟩,
  ⟨0x2201, 0, .nat, 1, .ro, .c, 0x6, 0, 255, 0⟩,
  ⟨0x2201, 1, .nat, 1, .rw, .v, 0x0, 0, 15, 0⟩,
  ⟨0x2201, 2, .blob, 0, .ro, .v, 0x0, 0, 0, regKey 0x2201 1⟩,
  ⟨0x2201, 3, .blob, 0, .ro, .k, 0x0, 0, 0, regKey 0x2201 1⟩,
  ⟨0x2201, 4, .blob, 0, .rwj, .k, 0x0, 0, 0, regKey 0x2201 1⟩,
  ⟨0x2201, 5, .blob, 0, .ro, .v, 0x0, 0, 0, regKey 0x2201 1⟩,
  ⟨0x2201, 6, .nat, 1, .ro, .v, 0x0, 0, 255, regKey 0x2201 1⟩,
  ⟨0x2202, 0, .nat, 1, .ro, .c, 0x2, 0, 255, 0⟩,
  ⟨0x2202, 1, .nat, 1, .ro, .v, 0x0, 0, 255, 0⟩,
  ⟨0x2202, 2, .nat, 2, .ro, .v, 0x0, 0, 65535, 0⟩,
  ⟨0x2300, 0, .nat, 1, .ro, .c, 0x6, 0, 255, 0⟩,
  ⟨0x2300, 1, .nat, 8, .ro, .v, 0x0, 0, 18446744073709551615, 0⟩,
  ⟨0x2300, 2, .nat, 4, .ro, .v, 0x0, 0, 4294967295, 0⟩,
  ⟨0x2300, 3, .nat, 4, .ro, .v, 0x0, 0, 4294967295, 0⟩,
  ⟨0x2300, 4, .nat, 4, .rwj, .k, 0x100000, 1024, 2147483648, 0⟩,
  ⟨0x2300, 5, .nat, 2, .ro, .w, 0x0, 0, 65535, 0⟩,
  ⟨0x2300, 6, .nat, 2, .ro, .w, 0xFFFF, 0, 65535, 0⟩,
  ⟨0x2400, 0, .nat, 1, .ro, .c, 0x7, 0, 255, 0⟩,
  ⟨0x2400, 1, .nat, 1, .rwj, .k, 0x0, 0, 1, 0⟩,
  ⟨0x2400, 2, .nat, 1, .rwj, .k, 0x0, 0, 2, 0⟩,
  ⟨0x2400, 3, .nat, 2, .rwj, .k, 0x16A3, 5000, 5900, 0⟩,
  ⟨0x2400, 4, .nat, 4, .ro, .v, 0x4E57, 0, 4294967295, 0⟩,
  ⟨0x2400, 5, .nat, 4, .ro, .w, 0x0, 0, 4294967295, 0⟩,
  ⟨0x2400, 6, .nat, 4, .rwj, .k, 0x3E8, 10, 600000, 0⟩,
  ⟨0x2400, 7, .nat, 4, .ro, .v, 0x0, 0, 4294967295, 0⟩,
  ⟨0x2401, 0, .nat, 1, .ro, .c, 0x8, 0, 255, 0⟩,
  ⟨0x2401, 1, .nat, 1, .rw, .v, 0x0, 0, 15, 0⟩,
  ⟨0x2401, 2, .nat, 1, .rwj, .k, 0x54, 40, 92, regKey 0x2401 1⟩,
  ⟨0x2401, 3, .nat, 4, .ro, .v, 0x0, 0, 4294967295, regKey 0x2401 1⟩,
  ⟨0x2401, 4, .nat, 4, .ro, .v, 1150000, 0, 4294967295, regKey 0x2401 1⟩,
  ⟨0x2401, 5, .nat, 4, .ro, .k, 0x0, 0, 4294967295, regKey 0x2401 1⟩,
  ⟨0x2401, 6, .nat, 8, .ro, .v, 0x0, 0, 18446744073709551615, regKey 0x2401 1⟩,
  ⟨0x2401, 7, .nat, 8, .ro, .v, 0x0, 0, 18446744073709551615, regKey 0x2401 1⟩,
  ⟨0x2401, 8, .nat, 4, .ro, .w, 0x0, 0, 4294967295, regKey 0x2401 1⟩]

/-- Entries from index 0x2402 on. -/
def odTable2 : List OdEntry := [
  ⟨0x2402, 0, .nat, 1, .ro, .c, 0x7, 0, 255, 0⟩,
  ⟨0x2402, 1, .nat, 1, .ro, .v, 0x2, 0, 255, 0⟩,
  ⟨0x2402, 2, .nat, 2, .rwj, .v, 0x0, 0, 65535, 0⟩,
  ⟨0x2402, 3, .nat, 2, .rwj, .v, 0x0, 0, 4095, 0⟩,
  ⟨0x2402, 4, .nat, 1, .rwj, .v, 0x0, 0, 255, 0⟩,
  ⟨0x2402, 5, .nat, 1, .wo, .v, 0x0, 0, 1, 0⟩,
  ⟨0x2402, 6, .nat, 1, .rw, .v, 0x0, 0, 7, 0⟩,
  ⟨0x2402, 7, .nat, 2, .ro, .v, 0x0, 0, 65535, regKey 0x2402 6⟩,
  ⟨0x2500, 0, .nat, 1, .ro, .c, 0x7, 0, 255, 0⟩,
  ⟨0x2500, 1, .nat, 1, .wo, .v, 0x0, 0, 1, 0⟩,
  ⟨0x2500, 2, .nat, 1, .wo, .v, 0x0, 0, 1, 0⟩,
  ⟨0x2500, 3, .nat, 1, .wo, .v, 0x0, 0, 1, 0⟩,
  ⟨0x2500, 4, .nat, 1, .ro, .w, 0x0, 0, 5, 0⟩,
  ⟨0x2500, 5, .nat, 4, .ro, .w, 0x0, 0, 4294967295, 0⟩,
  ⟨0x2500, 6, .nat, 4, .ro, .w, 0x0, 0, 4294967295, 0⟩,
  ⟨0x2500, 7, .nat, 4, .ro, .w, 0x0, 0, 4294967295, 0⟩,
  ⟨0x3000, 0, .nat, 1, .ro, .c, 0x5, 0, 255, 0⟩,
  ⟨0x3000, 1, .nat, 4, .rwj, .k, 0x84D, 0, 4294967295, 0⟩,
  ⟨0x3000, 2, .nat, 2, .rw, .k, 0xA, 1, 1000, 0⟩,
  ⟨0x3000, 3, .nat, 4, .rwj, .k, 0xFFFFFFFF, 0, 4294967295, 0⟩,
  ⟨0x3000, 4, .nat, 1, .wo, .v, 0x0, 0, 31, 0⟩,
  ⟨0x3000, 5, .nat, 2, .ro, .c, 0x0, 0, 65535, 0⟩,
  ⟨0x3001, 0, .nat, 1, .ro, .c, 0x9, 0, 255, 0⟩,
  ⟨0x3001, 1, .nat, 1, .rw, .v, 0x0, 0, 31, 0⟩,
  ⟨0x3001, 2, .nat, 1, .ro, .v, 0x0, 0, 7, regKey 0x3001 1⟩,
  ⟨0x3001, 3, .nat, 1, .ro, .v, 0x0, 0, 4, regKey 0x3001 1⟩,
  ⟨0x3001, 4, .nat, 1, .ro, .v, 0x0, 0, 4, regKey 0x3001 1⟩,
  ⟨0x3001, 5, .nat, 1, .ro, .v, 0x0, 0, 255, regKey 0x3001 1⟩,
  ⟨0x3001, 6, .blob, 0, .ro, .v, 0x0, 0, 0, regKey 0x3001 1⟩,
  ⟨0x3001, 7, .nat, 1, .ro, .v, 0x0, 0, 1, regKey 0x3001 1⟩,
  ⟨0x3001, 8, .nat, 4, .ro, .w, 0x0, 0, 4294967295, regKey 0x3001 1⟩,
  ⟨0x3001, 9, .nat, 4, .ro, .v, 0x0, 0, 4294967295, regKey 0x3001 1⟩,
  ⟨0x3002, 0, .nat, 1, .ro, .c, 0xE, 0, 255, 0⟩,
  ⟨0x3002, 1, .nat, 2, .rwj, .k, 0x40, 0, 64, 0⟩,
  ⟨0x3002, 2, .nat, 2, .rwj, .k, 0x40, 0, 64, 0⟩,
  ⟨0x3002, 3, .nat, 2, .rwj, .k, 0x40, 0, 64, 0⟩,
  ⟨0x3002, 4, .nat, 2, .rwj, .k, 0x40, 0, 64, 0⟩,
  ⟨0x3002, 5, .nat, 2, .rwj, .k, 0x20, 0, 32, 0⟩,
  ⟨0x3002, 6, .nat, 2, .rwj, .k, 0x20, 0, 32, 0⟩,
  ⟨0x3002, 7, .nat, 2, .rwj, .k, 0x10, 0, 16, 0⟩]

/-- Entries from index 0x3002 on. -/
def odTable3 : List OdEntry := [
  ⟨0x3002, 8, .nat, 2, .rwj, .k, 0x100, 0, 256, 0⟩,
  ⟨0x3002, 9, .nat, 2, .rwj, .k, 0x100, 0, 256, 0⟩,
  ⟨0x3002, 10, .nat, 2, .rwj, .k, 0x400, 0, 1024, 0⟩,
  ⟨0x3002, 11, .nat, 2, .rwj, .k, 0x400, 0, 1024, 0⟩,
  ⟨0x3002, 12, .nat, 2, .rwj, .k, 0x100, 0, 256, 0⟩,
  ⟨0x3002, 13, .nat, 2, .rwj, .k, 0x100, 0, 256, 0⟩,
  ⟨0x3002, 14, .nat, 2, .rwj, .k, 0x10, 0, 16, 0⟩,
  ⟨0x3003, 0, .nat, 1, .ro, .c, 0x7, 0, 255, 0⟩,
  ⟨0x3003, 1, .nat, 8, .ro, .w, 0x0, 0, 18446744073709551615, regKey 0x3001 1⟩,
  ⟨0x3003, 2, .nat, 8, .ro, .w, 0x0, 0, 18446744073709551615, regKey 0x3001 1⟩,
  ⟨0x3003, 3, .nat, 4, .ro, .w, 0x0, 0, 4294967295, regKey 0x3001 1⟩,
  ⟨0x3003, 4, .nat, 4, .ro, .v, 0x0, 0, 4294967295, regKey 0x3001 1⟩,
  ⟨0x3003, 5, .nat, 4, .ro, .w, 0x0, 0, 4294967295, regKey 0x3001 1⟩,
  ⟨0x3003, 6, .nat, 4, .ro, .v, 0x0, 0, 4294967295, regKey 0x3001 1⟩,
  ⟨0x3003, 7, .blob, 0, .ro, .w, 0x0, 0, 0, regKey 0x3001 1⟩,
  ⟨0x3100, 0, .nat, 1, .ro, .c, 0x7, 0, 255, 0⟩,
  ⟨0x3100, 1, .nat, 1, .ro, .v, 0x0, 0, 255, 0⟩,
  ⟨0x3100, 2, .nat, 1, .ro, .v, 0xFF, 0, 255, 0⟩,
  ⟨0x3100, 3, .nat, 2, .ro, .v, 0x0, 0, 65535, 0⟩,
  ⟨0x3100, 4, .nat, 4, .ro, .v, 0x0, 0, 4294967295, 0⟩,
  ⟨0x3100, 5, .nat, 8, .ro, .v, 0x0, 0, 18446744073709551615, 0⟩,
  ⟨0x3100, 6, .nat, 1, .ro, .v, 0x0, 0, 2, 0⟩,
  ⟨0x3100, 7, .nat, 4, .ro, .v, 0x0, 0, 4294967295, 0⟩,
  ⟨0x3101, 0, .nat, 1, .ro, .c, 0x6, 0, 255, 0⟩,
  ⟨0x3101, 1, .nat, 4, .ro, .v, 0x0, 0, 4294967295, 0⟩,
  ⟨0x3101, 2, .nat, 2, .ro, .v, 0x0, 0, 65535, 0⟩,
  ⟨0x3101, 3, .nat, 4, .ro, .v, 0x0, 0, 4294967295, 0⟩,
  ⟨0x3101, 4, .nat, 4, .ro, .w, 0x0, 0, 4294967295, 0⟩,
  ⟨0x3101, 5, .nat, 4, .ro, .v, 0x0, 0, 4294967295, 0⟩,
  ⟨0x3101, 6, .nat, 2, .ro, .v, 0x0, 0, 65535, 0⟩,
  ⟨0x3102, 0, .nat, 1, .ro, .c, 0x5, 0, 255, 0⟩,
  ⟨0x3102, 1, .nat, 1, .rw, .v, 0x0, 0, 31, 0⟩,
  ⟨0x3102, 2, .nat, 2, .ro, .v, 0x0, 0, 65535, regKey 0x3102 1⟩,
  ⟨0x3102, 3, .nat, 1, .ro, .v, 0x0, 0, 255, regKey 0x3102 1⟩,
  ⟨0x3102, 4, .nat, 2, .ro, .v, 0x0, 0, 65535, regKey 0x3102 1⟩,
  ⟨0x3102, 5, .nat, 2, .ro, .v, 0x0, 0, 65535, regKey 0x3102 1⟩,
  ⟨0x3103, 0, .nat, 1, .ro, .c, 0x4, 0, 255, 0⟩,
  ⟨0x3103, 1, .nat, 2, .ro, .w, 0x0, 0, 65535, 0⟩,
  ⟨0x3103, 2, .nat, 2, .ro, .w, 0xFFFF, 0, 65535, 0⟩,
  ⟨0x3103, 3, .nat, 1, .ro, .w, 0xFF, 0, 255, 0⟩]

/-- Entries from index 0x3103 on. -/
def odTable4 : List OdEntry := [
  ⟨0x3103, 4, .nat, 2, .ro, .w, 0xFFFF, 0, 65535, 0⟩,
  ⟨0x3200, 0, .nat, 1, .ro, .c, 0x6, 0, 255, 0⟩,
  ⟨0x3200, 1, .nat, 2, .rwj, .w, 0xFFFF, 0, 65535, 0⟩,
  ⟨0x3200, 2, .nat, 2, .ro, .v, 0xFFFF, 0, 65535, 0⟩,
  ⟨0x3200, 3, .nat, 2, .ro, .v, 0xFFFF, 0, 65535, 0⟩,
  ⟨0x3200, 4, .blob, 0, .rwj, .w, 0x0, 0, 0, 0⟩,
  ⟨0x3200, 5, .blob, 0, .ro, .v, 0x0, 0, 0, 0⟩,
  ⟨0x3200, 6, .nat, 1, .ro, .v, 0x0, 0, 1, 0⟩,
  ⟨0x3201, 0, .nat, 1, .ro, .c, 0x5, 0, 255, 0⟩,
  ⟨0x3201, 1, .blob, 0, .rwj, .v, 0x0, 0, 0, 0⟩,
  ⟨0x3201, 2, .nat, 4, .ro, .v, 0x0, 0, 4294967295, 0⟩,
  ⟨0x3201, 3, .nat, 2, .ro, .v, 0xFFFF, 0, 65535, 0⟩,
  ⟨0x3201, 4, .nat, 4, .ro, .v, 0x0, 0, 4294967295, 0⟩,
  ⟨0x3201, 5, .nat, 2, .ro, .v, 0xFFFF, 0, 65535, 0⟩,
  ⟨0x3202, 0, .nat, 1, .ro, .c, 0x2, 0, 255, 0⟩,
  ⟨0x3202, 1, .blob, 0, .ro, .v, 0x0, 0, 0, 0⟩,
  ⟨0x3202, 2, .nat, 2, .ro, .v, 0x0, 0, 65535, 0⟩,
  ⟨0x3204, 0, .nat, 1, .ro, .c, 0x3, 0, 255, 0⟩,
  ⟨0x3204, 1, .nat, 2, .rw, .k, 0x64, 10, 10000, 0⟩,
  ⟨0x3204, 2, .nat, 4, .ro, .v, 0x0, 0, 4294967295, 0⟩,
  ⟨0x3204, 3, .nat, 4, .ro, .v, 0x0, 0, 4294967295, 0⟩,
  ⟨0x4000, 0, .nat, 1, .ro, .c, 0xB, 0, 255, 0⟩,
  ⟨0x4000, 1, .nat, 1, .rw, .k, 0x2, 0, 2, 0⟩,
  ⟨0x4000, 2, .nat, 1, .ro, .v, 0x2, 0, 2, 0⟩,
  ⟨0x4000, 3, .int, 8, .ro, .v, 0x0, -9223372036854775808, 9223372036854775807, 0⟩,
  ⟨0x4000, 4, .nat, 8, .ro, .v, 0x0, 0, 18446744073709551615, 0⟩,
  ⟨0x4000, 5, .nat, 1, .rw, .k, 0x14, 1, 25, 0⟩,
  ⟨0x4000, 6, .nat, 8, .rwj, .k, 0x0, 0, 18446744073709551615, 0⟩,
  ⟨0x4000, 7, .nat, 2, .rwj, .k, 0x64, 1, 10000, 0⟩,
  ⟨0x4000, 8, .nat, 8, .wo, .v, 0x0, 0, 18446744073709551615, 0⟩,
  ⟨0x4000, 9, .nat, 4, .ro, .v, 0x0, 0, 4294967295, 0⟩,
  ⟨0x4000, 10, .nat, 4, .ro, .v, 0x0, 0, 4294967295, 0⟩,
  ⟨0x4000, 11, .nat, 4, .ro, .w, 0x0, 0, 4294967295, 0⟩,
  ⟨0x4001, 0, .nat, 1, .ro, .c, 0xB, 0, 255, 0⟩,
  ⟨0x4001, 1, .nat, 1, .rwj, .k, 0x0, 0, 2, 0⟩,
  ⟨0x4001, 2, .nat, 1, .rwj, .k, 0x0, 0, 31, 0⟩,
  ⟨0x4001, 3, .nat, 4, .rwj, .k, 0x0, 0, 4294967295, 0⟩,
  ⟨0x4001, 4, .nat, 1, .ro, .v, 0x0, 0, 3, 0⟩,
  ⟨0x4001, 5, .int, 8, .ro, .v, 0x0, -9223372036854775808, 9223372036854775807, 0⟩,
  ⟨0x4001, 6, .int, 4, .ro, .v, 0x0, -2147483648, 2147483647, 0⟩]

/-- Entries from index 0x4001 on. -/
def odTable5 : List OdEntry := [
  ⟨0x4001, 7, .int, 4, .rw, .k, 0x0, -250000, 250000, 0⟩,
  ⟨0x4001, 8, .int, 4, .rwj, .k, 0xFFFFFFF9, -10, -3, 0⟩,
  ⟨0x4001, 9, .int, 4, .rwj, .k, 0xFFFFFFFD, -7, 0, 0⟩,
  ⟨0x4001, 10, .nat, 1, .rwj, .k, 0x4, 2, 16, 0⟩,
  ⟨0x4001, 11, .blob, 0, .ro, .v, 0x0, 0, 0, 0⟩,
  ⟨0x4002, 0, .nat, 1, .ro, .c, 0xB, 0, 255, 0⟩,
  ⟨0x4002, 1, .nat, 1, .rwj, .k, 0x0, 0, 2, 0⟩,
  ⟨0x4002, 2, .nat, 1, .rwj, .k, 0x0, 0, 31, 0⟩,
  ⟨0x4002, 3, .nat, 4, .rwj, .k, 0x0, 0, 4294967295, 0⟩,
  ⟨0x4002, 4, .nat, 1, .ro, .v, 0x0, 0, 3, 0⟩,
  ⟨0x4002, 5, .int, 8, .ro, .v, 0x0, -9223372036854775808, 9223372036854775807, 0⟩,
  ⟨0x4002, 6, .int, 4, .ro, .v, 0x0, -2147483648, 2147483647, 0⟩,
  ⟨0x4002, 7, .int, 4, .rw, .k, 0x0, -250000, 250000, 0⟩,
  ⟨0x4002, 8, .int, 4, .rwj, .k, 0xFFFFFFF9, -10, -3, 0⟩,
  ⟨0x4002, 9, .int, 4, .rwj, .k, 0xFFFFFFFD, -7, 0, 0⟩,
  ⟨0x4002, 10, .nat, 1, .rwj, .k, 0x4, 2, 16, 0⟩,
  ⟨0x4002, 11, .blob, 0, .ro, .v, 0x0, 0, 0, 0⟩,
  ⟨0x4003, 0, .nat, 1, .ro, .c, 0x3, 0, 255, 0⟩,
  ⟨0x4003, 1, .blob, 0, .ro, .v, 0x0, 0, 0, 0⟩,
  ⟨0x4003, 2, .nat, 4, .ro, .w, 0x0, 0, 4294967295, 0⟩,
  ⟨0x4003, 3, .nat, 1, .ro, .v, 0x0, 0, 255, 0⟩,
  ⟨0x4004, 0, .nat, 1, .ro, .c, 0x4, 0, 255, 0⟩,
  ⟨0x4004, 1, .nat, 1, .rw, .v, 0x0, 0, 31, 0⟩,
  ⟨0x4004, 2, .nat, 8, .ro, .v, 0x0, 0, 18446744073709551615, regKey 0x4004 1⟩,
  ⟨0x4004, 3, .int, 4, .rwj, .k, 0x0, -10000, 10000, regKey 0x4004 1⟩,
  ⟨0x4004, 4, .nat, 4, .ro, .v, 0x0, 0, 4294967295, regKey 0x4004 1⟩,
  ⟨0x5001, 0, .nat, 1, .ro, .c, 0x8, 0, 255, 0⟩,
  ⟨0x5001, 1, .nat, 1, .rw, .v, 0x0, 0, 27, 0⟩,
  ⟨0x5001, 2, .nat, 4, .ro, .v, 0x0, 0, 4294967295, regKey 0x5001 1⟩,
  ⟨0x5001, 3, .nat, 4, .rw, .k, 0x400, 0, 1000000, regKey 0x5001 1⟩,
  ⟨0x5001, 4, .nat, 4, .rw, .k, 0x3E8, 0, 86400000, regKey 0x5001 1⟩,
  ⟨0x5001, 5, .nat, 8, .ro, .w, 0x0, 0, 18446744073709551615, regKey 0x5001 1⟩,
  ⟨0x5001, 6, .nat, 8, .ro, .w, 0x0, 0, 18446744073709551615, regKey 0x5001 1⟩,
  ⟨0x5001, 7, .nat, 4, .ro, .w, 0x0, 0, 4294967295, regKey 0x5001 1⟩,
  ⟨0x5001, 8, .nat, 8, .ro, .w, 0xFFFFFFFFFFFFFFFF, 0, 18446744073709551615, regKey 0x5001 1⟩,
  ⟨0x5010, 0, .nat, 1, .ro, .c, 0x8, 0, 255, 0⟩,
  ⟨0x5010, 1, .nat, 1, .rw, .v, 0x0, 0, 1, 0⟩,
  ⟨0x5010, 2, .nat, 8, .rw, .v, 0x0, 0, 18446744073709551615, 0⟩,
  ⟨0x5010, 3, .nat, 8, .rw, .v, 0x0, 0, 18446744073709551615, 0⟩,
  ⟨0x5010, 4, .nat, 1, .rw, .v, 0x0, 0, 1, 0⟩]

/-- Entries from index 0x5010 on. -/
def odTable6 : List OdEntry := [
  ⟨0x5010, 5, .nat, 1, .wo, .v, 0x0, 0, 1, 0⟩,
  ⟨0x5010, 6, .nat, 1, .wo, .v, 0x0, 0, 1, 0⟩,
  ⟨0x5010, 7, .nat, 1, .ro, .v, 0x0, 0, 3, 0⟩,
  ⟨0x5010, 8, .blob, 0, .ro, .v, 0x0, 0, 0, 0⟩,
  ⟨0x6000, 0, .nat, 1, .ro, .c, 0x3, 0, 255, 0⟩,
  ⟨0x6000, 1, .nat, 1, .rw, .v, 0x0, 0, 63, 0⟩,
  ⟨0x6000, 2, .nat, 1, .rw, .v, 0x0, 0, 15, 0⟩,
  ⟨0x6000, 3, .nat, 4, .rw, .k, 0x3E8, 10, 1000000, 0⟩,
  ⟨0x6001, 0, .nat, 1, .ro, .c, 0xE, 0, 255, 0⟩,
  ⟨0x6001, 1, .nat, 1, .ro, .v, 0x0, 0, 2, regKey 0x6000 1⟩,
  ⟨0x6001, 2, .nat, 8, .rw, .v, 0x0, 0, 18446744073709551615, regKey 0x6000 1⟩,
  ⟨0x6001, 3, .nat, 4, .rw, .v, 0x0, 0, 4294967295, regKey 0x6000 1⟩,
  ⟨0x6001, 4, .nat, 1, .rw, .v, 0x0, 0, 3, regKey 0x6000 1⟩,
  ⟨0x6001, 5, .nat, 1, .rw, .v, 0x0, 0, 255, regKey 0x6000 1⟩,
  ⟨0x6001, 6, .nat, 1, .rw, .v, 0x0, 0, 1, regKey 0x6000 1⟩,
  ⟨0x6001, 7, .nat, 1, .wo, .v, 0x0, 0, 1, regKey 0x6000 1⟩,
  ⟨0x6001, 8, .nat, 1, .wo, .v, 0x0, 0, 1, regKey 0x6000 1⟩,
  ⟨0x6001, 9, .nat, 1, .ro, .v, 0x0, 0, 6, regKey 0x6000 1⟩,
  ⟨0x6001, 10, .nat, 8, .ro, .v, 0x0, 0, 18446744073709551615, regKey 0x6000 1⟩,
  ⟨0x6001, 11, .nat, 1, .ro, .v, 0x0, 0, 255, regKey 0x6000 1⟩,
  ⟨0x6001, 12, .nat, 8, .ro, .v, 0x0, 0, 18446744073709551615, regKey 0x6000 1⟩,
  ⟨0x6001, 13, .nat, 4, .ro, .v, 0x0, 0, 4294967295, regKey 0x6000 1⟩,
  ⟨0x6001, 14, .nat, 4, .ro, .v, 0x0, 0, 4294967295, regKey 0x6000 1⟩,
  ⟨0x6002, 0, .nat, 1, .ro, .c, 0x5, 0, 255, 0⟩,
  ⟨0x6002, 1, .nat, 1, .rw, .v, 0x0, 0, 1, regKey 0x6000 2⟩,
  ⟨0x6002, 2, .nat, 8, .rw, .v, 0x0, 0, 281474976710655, regKey 0x6000 2⟩,
  ⟨0x6002, 3, .nat, 2, .rw, .v, 0x0, 0, 4095, regKey 0x6000 2⟩,
  ⟨0x6002, 4, .nat, 4, .rw, .v, 0x0, 0, 4294967295, regKey 0x6000 2⟩,
  ⟨0x6002, 5, .nat, 4, .ro, .v, 0x0, 0, 4294967295, regKey 0x6000 2⟩,
  ⟨0x7000, 0, .nat, 1, .ro, .c, 0xB, 0, 255, 0⟩,
  ⟨0x7000, 1, .nat, 1, .ro, .v, 0x0, 0, 4, 0⟩,
  ⟨0x7000, 2, .nat, 4, .rwj, .v, 0x0, 0, 4294967295, 0⟩,
  ⟨0x7000, 3, .blob, 0, .rwj, .v, 0x0, 0, 0, 0⟩,
  ⟨0x7000, 4, .nat, 8, .rwj, .v, 0x0, 0, 18446744073709551615, 0⟩,
  ⟨0x7000, 5, .nat, 8, .rwj, .v, 0x0, 0, 281474976710655, 0⟩,
  ⟨0x7000, 6, .nat, 8, .rwj, .v, 0x0, 0, 18446744073709551615, 0⟩,
  ⟨0x7000, 7, .nat, 1, .wo, .v, 0x0, 0, 1, 0⟩,
  ⟨0x7000, 8, .nat, 1, .wo, .v, 0x0, 0, 1, 0⟩,
  ⟨0x7000, 9, .nat, 1, .wo, .v, 0x0, 0, 1, 0⟩,
  ⟨0x7000, 10, .nat, 2, .ro, .w, 0xFFFF, 0, 65535, 0⟩]

/-- Entries from index 0x7000 on. -/
def odTable7 : List OdEntry := [
  ⟨0x7000, 11, .nat, 2, .ro, .w, 0x0, 0, 65535, 0⟩,
  ⟨0x7001, 0, .nat, 1, .ro, .c, 0x4, 0, 255, 0⟩,
  ⟨0x7001, 1, .nat, 8, .wo, .v, 0x0, 128, 34359738368, 0⟩,
  ⟨0x7001, 2, .blob, 0, .wo, .v, 0x0, 0, 0, 0⟩,
  ⟨0x7001, 3, .nat, 8, .ro, .v, 0x0, 0, 18446744073709551615, 0⟩,
  ⟨0x7001, 4, .nat, 1, .wo, .v, 0x0, 0, 1, 0⟩,
  ⟨0x7010, 0, .nat, 1, .ro, .c, 0x3, 0, 255, 0⟩,
  ⟨0x7010, 1, .blob, 0, .rwj, .v, 0x0, 0, 0, 0⟩,
  ⟨0x7010, 2, .nat, 2, .ro, .v, 0xFFFF, 0, 65535, 0⟩,
  ⟨0x7010, 3, .nat, 2, .ro, .v, 0x0, 0, 65535, 0⟩,
  ⟨0x7030, 0, .nat, 1, .ro, .c, 0x7, 0, 255, 0⟩,
  ⟨0x7030, 1, .nat, 1, .ro, .v, 0x0, 0, 3, 0⟩,
  ⟨0x7030, 2, .nat, 2, .ro, .w, 0x0, 0, 65535, 0⟩,
  ⟨0x7030, 3, .nat, 2, .ro, .w, 0xFFFF, 0, 65535, 0⟩,
  ⟨0x7030, 4, .nat, 4, .ro, .w, 0xFFFFFFFF, 0, 4294967295, 0⟩,
  ⟨0x7030, 5, .blob, 0, .ro, .v, 0x0, 0, 0, 0⟩,
  ⟨0x7030, 6, .nat, 2, .ro, .v, 0xFFFF, 0, 65535, 0⟩,
  ⟨0x7030, 7, .nat, 1, .ro, .c, 0x1, 0, 255, 0⟩,
  ⟨0x7031, 0, .nat, 1, .ro, .c, 0x10, 0, 255, 0⟩,
  ⟨0x7031, 1, .nat, 8, .rwj, .w, 0xFFFFFFFFFFFFFFFF, 0, 18446744073709551615, 0⟩,
  ⟨0x7031, 2, .nat, 8, .rwj, .w, 0xFFFFFFFFFFFFFFFF, 0, 18446744073709551615, 0⟩,
  ⟨0x7031, 3, .nat, 8, .rwj, .w, 0xFFFFFFFFFFFFFFFF, 0, 18446744073709551615, 0⟩,
  ⟨0x7031, 4, .nat, 8, .rwj, .w, 0xFFFFFFFFFFFFFFFF, 0, 18446744073709551615, 0⟩,
  ⟨0x7031, 5, .nat, 8, .rwj, .w, 0xFFFFFFFFFFFFFFFF, 0, 18446744073709551615, 0⟩,
  ⟨0x7031, 6, .nat, 8, .rwj, .w, 0xFFFFFFFFFFFFFFFF, 0, 18446744073709551615, 0⟩,
  ⟨0x7031, 7, .nat, 8, .rwj, .w, 0xFFFFFFFFFFFFFFFF, 0, 18446744073709551615, 0⟩,
  ⟨0x7031, 8, .nat, 8, .rwj, .w, 0xFFFFFFFFFFFFFFFF, 0, 18446744073709551615, 0⟩,
  ⟨0x7031, 9, .nat, 8, .rwj, .w, 0xFFFFFFFFFFFFFFFF, 0, 18446744073709551615, 0⟩,
  ⟨0x7031, 10, .nat, 8, .rwj, .w, 0xFFFFFFFFFFFFFFFF, 0, 18446744073709551615, 0⟩,
  ⟨0x7031, 11, .nat, 8, .rwj, .w, 0xFFFFFFFFFFFFFFFF, 0, 18446744073709551615, 0⟩,
  ⟨0x7031, 12, .nat, 8, .rwj, .w, 0xFFFFFFFFFFFFFFFF, 0, 18446744073709551615, 0⟩,
  ⟨0x7031, 13, .nat, 8, .rwj, .w, 0xFFFFFFFFFFFFFFFF, 0, 18446744073709551615, 0⟩,
  ⟨0x7031, 14, .nat, 8, .rwj, .w, 0xFFFFFFFFFFFFFFFF, 0, 18446744073709551615, 0⟩,
  ⟨0x7031, 15, .nat, 8, .rwj, .w, 0xFFFFFFFFFFFFFFFF, 0, 18446744073709551615, 0⟩,
  ⟨0x7031, 16, .nat, 8, .rwj, .w, 0xFFFFFFFFFFFFFFFF, 0, 18446744073709551615, 0⟩,
  ⟨0x7050, 0, .nat, 1, .ro, .c, 0x9, 0, 255, 0⟩,
  ⟨0x7050, 1, .nat, 1, .ro, .w, 0x0, 0, 3, 0⟩,
  ⟨0x7050, 2, .nat, 1, .ro, .w, 0x0, 0, 3, 0⟩,
  ⟨0x7050, 3, .nat, 1, .wo, .v, 0x0, 0, 1, 0⟩,
  ⟨0x7050, 4, .nat, 1, .wo, .v, 0x0, 0, 1, 0⟩]

/-- Entries from index 0x7050 on. -/
def odTable8 : List OdEntry := [
  ⟨0x7050, 5, .nat, 1, .wo, .v, 0x0, 0, 1, 0⟩,
  ⟨0x7050, 6, .blob, 0, .ro, .w, 0x0, 0, 0, 0⟩,
  ⟨0x7050, 7, .blob, 0, .ro, .w, 0x0, 0, 0, 0⟩,
  ⟨0x7050, 8, .nat, 2, .ro, .w, 0xFFFF, 0, 65535, 0⟩,
  ⟨0x7050, 9, .nat, 2, .ro, .k, 0xFFFF, 0, 65535, 0⟩,
  ⟨0x7070, 0, .nat, 1, .ro, .c, 0xC, 0, 255, 0⟩,
  ⟨0x7070, 1, .nat, 8, .ro, .v, 0x0, 0, 18446744073709551615, 0⟩,
  ⟨0x7070, 2, .nat, 1, .ro, .v, 0x0, 0, 255, 0⟩,
  ⟨0x7070, 3, .nat, 8, .ro, .v, 0x0, 0, 18446744073709551615, 0⟩,
  ⟨0x7070, 4, .nat, 8, .ro, .v, 0x0, 0, 18446744073709551615, 0⟩,
  ⟨0x7070, 5, .nat, 8, .wo, .v, 0x0, 0, 281474976710655, 0⟩,
  ⟨0x7070, 6, .nat, 1, .rwj, .k, 0x3, 1, 15, 0⟩,
  ⟨0x7070, 7, .nat, 2, .rwj, .k, 0x80, 32, 4096, 0⟩,
  ⟨0x7070, 8, .nat, 4, .rwj, .k, 0x3E8, 10, 60000, 0⟩,
  ⟨0x7070, 9, .nat, 2, .ro, .v, 0xFFFF, 0, 65535, 0⟩,
  ⟨0x7070, 10, .nat, 2, .ro, .v, 0x0, 0, 65535, 0⟩,
  ⟨0x7070, 11, .nat, 2, .wo, .v, 0x0, 0, 1023, 0⟩,
  ⟨0x7070, 12, .nat, 4, .ro, .v, 0x0, 0, 4294967295, 0⟩,
  ⟨0x7071, 0, .nat, 1, .ro, .c, 0x8, 0, 255, 0⟩,
  ⟨0x7071, 1, .nat, 1, .rw, .v, 0x0, 0, 31, 0⟩,
  ⟨0x7071, 2, .nat, 1, .rw, .v, 0x0, 0, 7, 0⟩,
  ⟨0x7071, 3, .nat, 4, .rw, .v, 0x0, 0, 4294967295, 0⟩,
  ⟨0x7071, 4, .nat, 2, .rw, .v, 0x0, 0, 8191, 0⟩,
  ⟨0x7071, 5, .nat, 8, .rw, .v, 0x0, 0, 281474976710655, 0⟩,
  ⟨0x7071, 6, .nat, 1, .wo, .v, 0x0, 0, 1, 0⟩,
  ⟨0x7071, 7, .nat, 1, .ro, .v, 0x0, 0, 4, 0⟩,
  ⟨0x7071, 8, .nat, 8, .rwj, .v, 0xFFFFFFFFFFFFFFFF, 0, 18446744073709551615, 0⟩,
  ⟨0x7072, 0, .nat, 1, .ro, .c, 0x3, 0, 255, 0⟩,
  ⟨0x7072, 1, .blob, 0, .rw, .v, 0x0, 0, 0, 0⟩,
  ⟨0x7072, 2, .blob, 0, .rw, .v, 0x0, 0, 0, 0⟩,
  ⟨0x7072, 3, .nat, 1, .wo, .v, 0x0, 0, 1, 0⟩,
  ⟨0x8000, 0, .nat, 1, .ro, .c, 0x9, 0, 255, 0⟩,
  ⟨0x8000, 1, .nat, 2, .ro, .w, 0x0, 0, 65535, 0⟩,
  ⟨0x8000, 2, .nat, 4, .ro, .w, 0x0, 0, 4294967295, 0⟩,
  ⟨0x8000, 3, .nat, 4, .rw, .v, 0x0, 0, 4294967295, 0⟩,
  ⟨0x8000, 4, .blob, 0, .ro, .w, 0x0, 0, 0, 0⟩,
  ⟨0x8000, 5, .nat, 4, .ro, .w, 0x0, 0, 4294967295, 0⟩,
  ⟨0x8000, 6, .nat, 2, .rw, .k, 0x0, 0, 510, 0⟩,
  ⟨0x8000, 7, .nat, 4, .ro, .w, 0x0, 0, 4294967295, 0⟩,
  ⟨0x8000, 8, .nat, 2, .ro, .w, 0x0, 0, 65535, 0⟩]

/-- Entries from index 0x8000 on. -/
def odTable9 : List OdEntry := [
  ⟨0x8000, 9, .nat, 1, .wo, .v, 0x0, 0, 1, 0⟩,
  ⟨0x9000, 0, .nat, 1, .ro, .c, 0x7, 0, 255, 0⟩,
  ⟨0x9000, 1, .nat, 1, .ro, .v, 0x0, 0, 1, 0⟩,
  ⟨0x9000, 2, .nat, 1, .rw, .k, 0x0, 0, 1, 0⟩,
  ⟨0x9000, 3, .blob, 0, .ro, .v, 0x0, 0, 0, 0⟩,
  ⟨0x9000, 4, .blob, 0, .wo, .v, 0x0, 0, 0, 0⟩,
  ⟨0x9000, 5, .nat, 1, .ro, .v, 0x0, 0, 3, 0⟩,
  ⟨0x9000, 6, .nat, 1, .wo, .v, 0x0, 0, 1, 0⟩,
  ⟨0x9000, 7, .blob, 0, .ro, .k, 0x0, 0, 0, 0⟩,
  ⟨0x9001, 0, .nat, 1, .ro, .c, 0x6, 0, 255, 0⟩,
  ⟨0x9001, 1, .blob, 0, .ro, .w, 0x0, 0, 0, 0⟩,
  ⟨0x9001, 2, .nat, 2, .rw, .v, 0x0, 0, 1023, 0⟩,
  ⟨0x9001, 3, .blob, 0, .ro, .w, 0x0, 0, 0, 0⟩,
  ⟨0x9001, 4, .blob, 0, .wo, .v, 0x0, 0, 0, 0⟩,
  ⟨0x9001, 5, .blob, 0, .ro, .v, 0x0, 0, 0, 0⟩,
  ⟨0x9001, 6, .blob, 0, .ro, .k, 0x0, 0, 0, 0⟩,
  ⟨0x9002, 0, .nat, 1, .ro, .c, 0x5, 0, 255, 0⟩,
  ⟨0x9002, 1, .blob, 0, .ro, .v, 0x0, 0, 0, 0⟩,
  ⟨0x9002, 2, .blob, 0, .wo, .v, 0x0, 0, 0, 0⟩,
  ⟨0x9002, 3, .nat, 1, .ro, .w, 0x0, 0, 1, 0⟩,
  ⟨0x9002, 4, .nat, 4, .ro, .w, 0x0, 0, 4294967295, 0⟩,
  ⟨0x9002, 5, .nat, 1, .wo, .v, 0x0, 0, 1, 0⟩,
  ⟨0x9003, 0, .nat, 1, .ro, .c, 0x2, 0, 255, 0⟩,
  ⟨0x9003, 1, .blob, 0, .wo, .v, 0x0, 0, 0, 0⟩,
  ⟨0x9003, 2, .nat, 1, .ro, .k, 0x0, 0, 255, 0⟩,
  ⟨0xA000, 0, .nat, 1, .ro, .c, 0x8, 0, 255, 0⟩,
  ⟨0xA000, 1, .nat, 1, .wo, .v, 0x0, 0, 1, 0⟩,
  ⟨0xA000, 2, .nat, 1, .wo, .v, 0x0, 0, 1, 0⟩,
  ⟨0xA000, 3, .nat, 1, .wo, .v, 0x0, 0, 1, 0⟩,
  ⟨0xA000, 4, .nat, 1, .ro, .v, 0x2, 0, 2, 0⟩,
  ⟨0xA000, 5, .nat, 2, .ro, .v, 0x0, 0, 65535, 0⟩,
  ⟨0xA000, 6, .nat, 4, .rw, .k, 0x3E8, 10, 60000, 0⟩,
  ⟨0xA000, 7, .nat, 2, .ro, .v, 0x0, 0, 65535, 0⟩,
  ⟨0xA000, 8, .nat, 4, .ro, .v, 0xFFFFFFFF, 0, 4294967295, 0⟩]

/-- Every entry of the dictionary. -/
def odTable : List OdEntry :=
  odTable0 ++ odTable1 ++ odTable2 ++ odTable3 ++ odTable4 ++ odTable5 ++ odTable6 ++ odTable7 ++ odTable8 ++ odTable9

/-- The entry at an index and subindex. -/
def odFind (index sub : Nat) : Option OdEntry :=
  odTable.find? fun e => e.index == index && e.sub == sub

/-- The entry a register key belongs to. -/
def odOfKey (k : Nat) : Option OdEntry := odFind (k / 65536) (k / 256 % 256)

/-- The value of a register nothing has written. -/
def regDefault (k : Nat) : Nat :=
  match odOfKey k with
  | some e => e.dflt
  | none => 0

/-- A register's persistence class; a key outside the dictionary is volatile. -/
def regPer (k : Nat) : Per :=
  match odOfKey k with
  | some e => e.per
  | none => .v

namespace R

def partNumber : Nat := regKey 0x1000 1
def stepping : Nat := regKey 0x1000 2
def serial : Nat := regKey 0x1000 3
def firmwareVersion : Nat := regKey 0x1000 4
def odVersion : Nat := regKey 0x1000 5
def scheduleFormat : Nat := regKey 0x1000 6
def chainPosition : Nat := regKey 0x1010 1
def chainLength : Nat := regKey 0x1010 2
def portAUp : Nat := regKey 0x1010 3
def portBUp : Nat := regKey 0x1010 4
def framesDiscarded : Nat := regKey 0x1010 5
def duplicatesAnswered : Nat := regKey 0x1010 6
def positionChanges : Nat := regKey 0x1010 7
def bladeAMv : Nat := regKey 0x2100 1
def bladeBMv : Nat := regKey 0x2100 2
def inputCurrentMa : Nat := regKey 0x2100 3
def inputPowerMw : Nat := regKey 0x2100 4
def bladePresent : Nat := regKey 0x2100 5
def slewLimitWPerMs : Nat := regKey 0x2101 1
def ballastEnable : Nat := regKey 0x2101 2
def holdLevelW : Nat := regKey 0x2101 3
def jobHoldW : Nat := regKey 0x2101 4
def ballastPowerW : Nat := regKey 0x2101 5
def governorState : Nat := regKey 0x2101 6
def exemptFalls : Nat := regKey 0x2101 7
def hearthMaxC : Nat := regKey 0x2102 1
def stackMaxC : Nat := regKey 0x2102 2
def opticsMaxC : Nat := regKey 0x2102 3
def mgmtC : Nat := regKey 0x2102 4
def lastShutdownCause : Nat := regKey 0x2102 5
def alertClear : Nat := regKey 0x2103 1
def uartConsoleEnable : Nat := regKey 0x2103 2
def uartRxDiscards : Nat := regKey 0x2103 3
def gradeId : Nat := regKey 0x2200 1
def gradeRecordVersion : Nat := regKey 0x2200 2
def goodCoresMin : Nat := regKey 0x2200 3
def sparesTotal : Nat := regKey 0x2200 4
def gradeState : Nat := regKey 0x2200 5
def rowRepairs : Nat := regKey 0x2200 6
def regionSelect : Nat := regKey 0x2201 1
def coreMap (i : Nat) : Nat := regKey 0x2201 2 i
def goodMask (i : Nat) : Nat := regKey 0x2201 3 i
def failedMask (i : Nat) : Nat := regKey 0x2201 4 i
def spareMask (i : Nat) : Nat := regKey 0x2201 5 i
def sparesLeft (i : Nat) : Nat := regKey 0x2201 6 i
def bridgeSkewMax : Nat := regKey 0x2202 1
def sparesUsedJob : Nat := regKey 0x2202 2
def heldBeatsJob : Nat := regKey 0x2300 1
def heldBeatsStep : Nat := regKey 0x2300 2
def stallEventsJob : Nat := regKey 0x2300 3
def waitTimeoutBeats : Nat := regKey 0x2300 4
def lastCoreFault : Nat := regKey 0x2300 5
def lastFaultCore : Nat := regKey 0x2300 6
def clockMode : Nat := regKey 0x2400 1
def freqChangeMode : Nat := regKey 0x2400 2
def frameBeats : Nat := regKey 0x2400 3
def stretchMarginPpm : Nat := regKey 0x2400 4
def freqChanges : Nat := regKey 0x2400 5
def ceilingWaitMs : Nat := regKey 0x2400 6
def frameOverruns : Nat := regKey 0x2400 7
def clockRegionSelect : Nat := regKey 0x2401 1
def targetStep (i : Nat) : Nat := regKey 0x2401 2 i
def freqKhz (i : Nat) : Nat := regKey 0x2401 3 i
def ceilingKhz (i : Nat) : Nat := regKey 0x2401 4 i
def ageingGuardKhz (i : Nat) : Nat := regKey 0x2401 5 i
def stretchedBeatsJob (i : Nat) : Nat := regKey 0x2401 6 i
def frameHoldBeatsJob (i : Nat) : Nat := regKey 0x2401 7 i
def droopEvents (i : Nat) : Nat := regKey 0x2401 8 i
def powerState : Nat := regKey 0x2402 1
def regionLight : Nat := regKey 0x2402 2
def stackActive : Nat := regKey 0x2402 3
def groupEnable : Nat := regKey 0x2402 4
def sleepRequest : Nat := regKey 0x2402 5
def clauseSelect : Nat := regKey 0x2402 6
def clausePeakW (i : Nat) : Nat := regKey 0x2402 7 i
def coldReset : Nat := regKey 0x2500 1
def warmReset : Nat := regKey 0x2500 2
def jobReset : Nat := regKey 0x2500 3
def resetCause : Nat := regKey 0x2500 4
def coldResets : Nat := regKey 0x2500 5
def warmResets : Nat := regKey 0x2500 6
def bootTimeMs : Nat := regKey 0x2500 7
def laneFailThreshold : Nat := regKey 0x3000 1
def trainBackoffMs : Nat := regKey 0x3000 2
def portEnable : Nat := regKey 0x3000 3
def portReset : Nat := regKey 0x3000 4
def linkProtocolVersion : Nat := regKey 0x3000 5
def linkPortSelect : Nat := regKey 0x3001 1
def linkState (i : Nat) : Nat := regKey 0x3001 2 i
def portMode (i : Nat) : Nat := regKey 0x3001 3 i
def width (i : Nat) : Nat := regKey 0x3001 4 i
def lanesGood (i : Nat) : Nat := regKey 0x3001 5 i
def peerIdentity (i : Nat) : Nat := regKey 0x3001 6 i
def heldReason (i : Nat) : Nat := regKey 0x3001 7 i
def trainAttempts (i : Nat) : Nat := regKey 0x3001 8 i
def retrainsJob (i : Nat) : Nat := regKey 0x3001 9 i
def hdrCreditsReqLo : Nat := regKey 0x3002 1
def hdrCreditsReqHi : Nat := regKey 0x3002 2
def hdrCreditsRspLo : Nat := regKey 0x3002 3
def hdrCreditsRspHi : Nat := regKey 0x3002 4
def hdrCreditsSvc : Nat := regKey 0x3002 5
def hdrCreditsMgmt : Nat := regKey 0x3002 6
def hdrCreditsTime : Nat := regKey 0x3002 7
def dataCreditsReqLo : Nat := regKey 0x3002 8
def dataCreditsReqHi : Nat := regKey 0x3002 9
def dataCreditsRspLo : Nat := regKey 0x3002 10
def dataCreditsRspHi : Nat := regKey 0x3002 11
def dataCreditsSvc : Nat := regKey 0x3002 12
def dataCreditsMgmt : Nat := regKey 0x3002 13
def dataCreditsTime : Nat := regKey 0x3002 14
def fecCorrectedSymbols (i : Nat) : Nat := regKey 0x3003 1 i
def fecUncorrectable (i : Nat) : Nat := regKey 0x3003 2 i
def crcErrors (i : Nat) : Nat := regKey 0x3003 3 i
def goBacks (i : Nat) : Nat := regKey 0x3003 4 i
def replayTimeouts (i : Nat) : Nat := regKey 0x3003 5 i
def duplicatesDropped (i : Nat) : Nat := regKey 0x3003 6 i
def laneSymbolErrors (i : Nat) : Nat := regKey 0x3003 7 i
def activeHalf : Nat := regKey 0x3100 1
def activeClause : Nat := regKey 0x3100 2
def sequencePosition : Nat := regKey 0x3100 3
def frameInClause : Nat := regKey 0x3100 4
def fabricStepCounter : Nat := regKey 0x3100 5
def preloadState : Nat := regKey 0x3100 6
def variantPorts : Nat := regKey 0x3100 7
def pendingUses : Nat := regKey 0x3101 1
def pendingWaitMax : Nat := regKey 0x3101 2
def slackReplays : Nat := regKey 0x3101 3
def deadlineMisses : Nat := regKey 0x3101 4
def flightDriftEvents : Nat := regKey 0x3101 5
def landingPeak : Nat := regKey 0x3101 6
def fabricPortSelect : Nat := regKey 0x3102 1
def readyOffsetMeasured (i : Nat) : Nat := regKey 0x3102 2 i
def phaseMeasured (i : Nat) : Nat := regKey 0x3102 3 i
def readyOffsetAssumed (i : Nat) : Nat := regKey 0x3102 4 i
def landingPeakPort (i : Nat) : Nat := regKey 0x3102 5 i
def schedRefusalCode : Nat := regKey 0x3103 1
def refusalClause : Nat := regKey 0x3103 2
def refusalPort : Nat := regKey 0x3103 3
def refusalSlot : Nat := regKey 0x3103 4
def chipNumber : Nat := regKey 0x3200 1
def coordinates : Nat := regKey 0x3200 2
def twinChip : Nat := regKey 0x3200 3
def manifest : Nat := regKey 0x3200 4
def fabricId : Nat := regKey 0x3200 5
def manifestState : Nat := regKey 0x3200 6
def routeTable : Nat := regKey 0x3201 1
def routeDrops : Nat := regKey 0x3201 2
def routeDropLast : Nat := regKey 0x3201 3
def remoteDenied : Nat := regKey 0x3201 4
def remoteDeniedLast : Nat := regKey 0x3201 5
def exportMap : Nat := regKey 0x3202 1
def replySlotsUsed : Nat := regKey 0x3202 2
def discoveryIntervalMs : Nat := regKey 0x3204 1
def floodsForwarded : Nat := regKey 0x3204 2
def mgmtDiscards : Nat := regKey 0x3204 3
def timeSelect : Nat := regKey 0x4000 1
def frameReference : Nat := regKey 0x4000 2
def slewRemaining : Nat := regKey 0x4000 3
def frameNumber : Nat := regKey 0x4000 4
def offsetLimitNs : Nat := regKey 0x4000 5
def frameEpochNs : Nat := regKey 0x4000 6
def holdoverLimitMs : Nat := regKey 0x4000 7
def ntSet : Nat := regKey 0x4000 8
def wrapCount : Nat := regKey 0x4000 9
def nt32Now : Nat := regKey 0x4000 10
def ptpDiscards : Nat := regKey 0x4000 11
def role (d : Nat) : Nat := regKey (0x4001 + d) 1
def slavePort (d : Nat) : Nat := regKey (0x4001 + d) 2
def masterPorts (d : Nat) : Nat := regKey (0x4001 + d) 3
def domainState (d : Nat) : Nat := regKey (0x4001 + d) 4
def domainOffset (d : Nat) : Nat := regKey (0x4001 + d) 5
def freqPpb (d : Nat) : Nat := regKey (0x4001 + d) 6
def freqTrimPpb (d : Nat) : Nat := regKey (0x4001 + d) 7
def logSyncInterval (d : Nat) : Nat := regKey (0x4001 + d) 8
def logAnnounceInterval (d : Nat) : Nat := regKey (0x4001 + d) 9
def syncTimeout (d : Nat) : Nat := regKey (0x4001 + d) 10
def gmIdentity (d : Nat) : Nat := regKey (0x4001 + d) 11
def tsPop : Nat := regKey 0x4003 1
def tsOverflows : Nat := regKey 0x4003 2
def tsDepth : Nat := regKey 0x4003 3
def timePortSelect : Nat := regKey 0x4004 1
def pathDelay (i : Nat) : Nat := regKey 0x4004 2 i
def delayAsymmetryPs (i : Nat) : Nat := regKey 0x4004 3 i
def delayedDiscards (i : Nat) : Nat := regKey 0x4004 4 i
def counterSelect : Nat := regKey 0x5001 1
def ceLevel (i : Nat) : Nat := regKey 0x5001 2 i
def ceThreshold (i : Nat) : Nat := regKey 0x5001 3 i
def leakPeriodMs (i : Nat) : Nat := regKey 0x5001 4 i
def correctionsTotal (i : Nat) : Nat := regKey 0x5001 5 i
def uncorrectableTotal (i : Nat) : Nat := regKey 0x5001 6 i
def firings (i : Nat) : Nat := regKey 0x5001 7 i
def lastUncorrectable (i : Nat) : Nat := regKey 0x5001 8 i
def scrubSpace : Nat := regKey 0x5010 1
def scrubOffset : Nat := regKey 0x5010 2
def scrubLength : Nat := regKey 0x5010 3
def scrubWriteBack : Nat := regKey 0x5010 4
def scrubStart : Nat := regKey 0x5010 5
def scrubAbort : Nat := regKey 0x5010 6
def scrubState : Nat := regKey 0x5010 7
def scrubSummary : Nat := regKey 0x5010 8
def channelSelect : Nat := regKey 0x6000 1
def timerSelect : Nat := regKey 0x6000 2
def remoteTimeoutUs : Nat := regKey 0x6000 3
def dmaState (i : Nat) : Nat := regKey 0x6001 1 i
def dmaHead (i : Nat) : Nat := regKey 0x6001 2 i
def dmaDescCount (i : Nat) : Nat := regKey 0x6001 3 i
def dmaTrigger (i : Nat) : Nat := regKey 0x6001 4 i
def dmaTriggerSource (i : Nat) : Nat := regKey 0x6001 5 i
def dmaPaced (i : Nat) : Nat := regKey 0x6001 6 i
def dmaStart (i : Nat) : Nat := regKey 0x6001 7 i
def dmaStop (i : Nat) : Nat := regKey 0x6001 8 i
def dmaStatus (i : Nat) : Nat := regKey 0x6001 9 i
def dmaFailBitmap (i : Nat) : Nat := regKey 0x6001 10 i
def dmaFailReason (i : Nat) : Nat := regKey 0x6001 11 i
def currentDesc (i : Nat) : Nat := regKey 0x6001 12 i
def descDone (i : Nat) : Nat := regKey 0x6001 13 i
def eventsIgnored (i : Nat) : Nat := regKey 0x6001 14 i
def timerEnable (i : Nat) : Nat := regKey 0x6002 1 i
def timerStartFrame (i : Nat) : Nat := regKey 0x6002 2 i
def timerStartSlot (i : Nat) : Nat := regKey 0x6002 3 i
def timerPeriod (i : Nat) : Nat := regKey 0x6002 4 i
def timerFires (i : Nat) : Nat := regKey 0x6002 5 i
def jobState : Nat := regKey 0x7000 1
def jobId : Nat := regKey 0x7000 2
def jobSeed : Nat := regKey 0x7000 3
def firstStep : Nat := regKey 0x7000 4
def startFrame : Nat := regKey 0x7000 5
def stepLimit : Nat := regKey 0x7000 6
def jobStart : Nat := regKey 0x7000 7
def jobAbort : Nat := regKey 0x7000 8
def quenchRequest : Nat := regKey 0x7000 9
def endCause : Nat := regKey 0x7000 10
def startRefusal : Nat := regKey 0x7000 11
def imageLength : Nat := regKey 0x7001 1
def imageStream : Nat := regKey 0x7001 2
def bytesReceived : Nat := regKey 0x7001 3
def loadAbort : Nat := regKey 0x7001 4
def rankTable : Nat := regKey 0x7010 1
def ownRank : Nat := regKey 0x7010 2
def ranksValid : Nat := regKey 0x7010 3
def loadState : Nat := regKey 0x7030 1
def loadRefusalCode : Nat := regKey 0x7030 2
def refusalSection : Nat := regKey 0x7030 3
def refusalDetail : Nat := regKey 0x7030 4
def imageDigest : Nat := regKey 0x7030 5
def imageRank : Nat := regKey 0x7030 6
def latencyClass : Nat := regKey 0x7030 7
def segBase (i : Nat) : Nat := regKey 0x7031 (i + 1)
def custodyGiven : Nat := regKey 0x7050 1
def custodyHeld : Nat := regKey 0x7050 2
def pairRequest : Nat := regKey 0x7050 3
def detachRequest : Nat := regKey 0x7050 4
def custodyRelease : Nat := regKey 0x7050 5
def givenDigest : Nat := regKey 0x7050 6
def heldDigest : Nat := regKey 0x7050 7
def heldSource : Nat := regKey 0x7050 8
def lostNoticeChip : Nat := regKey 0x7050 9
def replayStep : Nat := regKey 0x7070 1
def replayAttempt : Nat := regKey 0x7070 2
def quenchFrame : Nat := regKey 0x7070 3
def replayFrame : Nat := regKey 0x7070 4
def replayRelease : Nat := regKey 0x7070 5
def replayLimit : Nat := regKey 0x7070 6
def replayDelayFrames : Nat := regKey 0x7070 7
def recoveryWaitMs : Nat := regKey 0x7070 8
def quenchOrigin : Nat := regKey 0x7070 9
def quenchCause : Nat := regKey 0x7070 10
def spareCore : Nat := regKey 0x7070 11
def replaysJob : Nat := regKey 0x7070 12
def runSet : Nat := regKey 0x7071 1
def runSlot : Nat := regKey 0x7071 2
def runCount : Nat := regKey 0x7071 3
def runEntry : Nat := regKey 0x7071 4
def runFrame : Nat := regKey 0x7071 5
def runStart : Nat := regKey 0x7071 6
def runState : Nat := regKey 0x7071 7
def joinStep : Nat := regKey 0x7071 8
def adoptRanges : Nat := regKey 0x7072 1
def adoptDigest : Nat := regKey 0x7072 2
def adoptStart : Nat := regKey 0x7072 3
def logCount : Nat := regKey 0x8000 1
def logNextSeq : Nat := regKey 0x8000 2
def logSelect : Nat := regKey 0x8000 3
def logEntry : Nat := regKey 0x8000 4
def logOverwritten : Nat := regKey 0x8000 5
def eventMask : Nat := regKey 0x8000 6
def eventsUnsent : Nat := regKey 0x8000 7
def lastFaultCause : Nat := regKey 0x8000 8
def logClear : Nat := regKey 0x8000 9
def runningBank : Nat := regKey 0x9000 1
def bootBank : Nat := regKey 0x9000 2
def bankVersions : Nat := regKey 0x9000 3
def fwInstall : Nat := regKey 0x9000 4
def fwInstallState : Nat := regKey 0x9000 5
def rollbackCommit : Nat := regKey 0x9000 6
def minVersions : Nat := regKey 0x9000 7
def measRegister : Nat := regKey 0x9001 1
def measLogSelect : Nat := regKey 0x9001 2
def measLogEntry : Nat := regKey 0x9001 3
def quoteNonce : Nat := regKey 0x9001 4
def quote : Nat := regKey 0x9001 5
def deviceCertificate : Nat := regKey 0x9001 6
def testChallenge : Nat := regKey 0x9002 1
def testToken : Nat := regKey 0x9002 2
def testAccess : Nat := regKey 0x9002 3
def testScope : Nat := regKey 0x9002 4
def testLock : Nat := regKey 0x9002 5
def recordInstall : Nat := regKey 0x9003 1
def configSlots : Nat := regKey 0x9003 2
def txnBegin : Nat := regKey 0xA000 1
def txnCommit : Nat := regKey 0xA000 2
def txnRollback : Nat := regKey 0xA000 3
def txnOwner : Nat := regKey 0xA000 4
def txnStaged : Nat := regKey 0xA000 5
def txnTimeoutMs : Nat := regKey 0xA000 6
def txnLastError : Nat := regKey 0xA000 7
def txnLastEntry : Nat := regKey 0xA000 8

end R

end Sys2Proof.Machine
end

