-- ==== Sys2Proof/Machine/State.lean ====
section
/-! DEFINITION. The part's whole state as plain data, and the state after a power-on reset. Registers of the object
dictionary stand in `State.regs` and `State.blobs` under their keys (`regKey`); everything else has a field. -/

namespace Sys2Proof.Machine

/-- Sparse byte memory: addresses rise, no entry is 0, and an unlisted address reads 0. -/
abbrev Memory := List Host.Cell

/-- State of an exact accumulator (R90). -/
inductive AccSt where
  | finite
  | posInf
  | negInf
  | nan
  deriving DecidableEq, Repr

/-- An exact accumulator: Z weighs 2^-286 at bit 0 (R90). -/
structure ExAcc where
  st : AccSt := .finite
  z : BitVec 576 := 0
  deriving DecidableEq, Repr

/-- A weight tile: element bytes and scale bytes (R120). -/
structure Tile where
  elems : BitVec 24576 := 0
  scales : BitVec 1024 := 0
  deriving DecidableEq, Repr

/-- An open loop: body start and length, iterations, index, the Adyn value read at issue, and whether its predicate
was off (R136, R137). -/
structure Loop where
  start : Nat
  len : Nat
  count : Nat
  idx : Nat
  limit : Option Nat
  off : Bool
  deriving DecidableEq, Repr

/-- What an issued operation writes when it becomes valid. Masks select the bits written. -/
inductive Effect where
  | vreg (r : Nat) (mask val : Vec)
  | preg (r : Nat) (mask val : BitVec 64)
  | areg (r : Nat) (val : BitVec 64)
  | tileElems (t part : Nat) (val : Vec)
  | tileScales (t : Nat) (val : BitVec 1024)
  | flags (f : BitVec 5)
  | wf (f : Byte)
  deriving DecidableEq, Repr

/-- A pending result and the beat count from which it may be read (R141, R341). -/
structure Pend where
  valid : Nat
  eff : Effect
  deriving DecidableEq, Repr

/-- A unit the scoreboard tracks (R141). -/
inductive SbUnit where
  | v (r : Nat)
  | a (r : Nat)
  | p (r : Nat)
  | acc
  | tile (t : Nat)
  deriving DecidableEq, Repr

inductive FarKind where
  | fld
  | fst
  | feng
  deriving DecidableEq, Repr

/-- A far request in its queue entry (R149 to R152): local offset, far address, length in 64-byte units, target chip,
units already sent, messages not yet answered, and how it stands. `undef` marks one whose data R72 or R154 leaves
undefined; a `stuck` one never completes (R382); `item` are the byte ranges that the item of a FENG touches. -/
structure FarReq where
  kind : FarKind
  tag : BitVec 16
  loc : Nat
  far : BitVec 64
  len : Nat
  own : Bool
  chip : Nat
  period : Bool
  sent : Nat := 0
  outstanding : Nat := 0
  undef : Bool := false
  stuck : Bool := false
  done : Bool := false
  item : List (Nat × Nat × Nat × Bool) := []
  deriving DecidableEq, Repr

/-- A far queue: entries in issue order, tag counter, requests issued in the step, and the ranks they went to (R151,
R316). -/
structure FarQ where
  entries : List FarReq := []
  ctr : BitVec 16 := 0
  issued : Nat := 0
  ranks : List Nat := []
  deriving DecidableEq, Repr

/-- A flit in a stream and the count from which it is there: region beats, or slots in the spine. -/
structure SFlit where
  payload : Vec
  ready : Nat
  deriving DecidableEq, Repr

/-- One logical core (R120), its program counter and its scoreboard. -/
structure Core where
  imem : Tab (BitVec 256) := []
  v : Tab Vec := []
  a : Tab (BitVec 64) := []
  p : Tab (BitVec 64) := []
  acc : Tab ExAcc := []
  tile : Tab Tile := []
  loops : List Loop := []
  flags : BitVec 5 := 0
  wf : Byte := 0
  step : BitVec 64 := 0
  send : Tab (List SFlit) := []
  land : Tab (List SFlit) := []
  sendBind : Tab (BitVec 32) := []
  landBind : Tab (BitVec 32) := []
  farq : Tab FarQ := []
  windows : Tab (BitVec 128) := []
  pc : Nat := 0
  halted : Bool := false
  issued : Bool := false
  pend : List Pend := []
  score : List (SbUnit × Nat) := []
  restartPc : Nat := 0
  restartLoops : List Loop := []
  stallBeats : Nat := 0
  deriving DecidableEq, Repr

/-- What a bank access does with its data. -/
inductive BankKind where
  | ld (v : Nat)
  | st
  | ldw (tile part : Nat)
  | ldws (tile : Nat)
  deriving DecidableEq, Repr

/-- A core access waiting for its bank beat (R66): logical and physical core, offset, bytes, data, byte enables. -/
structure BankAcc where
  due : Nat
  valid : Nat
  core : Nat
  phys : Nat
  kind : BankKind
  off : Nat
  size : Nat
  data : Vec
  mask : BitVec 256
  pc : Nat
  deriving DecidableEq, Repr

/-- A queued background write of one 64-byte word of a region's SRAM (R70). -/
structure BgAcc where
  off : Nat
  data : BitVec 512
  mask : BitVec 64
  deriving DecidableEq, Repr

/-- A WAIT that stalls (R156): core, queue, tags, clock beats stalled, its bundle and its region's beat count. One that has
`ended` holds nothing any more; its bundle issues once nothing else holds the region (R157). One that has `timedOut` has raised
WAIT_TIMEOUT (R159). -/
structure Stall where
  core : Nat
  q : Nat
  tag : BitVec 16
  count : Nat
  beats : Nat
  bundle : BitVec 256
  beat : Nat
  ended : Bool := false
  timedOut : Bool := false
  deriving DecidableEq, Repr

/-- A flit inside a bridge: the core and stream it comes from (towards the spine) or goes to, the beat count of the
receiving region from which it is ready (towards the spine the slot in which it entered), and the absolute slot of the
local send that has taken it (R176). -/
structure BFlit where
  core : Nat
  stream : Nat
  payload : Vec
  ready : Nat
  claim : Option Nat := none
  deriving DecidableEq, Repr

/-- One clock region. `bridgeOut` is its spine bridge towards the spine, `spineIn` the one from it, `bridgeIn` its
neighbour bridges inwards by sending region. `stopping` ends issue at the end of the beat; a region that `running` is in
a job's beats. `framesStarted` is the next anchor at which the region holds, `frameMarks` the clock beat count at the start
of frames by their job frame index, `clock0` that at job start. `drain` counts the beats since issue ended, in which the
pipelines run on and the beat count does not. `skewed` names the neighbours whose bridge has raised BRIDGE_SKEW, `sent` those
whose bridge has carried a flit of this region in the present clock beat (R73). `bg` are the queued background writes, up to
64 a tier, `bgWaiting` those whose unit waits for room (R70). -/
structure Region where
  beat : Nat := 0
  drain : Nat := 0
  skewed : List Nat := []
  sent : List Nat := []
  clock : Nat := 0
  running : Bool := false
  stopped : Bool := false
  inReset : Bool := false
  stopping : Bool := false
  stalls : List Stall := []
  heldJob : Nat := 0
  ceilLow : Bool := false
  heldStep : Nat := 0
  bank : List BankAcc := []
  bg : List BgAcc := []
  bgWaiting : List BgAcc := []
  bridgeOut : List BFlit := []
  bridgeIn : Tab (List BFlit) := []
  spineIn : List BFlit := []
  map : List Nat := []
  spares : List Nat := []
  shortStopTo : Option Nat := none
  shadowTo : Option Nat := none
  shadowLocked : Bool := false
  lit : Bool := false
  spineCtr : Nat := 0
  frameHeld : Bool := false
  framesStarted : Nat := 0
  farTurn : Nat := 0
  frameMarks : List (Nat × Nat) := []
  clock0 : Nat := 0
  temp : Int := 0
  cores : Tab Core := []
  deriving DecidableEq, Repr

/-- A flit in the replay buffer (R237). -/
structure ReplayEntry where
  seq : BitVec 12
  flit : BitVec 2176
  deriving DecidableEq, Repr

/-- A scheduled flit in a landing buffer (R178): the slot and frame bits it bears, and the absolute slot from which
it is ready. -/
structure Landed where
  txSlot : Nat
  frameLo : Nat
  payload : Vec
  ready : Nat
  period : Bool
  late : Bool
  deriving DecidableEq, Repr

/-- A message on its way out (R247, R252): when it came into the part, the port it came in on, whether it still holds
that port's class buffer, and the message. -/
structure TxMsg where
  stamp : Nat
  arr : Option Nat
  held : Bool
  msg : Msg
  deriving DecidableEq, Repr

/-- A message whose continuations are still to come (R228), and how many. -/
structure RxMsg where
  msg : Msg
  left : Nat
  deriving DecidableEq, Repr

/-- One port's link (06). `held` are the messages of its class buffers with their stamps, `own` the credits it advertised at its training
(R245); credit tables have index 2 (c − 1) + kind; slots are absolute. `ackAt` is the slot of the last advance of the acknowledgement,
`timer` that in which the replay timer started (R241), `suppressed` the go-back requests the guard kept out (R240), `laneErrs` the corrected
symbols of the last 100 µs by slot and lane (R261). `stream` is the slot stream not yet encoded, from its offset in the frame, and `word`
the header and bytes of the last codeword transmitted (R219 to R221). The receive direction has its own width where it differs (`rxWidth`,
R259), the width switch bit it has seen, and the slot begun in the last codeword (frame bits, next offset, bytes). `switched` is the slot of
a width switch since which no codeword at the new width has decoded (R263). -/
structure Port where
  mode : Nat := 0
  idRun : Nat := 0
  peerSeen : Bool := false
  lanes : Byte := 0
  lanesFailed : Byte := 0
  pendRetrain : Bool := false
  seqTx : BitVec 12 := 0
  ackPt : BitVec 12 := 0xFFF
  rxE : BitVec 12 := 0
  rxMap : List (BitVec 12) := []
  gap : Bool := false
  replay : List ReplayEntry := []
  resend : Option (BitVec 12) := none
  guardAck : Option (BitVec 12 × Nat) := none
  expiries : Nat := 0
  timer : Option Nat := none
  ackAt : Nat := 0
  suppressed : Nat := 0
  goBacks : Nat := 0
  held : List (Nat × Msg) := []
  own : Tab Nat := []
  rxMsg : Option RxMsg := none
  adv : Tab (BitVec 16) := []
  grantOut : Tab (BitVec 16) := []
  grantIn : Tab (BitVec 16) := []
  used : Tab (BitVec 16) := []
  returned : Tab (BitVec 16) := []
  rotation : Nat := 0
  rxHdr : Tab Nat := []
  rxData : Tab Nat := []
  txq : List TxMsg := []
  contin : List Vec := []
  continOf : Option TxMsg := none
  lastClass : Nat := 0
  quenchTx : List Msg := []
  linkOp : Option (Nat × Nat) := none
  opSent : Nat := 0
  switchAt : Option (Nat × Nat) := none
  switched : Option Nat := none
  landing : List Landed := []
  driftLogged : Bool := false
  destroyed : List (Nat × Nat) := []
  codeword : Option (Nat × Nat) := none
  rxWidth : Nat := 0
  rxSwitch : Bool := false
  rxPart : Option (Nat × Nat × List Byte) := none
  laneErrs : List (Nat × Nat × Nat) := []
  stream : Nat × List Byte := (0, [])
  word : Option (Nat × List Byte) := none
  sentAt : Option Nat := none
  wire : BitVec 2176 := 0
  dark : Bool := true
  pdelayRuns : Nat := 0
  pdelayFrom : List Byte := []
  pdelaySeq : BitVec 16 := 0
  pdelayT1 : Option Nat := none
  pdelayT4 : Option Nat := none
  pdelayT2 : Option Nat := none
  pdelayOpen : Bool := false
  pdelayCorr : Int := 0
  stamps : List (BitVec 12 × Nat) := []
  stampMoved : List (BitVec 12 × Int) := []
  deriving DecidableEq, Repr

/-- A clause as R196 lays it out: header, send map, landing map, a table for each port present. -/
structure Clause where
  hdr : BitVec 512
  sendMap : List (BitVec 32)
  landMap : List (BitVec 32)
  tables : Tab (List (BitVec 64))
  deriving DecidableEq, Repr

/-- A scheduled use (forward or local landing) that is not yet complete (R183 to R185). Slots are absolute; `pended`: its flit was not
ready in its slot. -/
structure FUse where
  slot : Nat
  input : Nat
  txSlot : Nat
  frameLo : Nat
  ports : List Nat
  land : Option (Nat × Nat)
  deadline : Nat
  clause : Nat
  late : Bool
  pended : Bool := false
  deriving DecidableEq, Repr

/-- A step's restart point (R207, R542): step, sequence position, REPEAT counters, active half, the set in each half,
the job frame index at which the step begins, and each core's restart bundle and loop stack. -/
structure Restart where
  step : BitVec 64
  pos : Nat
  reps : List (Nat × Nat × Nat)
  active : Nat
  sets : List Nat
  frame : Nat
  cores : List (Nat × Nat × List Loop)
  deriving DecidableEq, Repr

/-- The quench record of R540. -/
structure QRec where
  s : BitVec 64
  a : Nat
  q : Nat
  p : Nat
  isEnd : Bool
  defer : Bool
  release : Bool
  stop : Nat
  origin : Nat
  cause : Nat
  deriving DecidableEq, Repr

/-- One time domain beyond its entries (R289, R290): `acquired` once it has been LOCKED in its role (R291), `moved` what steps and slews
have added to network time since its offset was measured, `sinceSync` what they have added since the Sync that waits for its Follow_Up,
`drift` the part below 2^-16 ns of a grandmaster's drift (R288), `wraps` how often the offset has passed the S64 of its entry. -/
structure Dom where
  good : Nat := 0
  bad : Nat := 0
  syncs : Nat := 0
  misaligned : Nat := 0
  pendSync : Option (BitVec 16 × Nat × Int) := none
  announce : List Byte := []
  seqSync : BitVec 16 := 0
  seqAnnounce : BitVec 16 := 0
  acquired : Bool := false
  moved : Int := 0
  sinceSync : Int := 0
  drift : Int := 0
  wraps : Int := 0
  deriving DecidableEq, Repr

/-- A work item in a stack and who submitted it: a core's far request, or a REQ of another part (R391). -/
inductive ItemFrom where
  | core (core q : Nat) (tag : BitVec 16)
  | remote (chip : Nat) (ident : BitVec 32) (vc : Nat)
  | none
  deriving DecidableEq, Repr

/-- A work item, the byte ranges that one of another part touches, and whether those have met another access (R396). -/
structure Item where
  bytes : BitVec 512
  src : ItemFrom
  spans : List (Nat × Nat × Nat × Bool) := []
  undef : Bool := false
  deriving DecidableEq, Repr

/-- One Palaz stack's engines: each engine's queue and the item it runs (R395), and its self-refresh (R447): `awake`
while active, `wakePending` while an access has it out of self-refresh, `lastUse` the µs of its last access. -/
structure Stack where
  queues : Tab (List Item) := []
  running : Tab (Option Item) := []
  awake : Bool := false
  wakePending : Bool := false
  lastUse : Option Nat := none
  temp : Int := 0
  deriving DecidableEq, Repr

/-- One DMA channel beyond its entries (R411 to R417): the descriptor it runs and its address, segments ended with their
reasons, the messages of a segment without an answer, the first reason seen for it, and the bytes already sent. `got` are the
bytes read from another part by their place in the transfer (R409),
`clash` the local bytes (space, first, end) that R419 or R420 leaves undefined, `edges` the units at the edges of a remote destination
that have been asked for and what they held (R402), and `stopAt` the slot of a stop (R419). -/
structure Chan where
  stopReq : Bool := false
  pending : Nat := 0
  credit : Bool := false
  addr : Nat := 0
  desc : BitVec 512 := 0
  busy : Bool := false
  segDone : Tab Nat := []
  segOut : Tab Nat := []
  segBad : Tab Nat := []
  sent : Nat := 0
  ran : Nat := 0
  got : List (Nat × List Byte) := []
  clash : List (Nat × Nat × Nat) := []
  edges : List (Nat × Option (List Byte)) := []
  stopAt : Option Nat := none
  flagged : Bool := false
  was : List (Nat × List Byte) := []
  evAt : Option Nat := none
  evCount : Nat := 0
  deriving DecidableEq, Repr

/-- A unit waiting for the governor (R37, R450); `access` is a stack that an access is to bring out of self-refresh (R447). -/
inductive PowerUnit where
  | region (r : Nat)
  | stack (k : Nat)
  | group (g : Nat)
  | access (k : Nat)
  deriving DecidableEq, Repr

/-- The part's power states (R445). -/
inductive Power where
  | cold
  | banked
  | kindled
  | lit
  | full
  deriving DecidableEq, Repr

/-- What the management firmware does between a wake or reset and Kindled. -/
inductive Boot where
  | none
  | held (cause : Nat)
  | running (cause : Nat)
  | stopped
  deriving DecidableEq, Repr

/-- The register a TAP instruction selects (R26). -/
inductive TapReg where
  | bypass
  | boundary (extest : Bool)
  | mailbox
  | test (op : Nat)
  deriving DecidableEq, Repr

/-- An event log entry (R483). -/
structure LogEntry where
  seq : BitVec 32
  frame : Nat
  slot : Nat
  code : Nat
  kind : Nat
  unit : Nat
  step : BitVec 64
  detail : BitVec 64
  deriving DecidableEq, Repr

/-- A Glazin frame the part sends (R462), and the port it leaves on. -/
structure GOut where
  port : GPort
  opcode : Byte
  f : GFrame
  deriving DecidableEq, Repr

/-- A control node's sequence window: the highest sequence executed, and the responses kept (R466). -/
structure Window where
  high : Option (BitVec 16) := none
  kept : List (BitVec 16 × GOut) := []
  deriving DecidableEq, Repr

/-- An image load in progress: announced length and the bytes taken (R496, R497). -/
structure Load where
  len : Nat
  got : List Byte
  opened : Bool := false
  parsed : Nat := 0
  deriving DecidableEq, Repr

/-- The resident image: its relocated bytes less DATA, and what the start checks compare (R355, R361). -/
structure Image where
  code : Tab (List (BitVec 256)) := []
  windows : Tab (List (BitVec 128)) := []
  streams : Tab (List (BitVec 32)) := []
  sets : Tab (List Clause) := []
  seqHdr : BitVec 2048 := 0
  seq : List (BitVec 64) := []
  regions : Nat := 0
  rank : Nat := 0
  legacy : Bool := false
  segBases : List Nat := []
  ports : Nat := 0
  portGroups : Nat := 0
  weights : List (Nat × Nat) := []
  deriving DecidableEq, Repr

/-- How far a pairing or detachment has come on its owner (R501). -/
inductive PairStage where
  | idle
  | offered
  | pushing
  | completed
  | checking
  deriving DecidableEq, Repr

/-- A recovery run (R555): clause set, slot, RUNs, entry, first frame, frames still to run. -/
structure RunRec where
  set : Nat
  slot : Nat
  count : Nat
  entry : Nat
  frame : Nat
  left : Nat
  onIdle : Bool
  formerLight : Nat
  formerStacks : Nat
  level : Nat
  deriving DecidableEq, Repr

/-- A clause copy in progress (R204): set, half, and whether a recovery run asked for it. -/
structure CopyJob where
  set : Nat
  half : Nat
  deriving DecidableEq, Repr

/-- The counts of a scrub so far (R390). -/
structure ScrubSum where
  words : Nat := 0
  corrected : Nat := 0
  bad : Nat := 0
  first : Nat := 0
  last : Nat := 0
  written : Nat := 0
  deriving DecidableEq, Repr

/-- A scrub in progress (R386 to R389): the start of its range, what is still to read, and its counts. -/
structure Scrub where
  space : Nat
  start : Nat
  off : Nat
  len : Nat
  wb : Bool
  aborted : Bool
  sum : ScrubSum := {}
  deriving DecidableEq, Repr

/-- A BLOCK value being assembled (R475). -/
structure Assembly where
  index : Nat
  sub : Nat
  total : Nat
  got : List Byte
  deriving DecidableEq, Repr

/-- A request the part has sent in REQ or SVC and whose reply slot it holds (R312). `kind`: 0 FLD, 1 FST, 2 FENG,
3 DMA read, 4 DMA write, 5 weight repair, 6 custody write, 7 DMA edge unit; for 3 and 4 `core` is the channel, `q` the segment, `loc` the
offset in the transfer and `units` the bytes. `answered` is a slot whose reply has come and is still to be written. -/
structure ReplySlot where
  ident : BitVec 32
  chip : Nat
  core : Nat
  q : Nat
  tag : BitVec 16
  loc : Nat
  units : Nat
  kind : Nat
  answered : Bool := false
  deriving DecidableEq, Repr

set_option maxRecDepth 4000 in
/-- The whole part. -/
structure State where
  pending : List Instr := []
  regs : Tab Nat := []
  blobs : Tab (List Byte) := []
  freeCtr : Nat := 0
  answer : Nat := 0
  answerData : List Byte := []
  -- supply, pins, governor
  power : Power := .banked
  boot : Boot := .none
  inputSwitch : Bool := true
  bladeA : Nat := 48000
  bladeB : Nat := 48000
  mvSumA : Nat := 0
  mvSumB : Nat := 0
  maSum : Nat := 0
  msSamples : Nat := 0
  refclk : Bool := true
  alertLow : Bool := false
  resetLow : Bool := false
  resetInBanked : Bool := false
  bootCause : Nat := 255
  shutdownTo : Option Nat := none
  h : Nat := 0
  load : Nat := 0
  ballast : Nat := 0
  admitting : List PowerUnit := []
  remove : List PowerUnit := []
  litOrder : List Nat := []
  windowUsed : Nat := 0
  winSum : Nat := 0
  loadSum : Nat := 0
  rampAbandoned : Bool := false
  groupsOn : Nat := 0
  warmDue : Bool := false
  runFailed : Bool := false
  warned : List Sensor := []
  uartRx : List Byte := []
  uartTx : List (List Byte) := []
  wakeTx : List GPort := []
  tap : TapReg := .bypass
  boundary : BitVec 13 := 0
  testBlock : List Byte := []
  -- memories
  sram : Memory := []
  sramChk : Memory := []
  dram : Memory := []
  dramChk : Memory := []
  -- compute
  regions : Tab Region := []
  slots : List ReplySlot := []
  nextIdent : Nat := 0
  restarts : List Restart := []
  kClock : Option Nat := none
  -- fabric
  ports : Tab Port := []
  frame : Nat := 0
  slot : Nat := 0
  nt32 : BitVec 32 := 0
  ntFrac : BitVec 16 := 0
  latched : BitVec 32 := 0
  wrapDue : Nat := 0
  subSlot : Nat := 0
  timeIn : List (Nat × Msg) := []
  half0 : List Clause := []
  half1 : List Clause := []
  halfSet : List Nat := [0xFFFF, 0xFFFF]
  copy : Option CopyJob := none
  seqPos : Nat := 0
  reps : List (Nat × Nat × Nat) := []
  runLeft : Nat := 0
  runMark : Bool := false
  sched : Bool := false
  uses : List FUse := []
  claimed : Nat := 0
  stepHist : List (BitVec 64) := []
  jobFrame0 : Nat := 0
  schedFrom : Nat := 0
  frameIndex : Nat := 0
  -- time
  doms : Tab Dom := []
  tsq : List (BitVec 128) := []
  tsLoggedFrame : Option Nat := none
  switchTo : Option Nat := none
  stepPending : Option Nat := none
  holdover : Bool := false
  lastDom : Nat := 0
  ntMoved : Int := 0
  heldRate : Int := 0
  -- job and recovery
  image : Option Image := none
  loading : Option Load := none
  epoch : BitVec 2 := 0
  qrec : Option QRec := none
  firstFault : Bool := false
  faultHist : List (Nat × Nat × Nat × BitVec 64 × Nat) := []
  replaying : Option (BitVec 64 × Nat) := none
  joinWait : Option Nat := none
  formerLight : Nat := 0
  formerStacks : Nat := 0
  run : Option RunRec := none
  adopt : Bool := false
  repair : Option Nat := none
  repaired : List Nat := []
  repairWait : List Nat := []
  endPending : Option Nat := none
  jobIssued : Bool := false
  quenchOut : List (Nat × Msg) := []
  -- pairing
  pair : PairStage := .idle
  detaching : Bool := false
  heldRanges : List (Nat × Nat) := []
  pushLeft : Nat := 0
  offerDigest : List Byte := []
  wantDigest : List Byte := []
  confirmedSerial : BitVec 64 := 0
  -- management floods
  floodSeq : BitVec 32 := 0
  floodsSeen : List (BitVec 64 × BitVec 32 × Nat) := []
  pushQueue : List (Nat × Nat) := []
  repairDue : Bool := false
  mgmtQueue : List (Nat × Msg) := []
  quenchAt : Option Nat := none
  reports : List Msg := []
  msgStamp : Nat := 0
  waiting : List TxMsg := []
  routeLast : Tab Nat := []
  lateDebt : Tab Nat := []
  dropLogged : List (Nat × Nat) := []
  -- Glazin
  windows : Tab Window := []
  gtx : List GOut := []
  heldBeacon : Tab (Option GFrame) := []
  assembly : List Assembly := []
  staged : Tab (List Byte) := []
  commitDue : Bool := false
  commitReply : List (GPort × GFrame) := []
  log : List LogEntry := []
  eventsSent : Nat := 0
  us : Nat := 0
  -- memory machinery
  palaz : Tab Stack := []
  rateEvent : Tab Nat := []
  scrub : Option Scrub := none
  chans : Tab Chan := []
  dmaOverflowFrame : Option Nat := none
  timerNext : Tab (Option Nat) := []
  dmaTurn : Nat := 0
  bgDone : List (List Nat × List Nat) := []
  reqLost : List (List Nat) := []
  resetOwed : List Nat := []
  lostLogged : Bool := false
  -- security
  bankA : List Byte := []
  bankB : List Byte := []
  rollback0 : List Byte := []
  rollback1 : List Byte := []
  gradeRec : List Byte := []
  certificate : List Byte := []
  config : Tab (List Byte) := []
  cfg : Tab (List Byte) := []
  measLog : List (List Byte) := []
  measCount : Nat := 0
  challenge : Option (List Byte) := none
  token : Tab (List Byte) := []
  mailStatus : Nat := 0
  mailResponse : List Byte := []
  nonce : Option (List Byte) := none
  quoteBytes : List Byte := []
  opticsTemp : Tab Int := []
  mgmtTemp : Int := 0
  puf : List Byte := []
  idlePeaks : List Nat := []
  deriving DecidableEq, Repr

/-- The part right after a power-on reset (R509, R518): Banked, every entry at its default, the class K entries of an
unwritten keeper flash, nothing in memory, no command waiting. Both blades are present at the nominal 48 V (R29, R31). -/
def State.reset : State :=
  { regs := [(R.bladeAMv, 48000), (R.bladeBMv, 48000), (R.bladePresent, 3)] }

/-- No command of this model stops with a fault: what the spec calls a fault is recorded, logged and recovered from,
all in the next state. The type has one constructor because the interface asks for a type. -/
inductive Fault where
  /-- Raised by no command (safe: it is never reached). -/
  | none
  deriving DecidableEq, Repr

/-- Why a command has no meaning. -/
inductive Refusal where
  /-- A command the model has not reached: raised by a refused arm of `exec` only (safe: it stops). -/
  | notModelled (mnemonic : String)
  deriving DecidableEq, Repr

end Sys2Proof.Machine
end

