-- ==== Sys2Proof/Machine/Base.lean ====
section
/-! DEFINITION. The named operations over the state's stores: dictionary registers, regions, cores, ports, and byte
memory in its canonical form with the two check codes (R373 to R380). -/

namespace Sys2Proof.Machine

/-! ## Dictionary registers -/

/-- The value a verified configuration record gives an entry, in place of its table default (R567). -/
def State.cfgValue (s : State) (k : Nat) : Option (List Byte) := (s.cfg.find? fun x => x.1 = k / 256 * 256).map (·.2)

/-- The value of a register nothing has written. -/
def State.dflt (s : State) (k : Nat) : Nat :=
  match s.cfgValue k with
  | some l => leNat l
  | none => regDefault k

/-- The value of a numeric dictionary register: its default until something sets it (R516). -/
def State.reg (s : State) (k : Nat) : Nat := Tab.get (s.dflt k) s.regs k

/-- The state with register `k` at `v`. -/
def State.setReg (s : State) (k v : Nat) : State := { s with regs := Tab.set s.regs k v }

/-- The state with register `k`, a wrapping counter of `w` bits, `n` higher. -/
def State.bump (s : State) (k w : Nat) (n : Nat := 1) : State := s.setReg k ((s.reg k + n) % 2 ^ w)

/-- The default of a BLOB register: the zeros the entry tables give, else no bytes. -/
def blobDefault (k : Nat) : List Byte :=
  if k / 256 = R.goodMask 0 / 256 ∨ k / 256 = R.failedMask 0 / 256 ∨ k / 256 = R.spareMask 0 / 256 then zeros 9
  else if k = R.jobSeed then zeros 16
  else if k = R.givenDigest ∨ k = R.heldDigest ∨ k = R.adoptDigest ∨ k = R.imageDigest ∨ k = R.measRegister then zeros 48
  else if k = R.scrubSummary then zeros 64
  else if k = R.exportMap then zeros 256
  else if k = R.fabricId then zeros 16
  else if k = R.minVersions then zeros 24
  else if k / 256 = R.laneSymbolErrors 0 / 256 then zeros 32
  else if k = R.gmIdentity 0 ∨ k = R.gmIdentity 1 then zeros 8
  else []

/-- The bytes of a BLOB or STRING register. -/
def State.blob (s : State) (k : Nat) : List Byte := Tab.get ((s.cfgValue k).getD (blobDefault k)) s.blobs k

/-- The state with BLOB register `k` at `l`. -/
def State.setBlob (s : State) (k : Nat) (l : List Byte) : State := { s with blobs := Tab.set s.blobs k l }

/-- A register read as two's complement of `n` bits. -/
def State.sreg (s : State) (k n : Nat) : Int := sext n (s.reg k)

/-! ## Regions, cores, ports, stacks, channels -/

def State.region (s : State) (r : Nat) : Region := Tab.get {} s.regions r

def State.setRegion (s : State) (r : Nat) (x : Region) : State := { s with regions := Tab.set s.regions r x }

def State.modRegion (s : State) (r : Nat) (f : Region → Region) : State := s.setRegion r (f (s.region r))

/-- Logical core `c` of the die: core `c mod 64` of region `c div 64`. -/
def State.core (s : State) (c : Nat) : Core := Tab.get {} (s.region (c / 64)).cores (c % 64)

def State.setCore (s : State) (c : Nat) (x : Core) : State :=
  s.modRegion (c / 64) fun r => { r with cores := Tab.set r.cores (c % 64) x }

def State.modCore (s : State) (c : Nat) (f : Core → Core) : State := s.setCore c (f (s.core c))

def State.port (s : State) (p : Nat) : Port := Tab.get {} s.ports p

def State.setPort (s : State) (p : Nat) (x : Port) : State := { s with ports := Tab.set s.ports p x }

def State.modPort (s : State) (p : Nat) (f : Port → Port) : State := s.setPort p (f (s.port p))

def State.stack (s : State) (k : Nat) : Stack := Tab.get {} s.palaz k

def State.setStack (s : State) (k : Nat) (x : Stack) : State := { s with palaz := Tab.set s.palaz k x }

def State.modStack (s : State) (k : Nat) (f : Stack → Stack) : State := s.setStack k (f (s.stack k))

def State.chan (s : State) (c : Nat) : Chan := Tab.get {} s.chans c

def State.setChan (s : State) (c : Nat) (x : Chan) : State := { s with chans := Tab.set s.chans c x }

def State.modChan (s : State) (c : Nat) (f : Chan → Chan) : State := s.setChan c (f (s.chan c))

def State.dom (s : State) (d : Nat) : Dom := Tab.get {} s.doms d

def State.setDom (s : State) (d : Nat) (x : Dom) : State := { s with doms := Tab.set s.doms d x }

/-- The state with `f` applied for every number of a list, in order. -/
def State.each {α : Type} (s : State) (l : List α) (f : State → α → State) : State := l.foldl f s

/-- A fresh number for a free value, and the state that has used it. -/
def State.fresh (s : State) : Nat × State := (s.freeCtr, { s with freeCtr := s.freeCtr + 1 })

/-! ## Byte memory -/

/-- Addresses rise strictly and no entry is 0, the value an unlisted address reads as. -/
def Memory.wf : Memory → Bool
  | [] => true
  | (_, b) :: [] => b != 0
  | (a, b) :: (a', b') :: t => b != 0 && decide (a < a') && Memory.wf ((a', b') :: t)

/-- The byte at an address: 0 where none is listed. -/
def Memory.read : Memory → Nat → Byte
  | [], _ => 0
  | (j, b) :: t, a => if j = a then b else Memory.read t a

/-- The memory with one byte written; writing 0 removes the entry. -/
def Memory.write : Memory → Nat → Byte → Memory
  | [], a, b => if b = 0 then [] else [(a, b)]
  | (j, c) :: t, a, b =>
    if j = a then (if b = 0 then t else (a, b) :: t)
    else if a < j then (if b = 0 then (j, c) :: t else (a, b) :: (j, c) :: t)
    else (j, c) :: Memory.write t a b

/-- `n` bytes from an address. -/
def Memory.readN (m : Memory) (a n : Nat) : List Byte := (List.range n).map fun i => m.read (a + i)

/-- A byte string written from an address on. -/
def Memory.writeN : Memory → Nat → List Byte → Memory
  | m, _, [] => m
  | m, a, b :: t => Memory.writeN (m.write a b) (a + 1) t

/-! ## The SRAM check code (R379, R380) -/

/-- The XOR of chosen data bits. -/
def parityOf (d : Byte) (l : List Nat) : Bool := l.foldl (fun p i => p ^^ d.getLsbD i) false

/-- The four Hamming bits c1, c2, c4, c8 of a byte as a number, c1 lowest. -/
def hamming (d : Byte) : Nat :=
  (parityOf d [0, 1, 3, 4, 6]).toNat + 2 * (parityOf d [0, 2, 3, 5, 6]).toNat
    + 4 * (parityOf d [1, 2, 3, 7]).toNat + 8 * (parityOf d [4, 5, 6, 7]).toNat

/-- Whether a number has an odd count of ones below bit `n`. -/
def oddOnes (x n : Nat) : Bool := (List.range n).foldl (fun p i => p ^^ Nat.testBit x i) false

/-- The five check bits stored with a byte: c1, c2, c4, c8, then the parity of data and check bits (R379). -/
def sramCheck (d : Byte) : Byte :=
  let h := hamming d
  BitVec.ofNat 8 (h + 16 * (oddOnes d.toNat 8 ^^ oddOnes h 4).toNat)

/-- How a decode of one byte or codeword came out. -/
inductive Ecc where
  | clean
  | fixed
  | bad
  deriving DecidableEq, Repr

/-- Data bit k sits at these syndrome positions (R380). -/
def sramPositions : List Nat := [3, 5, 6, 7, 9, 10, 11, 12]

/-- One SRAM byte read through its check bits (R380). -/
def sramDecode (d c : Byte) : Byte × Ecc :=
  let syn := hamming d ^^^ bits c.toNat 3 0
  let odd := oddOnes d.toNat 8 ^^ oddOnes c.toNat 5
  if odd then
    if syn = 0 ∨ syn = 1 ∨ syn = 2 ∨ syn = 4 ∨ syn = 8 then (d, .fixed)
    else match sramPositions.idxOf? syn with
      | some k => (d ^^^ (1 <<< k), .fixed)
      | none => (d, .bad)
  else if syn = 0 then (d, .clean) else (d, .bad)

/-! ## The stack check code (R373 to R375) -/

/-- Multiplication by α = 0x02 in GF(2^8) of x^8 + x^4 + x^3 + x^2 + 1. -/
def gfX (a : Nat) : Nat := if a < 128 then 2 * a else (2 * a) ^^^ 0x11D

/-- Multiplication in GF(2^8), `n` bits of the second factor. -/
def gfMulN : Nat → Nat → Nat → Nat
  | 0, _, _ => 0
  | n + 1, a, b => (if b % 2 = 1 then a else 0) ^^^ gfMulN n (gfX a) (b / 2)

def gfMul (a b : Nat) : Nat := gfMulN 8 a b

/-- α to the j-th power. -/
def gfPow : Nat → Nat
  | 0 => 1
  | j + 1 => gfX (gfPow j)

/-- The two check symbols of 16 data symbols: m(x)·x^2 mod x^2 + 0x03·x + 0x02 (R374); die 16's symbol first. -/
def rsCheck (m : List Nat) : Nat × Nat :=
  m.foldl (fun (r : Nat × Nat) d =>
    let f := d ^^^ r.1
    (r.2 ^^^ gfMul 3 f, gfMul 2 f)) (0, 0)

/-- The value of a codeword at α^i, symbols in falling powers. -/
def rsEval (x : Nat) (c : List Nat) : Nat := c.foldl (fun a d => gfMul a x ^^^ d) 0

/-- One codeword of 18 symbols decoded by its two syndromes (R375). -/
def rsDecode (c : List Nat) : List Nat × Ecc :=
  let s0 := rsEval 1 c
  let s1 := rsEval 2 c
  if s0 = 0 ∧ s1 = 0 then (c, .clean)
  else if s0 = 0 ∨ s1 = 0 then (c, .bad)
  else match (List.range 18).find? fun j => gfMul s0 (gfPow j) = s1 with
    | some j => (c.set (17 - j) (c.getD (17 - j) 0 ^^^ s0), .fixed)
    | none => (c, .bad)

/-- Codeword `c` of a 64-byte word and its 8 check bytes, die 16's four first (R373). -/
def rsCodeword (w chk : List Byte) (c : Nat) : List Nat :=
  ((List.range 16).map fun i => (w.getD (4 * i + c) 0).toNat) ++ [(chk.getD c 0).toNat, (chk.getD (4 + c) 0).toNat]

/-- The 8 check bytes of a 64-byte word. -/
def rsCheckBytes (w : List Byte) : List Byte :=
  let r := (List.range 4).map fun c => rsCheck ((List.range 16).map fun i => (w.getD (4 * i + c) 0).toNat)
  r.map (fun x => BitVec.ofNat 8 x.1) ++ r.map fun x => BitVec.ofNat 8 x.2

/-- A 64-byte word decoded: data, corrections, and whether a codeword was uncorrectable (R375). -/
def rsWord (w chk : List Byte) : List Byte × Nat × Bool :=
  let r := (List.range 4).map fun c => rsDecode (rsCodeword w chk c)
  let d := (List.range 64).map fun b => BitVec.ofNat 8 (((r.getD (b % 4) ([], .clean)).1).getD (b / 4) 0)
  (d, (r.filter fun x => x.2 = .fixed).length, r.any fun x => x.2 = .bad)

end Sys2Proof.Machine
end

