-- ==== Sys2Proof/Machine/Topology.lean ====
section
/-! DEFINITION. The topology manifest and what is derived from it: checks, neighbours, routes, ranks (R307 to R326). -/

namespace Sys2Proof.Machine

/-- A chip record of a manifest (R319). -/
structure ChipRec where
  chip : Nat
  coord : Nat
  twin : Nat
  parent : Nat
  deriving DecidableEq, Repr

/-- The chip records of a manifest (R318). -/
def manifestRecs (m : List Byte) : List ChipRec :=
  (List.range (field m 2 2)).map fun i =>
    { chip := field m (64 + 8 * i) 2, coord := field m (66 + 8 * i) 2, twin := field m (68 + 8 * i) 2,
      parent := field m (70 + 8 * i) 2 }

/-- The size of dimension `d` of a manifest. -/
def dimSize (m : List Byte) (d : Nat) : Nat := field m (5 + d) 1

/-- Whether dimension `d` is a ring. -/
def dimRing (m : List Byte) (d : Nat) : Bool := bit (field m 9 1) d

def isTree (m : List Byte) : Bool := field m 4 1 = 1

def recOf (m : List Byte) (c : Nat) : Option ChipRec := (manifestRecs m).find? fun r => r.chip = c

/-- Coordinate `d` of a packed coordinate word. -/
def coordAt (x d : Nat) : Nat := bits x (4 * d + 3) (4 * d)

/-- Whether `r` reaches the root by at most `n` parent steps. -/
def reachesRoot (l : List ChipRec) : Nat → ChipRec → Bool
  | 0, _ => false
  | n + 1, r =>
    if r.parent = 0xFFFF then true
    else match l.find? fun x => x.chip = bits r.parent 11 0 with
      | some p => reachesRoot l n p
      | none => false

/-- The header checks of R318: 0x0302 for a length that does not fit chip_count, 0x0301 for a field out of range, 0. -/
def manifestHeader (m : List Byte) : Nat :=
  if m.length < 64 then 0x0302
  else if m.length ≠ 64 + 8 * field m 2 2 ∧ 1 ≤ field m 2 2 ∧ field m 2 2 ≤ 4096 then 0x0302
  else if field m 0 2 ≠ 1 ∨ field m 2 2 = 0 ∨ 4096 < field m 2 2 ∨ 1 < field m 4 1 then 0x0301
  else if (List.range 4).any fun d => dimSize m d = 0 ∨ 16 < dimSize m d ∨ (isTree m ∧ dimSize m d ≠ 1) then 0x0301
  else if 16 ≤ field m 9 1 ∨ (slice m 10 54).any (· ≠ 0) then 0x0301
  else 0

/-- The record checks of R320, with the part's own chip number: 0 when all hold. -/
def manifestRecords (m : List Byte) (own : Nat) : Nat :=
  let l := manifestRecs m
  if l.any fun r => 4096 ≤ r.chip ∨ (isTree m ∧ r.parent ≠ 0xFFFF ∧ 32768 ≤ r.parent) then 0x0301
  else if ¬ (l.zip l.tail).all (fun p => p.1.chip < p.2.chip) then 0x0303
  else if ¬ (l.map (·.coord)).Nodup then 0x0303
  else if ¬ isTree m ∧ l.any (fun r => (List.range 4).any fun d => dimSize m d ≤ coordAt r.coord d) then 0x0303
  else if l.any fun r => r.twin ≠ 0xFFFF ∧
      (r.twin = r.chip ∨ (l.find? fun x => x.chip = r.twin).map (·.twin) ≠ some r.chip) then 0x0303
  else if isTree m ∧ (
      (l.filter fun r => r.parent = 0xFFFF).length ≠ 1
      ∨ l.any (fun r => ¬ reachesRoot l (l.length + 1) r)
      ∨ l.any (fun r => r.parent ≠ 0xFFFF ∧ (bits r.parent 14 12 = 0 ∨ bits r.parent 14 12 = 7))
      ∨ ¬ ((l.filter fun r => r.parent ≠ 0xFFFF).map (·.parent)).Nodup) then 0x0303
  else if ¬ l.any (fun r => r.chip = own) then 0x0303
  else 0

/-- Whether a rank entry has a reserved bit set (R308, R309). -/
def rankReserved (e : Nat) : Bool := (decide (e < 32768) && e != 0) || (decide (32768 ≤ e) && bits e 14 12 != 0)

/-- The status of a manifest write of at least one byte (R320). -/
def manifestStatus (m : List Byte) (own : Nat) : Nat :=
  if manifestHeader m ≠ 0 then manifestHeader m else manifestRecords m own

/-- The coordinate one step along dimension `d`, up or down, of a grid (R322). -/
def stepCoord (m : List Byte) (x d : Nat) (up : Bool) : Option Nat :=
  let n := dimSize m d
  let c := coordAt x d
  let put (v : Nat) := x - c * 16 ^ d + v * 16 ^ d
  if n ≤ 1 then none
  else if up then
    if c + 1 < n then some (put (c + 1)) else if dimRing m d then some (put 0) else none
  else if 0 < c then some (put (c - 1)) else if dimRing m d then some (put (n - 1)) else none

/-- The dimension and direction a grid port looks in: ports 24 to 27 share group 6. -/
def gridDir (p : Nat) : Nat × Bool :=
  if p < 24 then (p / 8, p / 4 % 2 = 0) else (3, p < 26)

/-- The port at the other end of a grid port's link (R322). -/
def gridPeerPort (p : Nat) : Nat :=
  if p < 24 then (if p / 4 % 2 = 0 then p + 4 else p - 4) else if p < 26 then p + 2 else p - 2

/-- The expected neighbour of port `p` of chip `c`: its chip and its port (R322). -/
def expectedNeighbour (m : List Byte) (c p : Nat) : Option (Nat × Nat) :=
  match recOf m c with
  | none => none
  | some r =>
    if 28 ≤ p then (if r.twin = 0xFFFF then none else some (r.twin, p))
    else if isTree m then
      if p < 4 then (if r.parent = 0xFFFF then none else some (bits r.parent 11 0, 4 * bits r.parent 14 12 + p))
      else ((manifestRecs m).find? fun x => x.parent ≠ 0xFFFF ∧ bits x.parent 11 0 = c ∧ bits x.parent 14 12 = p / 4).map
        fun x => (x.chip, p % 4)
    else
      match stepCoord m r.coord (gridDir p).1 (gridDir p).2 with
      | none => none
      | some x => ((manifestRecs m).find? fun y => y.coord = x).map fun y => (y.chip, gridPeerPort p)

/-- The child of `c`, on the way down to `t`, met in at most `n` parent steps. -/
def childToward (m : List Byte) (c : Nat) : Nat → Nat → Option Nat
  | 0, _ => none
  | n + 1, t =>
    match recOf m t with
    | none => none
    | some r =>
      if r.parent = 0xFFFF then none
      else if bits r.parent 11 0 = c then some (bits r.parent 14 12)
      else childToward m c n (bits r.parent 11 0)

/-- The group and direction from chip `c` towards chip `t` (R323, R324); `none` at `c` itself or outside. -/
def routeDir (m : List Byte) (c t : Nat) : Option (Nat × Bool) :=
  match recOf m c, recOf m t with
  | some rc, some rt =>
    if c = t then none
    else if rc.twin = t then some (7, true)
    else if isTree m then some ((childToward m c (field m 2 2) t).getD 0, true)
    else
      match (List.range 4).find? fun d => coordAt rc.coord d ≠ coordAt rt.coord d with
      | none => none
      | some d =>
        let a := coordAt rc.coord d
        let b := coordAt rt.coord d
        let n := dimSize m d
        let up := if dimRing m d then decide (2 * ((b + n - a) % n) ≤ n) else decide (a < b)
        some (if d = 3 then (6, up) else (2 * d + (if up then 0 else 1), up))
  | _, _ => none

/-- The mask of a group's ports that have an expected neighbour in the route's direction (R325). -/
def routePorts (m : List Byte) (c g : Nat) (up : Bool) : Nat :=
  ((List.range 4).filter fun i => (expectedNeighbour m c (4 * g + i)).isSome
    && (isTree m || g ≠ 6 || decide (i < 2) == up)).foldl (fun a i => a + 2 ^ i) 0

/-- The derived route entry of chip `c` for destination `t` (R325). -/
def derivedRoute (m : List Byte) (c t : Nat) : Nat :=
  if (recOf m t).isNone ∨ (recOf m c).isNone then 0
  else if c = t then 2 ^ 7 + 2 ^ 8
  else match routeDir m c t with
    | some (g, up) => routePorts m c g up + 16 * g + 2 ^ 8
    | none => 2 ^ 8

def State.manifest (s : State) : List Byte := s.blob R.manifest

def State.chip (s : State) : Nat := s.reg R.chipNumber

/-- The part's own coordinates, 0xFFFF without a manifest (R321). -/
def State.coords (s : State) : Nat := ((recOf s.manifest s.chip).map (·.coord)).getD 0xFFFF

/-- The twin's chip number, 0xFFFF without one. -/
def State.twin (s : State) : Nat := ((recOf s.manifest s.chip).map (·.twin)).getD 0xFFFF

/-- The route entry for a destination chip: the written table, else the derived one. -/
def State.route (s : State) (t : Nat) : Nat :=
  if s.blob R.routeTable = [] then derivedRoute s.manifest s.chip t else field (s.blob R.routeTable) (2 * t) 2

/-- The fabric id: the first 16 bytes of the manifest's digest (R320). -/
def State.fabricIdOf (s : State) : List Byte := if s.manifest = [] then zeros 16 else (sha384 s.manifest).take 16

/-- The rank table's entry for a rank (R307). -/
def State.rankEntry (s : State) (r : Nat) : Nat := field (s.blob R.rankTable) (2 * r) 2

/-- The chip of a valid rank. -/
def State.rankChip (s : State) (r : Nat) : Option Nat :=
  if 2 ^ 15 ≤ s.rankEntry r then some (bits (s.rankEntry r) 11 0) else none

/-- The part's own rank: the valid entry that names its chip, 0xFFFF when the table is empty (R309). -/
def State.ownRank (s : State) : Nat :=
  if s.blob R.rankTable = [] then 0xFFFF
  else ((List.range 4096).find? fun r => s.rankChip r = some s.chip).getD 0xFFFF

/-- The lowest port group whose expected neighbour is chip `t` (R317). -/
def State.svcGroup (s : State) (t : Nat) : Option Nat :=
  (List.range 8).find? fun g => (List.range 4).any fun i =>
    (expectedNeighbour s.manifest s.chip (4 * g + i)).map (·.1) = some t

/-! ## Writes to the memories -/

/-- SRAM bytes written with their check bits, no other byte touched (R379). -/
def State.writeSram (s : State) (off : Nat) (d : List Byte) : State :=
  { s with sram := s.sram.writeN off d, sramChk := s.sramChk.writeN off (d.map sramCheck) }

/-- One 64-byte stack word written with its check symbols (R374). -/
def State.writeStack (s : State) (off : Nat) (d : List Byte) : State :=
  { s with dram := s.dram.writeN off d, dramChk := s.dramChk.writeN (off / 8) (rsCheckBytes d) }

/-- One 64-byte word of a space written whole. -/
def State.writeWord (s : State) (space off : Nat) (d : List Byte) : State :=
  if space = 0 then s.writeSram off d else s.writeStack off d

/-- A number of free bytes (R72, R154). -/
def State.freeBytes (s : State) (n : Nat) : List Byte × State :=
  ((List.range n).map fun i => Config.freeByte (s.freeCtr + i), { s with freeCtr := s.freeCtr + n })

/-- Local bytes left undefined: free ones, with valid check codes, and no byte outside the range touched: a stack word that the range
covers in part is decoded and merged, and left as it is where it is uncorrectable (R370, R378). -/
def State.scribble (s : State) (space off n : Nat) : State :=
  let (f, s1) := s.freeBytes n
  if space = 0 then s1.writeSram off f
  else
    let lo := off / 64 * 64
    s1.each (List.range (ceilDiv (off - lo + n) 64)) fun t i =>
      let u := lo + 64 * i
      let (old, _, bad) := rsWord (t.dram.readN u 64) (t.dramChk.readN (u / 8) 8)
      if bad ∧ (u < off ∨ off + n < u + 64) then t
      else t.writeStack u ((List.range 64).map fun j =>
        if off ≤ u + j ∧ u + j < off + n then f.getD (u + j - off) 0 else old.getD j 0)

/-! ## DMA descriptors -/

/-- A DMA descriptor taken apart (R399). -/
structure Desc where
  src : Nat
  dst : Nat
  len : Nat
  next : Nat
  mode : Nat
  flags : Nat
  seg : Nat
  reserved : Nat
  pattern : Nat
  deriving DecidableEq, Repr

def descFields (d : BitVec 512) : Desc :=
  let x := d.toNat
  let f (o n : Nat) : Nat := bits x (8 * (o + n) - 1) (8 * o)
  { src := f 0 8, dst := f 8 8, len := f 16 8, next := f 24 8, mode := f 32 1, flags := f 33 1, seg := f 34 1,
    reserved := f 35 5, pattern := f 40 8 }

def Desc.last (d : Desc) : Bool := bit d.flags 0
def Desc.srcRemote (d : Desc) : Bool := bit d.flags 1
def Desc.dstRemote (d : Desc) : Bool := bit d.flags 2
def Desc.period (d : Desc) : Bool := bit d.flags 3
def Desc.fill (d : Desc) : Bool := d.mode == 1
def Desc.segSize (d : Desc) : Nat := 2 ^ d.seg

/-- Segments of a transfer (R405). -/
def Desc.segs (d : Desc) : Nat := ceilDiv d.len d.segSize

/-- First byte and length of a segment (R405). -/
def Desc.segRange (d : Desc) (i : Nat) : Nat × Nat := (i * d.segSize, min d.segSize (d.len - i * d.segSize))

/-! ## Addresses -/

/-- A global address of the part with its chip number (R301). -/
def State.globalAddr (s : State) (space off : Nat) : Nat := s.chip % 4096 * 2 ^ 52 + space * 2 ^ 48 + off

end Sys2Proof.Machine
end

