-- ==== Sys2Proof/Machine/Ops.lean ====
section
/-! DEFINITION. The shared operations: the event log, raising a fault, originating and merging a quench, retraining a
port, units and power states, the end of a job, forced shutdowns and the resets. -/

namespace Sys2Proof.Machine

/-- What a held P reads (R535). -/
def heldFrame : Nat := 0xFFFFFFFFFFFF

/-- The none value of a class 0x70 detail field (R484, R577). -/
def noDetail : Nat := 2 ^ 64 - 1

/-! ## Job states (R489) -/

/-- Whether the part is in a job: from the accepted start until IDLE. -/
def State.inJob (s : State) : Bool := s.reg R.jobState ≠ 0

/-- Whether the running job's sequence uses a port. -/
def State.seqUses (s : State) (p : Nat) : Bool :=
  s.inJob && (match s.image with | some i => bit i.ports p | none => false)

/-- The absolute slot: frames since frame 0 times 4,096, and the slot. -/
def State.now (s : State) : Nat := s.frame * 4096 + s.slot

/-- Whether the management firmware runs: Kindled or above and no boot or reset under way. -/
def State.awake (s : State) : Bool :=
  (s.power = .kindled || s.power = .lit || s.power = .full) && s.boot = .none

/-! ## Event log (R483 to R485) -/

/-- The 32 bytes of a log entry (R483). -/
def LogEntry.bytes (e : LogEntry) : List Byte :=
  bytesOf 4 e.seq ++ toLE 6 e.frame ++ toLE 2 e.slot ++ toLE 2 e.code ++ toLE 1 e.kind ++ toLE 1 e.unit
    ++ bytesOf 8 e.step ++ bytesOf 8 e.detail

/-- A Glazin port's link is up. -/
def State.gUp (s : State) : GPort → Bool
  | .a => s.reg R.portAUp = 1
  | .b => s.reg R.portBUp = 1

/-- The EVENT frame of a log entry (R462, R463). -/
def State.eventFrame (s : State) (e : LogEntry) : GFrame :=
  { fcsOk := true, etherType := 0x88B5, version := 1, flags := 0, node := 0xFF,
    position := BitVec.ofNat 8 (s.reg R.chainPosition), chainLength := 0, chip := BitVec.ofNat 16 s.chip,
    sequence := e.seq.setWidth 16, status := 0, index := 0, sub := 0, offset := 0, length := 32, total := 0,
    opcode := 4, data := e.bytes }

/-- A frame sent on one Glazin port. -/
def State.sendG (s : State) (p : GPort) (op : Byte) (f : GFrame) : State :=
  { s with gtx := s.gtx ++ [{ port := p, opcode := op, f := f }] }

/-- The EVENT frames of an entry on every Glazin port that is up, unless its class is masked, up to 10,000 frames a
second; an entry that is not sent is counted (R485). -/
def State.sendEvent (s : State) (e : LogEntry) : State :=
  let ports := [GPort.a, GPort.b].filter s.gUp
  if bit (s.reg R.eventMask) (e.code / 4096) ∨ ports = [] ∨ 10000 < s.eventsSent + ports.length then
    s.bump R.eventsUnsent 32
  else
    let s1 := { s with eventsSent := s.eventsSent + ports.length }
    s1.each ports fun t p => t.sendG p 0x04 (s.eventFrame e)

/-- One EVENT frame on a port, unless 10,000 have gone in this second (R485). -/
def State.sendEventOn (s : State) (p : GPort) (f : GFrame) : State :=
  if 10000 ≤ s.eventsSent then s else { s with eventsSent := s.eventsSent + 1 }.sendG p 0x04 f

/-- A new entry in the log, the oldest overwritten when it holds 4,096 (R483), and its EVENT frames. -/
def State.logEntry (s : State) (code kind unit detail : Nat) : State :=
  let e : LogEntry :=
    { seq := BitVec.ofNat 32 (s.reg R.logNextSeq), frame := s.frame % 2 ^ 48, slot := min s.slot 4095, code := code,
      kind := kind, unit := unit % 256, step := BitVec.ofNat 64 (s.reg R.fabricStepCounter),
      detail := BitVec.ofNat 64 detail }
  let full := 4096 ≤ s.log.length
  let s1 := { s with log := (if full then s.log.drop 1 else s.log) ++ [e] }
  let s2 := (s1.setReg R.logCount s1.log.length).bump R.logNextSeq 32
  let s3 := if full then s2.bump R.logOverwritten 32 else s2
  s3.sendEvent e

/-- An event entry (kind 0). -/
def State.event (s : State) (code unit detail : Nat) : State := s.logEntry code 0 unit detail

/-- The detail of a core fault: cores, slot, bundle address and beat count (R484). -/
def coreDetail (logical phys slot addr beat : Nat) : Nat :=
  logical % 1024 + phys % 2048 * 2 ^ 10 + slot % 4 * 2 ^ 21 + addr % 8192 * 2 ^ 23 + beat % 2 ^ 28 * 2 ^ 36

/-- The detail of a class 0x20 entry: slot and clause number (R484). -/
def fabDetail (slot clause : Nat) : Nat := slot % 4096 + clause % 65536 * 2 ^ 12

/-- The detail of a class 0x70 entry: clause number, slot, refusal detail (R484). -/
def jobDetail (clause slot refusal : Nat) : Nat :=
  clause % 65536 + slot % 65536 * 2 ^ 16 + refusal % 2 ^ 32 * 2 ^ 32

/-- The clauses of the active half, and the clause that runs. -/
def State.activeHalf (s : State) : List Clause := if s.reg R.activeHalf = 0 then s.half0 else s.half1

def State.clauseAt (s : State) (i : Nat) : Option Clause := s.activeHalf[i]?

/-- Bits of a clause header (R196). -/
def Clause.number (c : Clause) : Nat := bits c.hdr.toNat 15 0

/-- The number of the running clause, 0xFFFF when none runs. -/
def State.clauseNumber (s : State) : Nat :=
  match s.clauseAt (s.reg R.activeClause) with
  | some c => c.number
  | none => 0xFFFF

/-! ## Messages between parts -/

/-- A 64-byte message header from its bytes. -/
def hdrOf (l : List Byte) : BitVec 512 := ofBytes 512 l

/-- The bytes of a message header. -/
def msgBytes (m : Msg) : List Byte := bytesOf 64 m.hdr

/-- A field of a message header. -/
def mf (m : Msg) (o n : Nat) : Nat := bits m.hdr.toNat (8 * (o + n) - 1) (8 * o)

/-- Link bytes 0 to 7 of a header: data units, destination, source (R227). -/
def linkBytes (units dest src : Nat) : List Byte :=
  toLE 1 units ++ zeros 1 ++ toLE 2 dest ++ toLE 2 src ++ zeros 2

/-- The header of a MGMT message (R486): op, hop count, flood sequence, originator, then the op's bytes 24 to 63. -/
def mgmtHdr (units dest src op hop seq : Nat) (orig : BitVec 64) (rest : List Byte) : BitVec 512 :=
  hdrOf (linkBytes units dest src ++ toLE 1 op ++ toLE 1 hop ++ zeros 2 ++ toLE 4 seq ++ bytesOf 8 orig
    ++ (rest ++ zeros (40 - rest.length)))

/-- A port whose link carries MGMT: any port in UP, held ports included (R267, R330). -/
def State.carriesMgmt (s : State) (p : Nat) : Bool := s.reg (R.linkState p) = 7

/-- The ports that carry MGMT, but for one. -/
def State.mgmtPorts (s : State) (except : Option Nat) : List Nat :=
  (List.range 32).filter fun p => s.carriesMgmt p && decide (except ≠ some p)

/-- A message of the part's own, stamped with its place among all messages. -/
def State.newTx (s : State) (m : Msg) : TxMsg × State :=
  ({ stamp := s.msgStamp, arr := none, held := false, msg := m }, { s with msgStamp := s.msgStamp + 1 })

/-- A message put in a port's transmit queue of the credit classes. -/
def State.queueMsg (s : State) (p : Nat) (m : Msg) : State :=
  let (q, s1) := s.newTx m
  s1.modPort p fun x => { x with txq := x.txq ++ [q] }

/-- A flood identity kept: those of the last 2 s, at most 16,384, oldest dropped (R487). -/
def State.noteFlood (s : State) (orig : BitVec 64) (seq : BitVec 32) : State :=
  let l := (s.floodsSeen ++ [(orig, seq, s.us)]).filter fun x => decide (s.us < x.2.2 + 2000000)
  { s with floodsSeen := l.drop (l.length - 16384) }

/-- Whether a flood is discarded: its identity was seen in the last 2 s, or it is the part's own (R330, R487). -/
def State.knowsFlood (s : State) (orig : BitVec 64) (seq : BitVec 32) : Bool :=
  orig == Config.serial || s.floodsSeen.any fun x => x.1 == orig && x.2.1 == seq && decide (s.us < x.2.2 + 2000000)

/-- A message put in a port's transmit queue as it came into the part: its stamp stays (R252). -/
def State.queueAs (s : State) (p : Nat) (q : TxMsg) : State := s.modPort p fun x => { x with txq := x.txq ++ [q] }

/-- A MGMT flood the part creates: its number is new, its identity is kept, and it goes out on every port. -/
def State.flood (s : State) (units : List (BitVec 512)) (op : Nat) (rest : List Byte) : State :=
  let seq := s.floodSeq + 1
  let m : Msg := { vc := 6, period := decide (op = 2), hdr := mgmtHdr units.length 0xFFFF s.coords op 0 seq.toNat Config.serial rest,
                   units := units }
  let s1 := ({ s with floodSeq := seq }).noteFlood Config.serial seq
  s1.each (s.mgmtPorts none) fun t p =>
    if op = 2 then t.modPort p fun x => { x with quenchTx := x.quenchTx ++ [m] } else t.queueMsg p m

/-- The 64-byte discovery units and rest: 32 identity blocks and the op's bytes 24 to 63 (R333, R488). -/
def State.discoveryUnits (s : State) : List (BitVec 512) :=
  (List.range 32).map fun p => ofBytes 512 (s.blob (R.peerIdentity p))

/-- A discovery message that the management firmware reports to the control nodes, the last 4,096 kept: as EVENT frames on the Glazin
ports that are up, whose entries are free, within the 10,000 frames of a second (R333, R485; log entry 8). -/
def State.report (s : State) (m : Msg) : State :=
  let s1 := { s with reports := (s.reports ++ [m]).drop (s.reports.length + 1 - 4096) }
  s1.each ([GPort.a, GPort.b].filter s.gUp) fun t p =>
    t.each (Config.discoveryEvents (msgBytes m ++ m.units.flatMap (bytesOf 64))) fun u l =>
      u.sendEventOn p { u.eventFrame ⟨0, 0, 0, 0, 0, 0, 0, 0⟩ with length := l.length, data := l }

/-- The part's own discovery flood (R333, R488); its own neighbours are reported by the same message. -/
def State.discover (s : State) : State :=
  let rest := toLE 2 s.chip ++ toLE 2 s.coords
  let m : Msg := { vc := 6, period := false, units := s.discoveryUnits,
                   hdr := mgmtHdr 32 0xFFFF s.coords 1 0 (s.floodSeq + 1).toNat Config.serial rest }
  (s.flood s.discoveryUnits 1 rest).report m

/-- A neighbour's identity has changed: without a manifest the part floods at once (R333). -/
def State.peerChanged (s : State) : State := if s.manifest = [] ∧ s.awake then s.discover else s

/-! ## Reply slots (R312) -/

/-- Whether a background write that is queued, or waits for room, touches bytes [lo, hi) of space 0. -/
def State.bgTouches (s : State) (lo hi : Nat) : Bool :=
  let x := s.region (lo / 2 ^ 30)
  (x.bg ++ x.bgWaiting).any fun y => decide (y.off < hi ∧ lo < y.off + 64) &&
    (List.range 64).any fun i => y.mask.getLsbD i && decide (lo ≤ y.off + i ∧ y.off + i < hi)

/-- Whether a reply slot is in use: its answer has not come, or has not been written yet (R312). -/
def State.slotLive (s : State) (x : ReplySlot) : Bool :=
  !x.answered || (if x.kind = 3 then (s.chan x.core).got.any (·.1 = x.loc) else s.bgTouches x.loc (x.loc + 64 * x.units))

/-- Reply slots in use (R312, R338). -/
def State.slotsUsed (s : State) : Nat := (s.slots.filter s.slotLive).length

/-- A reply slot reserved; those whose reply has been written are free (R312). -/
def State.reserve (s : State) (x : ReplySlot) : State := { s with slots := s.slots.filter s.slotLive ++ [x] }

/-! ## Units: regions, stacks, port groups (R450) -/

/-- The lit regions, in order. -/
def State.litList (s : State) : List Nat := (List.range 16).filter fun r => (s.region r).lit

def State.litMask (s : State) : Nat := s.litList.foldl (fun a r => a + 2 ^ r) 0

def State.stacksOn (s : State) : List Nat := (List.range 12).filter fun k => (s.stack k).awake

/-- The power state that the units which are on give: Kindled, Lit or Full (R445). -/
def State.restate (s : State) : State :=
  if s.power = .cold ∨ s.power = .banked then s
  else if s.litList.length = 16 ∧ s.stacksOn.length = 12 ∧ s.groupsOn = 0xFF then { s with power := .full }
  else if s.litList = [] ∧ s.stacksOn = [] ∧ s.groupsOn = 0 then { s with power := .kindled }
  else { s with power := .lit }

/-- A region's ceiling and target give its frequency in kHz; during a job the target is the job frequency (R428). -/
def State.freqFor (s : State) (r : Nat) : Nat :=
  let target := if s.inJob then 1050000 else s.reg (R.targetStep r) * 12500
  min target (s.reg (R.ceilingKhz r))

/-- A region lit: powered, in reset until its PLL locks (R451). -/
def State.lightRegion (s : State) (r : Nat) : State :=
  ({ s with litOrder := s.litOrder.filter (· ≠ r) ++ [r] }.modRegion r fun x =>
    { x with lit := true, inReset := true, stopped := false }).restate

/-- A region unlit: cores and clock off, a pending frequency change cancelled (R435, R446). -/
def State.unlightRegion (s : State) (r : Nat) : State :=
  (({ s with litOrder := s.litOrder.filter (· ≠ r) }.modRegion r fun x =>
    { x with lit := false, inReset := false, running := false, stalls := [], shortStopTo := none, shadowTo := none,
             shadowLocked := false, frameHeld := false }).setReg (R.freqKhz r) 0).restate

/-- Unit order of an addition: the lowest region first when none is lit, then stacks, groups, the other regions (R450). -/
def State.orderUnits (s : State) (regs stks grps : List Nat) : List PowerUnit :=
  let first := if s.litList = [] then regs.take 1 else []
  let rest := if s.litList = [] then regs.drop 1 else regs
  first.map .region ++ stks.map .stack ++ grps.map .group ++ rest.map .region

/-- Unit order of a removal: the reverse, so that the region lit first is unlit last (R450). -/
def State.orderRemoval (s : State) (regs stks grps : List Nat) : List PowerUnit :=
  let first := s.litOrder.take 1
  let rest := regs.filter fun r => ¬ first.contains r
  rest.reverse.map .region ++ grps.reverse.map .group ++ stks.reverse.map .stack
    ++ (regs.filter fun r => first.contains r).map .region

/-- A stack that waits for an access. -/
def PowerUnit.isAccess : PowerUnit → Bool
  | .access _ => true
  | _ => false

/-- Whether units that make the part Lit or Full may be added: both blades, REFCLK, a valid grade (R30, R57, R451). -/
def State.canLight (s : State) : Bool := s.reg R.bladePresent == 3 && s.refclk && s.reg R.gradeState == 0

/-- The units wanted by region_light, stack_active and group_enable: those missing wait for admission in order, those
not wanted wait for removal. -/
def State.askUnits (s : State) : State :=
  let wantR := bitsSet (s.reg R.regionLight) 16
  let wantS := bitsSet (s.reg R.stackActive) 12
  let wantG := bitsSet (s.reg R.groupEnable) 8
  let onG := bitsSet s.groupsOn 8
  { s with
    admitting := s.orderUnits (wantR.filter fun r => ¬ (s.region r).lit) (wantS.filter fun k => ¬ (s.stack k).awake)
      (wantG.filter fun g => ¬ onG.contains g) ++ s.admitting.filter PowerUnit.isAccess
    remove := s.orderRemoval (s.litList.filter fun r => ¬ wantR.contains r)
      (s.stacksOn.filter fun k => ¬ wantS.contains k) (onG.filter fun g => ¬ wantG.contains g) }

/-! ## Raising a fault, and the quench (R163, R534 to R550) -/

/-- What a fault leads to (R549): a plain event, a replay, core sparing on repeat, a held record on a repeat at the
same address, a held record, the job's end. -/
inductive Act where
  | event
  | replay
  | core
  | mem
  | held
  | ends
  deriving DecidableEq, Repr

/-- The first action of each fault whose result is a quench (R549). -/
def faultAct (code : Nat) : Act :=
  if [0x1001, 0x1002, 0x1004, 0x1005, 0x1006, 0x1007, 0x7001].contains code then .core
  else if [0x4001, 0x4002].contains code then .mem
  else if code = 0x1081 then .held
  else if [0x1003, 0x1008, 0x2010, 0x2011, 0x2012, 0x2013, 0x2020, 0x2024, 0x2030, 0x3001, 0x3006, 0x4004, 0x5006, 0x5008,
      0x5020, 0x5021, 0x5022, 0x7002, 0x7040, 0x7049].contains code then .replay
  else if code = 0x7003 then .ends
  else .event

/-- The replay step of a fault raised now: the step in frame n − 2, or first_step before the job's first frames (R541). -/
def State.replayStepNow (s : State) : BitVec 64 :=
  if s.frame < s.jobFrame0 + 2 then BitVec.ofNat 64 (s.reg R.firstStep)
  else s.stepHist.getD 2 (BitVec.ofNat 64 (s.reg R.firstStep))

/-- The attempt a quench of step `st` carries: one more while that step is replayed, else 0 (R547). -/
def State.attemptFor (s : State) (st : BitVec 64) : Nat :=
  match s.replaying with
  | some (r, a) => if r = st then a + 1 else 0
  | none => 0

/-- The record's registers as the dictionary shows them (R562). -/
def State.showRec (s : State) : State :=
  match s.qrec with
  | some q => (((((s.setReg R.replayStep q.s.toNat).setReg R.replayAttempt q.a).setReg R.quenchFrame q.q).setReg
      R.replayFrame q.p).setReg R.quenchOrigin q.origin).setReg R.quenchCause q.cause
  | none => (((((s.setReg R.replayStep 0).setReg R.replayAttempt 0).setReg R.quenchFrame 0).setReg
      R.replayFrame 0).setReg R.quenchOrigin 0xFFFF).setReg R.quenchCause 0

/-- The later of two replay frames, held counting as latest, except that a release replaces held (R540). -/
def mergeP (old new : Nat) (release : Bool) : Nat :=
  if old = heldFrame ∧ release then new else max old new

/-- Two records of one step and attempt merged (R540): Q the earlier unless it has passed, P the later, end either; an
end that comes in brings its cause. -/
def QRec.merge (old new : QRec) (frame : Nat) : QRec :=
  let lo := min old.q new.q
  let q := if frame < lo then lo else max old.q new.q
  { old with q := q, stop := (if old.stop < frame then old.stop else min old.stop (max q (frame + 1))),
             p := mergeP old.p new.p new.release, isEnd := old.isEnd || new.isEnd,
             cause := if new.isEnd && !old.isEnd then new.cause else old.cause }

/-- The start abandoned: no unit is added any more and the units the start asked for go (R515, R540). -/
def State.abandonStart (s : State) : State :=
  ((s.setReg R.regionLight s.formerLight).setReg R.stackActive s.formerStacks).askUnits

/-- A record taken or merged by the rules of R540; the second answer says whether the message is forwarded. -/
def State.takeRecord (s : State) (m : QRec) (ep : BitVec 2) : State × Bool :=
  match s.reg R.jobState with
  | 1 =>
    if s.joinWait.isSome then
      if m.release ∧ m.p = s.reg R.startFrame then ({ s with epoch := ep, joinWait := some (m.a + 1) }, true)
      else
        let s1 := ((s.setReg R.jobState 0).setReg R.joinStep 0xFFFFFFFFFFFFFFFF).abandonStart
        (({ s1 with joinWait := none }).event 0x7076 0xFF noDetail, true)
    else (s, true)
  | 2 | 3 =>
    let late := s.reg R.jobState = 2 ∧ m.q ≤ s.frame
    let m' := if late then { m with stop := s.frame + 1 } else m
    let log (t : State) : State := if late then t.event 0x7071 0xFF noDetail else t
    match s.qrec with
    | none => if s.reg R.jobState = 2 then (log ({ s with qrec := some m' }).showRec, true) else (s, true)
    | some r =>
      if m.s.toNat < r.s.toNat ∨ (m.s = r.s ∧ m.a < r.a) then (s, false)
      else if m.s = r.s ∧ m.a = r.a then (({ s with qrec := some (r.merge m s.frame) }).showRec, true)
      else if s.reg R.jobState = 3 then (({ s with qrec := some { m with stop := r.stop }, epoch := ep }).showRec, true)
      else (log ({ s with qrec := some m' }).showRec, true)
  | _ => (s, true)

/-- Bytes 24 to 63 of a QUENCH (R535). -/
def QRec.bytes (q : QRec) (ep : BitVec 2) : List Byte :=
  toLE 2 q.origin ++ toLE 2 q.cause ++ toLE 6 q.q ++ toLE 6 q.p ++ bytesOf 8 q.s ++ toLE 1 q.a
    ++ toLE 1 (q.isEnd.toNat + 2 * q.defer.toNat + 4 * q.release.toNat) ++ toLE 1 ep.toNat ++ zeros 13

/-- The request epoch in force from a record's Q: one more until the part has stopped for that step and attempt (R535,
R538). -/
def State.epochFromQ (s : State) (q : QRec) : BitVec 2 :=
  let same : Bool := match s.qrec with | some r => decide (r.s = q.s ∧ r.a = q.a) | none => true
  if s.reg R.jobState = 3 ∧ same then s.epoch else s.epoch + 1

/-- A QUENCH the part creates: flooded, and taken as its own record (R534, R540). -/
def State.sendQuench (s : State) (q : QRec) : State :=
  let q := { q with origin := s.chip }
  let s1 := s.flood [] 2 (q.bytes (s.epochFromQ q))
  (s1.takeRecord q (s.epochFromQ q)).1

/-- Slots apart of a width's flits (R218). -/
def slotStride (width : Nat) : Nat := match width with | 4 => 1 | 2 => 2 | 3 => 2 | _ => 16

/-- Whether a port still has a slot in this frame in which a QUENCH raised now can go. -/
def State.sendsYet (s : State) (p : Nat) : Bool :=
  let n := slotStride (s.reg (R.width p))
  decide (ceilDiv (if (s.port p).sentAt = some s.now then s.slot + 1 else s.slot) n * n < 4096)

/-- Q of a quench originated now: three frames after that in which its QUENCH is first transmitted (R534). -/
def State.quenchFrameNow (s : State) : Nat :=
  let l := s.mgmtPorts none
  if l = [] ∨ l.any s.sendsYet then s.frame + 3 else s.frame + 4

/-- A quench originated for a cause: Q at frame n + 3, P later by replay_delay_frames or held; an attempt at
replay_limit ends the job. A QUENCHED part's carries its record's step and attempt (R534, R541, R543, R547, R549). -/
def State.originate (s : State) (cause : Nat) (isEnd held : Bool) : State :=
  let own := if s.reg R.jobState = 3 then s.qrec else none
  let st := match own with | some r => r.s | none => s.replayStepNow
  let a := match own with | some r => r.a | none => s.attemptFor st
  let limit := decide (own.isNone ∧ s.reg R.replayLimit ≤ a)
  let q := s.quenchFrameNow
  let s1 := if limit then s.logEntry 0x7072 2 0xFF noDetail else s
  s1.sendQuench
    { s := st, a := a, q := q, p := if held then heldFrame else q + s.reg R.replayDelayFrames,
      isEnd := isEnd || limit, defer := false, release := false, stop := q, origin := s.chip,
      cause := if limit then 0x7072 else cause }

/-! ## Core sparing (R52) -/

/-- The masks of a region's good and failed cores. -/
def State.goodMask (s : State) (r : Nat) : Nat := leNat (s.blob (R.goodMask r))

def State.failedMask (s : State) (r : Nat) : Nat := leNat (s.blob (R.failedMask r))

/-- The usable cores of a region: good and without a failure mark. -/
def State.usable (s : State) (r : Nat) : List Nat :=
  (List.range 72).filter fun p => bit (s.goodMask r) p && !bit (s.failedMask r) p

/-- A core with the image's instruction memory, windows and stream bindings, all else at its Job start value (R120). -/
def State.loadedCore (s : State) (c : Nat) : Core :=
  match s.image with
  | none => {}
  | some i =>
    let st := Tab.get [] i.streams c
    { imem := (Tab.get [] i.code c).zipIdx.map fun x => (x.2, x.1)
      windows := (Tab.get [] i.windows c).zipIdx.map fun x => (x.2, x.1)
      sendBind := (st.take 8).zipIdx.map fun x => (x.2, x.1)
      landBind := (st.drop 8).zipIdx.map fun x => (x.2, x.1) }

/-- Logical core `c` spared: the lowest spare takes its number, the failed core is marked, the image is reloaded and
CORE_SPARED is logged; with no spare left the answer is `none` (R52, R54). -/
def State.spare (s : State) (c : Nat) : Option State :=
  let r := c / 64
  let x := s.region r
  match x.spares with
  | [] => none
  | new :: rest =>
    let old := x.map.getD (c % 64) 0
    let s1 := s.setBlob (R.failedMask r) (toLE 9 (setBit (s.failedMask r) old true))
    let s2 := s1.modRegion r fun y => { y with map := y.map.set (c % 64) new, spares := rest }
    let s3 := s2.modCore c fun k =>
      let l := s.loadedCore c
      { k with imem := l.imem, windows := l.windows, sendBind := l.sendBind, landBind := l.landBind }
    some ((s3.bump R.sparesUsedJob 16).event 0x7074 0xFF (jobDetail 0xFFFF 0xFFFF (0xFFFF0000 + c)))

/-! ## Class buffers and credits -/

/-- The class whose order and credits a channel shares: REQ, RSP, SVC, MGMT, TIME (R252). -/
def classOf (vc : Nat) : Nat := match vc with | 1 | 2 => 1 | 3 | 4 => 3 | _ => vc

/-- Credit of a port for a class and kind: grant less use (R246). -/
def Port.credit (x : Port) (vc kind : Nat) : Nat :=
  let i := 2 * (vc - 1) + kind
  (Tab.get 0 x.grantIn i - Tab.get 0 x.used i).toNat

/-- A message of a class buffer freed: its entries become new grants (R246, R247). -/
def State.freeHeld (s : State) (p : Nat) (stamp : Nat) : State :=
  match (s.port p).held.find? fun x => x.1 = stamp with
  | none => s
  | some (_, m) =>
    s.modPort p fun x =>
      let i := 2 * (m.vc - 1)
      let n := m.units.length
      { x with
        held := x.held.filter fun y => y.1 ≠ stamp
        grantOut := Tab.set (Tab.set x.grantOut i (Tab.get 0 x.grantOut i + 1)) (i + 1)
          (Tab.get 0 x.grantOut (i + 1) + BitVec.ofNat 16 n)
        rxHdr := Tab.set x.rxHdr m.vc (Tab.get 0 x.rxHdr m.vc - 1)
        rxData := Tab.set x.rxData m.vc (Tab.get 0 x.rxData m.vc - n) }

/-- A message has left the part. -/
def State.left (s : State) (q : TxMsg) : State :=
  match q.arr, q.held with
  | some p, true => s.freeHeld p q.stamp
  | _, _ => s

/-! ## Routing (R323 to R329) -/

/-- The channel of a hop: kept where dimension and direction stay, .hi on a dateline link, else .lo (R327). -/
def State.hopVc (s : State) (q : TxMsg) (g : Nat) (up : Bool) : Nat :=
  let m := s.manifest
  let lo := classOf q.msg.vc
  if isTree m ∨ g = 7 then lo
  else
    let d := if g = 6 then 3 else g / 2
    let x := coordAt s.coords d
    let cross := dimRing m d && (if up then x + 1 == dimSize m d else x == 0)
    let same := match q.arr with
      | some p => decide (p < 28) && (gridDir p).1 == d && (gridDir p).2 != up
      | none => false
    if cross then lo + 1 else if same then q.msg.vc else lo

/-- The ports a message may take, its new channel, and its group: the route entry's mask, or for SVC the ports of the lowest group that
faces its target, of which the entry leaves those of its mask where it names that group; none where the entry is not valid (R317, R325,
R328, R329; that an entry of another group narrows no SVC: DEDUCED, log entry 68). -/
def State.routeChoice (s : State) (q : TxMsg) : Option (List Nat × Nat × Nat) :=
  let dest := mf q.msg 2 2 % 4096
  let e := s.route dest
  if ¬ bit e 8 ∨ bit e 7 then none
  else if q.msg.vc = 5 then
    (s.svcGroup dest).map fun g =>
      ((List.range 4).filterMap fun i =>
        if (expectedNeighbour s.manifest s.chip (4 * g + i)).map (·.1) = some dest ∧ (bits e 6 4 = g → bit e i) then
          some (4 * g + i)
        else none, 5, g)
  else
    let g := bits e 6 4
    let up := match routeDir s.manifest s.chip dest with | some (_, u) => u | none => true
    some ((bitsSet (bits e 3 0) 4).map (4 * g + ·), s.hopVc q g up, g)

/-- Whether a port may be offered a message of a channel: verified, UP, the class not disabled by the neighbour (R328). -/
def State.offers (s : State) (p vc : Nat) : Bool :=
  s.reg (R.linkState p) = 7 && s.reg (R.portMode p) = 1 && Tab.get 0 (s.port p).adv (2 * (vc - 1)) != 0

/-- Credits for a message beyond those that the messages already queued on the port will take. -/
def State.creditsFor (s : State) (p : Nat) (m : Msg) : Bool :=
  let x := s.port p
  let l := x.txq.filter fun y : TxMsg => y.msg.vc = m.vc
  decide (l.length + 1 ≤ x.credit m.vc 0)
    && decide ((l.map fun y : TxMsg => y.msg.units.length).sum + m.units.length ≤ x.credit m.vc 1)

/-- The ports of a list from the one after the last used on. -/
def rotateAfter (l : List Nat) (last : Option Nat) : List Nat :=
  match last with
  | some p => l.filter (p < ·) ++ l.filter (· ≤ p)
  | none => l

/-- A message offered to the ports of its route: queued on the first that has the credits, waiting where none has, and
`none` where it is to be discarded (R328, R329). -/
def State.offerMsg (s : State) (q : TxMsg) : Option State :=
  match s.routeChoice q with
  | none => none
  | some (ports, vc, g) =>
    let m := { q.msg with vc := vc }
    let key := 8 * vc + g
    let ok := ports.filter fun p => s.offers p vc
    if ok = [] then none
    else match (rotateAfter ok (match Tab.get 0 s.routeLast key with | 0 => none | n + 1 => some n)).find? fun p => s.creditsFor p m with
      | some p =>
        let q1 := { q with msg := m }
        some ({ s.modPort p fun x => { x with txq := x.txq ++ [q1] } with routeLast := Tab.set s.routeLast key (p + 1) })
      | none => some { s with waiting := s.waiting ++ [q] }

/-- A discarded message counted, and logged once per destination and frame (R329). -/
def State.noteDrop (s : State) (q : TxMsg) : State :=
  let dest := mf q.msg 2 2 % 4096
  let s1 := ((s.bump R.routeDrops 32).setReg R.routeDropLast dest).left q
  if s.dropLogged.contains (dest, s.frame) then s1
  else
    ({ s1 with dropLogged := (dest, s.frame) :: s.dropLogged.filter fun d => d.2 = s.frame }).event 0x2032 (q.arr.getD 0)
      (fabDetail s.slot s.clauseNumber)

/-! ## Weight repair (R551) -/

/-- The header of a REQ or SVC message (R313): op, identifier, target address without chip, units. -/
def reqHdr (units dest src op ident target n : Nat) : BitVec 512 :=
  hdrOf (linkBytes units dest src ++ toLE 1 op ++ zeros 3 ++ toLE 4 ident ++ toLE 8 (target % 2 ^ 52) ++ toLE 1 n
    ++ zeros 39)

/-- A space-0 offset inside the weight image (R499). -/
def State.inWeights (s : State) (off : Nat) : Bool :=
  match s.image with
  | some i => i.weights.any fun w => w.1 ≤ off ∧ off < w.1 + w.2
  | none => false

/-- The SVC read of a damaged weight word from the twin's custody copy, and whether it could be asked for: not without a twin that SVC
reaches, and not where the message is discarded, which is counted and logged like any other (R317, R329, R551). It waits behind another
repair, and while no reply slot is free (R312). -/
def State.askTwin (s : State) (off : Nat) : Bool × State :=
  let w := off / 64 * 64
  if (s.svcGroup s.twin).isNone then (false, s)
  else if s.repair.isSome then
    (true, if s.repair = some w ∨ s.repairWait.contains w then s else { s with repairWait := s.repairWait ++ [w] })
  else if 1024 ≤ s.slotsUsed then (true, { s with repair := some w, repairDue := true })
  else
    let ident := s.nextIdent % 2 ^ 30
    let (q, s1) := s.newTx { vc := 5, period := false, hdr := reqHdr 0 s.twin s.chip 1 ident (2 ^ 48 + w) 1, units := [] }
    let slot : ReplySlot := { ident := BitVec.ofNat 32 ident, chip := s.twin, core := 0, q := 0, tag := 0, loc := w, units := 1, kind := 5 }
    match s1.offerMsg q with
    | some s2 => (true, { s2 with repair := some w, repairDue := false, nextIdent := s.nextIdent + 1 }.reserve slot)
    | none => (false, { s1 with repairDue := false, nextIdent := s.nextIdent + 1 }.noteDrop q)

/-! ## Raising -/

/-- The core fault entries of R164. -/
def State.noteCoreFault (s : State) (code : Nat) (at? : Option (Nat × Nat)) : State :=
  if code / 256 = 0x10 then
    (s.setReg R.lastCoreFault code).setReg R.lastFaultCore ((at?.map (·.1)).getD 0xFFFF)
  else s

/-- The quench of a cause fault by its row of R549. `at?` is the logical core and bundle address of a core fault,
`addr` the global address of an uncorrectable word; `detail` the fault's own, which SPARE_EXHAUSTED repeats. -/
def State.actOn (s : State) (code detail : Nat) (at? : Option (Nat × Nat)) (addr : Nat) : State :=
  match faultAct code with
  | .event => s
  | .replay => s.originate code false false
  | .held => s.originate code false true
  | .ends => s.originate code true false
  | .mem =>
    let again := s.repaired.contains addr
    let s1 := { s with repaired := addr :: s.repaired }
    if code = 0x4001 ∧ ¬ again ∧ s.inWeights (addr % 2 ^ 48) then
      let (asked, s2) := s1.askTwin (addr % 2 ^ 48)
      s2.originate code false !asked
    else s1.originate code false again
  | .core =>
    match at? with
    | none => s.originate code false false
    | some (c, pc) =>
      let st := s.replayStepNow
      let a := s.attemptFor st
      let seen (n : Nat) := s.faultHist.contains (code, c, pc, st, n)
      let s1 := { s with faultHist := (code, c, pc, st, a) :: s.faultHist }
      if a = 2 ∧ seen 1 ∧ seen 0 then s1.originate code true false
      else if a = 1 ∧ seen 0 then
        match s1.spare c with
        | some s2 => s2.originate code false false
        | none => ((s1.logEntry 0x1081 2 (c / 64) detail).noteCoreFault 0x1081 at?).originate 0x1081 false true
      else s1.originate code false false

/-- A secondary memory fault: its address is kept, and a word of the weight image is repaired like the cause's, or its record held
(R549, R551). -/
def State.secondMem (s : State) (code addr : Nat) : State :=
  let s1 := { s with repaired := addr :: s.repaired }
  if code = 0x4001 ∧ s.inWeights (addr % 2 ^ 48) then
    match s1.askTwin (addr % 2 ^ 48) with
    | (true, t) => t
    | (false, t) => t.originate code false true
  else s1

/-- A fault raised. In a recovery run the first is its cause and fails it (R163, R556; DEDUCED, log entry 45). In a job the first of a step
is the cause and quenches by its row of R549; one raised while QUENCHED or ENDING, or in the same step, is secondary (R163, R538), except
that the job's end and a held record still reach the record. Outside a job it is logged as an event (R382). -/
def State.raise (s : State) (code unit detail : Nat) (at? : Option (Nat × Nat) := none) (addr : Nat := 0) : State :=
  if s.reg R.runState = 2 then
    if s.runFailed then (s.logEntry code 2 unit detail).noteCoreFault code at?
    else { ((s.logEntry code 1 unit detail).setReg R.lastFaultCause code).noteCoreFault code at? with runFailed := true }
  else if s.reg R.jobState = 0 ∨ (s.reg R.jobState = 1 ∧ faultAct code = .event) then
    (s.event code unit detail).noteCoreFault code at?
  else
    let secondary := s.reg R.jobState = 3 ∨ s.reg R.jobState = 4 ∨ s.firstFault
    if secondary then
      let s1 := (s.logEntry code 2 unit detail).noteCoreFault code at?
      if s.reg R.jobState ≠ 4 ∧ s.qrec.isSome ∧
          (faultAct code = .held ∨ faultAct code = .ends ∨ (faultAct code = .mem ∧ s.repaired.contains addr)) then s1.actOn code detail at? addr
      else if s.reg R.jobState ≠ 4 ∧ s.qrec.isSome ∧ faultAct code = .mem then s1.secondMem code addr
      else s1
    else
      let s1 := ((s.logEntry code 1 unit detail).setReg R.lastFaultCause code).noteCoreFault code at?
      ({ s1 with firstFault := true }).actOn code detail at? addr

/-! ## Ports (R257) -/

/-- Type of a 272-byte flit (R224). -/
def flitType (f : BitVec 2176) : Nat := bits f.toNat 3 0

/-- Whether a port holds a credit-class message, in its replay buffer or, whole or in part, its class buffers (R258). -/
def Port.holdsMsg (x : Port) : Bool :=
  x.held ≠ [] || x.rxMsg.isSome || x.replay.any (fun e => flitType e.flit = 2 || flitType e.flit = 3)

/-- LINK_DOWN when a port in UP leaves it and the job needs it (R258). -/
def State.leaveUp (s : State) (p : Nat) : State :=
  if s.reg (R.linkState p) = 7 ∧ s.inJob ∧ (s.seqUses p ∨ (s.port p).holdsMsg) then
    s.raise 0x2020 p (fabDetail s.slot s.clauseNumber)
  else s

/-- A port's state after it has dropped its buffers, credits, sequence numbers and delay exchanges; its landing buffer stays (R257,
R517). -/
def Port.cleared (x : Port) : Port := { pdelaySeq := x.pdelaySeq, landing := x.landing }

/-- The link entries of a port that is in a given training state with no mode yet. -/
def State.linkEntries (s : State) (p st width : Nat) : State :=
  (((((s.setReg (R.linkState p) st).setReg (R.portMode p) 0).setReg (R.width p) width).setReg (R.lanesGood p) 0).setReg
    (R.heldReason p) 0).setReg (R.pathDelay p) 0

/-- A port's buffers are discarded: messages that wait elsewhere in the part but stand in its class buffers go with them (R257), one
that it was sending is lost and leaves the class buffer that held it, and those of other ports or of the part itself that were
queued on it, in channels 1 to 5, wait for a port anew (R328). -/
def State.dropBuffers (s : State) (p : Nat) : State :=
  let mine (q : TxMsg) : Bool := q.held && q.arr == some p
  let back := (s.port p).txq.filter fun q => q.msg.vc ≤ 5
  let wait := ((s.waiting ++ back).filter fun q => !mine q).mergeSort fun x y => decide (x.stamp ≤ y.stamp)
  let s1 := { s with waiting := wait }.each (List.range 32) fun t r =>
    if (t.port r).txq.any mine then t.modPort r fun x => { x with txq := x.txq.filter fun q => !mine q } else t
  match (s.port p).continOf with
  | some q => s1.left q
  | none => s1

/-- A retrain: buffers and credits are discarded and the port enters SEEK (R257); one out of OFF is a first training, and no retrain that
retrains_job counts (R253, R270). -/
def State.retrain (s : State) (p : Nat) : State :=
  let s1 := (s.leaveUp p).dropBuffers p
  let s2 := (s1.setPort p { (s1.port p).cleared with dark := false }).linkEntries p 2 1
  let s3 := s2.bump (R.trainAttempts p) 32
  (if s.reg (R.linkState p) = 0 then s3 else s3.bump (R.retrainsJob p) 32).setReg (R.readyOffsetMeasured p) 0

/-- A port that is not enabled: dark, in OFF, with no identity received (R253, R270, R333). -/
def State.portOff (s : State) (p : Nat) : State :=
  let s1 := (s.leaveUp p).dropBuffers p
  let s2 := (((s1.setPort p { (s1.port p).cleared with dark := true }).linkEntries p 0 0).setBlob (R.peerIdentity p) []).setReg
    (R.readyOffsetMeasured p) 0
  if s.blob (R.peerIdentity p) = [] then s2 else s2.peerChanged

/-- Every enabled port, in a list, trained anew. -/
def State.retrainAll (s : State) (l : List Nat) : State :=
  s.each l fun t p => if bit (t.reg R.portEnable) p then t.retrain p else t.portOff p

/-- A port group enabled or disabled: its ports retrain (R448). -/
def State.setGroup (s : State) (g : Nat) (on : Bool) : State :=
  let s1 := ({ s with groupsOn := setBit s.groupsOn g on, resetOwed := s.resetOwed.filter fun p => p / 4 ≠ g }).restate
  s1.each ((List.range 4).map (4 * g + ·)) fun t p => if t.reg (R.linkState p) = 0 then t else t.retrain p

/-- One unit added. -/
def State.addUnit (s : State) : PowerUnit → State
  | .region r => s.lightRegion r
  | .stack k => (s.modStack k fun x => { x with awake := true, wakePending := false }).restate
  | .group g => s.setGroup g true
  | .access k => s.modStack k fun x => { x with wakePending := true }

/-- Whether a stack was accessed in the last 1 ms (R447). -/
def Stack.recent (x : Stack) (us : Nat) : Bool := match x.lastUse with | some t => decide (us < t + 1000) | none => false

/-- One unit removed; a stack returns to self-refresh 1 ms after its last access (R447, R454). -/
def State.dropUnit (s : State) : PowerUnit → State
  | .region r => s.unlightRegion r
  | .stack k => (s.modStack k fun x => { x with awake := false, wakePending := x.recent s.us }).restate
  | .group g => s.setGroup g false
  | .access k => s.modStack k fun x => { x with wakePending := false }

/-- Accepted port resets that waited for the retrain of a group which is no longer being enabled: the ports retrain now (R519). -/
def State.payResets (s : State) : State :=
  let due := s.resetOwed.filter fun p => !s.admitting.contains (.group (p / 4))
  if due = [] then s
  else { s with resetOwed := s.resetOwed.filter fun p => s.admitting.contains (.group (p / 4)) }.each due fun t p =>
    if t.reg (R.linkState p) = 0 then t else t.retrain p

/-- Every unit not wanted removed at once, as an exempt fall does. -/
def State.dropAll (s : State) : State :=
  let s1 := s.askUnits
  let s2 := (({ s1 with remove := [], admitting := [] }).each s1.remove State.dropUnit).payResets
  s2.each (List.range 12) fun t k =>
    if (t.stack k).wakePending then t.modStack k fun x => { x with wakePending := false } else t

/-- An exempt fall: input power falls to 60 W or less at once, and the fall is counted (R40). -/
def State.exempt (s : State) : State :=
  { (s.bump R.exemptFalls 32).setReg R.governorState 4 with h := min s.h 60000, load := min s.load 60000, ballast := 0 }

/-! ## Frequency changes (R428 to R434) -/

/-- The frequency a lit region is to run at, in kHz: between jobs the lower of target and ceiling; in a job 1,050 MHz, or the
lowest ceiling of a lit region below that, for every region, but never while scheduled traffic flows: the move follows the
quench (R428, R430). -/
def State.wantKhz (s : State) (r : Nat) : Nat :=
  if s.reg R.jobState = 2 then
    let f := s.reg (R.freqKhz r)
    if 1050000 ≤ f then 1050000 else max f (min 1050000 (s.reg (R.ceilingKhz r)))
  else if s.inJob then (s.litList.map fun q => s.reg (R.ceilingKhz q)).foldl min 1050000
  else s.freqFor r

/-- Whether changes are short stops (R431). -/
def State.shortStops (s : State) : Bool :=
  s.reg R.freqChangeMode == 1 || (s.reg R.freqChangeMode == 0 && decide (s.litList.length ≤ 4))

/-- Lit regions that run and are not at their frequency. -/
def State.toRetune (s : State) : List Nat :=
  s.litList.filter fun r => !(s.region r).inReset && s.reg (R.freqKhz r) != s.wantKhz r

/-- Regions with a synchronised change pending. -/
def State.changing (s : State) : List Nat := (List.range 16).filter fun r => (s.region r).shadowTo.isSome

/-- A synchronised change begins for the regions that need one, at K, the highest clock beat count plus 256; one that is
requested once K is chosen waits for the next (R434). -/
def State.retune (s : State) : State :=
  if s.shortStops ∨ s.changing ≠ [] ∨ s.toRetune = [] then s
  else
    let k := (s.litList.map fun r => (s.region r).clock).foldl max 0 + 256
    { s with kClock := some k }.each s.toRetune fun t r => t.modRegion r fun x =>
      { x with shadowTo := some (s.wantKhz r), shadowLocked := false }

/-! ## The end of a job (R493) -/

/-- Regions stop issuing; cores stay as they are. -/
def State.stopRegions (s : State) : State :=
  s.each (List.range 16) fun t r =>
    if (t.region r).running then t.modRegion r fun x => { x with running := false, stalls := [], frameHeld := false } else t

/-- Scheduled traffic gone: landing buffers, uses and landings in flight are discarded, and no clause and no variant runs (R209, R215). -/
def State.dropScheduled (s : State) : State :=
  let s1 := s.each (List.range 32) fun t p =>
    if (t.port p).landing = [] then t else t.modPort p fun x => { x with landing := [] }
  { (s1.setReg R.activeClause 0xFF).setReg R.variantPorts 0 with sched := false, uses := [], lateDebt := [] }

/-- The job ends with a cause: ENDING, units of the start on their way out, the record dropped (R493, R452). -/
def State.endJob (s : State) (cause : Nat) : State :=
  let s1 := (s.stopRegions.dropScheduled).setReg R.jobState 4
  let s2 := (({ s1 with endPending := some cause, qrec := none, replaying := none, joinWait := none }).showRec).setReg
    R.joinStep 0xFFFFFFFFFFFFFFFF
  let s3 := (s2.setReg R.regionLight s.formerLight).setReg R.stackActive s.formerStacks
  if s.reg R.ballastEnable = 0 then (s3.dropAll).exempt else s3.askUnits

/-- ENDING is over: IDLE, the end cause recorded, JOB_ENDED logged (R493); regions go back to their targets (R428). -/
def State.finishJob (s : State) : State :=
  match s.endPending with
  | none => s
  | some c =>
    let s1 := ((s.setReg R.jobState 0).setReg R.endCause c).setReg R.activeClause 0xFF
    (({ s1 with endPending := none }).event 0x7045 0xFF (jobDetail c 0xFFFF 0xFFFFFFFF)).retune

/-! ## DMA and the custody copy -/

/-- The bytes of a channel's current descriptor left undefined: those of its local destination range (R418). -/
def State.loseBytes (s : State) (x : Chan) : State :=
  let d := descFields x.desc
  if x.busy && !d.dstRemote then s.scribble (bits d.dst 51 48) (bits d.dst 47 0) d.len else s

/-- Every channel aborted: a running one goes IDLE with status ABORTED, an armed one goes IDLE (R418). -/
def State.abortDma (s : State) : State :=
  s.each (List.range 64) fun t c =>
    if t.reg (R.dmaState c) = 2 then
      (((t.loseBytes (t.chan c)).setReg (R.dmaState c) 0).setReg (R.dmaStatus c) 4).setChan c {}
    else if t.reg (R.dmaState c) = 1 then (t.setReg (R.dmaState c) 0).setChan c {}
    else t

/-- A push abandoned: the writes of it that still wait here go, with their reply slots (R505). -/
def State.dropPush (s : State) : State :=
  let ids := (s.slots.filter fun x => x.kind = 6).map (·.ident)
  let mine (q : TxMsg) : Bool := q.arr.isNone && q.msg.vc == 5 && ids.contains (BitVec.ofNat 32 (mf q.msg 12 4))
  if ids = [] then s
  else
    ({ s with slots := s.slots.filter fun x => x.kind ≠ 6, waiting := s.waiting.filter fun q => !mine q }).each (List.range 32)
      fun t p => if (t.port p).txq.any mine then t.modPort p fun x => { x with txq := x.txq.filter fun q => !mine q } else t

/-- custody_given becomes none (R503). -/
def State.custodyNone (s : State) : State :=
  let s1 := (s.dropPush.setReg R.custodyGiven 0).setBlob R.givenDigest (zeros 48)
  { s1 with pair := .idle, pushLeft := 0, pushQueue := [] }

/-- The held copy is gone: custody_held none, digest zero, no source; `owed` keeps lost_notice_chip (R504). -/
def State.copyGone (s : State) (owed : Bool) : State :=
  let s1 := ((s.setReg R.custodyHeld 0).setBlob R.heldDigest (zeros 48)).setReg R.heldSource 0xFFFF
  let s2 := if owed then s1 else s1.setReg R.lostNoticeChip 0xFFFF
  { s2 with heldRanges := [], lostLogged := false }

/-- The port on which a MGMT message to a chip goes out: the first that carries MGMT among those of the route's group and direction;
group 7 for the twin (R323, R330, R501). -/
def State.mgmtPort (s : State) (chip : Nat) : Option Nat :=
  let (g, mask) := match routeDir s.manifest s.chip chip with
    | some (g, up) => (g, routePorts s.manifest s.chip g up)
    | none => (7, 15)
  ((List.range 4).find? fun i => bit mask i && s.carriesMgmt (4 * g + i)).map (4 * g + ·)

/-- A MGMT message of the part's own to a chip's coordinates (R501). -/
def State.sendMgmt (s : State) (chip op : Nat) (rest : List Byte) (units : List (BitVec 512)) : State :=
  match recOf s.manifest chip, s.mgmtPort chip with
  | some r, some p =>
    s.queueMsg p { vc := 6, period := false, hdr := mgmtHdr units.length r.coord s.coords op 0 0 Config.serial rest, units := units }
  | _, _ => s

/-- The loss of a custody copy is logged as soon as the part is awake with a manifest that has the chip (R453, R504). Its LOST goes out,
and lost_notice_chip is cleared, with the first port towards the chip that carries MGMT: no port is UP right after a boot (DESIGN
CHOICE, log entry 68). -/
def State.sendOwedLost (s : State) : State :=
  let c := s.reg R.lostNoticeChip
  if s.awake ∧ c ≠ 0xFFFF ∧ s.reg R.custodyHeld = 0 ∧ (recOf s.manifest c).isSome then
    let s1 := if s.lostLogged then s else { s.event 0x7042 0xFF noDetail with lostLogged := true }
    if (s1.mgmtPort c).isSome then { (s1.sendMgmt c 3 (toLE 1 8) []).setReg R.lostNoticeChip 0xFFFF with lostLogged := false } else s1
  else s

/-! ## Unloading and the resets (R514 to R519) -/

/-- Everything a job reset sets a core to (R120): nothing, its instruction memory cleared too (R517). -/
def State.clearCores (s : State) : State :=
  s.each (List.range 16) fun t r =>
    t.modRegion r fun x =>
      { x with cores := [], running := false, stalls := [], bank := [], bridgeOut := [], bridgeIn := [], spineIn := [],
               frameHeld := false, stopped := false, drain := 0, heldJob := 0, heldStep := 0, sent := [] }

/-- The loaded image unloaded: windows, export map, core maps, clause halves, image and clause areas, hold level (R361,
R517). -/
def State.unload (s : State) : State :=
  let s1 := s.each (List.range 16) fun t r =>
    t.modRegion r fun x =>
      { x with map := [], spares := [],
               cores := x.cores.map fun c => (c.1, { c.2 with imem := [], windows := [], sendBind := [], landBind := [] }) }
  let s2 := (((((s1.setReg R.loadState 0).setReg R.preloadState 0).setReg R.jobHoldW 0).setBlob R.exportMap (zeros 256)).setBlob R.imageDigest
    (zeros 48)).setReg R.imageRank 0xFFFF
  let s3 := s2.each (List.range 32) fun t p => t.setReg (R.readyOffsetAssumed p) 0
  { s3 with image := none, loading := none, half0 := [], half1 := [], halfSet := [0xFFFF, 0xFFFF], copy := none
            dram := s.dram.filter fun c => c.1 < 0xD7D0000000 ∨ 0xD800000000 ≤ c.1
            dramChk := s.dramChk.filter fun c => c.1 < 0xD7D0000000 / 8 ∨ 0xD800000000 / 8 ≤ c.1 }

/-- The registers that count since job start (R512). -/
def sinceJob (k : Nat) : Bool :=
  [R.heldBeatsJob, R.heldBeatsStep, R.stallEventsJob, R.pendingUses, R.pendingWaitMax, R.slackReplays,
    R.flightDriftEvents, R.landingPeak, R.frameOverruns, R.bridgeSkewMax, R.sparesUsedJob, R.replaysJob, R.routeDrops,
    R.remoteDenied].contains k
  || [R.landingPeakPort 0, R.goBacks 0, R.duplicatesDropped 0, R.retrainsJob 0, R.stretchedBeatsJob 0,
      R.frameHoldBeatsJob 0, R.clausePeakW 0].contains (k / 256 * 256)

/-- Registers that show a live measurement or a state the reset does not touch, and so take no default (R517). DEDUCED. -/
def liveReg (k : Nat) : Bool :=
  [R.bladeAMv, R.bladeBMv, R.inputCurrentMa, R.inputPowerMw, R.bladePresent, R.hearthMaxC, R.stackMaxC, R.opticsMaxC,
    R.mgmtC, R.firmwareVersion, R.runningBank, R.governorState].contains k
  || [R.ceilingKhz 0, R.freqKhz 0].contains (k / 256 * 256)

/-- Registers that show units the entry to Banked and the loss of power leave off (R516). -/
def unlitReg (k : Nat) : Bool := k == R.governorState || k / 256 * 256 == R.freqKhz 0

/-- grade_state at a warm reset: a part without a grade stays in Kindled through it (R57; DEDUCED, log entry 64). -/
def gradeReg (k : Nat) : Bool := k == R.gradeState

/-- peer_identity follows the retrain of its port: it is empty only after OFF (R270, R517). -/
def peerReg (k : Nat) : Bool := k / 256 * 256 == R.peerIdentity 0

/-- Registers of network time that a warm reset keeps (R517). -/
def timeReg (k : Nat) : Bool :=
  [R.frameReference, R.slewRemaining, R.wrapCount].contains k
  || [0, 1].any fun d => [R.domainState d, R.domainOffset d, R.freqPpb d, R.gmIdentity d].contains k

/-- Registers that show the Glazin links, which run on through a warm reset. -/
def glazinReg (k : Nat) : Bool := [R.portAUp, R.portBUp].contains k

/-- Volatile registers dropped to their defaults, but for those `keep` names (R516); the nonce and the quote go, and bank_versions shows
the banks as ever (R571, R576). -/
def State.dropV (s : State) (keep : Nat → Bool) : State :=
  { s with
    regs := s.regs.filter fun x => regPer x.1 ≠ .v || liveReg x.1 || keep x.1
    blobs := s.blobs.filter fun x => regPer x.1 ≠ .v || keep x.1 || x.1 == R.bankVersions
    nonce := none, quoteBytes := [] }

/-- The channels that run. -/
def State.dmaRunning (s : State) : List Nat := (List.range 64).filter fun c => s.reg (R.dmaState c) == 2

/-- The status ABORTED of channels that a reset or the entry to Banked has aborted, over the default of a V entry (R418). -/
def State.showAborted (s : State) (l : List Nat) : State := s.each l fun t c => t.setReg (R.dmaStatus c) 4

/-- A test access authorisation gone (R28). -/
def State.lockTest (s : State) : State :=
  let s1 := (s.setReg R.testAccess 0).setReg R.testScope 0
  { s1 with tap := match s.tap with | .mailbox => .mailbox | _ => .bypass }

/-- The response to a request: on the port it came in on, with the part's own position and chip (R462, R465). -/
def State.responseTo (s : State) (p : GPort) (op : Byte) (f : GFrame) (status : Nat) (data : List Byte) : GOut :=
  { port := p, opcode := op,
    f := { fcsOk := true, etherType := 0x88B5, version := 1, flags := if op = 3 then f.flags &&& 2 ||| 1 else 1, node := f.node,
           position := BitVec.ofNat 8 (s.reg R.chainPosition), chainLength := 0, chip := BitVec.ofNat 16 s.chip,
           sequence := f.sequence, status := BitVec.ofNat 16 status, index := f.index, sub := f.sub,
           offset := if op = 3 then f.offset else 0, length := data.length, total := 0, opcode := op, data := data } }

/-- A response kept for its sequence number, with those of the 64 numbers up to the highest executed (R466). -/
def Window.keep (w : Window) (seq : BitVec 16) (g : GOut) : Window :=
  match w.high with
  | none => w
  | some h => { w with kept := (w.kept.filter fun x => x.1 ≠ seq && decide ((h - x.1).toNat < 64)) ++ [(seq, g)] }

/-- A response sent and kept in its node's window. -/
def State.answerG (s : State) (g : GOut) : State :=
  let n := g.f.node.toNat
  let w := (Tab.get {} s.windows n).keep g.f.sequence g
  { s with gtx := s.gtx ++ [g], windows := Tab.set s.windows n w }

/-- The commit requests that wait, WRITE or BLOCK, answered with one status (R465, R479). -/
def State.answerCommits (s : State) (status : Nat) : State :=
  ({ s with commitReply := [] }).each s.commitReply fun t x => t.answerG (t.responseTo x.1 x.2.opcode x.2 status [])

/-- The transaction at its end: no owner, nothing staged, no commit due. -/
def State.endTxn (s : State) : State :=
  { ((s.setReg R.txnOwner 2).setReg R.txnStaged 0) with staged := [], commitDue := false }

/-- An open transaction rolled back and logged (R481). A commit that was due is answered as one without a transaction. -/
def State.rollBack (s : State) : State :=
  if s.reg R.txnOwner = 2 then s else (s.endTxn.answerCommits 0x0702).event 0x7046 0xFF noDetail

/-- Bytes of one stack's user space. -/
def stackSize : Nat := 0x1200000000

/-- The unit byte of a class 0x40 entry: region or stack (R484). -/
def memUnit (space off : Nat) : Nat := if space = 0 then off / 2 ^ 30 else off / stackSize

/-- A scrub's summary with its status (R390). -/
def ScrubSum.bytes (x : ScrubSum) (status : Nat) : List Byte :=
  toLE 8 x.words ++ toLE 8 x.corrected ++ toLE 8 x.bad ++ toLE 8 x.first ++ toLE 8 x.last ++ toLE 8 x.written
    ++ toLE 1 status ++ zeros 15

/-- A scrub's end: summary, state and SCRUB_DONE (R397). -/
def State.endScrub (s : State) (x : Scrub) : State :=
  let st := if x.aborted then 6 else 0
  let s1 := (s.setBlob R.scrubSummary (x.sum.bytes st)).setReg R.scrubState (if x.aborted then 3 else 2)
  ({ s1 with scrub := none }).event 0x4005 (memUnit x.space x.start) (s.globalAddr x.space x.start)

/-- A running scrub stopped at the end of its word by a reset that resets compute, its summary as it stands (R389). -/
def State.stopScrub (s : State) : State :=
  match s.scrub with
  | some x => s.endScrub { x with aborted := true }
  | none => s

/-- Correction counter levels back to 0 (R383). -/
def State.zeroLevels (s : State) : State := s.each (List.range 28) fun t i => t.setReg (R.ceLevel i) 0

/-- The part's own far requests cleared from the stack engines (R517). -/
def State.clearItems (s : State) : State :=
  let far (i : Item) : Bool := match i.src with | .core _ _ _ => true | _ => false
  s.each (List.range 12) fun t k => if (t.stack k).queues = [] ∧ (t.stack k).running = [] then t else t.modStack k fun x =>
    { x with queues := x.queues.map fun q => (q.1, q.2.filter fun i => !far i)
             running := x.running.map fun i => (i.1, i.2.filter fun i => !far i) }

/-- What a reset of compute clears in every kind of reset (R514, R517). A recovery run that waits or runs has failed. -/
def State.resetCompute (s : State) : State :=
  let busy := s.reg R.runState = 1 ∨ s.reg R.runState = 2
  let s0 := (s.clearCores.unload.dropScheduled.abortDma.stopScrub.clearItems).setReg R.regionLight 0
  let s1 := if busy then s0.setReg R.runState 4 else s0
  { s1 with
    slots := [], restarts := [], kClock := none, seqPos := 0, reps := [], runLeft := 0, runMark := false,
    stepHist := [], frameIndex := 0, qrec := none, replaying := none, faultHist := [], repaired := [],
    firstFault := false, run := none, runFailed := false, adopt := false, repair := none, repairDue := false, repairWait := [], joinWait := none,
    epoch := 0, idlePeaks := [] }

/-- The registers of the clause sequence that a job reset clears (R517). -/
def State.clearSequence (s : State) : State :=
  ((((((s.setReg R.fabricStepCounter 0).setReg R.sequencePosition 0).setReg R.frameInClause 0).setReg R.activeClause
    0xFF).setReg R.activeHalf 0).setReg R.preloadState 0).setReg R.variantPorts 0

/-- A job reset (R514): compute is reset, the image unloaded, every region unlit; ports and time run on. -/
def State.jobReset (s : State) : State :=
  let s1 := s.resetCompute.clearSequence
  let s2 := { s1 with regs := s1.regs.filter fun x => !sinceJob x.1 }
  ((s2.askUnits).setReg R.resetCause 5).event 0x7062 0xFF noDetail

/-- Compute and fabric reset, as a warm and a cold reset share it (R514, R515, R517). -/
def State.resetFabric (s : State) : State :=
  let s1 := s.rollBack.resetCompute
  let s2 := s1.each (List.range 32) fun t p => t.setPort p { (t.port p).cleared with dark := (t.port p).dark }
  { s2 with bgDone := [], reqLost := [], resetOwed := [], tsq := [], mgmtQueue := [], reports := [], waiting := [], lateDebt := [], admitting := [], assembly := [] }

/-- The retrains that a reset makes leave retrains_job at its default (R517). -/
def State.noRetrains (s : State) : State := { s with regs := s.regs.filter fun x => x.1 / 256 * 256 ≠ R.retrainsJob 0 }

/-- A warm reset (R514, R515): V entries at their defaults but for time and Glazin; a job in progress ends at once. H falls at the slew
limit (R515, R517) while ballast_enable is 0 too: R40 makes a job end then an exempt fall and counts it, R515 lowers H at the slew limit
in every case, and the model takes R515, with no exempt fall and no count (DESIGN CHOICE, log entry 67). -/
def State.warmReset (s : State) : State :=
  let inJob := s.inJob
  let s0 := if s.reg R.custodyGiven = 1 then s.custodyNone else s
  let s1 := (s0.resetFabric.dropV fun k => timeReg k || glazinReg k || gradeReg k || peerReg k).showAborted s.dmaRunning
  let s2 := (s1.zeroLevels.bump R.warmResets 32).setReg R.resetCause 4
  let s3 := if inJob then { s2.setReg R.jobState 4 with endPending := some 0x7061 } else s2
  let s4 := if s3.reg R.custodyHeld = 1 then s3.copyGone false else s3
  let s5 := (({ s4 with formerLight := 0, formerStacks := 0, groupsOn := 0, warmDue := true, rampAbandoned := true }.restate).retrainAll
    (List.range 32)).noRetrains
  let s6 := s5.askUnits
  if s6.remove.isEmpty && !inJob then ({ s6 with warmDue := false }).event 0x7061 0xFF noDetail else s6

/-- A cold reset (R514, R515): management die, compute and fabric. The boot that follows is held, or runs, for a cause;
one begun in Banked stays there. -/
def State.coldReset (s : State) (b : Boot) : State :=
  let inJob := s.inJob
  let s1 := ((s.resetFabric.custodyNone).dropV fun _ => false).showAborted s.dmaRunning
  let s2 := ((if s.reg R.custodyHeld ≠ 0 then s1.copyGone true else s1).lockTest.zeroLevels).bump R.coldResets 32
  let s3 := (if inJob then s2.setReg R.jobState 4 else s2).each (List.range 32) fun t p => t.portOff p
  let s4 := { s3 with
    challenge := none, token := []
    endPending := if inJob then some 0x7060 else s.endPending
    alertLow := false, windows := [], doms := [], lastDom := 0, nt32 := 0, ntFrac := 0, frame := 0, slot := 0, latched := 0, wrapDue := 0, subSlot := 0, timeIn := []
    switchTo := none, stepPending := none, holdover := false, formerLight := 0, formerStacks := 0, groupsOn := 0
    warmDue := false, rampAbandoned := true, floodsSeen := [], heldBeacon := [], uartRx := []
    boot := b, resetInBanked := decide (s.power = Power.banked) }
  s4.askUnits

/-- What entry to Banked takes: contents of SRAM and DRAM, the core state, time, every unit (R517). -/
def State.enterBanked (s : State) : State :=
  let s1 := ((s.resetFabric.dropV fun _ => false).showAborted s.dmaRunning).lockTest
  let s2 := (if s1.reg R.custodyHeld ≠ 0 then s1.copyGone true else s1).zeroLevels
  let s3 := s2.each (List.range 32) fun t p => t.portOff p
  { s3 with
    power := .banked, boot := .none, challenge := none, token := [], regs := s3.regs.filter fun x => !unlitReg x.1
    litOrder := [], regions := [], palaz := [], sram := [], sramChk := [], dram := [], dramChk := []
    admitting := [], remove := [], groupsOn := 0, h := 0, load := 0, ballast := 0
    windows := [], doms := [], lastDom := 0, nt32 := 0, ntFrac := 0, frame := 0, slot := 0, latched := 0, wrapDue := 0, subSlot := 0, timeIn := [], switchTo := none
    stepPending := none, holdover := false, formerLight := 0, formerStacks := 0, warmDue := false
    heldBeacon := [], uartRx := [], floodsSeen := [] }

/-- The part at a power-on reset: K entries and the flash stay, V and W entries and all else as at first power (R509). -/
def State.powerOn (s : State) (p : Power) : State :=
  { State.reset with
    pending := s.pending, freeCtr := s.freeCtr, power := p, refclk := s.refclk, resetLow := s.resetLow
    regs := s.regs.filter fun x => regPer x.1 = .k || (liveReg x.1 && !unlitReg x.1 && x.1 ≠ R.inputCurrentMa && x.1 ≠ R.inputPowerMw)
    bladeA := s.bladeA, bladeB := s.bladeB
    blobs := s.blobs.filter fun x => regPer x.1 = .k
    bankA := s.bankA, bankB := s.bankB, rollback0 := s.rollback0, rollback1 := s.rollback1, gradeRec := s.gradeRec
    certificate := s.certificate, config := s.config, cfg := s.cfg, gtx := s.gtx, uartTx := s.uartTx, wakeTx := s.wakeTx, us := s.us
    opticsTemp := s.opticsTemp, mgmtTemp := s.mgmtTemp, puf := s.puf, quenchOut := s.quenchOut }

/-! ## Forced shutdown (R40, R46, R549) -/

/-- What a forced shutdown does to the job: RUNNING or QUENCHED floods a QUENCH with P held and the own job ends with
the fault as cause; STARTING is abandoned; ENDING goes on (R549). -/
def State.shutJob (s : State) (code : Nat) : State :=
  let gone (t : State) : State :=
    let t1 := (t.stopRegions.dropScheduled).setReg R.jobState 4
    (({ t1 with endPending := some code, qrec := none, replaying := none, joinWait := none }).showRec).setReg R.joinStep
      0xFFFFFFFFFFFFFFFF
  match s.reg R.jobState with
  | 2 | 3 => gone (s.originate code false true)
  | 1 => gone s
  | _ => s

/-- A recovery run that a forced shutdown fails: its units are not lit again (R46, R556). -/
def State.shutRun (s : State) : State :=
  { s with runFailed := s.runFailed || decide (s.reg R.runState = 2)
           run := s.run.map fun r => { r with formerLight := 0, formerStacks := 0 } }

/-- The QUENCH messages that a shutdown's loss of its ports would take with it: they go out before, within 16 slots (R534, R549). -/
def State.quenchesLeft (s t : State) : List (Nat × Msg) :=
  (List.range 32).flatMap fun p => if (t.port p).quenchTx = [] then (s.port p).quenchTx.map fun m => (p, m) else []

/-- A forced shutdown to Kindled (2), Banked (1) or Cold (0): logged as a cause, ALERT_N low, the cause kept, an exempt
fall unless the part already stood there (R19, R23, R40, R46). Units that wait for admission are abandoned (R41, R454). -/
def State.forcedShutdown (s : State) (code unit detail : Nat) (dest : Power) : State :=
  let s1 := ((s.logEntry code 1 unit detail).setReg R.lastFaultCause code).setReg R.lastShutdownCause code
  let s2 := if dest = s.power then s1 else s1.exempt
  let s3 := (({ s2 with alertLow := true }).shutJob code).shutRun
  let out (t : State) : State := { t with quenchOut := s.quenchOut ++ s3.quenchesLeft t }
  match dest with
  | .kindled =>
    let s4 := ({ s3 with formerLight := 0, formerStacks := 0, rampAbandoned := true, kClock := none }).setReg R.regionLight 0
    let s5 := ((s4.setReg R.stackActive 0).setReg R.groupEnable 0).dropAll
    out { s5 with groupsOn := 0 }.restate
  | .banked => out s3.finishJob.enterBanked
  | _ =>
    let s4 := s3.finishJob.powerOn .cold
    out { s4 with inputSwitch := false, alertLow := false, shutdownTo := some code }

end Sys2Proof.Machine
end

