-- ==== Sys2Proof/Machine/Storage.lean ====
section
/-! DEFINITION. Reads and writes of region SRAM and Palaz DRAM through their check codes, and the correction counters
(R62, R369, R370, R375 to R384). -/

namespace Sys2Proof.Machine

/-- The correction counter of an offset: its region's for space 0, its stack's for space 1 (R383). -/
def counterOf (space off : Nat) : Nat := if space = 0 then off / 2 ^ 30 else 16 + off / stackSize

/-- One correction counted; above the threshold the counter fires, with at most one event a millisecond (R383, R384). -/
def State.correct (s : State) (i addr : Nat) : State :=
  let l := min (s.reg (R.ceLevel i) + 1) (2 ^ 32 - 1)
  let s1 := s.bump (R.correctionsTotal i) 64
  if l ≤ s.reg (R.ceThreshold i) then s1.setReg (R.ceLevel i) l
  else
    let s2 := (s1.setReg (R.ceLevel i) 0).bump (R.firings i) 32
    let last := Tab.get 0 s.rateEvent i
    if last ≠ 0 ∧ s.us + 1 < last + 1000 then s2
    else
      ({ s2 with rateEvent := Tab.set s.rateEvent i (s.us + 1) }).event 0x4003 (if i < 16 then i else i - 16) addr

/-- `n` corrections at one address. -/
def State.correctN (s : State) (i addr : Nat) : Nat → State
  | 0 => s
  | n + 1 => (s.correctN i addr n).correct i addr

/-- An uncorrectable word or byte counted (R382). -/
def State.noteBad (s : State) (space off : Nat) : State :=
  let i := counterOf space off
  (s.bump (R.uncorrectableTotal i) 64).setReg (R.lastUncorrectable i) (s.globalAddr space off)

/-- `n` SRAM bytes from a space-0 offset, as a reader gets them: corrected, or as stored where uncorrectable, and the
offset of the first uncorrectable byte (R380, R382). -/
def State.readSram (s : State) (off n : Nat) : List Byte × Option Nat × State :=
  let l := (List.range n).map fun i => (off + i, sramDecode (s.sram.read (off + i)) (s.sramChk.read (off + i)))
  let t := s.each l fun t x =>
    match x.2.2 with
    | .clean => t
    | .fixed => t.correct (counterOf 0 x.1) (t.globalAddr 0 x.1)
    | .bad => t.noteBad 0 x.1
  (l.map (·.2.1), (l.find? fun x => x.2.2 = .bad).map (·.1), t)

/-- One 64-byte stack word read: data, whether it is uncorrectable, and the counts made (R375). -/
def State.readStack (s : State) (off : Nat) : List Byte × Bool × State :=
  let w := s.dram.readN off 64
  let (d, n, bad) := rsWord w (s.dramChk.readN (off / 8) 8)
  let t := s.correctN (counterOf 1 off) (s.globalAddr 1 off) n
  (d, bad, if bad then t.noteBad 1 off else t)

/-- One 64-byte word of a space read: data, the offset of what is uncorrectable in it, and the counts made. -/
def State.readWord (s : State) (space off : Nat) : List Byte × Option Nat × State :=
  if space = 0 then s.readSram off 64
  else
    let (d, bad, t) := s.readStack off
    (d, if bad then some off else none, t)

/-- The enabled bytes of a new word over an old one. -/
def mergeBytes (old new : List Byte) (en : List Bool) : List Byte :=
  (List.range 64).map fun i => if en.getD i false then new.getD i 0 else old.getD i 0

/-- The fault an uncorrectable word or byte raises where its reader's row of R382 says so. -/
def State.raiseBad (s : State) (space off : Nat) : State :=
  let a := s.globalAddr space off
  s.raise (if space = 0 then 0x4001 else 0x4002) (memUnit space off) a none a

/-- Some bytes of one word written: SRAM by byte; a stack word by read, merge and write, left unwritten where it is
uncorrectable, for which DRAM_UNCORRECTABLE is raised (R370, R378, R379, R382). The answer says whether it was written. R410's
'a failed transfer does not quench a job' is read as the segment's failure; the row of R382 for a partial write stands beside
it (DEDUCED, log entry 16). -/
def State.writePart (s : State) (space off : Nat) (d : List Byte) (en : List Bool) : Bool × State :=
  if en.all id then (true, s.writeWord space off d)
  else if space = 0 then
    (true, s.each (List.range 64) fun t i => if en.getD i false then t.writeSram (off + i) [d.getD i 0] else t)
  else if en.any id then
    let (old, bad, t) := s.readStack off
    if bad then (false, t.raiseBad space off) else (true, t.writeStack off (mergeBytes old d en))
  else (true, s)

/-- `n` words from an offset: their bytes, the first uncorrectable offset, and the counts made. -/
def State.readWords (s : State) (space off : Nat) : Nat → List Byte × Option Nat × State
  | 0 => ([], none, s)
  | n + 1 =>
    let (d, bad, t) := s.readWord space off
    let (d', bad', t') := t.readWords space (off + 64) n
    (d ++ d', match bad with | some b => some b | none => bad', t')

/-- A byte string of whole words written from an offset. -/
def State.writeWords (s : State) (space off : Nat) (d : List Byte) : State :=
  (List.range (d.length / 64)).foldl (fun t i => t.writeWord space (off + 64 * i) (slice d (64 * i) 64)) s

/-- A range set to zero bytes with valid check bits, which is what unlisted addresses hold. -/
def State.zeroRange (s : State) (space off n : Nat) : State :=
  if space = 0 then
    { s with sram := s.sram.filter fun c => c.1 < off ∨ off + n ≤ c.1
             sramChk := s.sramChk.filter fun c => c.1 < off ∨ off + n ≤ c.1 }
  else
    { s with dram := s.dram.filter fun c => c.1 < off ∨ off + n ≤ c.1
             dramChk := s.dramChk.filter fun c => c.1 < off / 8 ∨ (off + n) / 8 ≤ c.1 }

/-- The same logged as an event only, as at a REQ target. -/
def State.eventBad (s : State) (space off : Nat) : State :=
  s.event (if space = 0 then 0x4001 else 0x4002) (memUnit space off) (s.globalAddr space off)

/-! ## Background writes (R69, R70) -/

/-- The tier of a space-0 offset (R61). -/
def tierOf (off : Nat) : Nat := off / 64 % 4

/-- The bank of a space-0 offset within its region (R61). -/
def bankOf (off : Nat) : Nat := bits off 14 6

/-- A word write queued in its tier; with 64 waiting there, or others of its tier before it, its unit waits (R70). -/
def State.bgPush (s : State) (off : Nat) (d : List Byte) : State :=
  let a : BgAcc := { off := off, data := ofBytes 512 d, mask := BitVec.allOnes 64 }
  let mine (x : BgAcc) : Bool := tierOf x.off == tierOf off
  s.modRegion (off / 2 ^ 30) fun y =>
    if 64 ≤ (y.bg.filter mine).length ∨ y.bgWaiting.any mine then { y with bgWaiting := y.bgWaiting ++ [a] }
    else { y with bg := y.bg ++ [a] }

end Sys2Proof.Machine
end

