-- ==== Sys2Proof/Machine/Banks.lean ====
section
/-! DEFINITION. Bank beats of core accesses, their conflicts and their overlap with background accesses (R63 to R72, R154,
R162, R382), and the writing of results that become valid (R120, R141). -/

namespace Sys2Proof.Machine

/-! ## Results -/

/-- One register or flag write; A0 and P0 discard theirs (R120). -/
def Core.apply (k : Core) : Effect → Core
  | .vreg r mask val => { k with v := Tab.set k.v r (merge (Tab.get 0 k.v r) mask val) }
  | .preg r mask val => if r = 0 then k else { k with p := Tab.set k.p r (merge (Tab.get 0 k.p r) mask val) }
  | .areg r val => if r = 0 then k else { k with a := Tab.set k.a r val }
  | .tileElems t part val =>
    let x : Tile := Tab.get {} k.tile t
    let sh := 2048 * part
    let mask : BitVec 24576 := (BitVec.allOnes 2048).setWidth 24576 <<< sh
    { k with tile := Tab.set k.tile t { x with elems := merge x.elems mask (val.setWidth 24576 <<< sh) } }
  | .tileScales t val =>
    let x : Tile := Tab.get {} k.tile t
    { k with tile := Tab.set k.tile t { x with scales := val } }
  | .flags f => { k with flags := k.flags ||| f }
  | .wf f => { k with wf := k.wf ||| f }

/-- The results valid at a beat count written, in order. -/
def Core.commit (k : Core) (beat : Nat) : Core :=
  let k1 := (k.pend.filter fun p => p.valid ≤ beat).foldl (fun k p => k.apply p.eff) k
  { k1 with pend := k.pend.filter fun p => beat < p.valid }

/-- A result that becomes valid at a beat count. -/
def Core.later (k : Core) (valid : Nat) (e : Effect) : Core := { k with pend := k.pend ++ [⟨valid, e⟩] }

/-! ## Work items (R391 to R396) -/

/-- A work item taken apart. -/
structure WorkItem where
  op : Nat
  flags : Nat
  count : Nat
  src : Nat
  dst : Nat
  aux : Nat
  unit : Nat
  result : Nat
  reserved : Bool
  deriving DecidableEq, Repr

/-- The fields of an item's 64 bytes; `reserved` where a reserved field is not zero. -/
def itemFields (b : BitVec 512) : WorkItem :=
  let x := b.toNat
  let f (o n : Nat) : Nat := bits x (8 * (o + n) - 1) (8 * o)
  { op := f 0 1, flags := f 1 1, count := f 4 4, src := f 8 8, dst := f 16 8, aux := f 24 8, unit := f 32 4,
    result := f 40 8, reserved := f 2 2 ≠ 0 ∨ f 36 4 ≠ 0 ∨ f 48 16 ≠ 0 }

/-- The byte ranges of space 1 that an item reads and writes, its result included; the blocks of GATHER and SCATTER by the indices
as they stand (R392, R396). -/
def State.itemSpans (s : State) (b : BitVec 512) : List (Nat × Nat × Nat × Bool) :=
  let w := itemFields b
  let n := 64 * w.count
  let span (o k : Nat) (wr : Bool) : Nat × Nat × Nat × Bool := (1, o, o + k, wr)
  let u := 64 * w.unit
  let blocks (o : Nat) (wr : Bool) : List (Nat × Nat × Nat × Bool) :=
    (List.range w.count).map fun i => span (o + leNat (s.dram.readN (w.aux + 4 * i) 4) * u) u wr
  span w.result 64 true ::
    match w.op with
    | 1 => span w.aux (4 * w.count) false :: span w.dst (w.count * u) true :: blocks w.src false
    | 2 => span w.aux (4 * w.count) false :: span w.src (w.count * u) false :: blocks w.dst true
    | 3 => [span w.dst n true]
    | 4 => [span w.src n false, span w.dst n true]
    | 5 => [span w.src n (w.flags == 1)]
    | 6 | 7 => [span w.src n false, span w.dst u true]
    | 8 => [span w.src n false]
    | _ => []

/-! ## Clocks and holds (R156, R425) -/

/-- Native region clock mode (R425). -/
def State.native (s : State) : Bool := s.reg R.clockMode = 0

/-- A region whose clock beats. -/
def Region.clocked (x : Region) : Bool := x.lit && !x.inReset && x.shortStopTo.isNone

/-- Whether a stall still holds. -/
def Stall.holds (t : Stall) : Bool := !t.ended

/-- Whether a region is held (R156): by its own stalls, or in native mode by those at or below its beat count. -/
def State.held (s : State) (r : Nat) : Bool :=
  (s.region r).stalls.any Stall.holds ||
    (s.native && (List.range 16).any fun q =>
      (s.region q).stalls.any fun t => t.holds && decide (t.beat ≤ (s.region r).beat))

/-- Whether bank beats take place in a region now: its clock beats and nothing holds it (R156, R440). -/
def State.bankBeats (s : State) (r : Nat) : Bool :=
  (s.region r).clocked && !(s.region r).frameHeld && !s.held r

/-! ## Overlaps that leave data undefined (R72, R154) -/

/-- The byte ranges a far request touches: space, first byte, end, and whether it writes them. Those of an engine item are the
bytes it reads and writes, its result included (R396). -/
def FarReq.spans (q : FarReq) : List (Nat × Nat × Nat × Bool) :=
  let n := 64 * q.len
  let off := bits q.far.toNat 47 0
  (0, q.loc, q.loc + n, q.kind == .fld) ::
    (if q.kind = .feng then q.item else if q.own then [(bits q.far.toNat 51 48, off, off + n, q.kind != .fld)] else [])

/-- Whether two sets of ranges overlap with one of the two writing. -/
def clash (x y : List (Nat × Nat × Nat × Bool)) : Bool :=
  x.any fun a => y.any fun b => a.1 == b.1 && (a.2.2.2 || b.2.2.2) && decide (a.2.1 < b.2.2.1 ∧ b.2.1 < a.2.2.1)

/-- The local byte ranges of a channel's segments that have not ended, as `FarReq.spans` gives those of a request. -/
def Chan.spans (x : Chan) : List (Nat × Nat × Nat × Bool) :=
  if x.busy then
    let d := descFields x.desc
    ((List.range d.segs).filter fun i => !(x.segDone.any fun y => y.1 == i)).flatMap fun i =>
      let (o, n) := d.segRange i
      (if d.srcRemote || d.fill then [] else [(bits d.src 51 48, bits d.src 47 0 + o, bits d.src 47 0 + o + n, false)])
        ++ (if d.dstRemote then [] else [(bits d.dst 51 48, bits d.dst 47 0 + o, bits d.dst 47 0 + o + n, true)])
  else []

/-- The bytes that two sets of ranges have in common, one of the two writing. -/
def common (x y : List (Nat × Nat × Nat × Bool)) : List (Nat × Nat × Nat) :=
  x.flatMap fun a => y.filterMap fun b =>
    if a.1 = b.1 ∧ (a.2.2.2 || b.2.2.2) = true ∧ a.2.1 < b.2.2.1 ∧ b.2.1 < a.2.2.1 then some (a.1, max a.2.1 b.2.1, min a.2.2.1 b.2.2.1)
    else none

/-- The byte ranges of the descriptor a channel runs, those of its ended segments included: the transfer is in flight. -/
def Chan.flight (x : Chan) : List (Nat × Nat × Nat × Bool) := ({ x with segDone := [] } : Chan).spans

/-- The range of a scrub with write-back, which DMA writes must not touch (R388); as one read it clashes with writes alone. -/
def State.scrubSpans (s : State) : List (Nat × Nat × Nat × Bool) :=
  match s.scrub with
  | some x => if x.wb && !x.aborted then [(x.space, x.start, x.off + x.len, false)] else []
  | none => []

/-- The words that the REQ or SVC of a header reads or writes, and which of the two (R313, R314). -/
def hdrSpans (hdr : Nat) : List (Nat × Nat × Nat × Bool) :=
  let f (o n : Nat) : Nat := bits hdr (8 * (o + n) - 1) (8 * o)
  let t := f 16 8
  if f 8 1 = 3 then [] else [(bits t 51 48, bits t 47 0, bits t 47 0 + 64 * f 24 1, f 8 1 == 2)]

/-- What a request touches that waits for its banks, by the name of its access. -/
def waitSpans : List Nat → List (Nat × Nat × Nat × Bool)
  | [1, _, hdr] => hdrSpans hdr
  | _ => []

/-- The bytes a channel still has to move that some ranges touch marked undefined, but for channel `but`'s (R72, R419, R420). -/
def State.markChans (s : State) (x : List (Nat × Nat × Nat × Bool)) (but : Option Nat) : State :=
  { s with chans := s.chans.map fun c =>
      if some c.1 = but then c else (c.1, { c.2 with clash := common x c.2.spans ++ c.2.clash }) }

/-- Every far request marked undefined that has not completed and clashes with some ranges, every engine item of another part, every
request of another part that waits for its banks, and the bytes of the channels. -/
def State.markClash (s : State) (x : List (Nat × Nat × Nat × Bool)) : State :=
  let mark (q : FarReq) : FarReq := if !q.done && clash q.spans x then { q with undef := true } else q
  let item (i : Item) : Item := if clash i.spans x then { i with undef := true } else i
  { s.markChans x none with
    reqLost := s.reqLost ++ (s.bgDone.filter fun y => !s.reqLost.contains y.1 && clash (waitSpans y.1) x).map (·.1)
    palaz := s.palaz.map fun k => (k.1, { k.2 with
      queues := k.2.queues.map fun q => (q.1, q.2.map item)
      running := k.2.running.map fun i => (i.1, i.2.map item) })
    regions := s.regions.map fun r => (r.1, { r.2 with
      cores := r.2.cores.map fun c => (c.1, { c.2 with
        farq := c.2.farq.map fun f => (f.1, { f.2 with entries := f.2.entries.map mark }) }) }) }

/-- The byte ranges of every access that is outstanding but for the channels' (R72, R154). -/
def State.outSpans (s : State) : List (Nat × Nat × Nat × Bool) :=
  (s.regions.flatMap fun r => (r.2.bg ++ r.2.bgWaiting).map (fun x => (0, x.off, x.off + 64, true))
      ++ r.2.cores.flatMap fun c => c.2.farq.flatMap fun f => (f.2.entries.filter fun q => !q.done).flatMap FarReq.spans)
    ++ s.bgDone.flatMap (fun y => waitSpans y.1)
    ++ s.palaz.flatMap fun k => k.2.queues.flatMap (fun q => q.2.flatMap Item.spans)
      ++ k.2.running.flatMap fun i => i.2.toList.flatMap Item.spans

/-- Whether a far request that has not completed, an engine item or a waiting request of another part, or a segment of a channel clashes
with some ranges. -/
def State.anyClash (s : State) (x : List (Nat × Nat × Nat × Bool)) : Bool :=
  (s.regions.any fun r => r.2.cores.any fun c => c.2.farq.any fun f => f.2.entries.any fun q => !q.done && clash q.spans x)
    || (s.chans.any fun c => clash c.2.spans x)
    || (s.bgDone.any fun y => clash (waitSpans y.1) x)
    || s.palaz.any fun k => (k.2.queues.any fun q => q.2.any fun i => clash i.spans x)
      || k.2.running.any fun i => i.2.toList.any fun i => clash i.spans x

/-! ## Bank beats -/

/-- The words an access touches: a store's only where some byte is enabled (R65). -/
def BankAcc.words (a : BankAcc) : List Nat :=
  (List.range (a.size / 64)).filter fun i => a.kind ≠ .st || (List.range 64).any fun j => a.mask.getLsbD (64 * i + j)

/-- Whether `b`, the earlier issued of two accesses of one core, or one of a lower physical core, takes a bank from `a`. -/
def beats (b a : BankAcc) (earlier : Bool) (bank : Nat) : Bool :=
  (decide (b.phys < a.phys) || (decide (b.phys = a.phys) && earlier))
    && b.words.any fun i => bankOf (b.off + 64 * i) == bank

/-- The words of an access that lose their bank to another of the same beat (R68). -/
def lostWords (a : BankAcc) (before after : List BankAcc) : List Nat :=
  a.words.filter fun i =>
    let bank := bankOf (a.off + 64 * i)
    before.any (beats · a true bank) || after.any (beats · a false bank)

/-- Whether a core's access to a byte of space 0 meets a background access to it that is outstanding (R72). -/
def State.hitByte (s : State) (off : Nat) (write : Bool) : Bool :=
  s.bgTouches off (off + 1) || s.anyClash [(0, off, off + 1, write)]

/-- Whether a core access of a region has a bank as its bank beat in the present beat (R66, R70); in a held beat none has. -/
def State.bankBusy (s : State) (r bank : Nat) : Bool :=
  let x := s.region r
  s.bankBeats r
    && x.bank.any fun a => decide (a.due ≤ x.beat + x.drain) && a.words.any fun i => bankOf (a.off + 64 * i) == bank

/-- Whether a background access to a word of SRAM can be made now: no core access has its bank in this beat, its region is in no short
stop, its tier's queue has room, and no write of the same word waits there (R70, R433). -/
def State.bgReady (s : State) (w : Nat) : Bool :=
  let x := s.region (w / 2 ^ 30)
  !s.bankBusy (w / 2 ^ 30) (bankOf w) && x.shortStopTo.isNone
    && decide ((x.bg.filter fun y => tierOf y.off = tierOf w).length < 64) && !s.bgTouches w (w + 64)

/-- The SRAM words that a range of a space touches. -/
def sramWords (space off n : Nat) : List Nat :=
  if space ≠ 0 ∨ n = 0 then [] else (List.range (ceilDiv (off % 64 + n) 64)).map fun i => off / 64 * 64 + 64 * i

/-- A unit's access to some words of SRAM: each takes its bank in a beat in which it is free, and with the last of them the access is
made; until then the unit waits. `key` names the access, whose words had so far are kept (R70). What it reads or writes is the same
whenever its banks are free (R71). -/
def State.bgTry (s : State) (key l : List Nat) : State × Bool :=
  if l = [] then (s, true)
  else
    let had := ((s.bgDone.find? fun x => x.1 = key).map (·.2)).getD []
    let left := l.filter fun w => !had.contains w && !s.bgReady w
    let rest := s.bgDone.filter fun x => x.1 ≠ key
    if left = [] then ({ s with bgDone := rest }, true)
    else ({ s with bgDone := (key, l.filter fun w => !left.contains w) :: rest }, false)

/-- A whole word of a space written by the firmware: at once, or through its tier's queue where its bank is taken (R70). -/
def State.bgWrite (s : State) (space off : Nat) (d : List Byte) : State :=
  if space ≠ 0 ∨ s.bgReady off then s.writeWord space off d else s.bgPush off d

/-- A byte string of whole words written so from an offset. -/
def State.bgWriteWords (s : State) (space off : Nat) (d : List Byte) : State :=
  (List.range (d.length / 64)).foldl (fun t i => t.bgWrite space (off + 64 * i) (slice d (64 * i) 64)) s

/-- Zeros written by the firmware: in a region with no access due, none waiting and no stop all at once, else word by word as any others
are (R70, R433). -/
def State.bgZero (s : State) (space off n : Nat) : State :=
  let quiet (r : Nat) : Bool :=
    let x := s.region r
    x.bank.isEmpty && x.bg.isEmpty && x.bgWaiting.isEmpty && x.shortStopTo.isNone
  if space ≠ 0 ∨ (List.range 16).all fun r => quiet r || decide (off + n ≤ r * 2 ^ 30 ∨ (r + 1) * 2 ^ 30 ≤ off) then
    s.zeroRange space off n
  else (List.range (n / 64)).foldl (fun t i => t.bgWrite 0 (off + 64 * i) (zeros 64)) s

/-- A store's word written by its enabled bytes; bytes a background access still touches are left free (R72). -/
def State.storeWord (s : State) (a : BankAcc) (i : Nat) : State :=
  let off := a.off + 64 * i
  let d := bytesOf 64 (a.data.extractLsb' (512 * i) 512)
  let en := (List.range 64).map fun j => a.mask.getLsbD (64 * i + j)
  if s.bgTouches off (off + 64) || s.anyClash [(0, off, off + 64, true)] then
    let (f, s1) := s.freeBytes 64
    let d1 := (List.range 64).map fun j => if s.hitByte (off + j) true then f.getD j 0 else d.getD j 0
    let s2 := (s1.writePart 0 off d1 en).2
    let keep (x : BgAcc) : BgAcc := if x.off = off then { x with mask := x.mask &&& ~~~(a.mask.extractLsb' (64 * i) 64) } else x
    let mine := ((List.range 64).filter fun j => en.getD j false).map fun j => (0, off + j, off + j + 1, true)
    (s2.markClash mine).modRegion (off / 2 ^ 30) fun r => { r with bg := r.bg.map keep, bgWaiting := r.bgWaiting.map keep }
  else (s.writePart 0 off d en).2

/-- A load's word read; free where it lost its bank, and in the bytes where a background write is outstanding (R68, R72). -/
def State.loadWord (s : State) (a : BankAcc) (lost : List Nat) (i : Nat) : List Byte × Option Nat × State :=
  let off := a.off + 64 * i
  if lost.contains i then
    let (f, s1) := s.freeBytes 64
    (f, none, s1)
  else if s.bgTouches off (off + 64) ∨ s.anyClash [(0, off, off + 64, false)] then
    let (d, bad, t) := s.readSram off 64
    let (f, t1) := t.freeBytes 64
    ((List.range 64).map fun j => if s.hitByte (off + j) false then f.getD j 0 else d.getD j 0, bad, t1)
  else s.readSram off 64

/-- Words `i` to `i + n − 1` of a load. -/
def State.loadWords (s : State) (a : BankAcc) (lost : List Nat) (i : Nat) : Nat → List Byte × Option Nat × State
  | 0 => ([], none, s)
  | n + 1 =>
    let (d, bad, t) := s.loadWord a lost i
    let (d', bad', t') := t.loadWords a lost (i + 1) n
    (d ++ d', match bad with | some b => some b | none => bad', t')

/-- The register effect of a load's bytes (R126, R144). -/
def BankAcc.effect (a : BankAcc) (d : List Byte) : Option Effect :=
  match a.kind with
  | .ld v => some (.vreg v (BitVec.allOnes 2048) (ofBytes 2048 d))
  | .ldw t part => some (.tileElems t part (ofBytes 2048 d))
  | .ldws t => some (.tileScales t (ofBytes 1024 d))
  | .st => none

/-- The region issues nothing after this beat (R161). -/
def State.stopAfter (s : State) (r : Nat) : State := s.modRegion r fun x => { x with stopping := true }

/-- One access at its bank beat, with the other accesses of that beat. -/
def State.bankAccess (s : State) (r : Nat) (a : BankAcc) (before after : List BankAcc) : State :=
  let lost := lostWords a before after
  let s1 := match a.kind with
    | .st => s.each (a.words.filter fun i => ¬ lost.contains i) fun t i => t.storeWord a i
    | _ =>
      let (d, bad, t) := s.loadWords a lost 0 (a.size / 64)
      let t1 := match a.effect d with
        | some e => t.modCore a.core fun k => k.later a.valid e
        | none => t
      match bad with
      | some b => (t1.raiseBad 0 b).stopAfter r
      | none => t1
  if lost = [] then s1
  else
    (s1.raise 0x1002 r (coreDetail a.core (72 * r + a.phys) 2 a.pc a.due) (some (a.core, a.pc))).stopAfter r

/-- Accesses of one bank beat, in issue order. -/
def State.bankGroup (s : State) (r : Nat) : List BankAcc → List BankAcc → State
  | _, [] => s
  | before, a :: after => (s.bankAccess r a before after).bankGroup r (before ++ [a]) after

/-- The bank beat that is due in a region (R66); none while it is held (R156). -/
def State.bankBeat (s : State) (r : Nat) : State :=
  if s.bankBeats r then
    let x := s.region r
    let b := x.beat + x.drain
    let due := x.bank.filter fun a => a.due ≤ b
    (s.modRegion r fun y => { y with bank := y.bank.filter fun a => b < a.due }).bankGroup r [] due
  else s

end Sys2Proof.Machine
end

