-- ==== Sys2Proof/Machine/Flags.lean ====
section
/-! DEFINITION. Status flags and the one rounding of the arithmetic: to a binary format, and to an integer (R94, R95,
R105, R106). -/

namespace Sys2Proof.Machine

/-- The five sticky status flags: invalid, divide-by-zero, overflow, underflow, inexact from bit 0 (R106, R139). -/
abbrev StFlags := BitVec 5

def fInvalid : StFlags := 1
def fDivZero : StFlags := 2
def fOverflow : StFlags := 4
def fUnderflow : StFlags := 8
def fInexact : StFlags := 16

/-- A rounding mode (R94). -/
inductive Rnd where
  | rne
  | rtz
  | rup
  | rdn
  deriving DecidableEq, Repr

/-- The 2-bit code of a rounding mode. -/
def rndOf (c : Nat) : Rnd :=
  match c % 4 with
  | 0 => .rne
  | 1 => .rtz
  | 2 => .rup
  | _ => .rdn

/-- A binary format: precision, exponent of the least subnormal step, exponent of the largest binade. -/
structure Fmt where
  p : Nat
  qmin : Int
  emax : Int
  deriving DecidableEq, Repr

/-- FP32: 24 bits of significand, steps from 2^-149, largest binade 2^127. -/
def fp32 : Fmt := ⟨24, -149, 127⟩

/-- BF16: 8 bits of significand, steps from 2^-133 (R83, R87). -/
def bf16 : Fmt := ⟨8, -133, 127⟩

/-- The significand at step 2^q of m × 2^e, rounded by a mode; the second answer says whether anything was lost. -/
def roundAt (r : Rnd) (neg : Bool) (m : Nat) (e q : Int) : Nat × Bool :=
  if q ≤ e then (m * 2 ^ (e - q).toNat, false)
  else
    let s := (q - e).toNat
    let n := m / 2 ^ s
    let rem := m % 2 ^ s
    let up : Bool := match r with
      | .rne => decide (2 ^ s < 2 * rem) || (decide (2 * rem = 2 ^ s) && decide (n % 2 = 1))
      | .rtz => false
      | .rup => !neg && decide (0 < rem)
      | .rdn => neg && decide (0 < rem)
    (if up then n + 1 else n, decide (0 < rem))

/-- Whether an overflow goes to the infinity, not the largest finite value (R95). -/
def overToInf (r : Rnd) (neg : Bool) : Bool :=
  match r with
  | .rne => true
  | .rtz => false
  | .rup => !neg
  | .rdn => neg

/-- The magnitude code of m × 2^e, m > 0, in a format, and its flags: tininess after rounding (R105). -/
def roundMag (f : Fmt) (r : Rnd) (neg : Bool) (m : Nat) (e : Int) : Nat × StFlags :=
  let msb := (Nat.log2 m : Int) + e
  let q0 := msb - (f.p - 1 : Nat)
  let q := max q0 f.qmin
  let (n, lost) := roundAt r neg m e q
  let carry := decide (n = 2 ^ f.p)
  let q' := if carry then q + 1 else q
  let n' := if carry then 2 ^ (f.p - 1) else n
  let inf := ((f.emax + 1 - (f.p - 1 : Nat)) - f.qmin).toNat * 2 ^ (f.p - 1) + 2 ^ (f.p - 1)
  if n' = 2 ^ (f.p - 1) ∧ f.emax < q' + (f.p - 1 : Nat) ∨ (2 ^ (f.p - 1) < n' ∧ f.emax < q' + (f.p - 1 : Nat)) then
    (if overToInf r neg then inf else inf - 1, fOverflow ||| fInexact)
  else
    let tiny : Bool := decide (q0 < f.qmin) &&
      !(decide (q0 + 1 = f.qmin) && decide ((roundAt r neg m e q0).1 = 2 ^ f.p))
    ((q' - f.qmin).toNat * 2 ^ (f.p - 1) + n',
      (if lost then fInexact else 0) ||| (if lost && tiny then fUnderflow else 0))

/-- ±m × 2^e in a format; zero keeps the sign given. -/
def roundFmt (f : Fmt) (r : Rnd) (neg : Bool) (m : Nat) (e : Int) : Nat × StFlags :=
  let sign := if neg then 2 ^ (if f.p = 24 then 31 else 15) else 0
  if m = 0 then (sign, 0) else
    let (c, fl) := roundMag f r neg m e
    (sign + c, fl)

/-- ±m × 2^e as a saturated INT32: out of range is invalid only (R95). -/
def roundInt32 (r : Rnd) (neg : Bool) (m : Nat) (e : Int) : Nat × StFlags :=
  let (n, lost) := roundAt r neg m e 0
  let v : Int := if neg then -(n : Int) else n
  if v < -2 ^ 31 then (0x80000000, fInvalid)
  else if 2 ^ 31 ≤ v then (0x7FFFFFFF, fInvalid)
  else (twos 32 v, if lost then fInexact else 0)

end Sys2Proof.Machine
end

