-- ==== Sys2Proof/Machine/Fp.lean ====
section
/-! DEFINITION. FP32 and INT32 lane operations (R105 to R108). A lane is its 32-bit code as a number. -/

namespace Sys2Proof.Machine

/-- The default NaN (R105). -/
def qnan : Nat := 0x7FC00000

/-- What an FP32 code stands for. -/
inductive FpVal where
  | fin (neg : Bool) (m : Nat) (e : Int)
  | inf (neg : Bool)
  | nan (signalling : Bool)
  deriving DecidableEq, Repr

/-- An FP32 code read. -/
def fpVal (x : Nat) : FpVal :=
  let neg := bit x 31
  let ex := bits x 30 23
  let fr := bits x 22 0
  if ex = 255 then (if fr = 0 then .inf neg else .nan (!bit x 22))
  else if ex = 0 then .fin neg fr (-149)
  else .fin neg (2 ^ 23 + fr) ((ex : Int) - 150)

def FpVal.isNan : FpVal → Bool
  | .nan _ => true
  | _ => false

def FpVal.isSig : FpVal → Bool
  | .nan s => s
  | _ => false

/-- The code of an infinity. -/
def infCode (neg : Bool) : Nat := if neg then 0xFF800000 else 0x7F800000

/-- The invalid flag if some operand is a signalling NaN (R107). -/
def sigFlag (l : List FpVal) : StFlags := if l.any FpVal.isSig then fInvalid else 0

/-- ±m × 2^e as a signed integer at step 2^q, q ≤ e. -/
def scaled (neg : Bool) (m : Nat) (e q : Int) : Int :=
  let n : Int := m * 2 ^ (e - q).toNat
  if neg then -n else n

/-- The rounded sum of two finite values, the sign of an exact zero as R107 gives. -/
def addFin (r : Rnd) (n1 : Bool) (m1 : Nat) (e1 : Int) (n2 : Bool) (m2 : Nat) (e2 : Int) : Nat × StFlags :=
  let q := min e1 e2
  let v := scaled n1 m1 e1 q + scaled n2 m2 e2 q
  if v = 0 then
    let neg := if m1 = 0 ∧ m2 = 0 ∧ n1 = n2 then n1 else decide (r = .rdn)
    (if neg then 0x80000000 else 0, 0)
  else roundFmt fp32 r (decide (v < 0)) v.natAbs q

/-- The code with its sign bit inverted; a NaN keeps being one. -/
def negCode (x : Nat) : Nat := x ^^^ 0x80000000

def fpAdd (r : Rnd) (a b : Nat) : Nat × StFlags :=
  let x := fpVal a
  let y := fpVal b
  match x, y with
  | .nan _, _ | _, .nan _ => (qnan, sigFlag [x, y])
  | .inf s, .inf t => if s = t then (infCode s, 0) else (qnan, fInvalid)
  | .inf s, _ => (infCode s, 0)
  | _, .inf t => (infCode t, 0)
  | .fin n1 m1 e1, .fin n2 m2 e2 => addFin r n1 m1 e1 n2 m2 e2

def fpSub (r : Rnd) (a b : Nat) : Nat × StFlags := fpAdd r a (negCode b)

def fpMul (r : Rnd) (a b : Nat) : Nat × StFlags :=
  let x := fpVal a
  let y := fpVal b
  match x, y with
  | .nan _, _ | _, .nan _ => (qnan, sigFlag [x, y])
  | .inf s, .inf t => (infCode (s ^^ t), 0)
  | .inf s, .fin t m _ | .fin t m _, .inf s => if m = 0 then (qnan, fInvalid) else (infCode (s ^^ t), 0)
  | .fin n1 m1 e1, .fin n2 m2 e2 => roundFmt fp32 r (n1 ^^ n2) (m1 * m2) (e1 + e2)

/-- a × b + c rounded once; an infinity times a zero is invalid whatever c holds (R107). -/
def fpFma (r : Rnd) (a b c : Nat) : Nat × StFlags :=
  let x := fpVal a
  let y := fpVal b
  let z := fpVal c
  match x, y with
  | .inf _, .fin _ 0 _ | .fin _ 0 _, .inf _ => (qnan, fInvalid)
  | .nan _, _ | _, .nan _ => (qnan, sigFlag [x, y, z])
  | .inf s, .inf t | .inf s, .fin t _ _ | .fin t _ _, .inf s =>
    match z with
    | .nan g => (qnan, if g then fInvalid else 0)
    | .inf u => if u = (s ^^ t) then (infCode u, 0) else (qnan, fInvalid)
    | .fin .. => (infCode (s ^^ t), 0)
  | .fin n1 m1 e1, .fin n2 m2 e2 =>
    match z with
    | .nan g => (qnan, if g then fInvalid else 0)
    | .inf u => (infCode u, 0)
    | .fin n3 m3 e3 => addFin r (n1 ^^ n2) (m1 * m2) (e1 + e2) n3 m3 e3

/-- A non-NaN code as an ordered integer: equal for the two zeros. -/
def fpKey (x : Nat) : Int := if bit x 31 then -((x % 2 ^ 31 : Nat) : Int) else (x % 2 ^ 31 : Nat)

/-- MIN and MAX: −0 lies below +0 (R107). -/
def fpMinMax (isMax : Bool) (a b : Nat) : Nat × StFlags :=
  let x := fpVal a
  let y := fpVal b
  if x.isNan ∨ y.isNan then (qnan, sigFlag [x, y])
  else
    let aLow := decide (fpKey a < fpKey b) || (decide (fpKey a = fpKey b) && bit a 31)
    (if aLow = isMax then b else a, 0)

/-- The comparison fn codes of R125. -/
def cmpOf (fn : Nat) (lt eq : Bool) : Bool :=
  match fn with
  | 0 => eq
  | 1 => !eq
  | 2 => lt
  | 3 => lt || eq
  | 4 => !lt && !eq
  | _ => !lt

/-- One lane of FCMP (R107). -/
def fpCmp (fn a b : Nat) : Bool × StFlags :=
  let x := fpVal a
  let y := fpVal b
  if x.isNan ∨ y.isNan then
    (decide (fn = 1), if fn ≤ 1 then sigFlag [x, y] else fInvalid)
  else (cmpOf fn (decide (fpKey a < fpKey b)) (decide (fpKey a = fpKey b)), 0)

/-- One lane of FOP by its fn code (R125). -/
def fopLane (fn : Nat) (r : Rnd) (a b c : Nat) : Nat × StFlags :=
  match fn with
  | 0 => fpAdd r a b
  | 1 => fpSub r a b
  | 2 => fpMul r a b
  | 3 => fpFma r a b c
  | 4 => fpMinMax false a b
  | 5 => fpMinMax true a b
  | 6 => (a % 2 ^ 31, 0)
  | 7 => (negCode a, 0)
  | _ => (a % 2 ^ 31 + b / 2 ^ 31 * 2 ^ 31, 0)

/-- A value clamped to a range. -/
def clamp (lo hi v : Int) : Int := max lo (min hi v)

/-- One lane of IOP by its fn code (R108, R125). -/
def iopLane (fn a b : Nat) : Nat :=
  let x := sext 32 a
  let y := sext 32 b
  match fn with
  | 0 => (a + b) % 2 ^ 32
  | 1 => twos 32 (x - y)
  | 2 => twos 32 (x * y)
  | 3 => twos 32 (clamp (-2 ^ 31) (2 ^ 31 - 1) (x + y))
  | 4 => twos 32 (clamp (-2 ^ 31) (2 ^ 31 - 1) (x - y))
  | 5 => a * 2 ^ (b % 32) % 2 ^ 32
  | 6 => a / 2 ^ (b % 32)
  | 7 => twos 32 (x / 2 ^ (b % 32))
  | 8 => a &&& b
  | 9 => a ||| b
  | _ => a ^^^ b

/-- One lane of ICMP: fn 0 to 5 signed, 6 to 9 unsigned LT, LE, GT, GE (R125). -/
def icmpLane (fn a b : Nat) : Bool :=
  if fn < 6 then cmpOf fn (decide (sext 32 a < sext 32 b)) (decide (a = b))
  else cmpOf (fn - 4) (decide (a < b)) (decide (a = b))

end Sys2Proof.Machine
end

