-- ==== Sys2Proof/Machine/Matrix.lean ====
section
/-! DEFINITION. MX elements, exact dot products, the exact accumulators, W128 windows and the readout (R83 to R103). -/

namespace Sys2Proof.Machine

/-- Element width of an operand type code (R123). -/
def typeWidth (t : Nat) : Nat :=
  match t with
  | 2 | 3 => 6
  | 4 | 9 => 4
  | 10 => 16
  | _ => 8

/-- Exponent of the least step of an element of a type; BF16 in units of its least subnormal (R84, R89). -/
def typeStep (t : Nat) : Int :=
  match t with
  | 0 => -9
  | 1 => -16
  | 2 => -3
  | 3 => -4
  | 4 => -1
  | 5 => -6
  | 10 => -133
  | _ => 0

/-- A microscaling type code. -/
def isMx (t : Nat) : Bool := decide (t ≤ 5)

/-- Products a column takes in a beat, for the legal operand pairs only (R88). -/
def pairDepth (ta tb : Nat) : Option Nat :=
  if isMx ta && isMx tb then some (if typeWidth ta ≤ 6 ∧ typeWidth tb ≤ 6 then 128 else 64)
  else if ta = 9 ∧ tb = 9 then some 128
  else if (ta = 8 ∨ ta = 9) ∧ (tb = 8 ∨ tb = 9) then some 64
  else if ta = 10 ∧ tb = 10 then some 16
  else none

/-- What an element code stands for: a sign, and a magnitude in units of the type's step. -/
inductive Elem where
  | num (neg : Bool) (m : Nat)
  | inf (neg : Bool)
  | nan
  deriving DecidableEq, Repr

/-- A floating element of `eb` exponent bits and `mb` mantissa bits, all codes finite. -/
def floatElem (eb mb code : Nat) : Elem :=
  let e := bits code (eb + mb - 1) mb
  let m := bits code (mb - 1) 0
  .num (bit code (eb + mb)) (if e = 0 then m else (2 ^ mb + m) * 2 ^ (e - 1))

/-- A two's-complement element of `w` bits. -/
def intElem (w code : Nat) : Elem := .num (decide (sext w code < 0)) (sext w code).natAbs

/-- An element code of a type read (R84, R87). -/
def elemOf (t code : Nat) : Elem :=
  match t with
  | 0 => if code % 128 = 127 then .nan else floatElem 4 3 code
  | 1 => if bits code 6 2 = 31 then (if code % 4 = 0 then .inf (bit code 7) else .nan) else floatElem 5 2 code
  | 2 => floatElem 2 3 code
  | 3 => floatElem 3 2 code
  | 4 => floatElem 2 1 code
  | 9 => intElem 4 code
  | 10 => if bits code 14 7 = 255 then (if code % 128 = 0 then .inf (bit code 15) else .nan) else floatElem 8 7 code
  | _ => intElem 8 code

def Elem.toInt : Elem → Int
  | .num true m => -(m : Int)
  | .num false m => m
  | _ => 0

/-- The special value of one product, or its exact value: an infinity with a zero is no number (R93). -/
def elemProduct : Elem → Elem → AccSt × Int
  | .nan, _ | _, .nan => (.nan, 0)
  | .inf s, .inf t => (if s = t then .posInf else .negInf, 0)
  | .inf s, .num t m | .num t m, .inf s => if m = 0 then (.nan, 0) else (if s = t then .posInf else .negInf, 0)
  | a, b => (.finite, a.toInt * b.toInt)

/-- Two contributions combined: IEEE's algebra of the special values, exact sums of the finite ones (R91). -/
def combine : AccSt × Int → AccSt × Int → AccSt × Int
  | (.nan, _), _ | _, (.nan, _) => (.nan, 0)
  | (.posInf, _), (.negInf, _) | (.negInf, _), (.posInf, _) => (.nan, 0)
  | (.posInf, _), _ | _, (.posInf, _) => (.posInf, 0)
  | (.negInf, _), _ | _, (.negInf, _) => (.negInf, 0)
  | (.finite, a), (.finite, b) => (.finite, a + b)

/-- Element `n` of a packed array of width `w` (R86). -/
def elemAt {k : Nat} (x : BitVec k) (w n : Nat) : Nat := (x.extractLsb' (w * n) w).toNat

/-- One block's contribution in units of 2^-286: its products' sum at its scales, or a special value (R93). -/
def blockTerm (sa sb : Nat) (q : Int) (prods : List (AccSt × Int)) : AccSt × Int :=
  if sa = 255 ∨ sb = 255 then (.nan, 0)
  else match prods.foldl combine (.finite, 0) with
    | (.finite, s) => (.finite, s * 2 ^ (q + sa - 127 + sb - 127 + 286).toNat)
    | x => x

/-- The combined contribution of one beat to column `j` (R89, R126). -/
def columnTerm (va : Vec) (t : Tile) (ta tb depth j : Nat) : AccSt × Int :=
  let wa := typeWidth ta
  let wb := typeWidth tb
  let q := typeStep ta + typeStep tb
  let prod (i : Nat) := elemProduct (elemOf ta (elemAt va wa i)) (elemOf tb (elemAt t.elems wb (j * depth + i)))
  if isMx ta then
    ((List.range (depth / 32)).map fun b =>
      blockTerm (vbyte va (128 + b)).toNat (elemAt t.scales 8 (4 * j + b)) q
        ((List.range 32).map fun i => prod (32 * b + i))).foldl combine (.finite, 0)
  else
    match ((List.range depth).map prod).foldl combine (.finite, 0) with
    | (.finite, s) => (.finite, s * 2 ^ (q + 286).toNat)
    | x => x

/-- A contribution added to an accumulator; outside the finite range the true sum's sign gives the infinity (R91). -/
def ExAcc.add (a : ExAcc) (c : AccSt × Int) : ExAcc :=
  match combine (a.st, a.z.toInt) c with
  | (.finite, v) =>
    if v < -2 ^ 575 then { a with st := .negInf }
    else if 2 ^ 575 ≤ v then { a with st := .posInf }
    else { st := .finite, z := BitVec.ofInt 576 v }
  | (st, _) => { a with st := st }

/-- Accumulators 0 to 31 after an MMA with a legal type pair (R88, R89). -/
def mmaAccs (va : Vec) (t : Tile) (ta tb depth : Nat) (acc : Tab ExAcc) : Tab ExAcc :=
  (List.range 32).foldl (fun m j =>
    let a : ExAcc := Tab.get {} m j
    Tab.set m j (a.add (columnTerm va t ta tb depth j))) acc

/-! ## W128 (R96 to R103) -/

/-- ±m × 2^e in the window with base `b`: N as 128 bits, and its flags (R99). -/
def window (neg : Bool) (m : Nat) (e b : Int) : Nat × Nat :=
  let v : Int := if neg then -(m : Int) else m
  let s := (b - e).toNat
  let n : Int := if b ≤ e then v * 2 ^ (e - b).toNat else v / 2 ^ s
  let low : Bool := decide (e < b) && decide (m % 2 ^ s ≠ 0)
  let wrap : Bool := decide (n < -2 ^ 103) || decide (2 ^ 103 ≤ n)
  (twos 128 n, low.toNat + 2 * wrap.toNat)

/-- A finite accumulator's sign and magnitude in units of 2^-286. -/
def ExAcc.sign (a : ExAcc) : Bool := decide (a.z.toInt < 0)

def ExAcc.mag (a : ExAcc) : Nat := a.z.toInt.natAbs

/-- One accumulator's W128 term (R95, R99). -/
def ExAcc.term (a : ExAcc) (b : Int) : Nat × Nat :=
  match a.st with
  | .nan => (0, 4)
  | .posInf => (0, 8)
  | .negInf => (0, 16)
  | .finite => window a.sign a.mag (-286) b

/-- One accumulator read out: format 0 FP32, 1 BF16, 2 INT32 (R95). -/
def ExAcc.readout (a : ExAcc) (fmt : Nat) (r : Rnd) : Nat × StFlags :=
  match a.st, fmt with
  | .nan, 0 => (qnan, 0)
  | .nan, 1 => (0x7FC0, 0)
  | .nan, _ => (0, fInvalid)
  | .posInf, 0 => (infCode false, 0)
  | .posInf, 1 => (0x7F80, 0)
  | .posInf, _ => (0x7FFFFFFF, fInvalid)
  | .negInf, 0 => (infCode true, 0)
  | .negInf, 1 => (0xFF80, 0)
  | .negInf, _ => (0x80000000, fInvalid)
  | .finite, 0 => roundFmt fp32 r a.sign a.mag (-286)
  | .finite, 1 => roundFmt bf16 r a.sign a.mag (-286)
  | .finite, _ => roundInt32 r a.sign a.mag (-286)

/-- A group of 15 W128 values (R98). -/
def groupOf (l : List (Nat × Nat)) : Vec :=
  ofBytes 2048 ((List.range 15).flatMap (fun k => toLE 16 (l.getD k (0, 0)).1)
    ++ (List.range 15).map fun k => BitVec.ofNat 8 (l.getD k (0, 0)).2)

/-- Value `k` of a group and its flag byte. -/
def groupAt (v : Vec) (k : Nat) : Nat × Nat := (elemAt v 128 k, (vbyte v (240 + k)).toNat)

/-- A vector register filled by RDOUT, and its flags (R127). A W128 readout raises no status flag: what is cut off below the window
shows as inexact_low (R99; DEDUCED, log entry 65). -/
def readoutVec (acc : Tab ExAcc) (fmt col : Nat) (r : Rnd) (base : Int) : Vec × StFlags :=
  let at_ (j : Nat) : ExAcc := Tab.get {} acc j
  if fmt = 3 then (groupOf ((List.range 15).map fun k => (at_ (col + k)).term base), 0)
  else
    let l := (List.range 32).map fun j => (at_ j).readout fmt r
    (ofBytes 2048 (l.flatMap fun x => toLE (if fmt = 1 then 2 else 4) x.1),
      l.foldl (fun a x => a ||| x.2) 0)

/-- The accumulators a readout with clear has cleared (R127). -/
def readoutClear (acc : Tab ExAcc) (fmt col : Nat) : Tab ExAcc :=
  if fmt = 3 then acc.filter fun x => x.1 < col ∨ col + 15 ≤ x.1 else []

end Sys2Proof.Machine
end

