-- ==== Sys2Proof/Machine/Convert.lean ====
section
/-! DEFINITION. Conversions between formats, quantization, and the W128 operations of the V slot (R96 to R103, R109 to
R111, R125, R128, R129). -/

namespace Sys2Proof.Machine

/-- Bits an element of a CVT source has in Va: 32 where lanes hold it. -/
def cvtSrc (fn : Nat) : Nat :=
  match fn with
  | 1 => 16
  | 6 => 8
  | 7 => 4
  | _ => 32

/-- Bits an element of a CVT result has in Vd. -/
def cvtDst (fn : Nat) : Nat :=
  match fn with
  | 0 => 16
  | 4 => 8
  | 5 => 4
  | _ => 32

/-- An FP32 code converted to BF16 (R109). -/
def toBf16 (r : Rnd) (x : Nat) : Nat × StFlags :=
  match fpVal x with
  | .nan s => (0x7FC0, if s then fInvalid else 0)
  | .inf neg => (if neg then 0xFF80 else 0x7F80, 0)
  | .fin neg m e => roundFmt bf16 r neg m e

/-- An FP32 code converted to INT32 (R109). -/
def toInt32 (r : Rnd) (x : Nat) : Nat × StFlags :=
  match fpVal x with
  | .nan _ => (0, fInvalid)
  | .inf neg => (if neg then 0x80000000 else 0x7FFFFFFF, fInvalid)
  | .fin neg m e => roundInt32 r neg m e

/-- One conversion of R109 by its fn code. -/
def cvtLane (fn : Nat) (r : Rnd) (x : Nat) : Nat × StFlags :=
  match fn with
  | 0 => toBf16 r x
  | 1 => match fpVal (x * 65536) with
    | .nan s => (qnan, if s then fInvalid else 0)
    | _ => (x * 65536, 0)
  | 2 => toInt32 r x
  | 3 => roundFmt fp32 r (decide (sext 32 x < 0)) (sext 32 x).natAbs 0
  | 4 => (twos 8 (clamp (-128) 127 (sext 32 x)), 0)
  | 5 => (twos 4 (clamp (-8) 7 (sext 32 x)), 0)
  | 6 => (twos 32 (sext 8 x), 0)
  | _ => (twos 32 (sext 4 x), 0)

/-- What a V-slot operation gives: the bits written, the value, and the flags raised. -/
structure VOut where
  mask : Vec
  val : Vec
  flags : StFlags := 0
  wf : Byte := 0
  deriving DecidableEq, Repr

/-- A lane-by-lane operation: lanes that are on are computed and written, and raise flags (R134). -/
def lanewise (on : BitVec 64) (f : Nat → Nat × StFlags) : VOut :=
  let l := (List.range 64).map fun k => if on.getLsbD k then f k else (0, 0)
  { mask := laneMask on, val := ofBytes 2048 (l.flatMap fun x => toLE 4 x.1),
    flags := l.foldl (fun a x => a ||| x.2) 0 }

/-- A whole operation: lanes off keep their value; flags only when some lane is on (R134). -/
def wholly (on : BitVec 64) (val : Vec) (fl : StFlags) (wf : Byte := 0) : VOut :=
  { mask := laneMask on, val := val, flags := if on = 0 then 0 else fl, wf := if on = 0 then 0 else wf }

/-- CVT: packed results fill a dense array, with zeros after the last element (R125). -/
def cvtVec (fn : Nat) (r : Rnd) (on : BitVec 64) (va : Vec) : VOut :=
  let w := cvtDst fn
  let o := lanewise on fun k => cvtLane fn r (elemAt va (cvtSrc fn) k)
  if w = 32 then o
  else
    let put (f : Nat → Nat) : Vec :=
      BitVec.ofNat 2048 ((List.range 64).reverse.foldl (fun a k => a * 2 ^ w + f k) 0)
    let tail : Vec := if on = 0 then 0 else BitVec.allOnes 2048 <<< (64 * w)
    { o with mask := put (fun k => if on.getLsbD k then 2 ^ w - 1 else 0) ||| tail
             val := put fun k => elemAt o.val 32 k }

/-! ## Quantization and dequantization (R110, R111, R128) -/

/-- A type's largest normal exponent, largest finite code and significand bits (R84). -/
def quantRow (t : Nat) : Int × Nat × Nat :=
  match t with
  | 0 => (8, 0x7E, 4)
  | 1 => (15, 0x7B, 3)
  | 2 => (2, 0x1F, 4)
  | 3 => (4, 0x1F, 3)
  | 4 => (2, 0x7, 2)
  | _ => (0, 127, 8)

/-- ±m × 2^e rounded to nearest even in an MX type, saturated: code and flags (R110, R111). -/
def quantElem (t : Nat) (neg : Bool) (m : Nat) (e : Int) : Nat × StFlags :=
  let (_, top, p) := quantRow t
  let sign := if neg then 2 ^ (typeWidth t - 1) else 0
  if m = 0 then (if t = 5 then 0 else sign, 0)
  else
    let q0 := typeStep t
    let q := if t = 5 then q0 else max ((Nat.log2 m : Int) + e - (p - 1 : Nat)) q0
    let (n, lost) := roundAt .rne neg m e q
    let code := if t = 5 then n else (q - q0).toNat * 2 ^ (p - 1) + n
    let sat := decide (top < code)
    let c := if sat then top else code
    let fl : StFlags := if sat then fInexact else if lost then (if c = 0 then fInexact ||| fUnderflow else fInexact) else 0
    (if t = 5 then (if neg then (256 - c) % 256 else c) else sign + c, fl)

/-- The scale exponent of a block: floor(log2 amax) − emax, clamped; −127 for a block of zeros (R110). An E5M2 block whose lanes are
all infinite has no finite x and so no amax: it takes −127, too (DESIGN CHOICE, log entry 65). -/
def quantExp (t : Nat) (l : List FpVal) : Int :=
  let mags := l.filterMap fun x => match x with
    | .fin _ m e => if m = 0 then none else some ((Nat.log2 m : Int) + e)
    | _ => none
  match mags with
  | [] => -127
  | x :: xs => clamp (-127) 127 (xs.foldl max x - (quantRow t).1)

/-- 32 FP32 lanes quantized: scale byte, element codes, flags (R110, R111). -/
def quantBlock (t : Nat) (lanes : List Nat) : Nat × List Nat × StFlags :=
  let l := lanes.map fpVal
  let isInf (x : FpVal) : Bool := match x with | .inf _ => true | _ => false
  let badInf := t != 1 && l.any isInf
  if l.any FpVal.isNan || badInf then
    (255, List.replicate 32 0, if l.any FpVal.isSig || badInf then fInvalid else 0)
  else
    let e := quantExp t l
    let r := l.map fun x => match x with
      | .fin neg m ex => quantElem t neg m (ex - e)
      | .inf neg => (if neg then 0xFC else 0x7C, 0)
      | .nan _ => (0, 0)
    ((e + 127).toNat, r.map (·.1), r.foldl (fun a x => a ||| x.2) 0)

/-- A list of codes packed at a width, element 0 lowest (R86). -/
def packCodes (w : Nat) (l : List Nat) : Nat := l.reverse.foldl (fun a c => a * 2 ^ w + c) 0

/-- QUANT (R128). -/
def quantVec (t : Nat) (on : BitVec 64) (va : Vec) : VOut :=
  let lanes := (List.range 64).map fun k => (lane va k).toNat
  let b0 := quantBlock t (lanes.take 32)
  let b1 := quantBlock t (lanes.drop 32)
  wholly on (BitVec.ofNat 2048 (packCodes (typeWidth t) (b0.2.1 ++ b1.2.1) + b0.1 * 2 ^ 1024 + b1.1 * 2 ^ 1032))
    (b0.2.2 ||| b1.2.2)

/-- One element at its scale as FP32, exactly or an infinity (R109). A NaN code raises no flag, whatever its quiet bit would be (DESIGN
CHOICE, log entry 68). -/
def dequantElem (t scale code : Nat) : Nat × StFlags :=
  if scale = 255 then (qnan, 0)
  else match elemOf t code with
    | .nan => (qnan, 0)
    | .inf neg => (infCode neg, 0)
    | .num neg m => roundFmt fp32 .rne neg m (typeStep t + scale - 127)

/-- DEQUANT (R128). -/
def dequantVec (t : Nat) (on : BitVec 64) (va : Vec) : VOut :=
  let l := (List.range 64).map fun k => dequantElem t (vbyte va (128 + k / 32)).toNat (elemAt va (typeWidth t) k)
  wholly on (ofBytes 2048 (l.flatMap fun x => toLE 4 x.1)) (l.foldl (fun a x => a ||| x.2) 0)

/-! ## W128 operations -/

/-- WADD: N modulo 2^128, flags ORed (R100). R100 ORs 'the two flag bytes', whatever their
reserved bits hold. -/
def waddVec (on : BitVec 64) (va vb : Vec) : VOut :=
  wholly on (groupOf ((List.range 15).map fun k =>
    (((groupAt va k).1 + (groupAt vb k).1) % 2 ^ 128, (groupAt va k).2 ||| (groupAt vb k).2))) 0

/-- An FP32 lane as a W128 term; a signalling NaN raises invalid (R99, R105). A truncation into the window sets inexact_low and raises
no status flag: R99 names no other flag, R106 gives inexact to a rounded result (DEDUCED, log entry 65). -/
def fpTerm (b : Int) (x : Nat) : (Nat × Nat) × StFlags :=
  match fpVal x with
  | .nan s => ((0, 4), if s then fInvalid else 0)
  | .inf neg => ((0, if neg then 16 else 8), 0)
  | .fin neg m e => (window neg m e b, 0)

/-- A W128 value read out to FP32, or to BF16 (R103). -/
def termOut (bf : Bool) (r : Rnd) (b : Int) (x : Nat × Nat) : Nat × StFlags :=
  let f := x.2
  let n := sext 128 x.1
  if bit f 2 ∨ (bit f 3 ∧ bit f 4) then (if bf then 0x7FC0 else qnan, fInvalid)
  else if bit f 3 then (if bf then 0x7F80 else infCode false, 0)
  else if bit f 4 then (if bf then 0xFF80 else infCode true, 0)
  else if bit f 1 then (if bf then 0x7FC1 else 0x7FC00001, fInvalid)
  else roundFmt (if bf then bf16 else fp32) r (decide (n < 0)) n.natAbs b

/-- The lanes of WCVT group `g` (R129). -/
def groupLanes (g : Nat) : List Nat := if g = 4 then [60, 61, 62, 63] else (List.range 15).map (15 * g + ·)

/-- WCVT (R129): fn 0 F→W, 1 W→FP32, 2 W→BF16. WF has the layout of R97, whose bits [7:5] are reserved and so read as zero (R8): where
a group's flag bytes hold them set they do not enter WF (DEDUCED, log entry 65). -/
def wcvtVec (fn g : Nat) (r : Rnd) (b : Int) (on : BitVec 64) (va vc : Vec) : VOut :=
  if fn = 0 then
    let l := (groupLanes g).map fun k => fpTerm b (lane va k).toNat
    wholly on (groupOf (l.map (·.1))) (l.foldl (fun a x => a ||| x.2) 0)
  else
    let ks := groupLanes g
    let l := (List.range ks.length).map fun j => termOut (fn == 2) r b (groupAt va j)
    let out := ofBytes 2048 ((List.range 64).flatMap fun k => toLE 4 (match ks.idxOf? k with
      | some j => (l.getD j (0, 0)).1 * (if fn = 2 then 65536 else 1)
      | none => (lane vc k).toNat))
    let wf := (List.range 15).foldl (fun a k => a ||| (groupAt va k).2) 0
    wholly on out (l.foldl (fun a x => a ||| x.2) 0) (BitVec.ofNat 8 (wf % 32))

/-- PERM: lane `k` takes the lane that bits [5:0] of lane `k` of Vb name (R125). -/
def permVec (on : BitVec 64) (va vb : Vec) : VOut :=
  lanewise on fun k => ((lane va ((lane vb k).toNat % 64)).toNat, 0)

end Sys2Proof.Machine
end

