-- ==== Sys2Proof/Machine/Rng.lean ====
section
/-! DEFINITION. Philox4x32-10 and the random words of R115 to R117, R130. -/

namespace Sys2Proof.Machine

/-- One round on the counter words with a round key (R115). -/
def philoxRound (k0 k1 : Nat) : Nat × Nat × Nat × Nat → Nat × Nat × Nat × Nat
  | (c0, c1, c2, c3) =>
    let p0 := 0xD2511F53 * c0
    let p1 := 0xCD9E8D57 * c2
    ((p1 / 2 ^ 32) ^^^ c1 ^^^ k0, p1 % 2 ^ 32, (p0 / 2 ^ 32) ^^^ c3 ^^^ k1, p0 % 2 ^ 32)

/-- `n` rounds, the key bumped between rounds. -/
def philoxRounds : Nat → Nat → Nat → Nat × Nat × Nat × Nat → Nat × Nat × Nat × Nat
  | 0, _, _, c => c
  | n + 1, k0, k1, c =>
    philoxRounds n ((k0 + 0x9E3779B9) % 2 ^ 32) ((k1 + 0xBB67AE85) % 2 ^ 32) (philoxRound k0 k1 c)

/-- The random word of a seed, step, stream and element index (R116). -/
def randomWord (seed n t i : Nat) : Nat :=
  let w := philoxRounds 10 (bits seed 31 0) (bits seed 63 32)
    (bits i 33 2, t, bits n 31 0 ^^^ bits seed 95 64, bits n 63 32 ^^^ bits seed 127 96)
  match i % 4 with
  | 0 => w.1
  | 1 => w.2.1
  | 2 => w.2.2.1
  | _ => w.2.2.2

/-- A random word as fn 0 raw, 1 uniform, 2 open (R117); the conversions are exact. -/
def randomLane (fn w : Nat) : Nat :=
  match fn with
  | 0 => w
  | 1 => (roundFmt fp32 .rne false (w / 2 ^ 8) (-24)).1
  | _ => (roundFmt fp32 .rne false (w / 2 ^ 9 * 2 + 1) (-24)).1

/-- RNG: stream from lane 0 of Va, index base from bits [33:0] of lanes 1:0 of Vb (R130). An element
index that passes 2^34 is taken modulo 2^34: R116 gives the index 34 bits and no wrap (DESIGN CHOICE, log entry 65). -/
def rngVec (fn seed n : Nat) (on : BitVec 64) (va vb : Vec) : VOut :=
  let base := elemAt vb 64 0 % 2 ^ 34
  lanewise on fun k => (randomLane fn (randomWord seed n (lane va 0).toNat ((base + k) % 2 ^ 34)), 0)

end Sys2Proof.Machine
end

