-- ==== Sys2Proof/Machine/Sfu.lean ====
section
/-! DEFINITION. The special functions (R112 to R114): each is bracketed in 768-bit fixed point and both ends are rounded.
Where they agree that is the correctly rounded result; where they do not, the result is a free value of Config. -/

namespace Sys2Proof.Machine

/-- Fraction bits of the fixed point. -/
def fxBits : Nat := 768

/-- The error bound of every fixed-point result, in its last place. -/
def fxErr : Nat := 2 ^ 80

/-- 1 in fixed point. -/
def fxOne : Nat := 2 ^ fxBits

/-- m × 2^e in fixed point, truncated. -/
def fxOf (m : Nat) (e : Int) : Nat := if 0 ≤ fxBits + e then m * 2 ^ (fxBits + e).toNat else m / 2 ^ (-(fxBits + e)).toNat

def fxMul (a b : Int) : Int := a * b / 2 ^ fxBits

/-- Sum of t, t·x/(c+1), … : the next term of index k is the last times x over d k, n terms. -/
def fxSeries (d : Nat → Nat) (x : Int) : Nat → Nat → Int → Int
  | 0, _, _ => 0
  | n + 1, k, t => t + fxSeries d x n (k + 1) (fxMul t x / d k)

/-- Σ z^(2k+1)/(2k+1) from power p = z^(2k+1), z² = z2: the series of atanh, and of atan for a negative z2. -/
def fxAtanh (z2 : Int) : Nat → Nat → Int → Int
  | 0, _, _ => 0
  | n + 1, k, p => p / (2 * k + 1 : Nat) + fxAtanh z2 n (k + 1) (fxMul p z2)

/-- ln 2. -/
def fxLn2 : Int := 2 * fxAtanh (fxOne / 9 : Nat) 260 0 (fxOne / 3 : Nat)

/-- atan (1/n). -/
def fxAtanInv (n : Nat) : Int := fxAtanh (-(fxOne / (n * n) : Nat)) 200 0 (fxOne / n : Nat)

/-- π, by Machin's formula. -/
def fxPi : Int := 16 * fxAtanInv 5 - 4 * fxAtanInv 239

/-- e^t for |t| below 1. -/
def fxExp (t : Int) : Int := fxSeries (fun k => k + 1) t 160 0 fxOne

/-- The integer square root, bit by bit from bit `i` − 1. -/
def isqrtFrom : Nat → Nat → Nat → Nat
  | 0, _, r => r
  | i + 1, n, r => if (r + 2 ^ i) * (r + 2 ^ i) ≤ n then isqrtFrom i n (r + 2 ^ i) else isqrtFrom i n r

/-- A fixed-point result v, within its error bound, rounded to FP32 at 2^e times its value; `k` and `x` name the free
value that stands where the two ends differ. -/
def fxRound (k : Nat) (x : Nat) (v : Int) (e : Int) : Nat × StFlags :=
  let neg := decide (v < 0)
  let lo := roundFmt fp32 .rne neg (v.natAbs - fxErr) (e - fxBits)
  let hi := roundFmt fp32 .rne neg (v.natAbs + fxErr) (e - fxBits)
  (if lo.1 = hi.1 then lo.1 else (Config.freeSfu k (BitVec.ofNat 32 x)).toNat, lo.2 ||| fInexact)

/-- 2 to ±m × 2^e. -/
def sfuExp2 (x : Nat) (neg : Bool) (m : Nat) (e : Int) : Nat × StFlags :=
  if m = 0 then (0x3F800000, 0)
  else
    let big := decide (9 < (Nat.log2 m : Int) + e)
    let v : Int := if big then 0 else if neg then -(fxOf m e : Int) else fxOf m e
    if big ∧ ¬ neg ∨ 128 * fxOne ≤ v then (infCode false, fOverflow ||| fInexact)
    else if big ∨ v ≤ -(150 * fxOne : Nat) then (0, fUnderflow ||| fInexact)
    else
      let n := v / 2 ^ fxBits
      let f := v % 2 ^ fxBits
      if f = 0 then roundFmt fp32 .rne false 1 n else fxRound 0 x (fxExp (fxMul f fxLn2)) n

/-- log2 of m × 2^e, m > 0. -/
def sfuLog2 (x m : Nat) (e : Int) : Nat × StFlags :=
  let b := Nat.log2 m
  let n : Int := b + e
  if m = 2 ^ b then roundFmt fp32 .rne (decide (n < 0)) n.natAbs 0
  else
    let f := fxOf m (-b)
    let z : Int := ((f - fxOne) * fxOne / (f + fxOne) : Nat)
    fxRound 1 x (n * fxOne + 2 * fxAtanh (fxMul z z) 260 0 z * fxOne / fxLn2) 0

/-- 1 over ±m × 2^e, exact down to a sticky bit. -/
def sfuRecip (neg : Bool) (m : Nat) (e : Int) : Nat × StFlags :=
  let q := 2 ^ 100 / m
  roundFmt fp32 .rne neg (2 * q + (if q * m = 2 ^ 100 then 0 else 1)) (-101 - e)

/-- 1 over the square root of m × 2^e, exact down to a sticky bit. -/
def sfuRsqrt (m : Nat) (e : Int) : Nat × StFlags :=
  let odd := decide (e % 2 ≠ 0)
  let m := if odd then 2 * m else m
  let e := if odd then e - 1 else e
  let q := isqrtFrom 101 (2 ^ 200 / m) 0
  roundFmt fp32 .rne false (2 * q + (if q * q * m = 2 ^ 200 then 0 else 1)) (-101 - e / 2)

/-- A magnitude that lies within 2^-55 below 1. -/
def nearOne (neg : Bool) : Nat × StFlags := (if neg then 0xBF800000 else 0x3F800000, fInexact)

/-- tanh of ±m × 2^e. -/
def sfuTanh (x : Nat) (neg : Bool) (m : Nat) (e : Int) : Nat × StFlags :=
  if 5 < (Nat.log2 m : Int) + e then nearOne neg
  else
    let y : Int := 2 * fxOf m e
    let n := y / fxLn2
    let q := fxExp (-(y - n * fxLn2)) / 2 ^ n.toNat
    let v := (fxOne - q) * fxOne / (fxOne + q)
    fxRound 4 x (if neg then -v else v) 0

/-- Σ (−1)^n x^(2n+1)/(n! (2n+1)) from t = ±x^(2n+1)/n!. -/
def fxErfSum (x2 : Int) : Nat → Nat → Int → Int
  | 0, _, _ => 0
  | n + 1, k, t => t / (2 * k + 1 : Nat) + fxErfSum x2 n (k + 1) (-(fxMul t x2 / (k + 1 : Nat)))

/-- erf of ±m × 2^e; beyond 6 it lies within 2^-55 of 1. -/
def sfuErf (x : Nat) (neg : Bool) (m : Nat) (e : Int) : Nat × StFlags :=
  if 5 < (Nat.log2 m : Int) + e ∨ 6 * fxOne ≤ fxOf m e then nearOne neg
  else
    let y : Int := fxOf m e
    let root : Int := isqrtFrom 780 (fxPi.toNat * fxOne) 0
    let v := 2 * fxErfSum (fxMul y y) 420 0 y * fxOne / root
    fxRound 5 x (if neg then -v else v) 0

/-- sin and cos of a reduced angle by their series. -/
def fxSin (r : Int) : Int := fxSeries (fun k => (2 * k + 2) * (2 * k + 3)) (-fxMul r r) 100 0 r

def fxCos (r : Int) : Int := fxSeries (fun k => (2 * k + 1) * (2 * k + 2)) (-fxMul r r) 100 0 fxOne

/-- sin (or cos) of ±m × 2^e, |x| ≤ 1,024. -/
def sfuSinCos (x : Nat) (cos : Bool) (neg : Bool) (m : Nat) (e : Int) : Nat × StFlags :=
  let y : Int := if neg then -(fxOf m e : Int) else fxOf m e
  let h := fxPi / 2
  let k := (y + h / 2) / h
  let r := y - k * h
  let v := match ((k + if cos then 1 else 0) % 4).toNat with
    | 0 => fxSin r
    | 1 => fxCos r
    | 2 => -fxSin r
    | _ => -fxCos r
  fxRound (if cos then 7 else 6) x v 0

/-- A special function of one lane by its fn code: EXP2, LOG2, RECIP, RSQRT, TANH, ERF, SIN, COS (R113, R125). -/
def sfuLane (fn x : Nat) : Nat × StFlags :=
  match fpVal x with
  | .nan s => (qnan, if s then fInvalid else 0)
  | .inf neg =>
    match fn with
    | 0 => (if neg then 0 else infCode false, 0)
    | 1 | 3 => if neg then (qnan, fInvalid) else (if fn = 1 then infCode false else 0, 0)
    | 2 => (if neg then 0x80000000 else 0, 0)
    | 4 | 5 => (if neg then 0xBF800000 else 0x3F800000, 0)
    | _ => (qnan, fInvalid)
  | .fin neg m e =>
    match fn with
    | 0 => sfuExp2 x neg m e
    | 1 => if m = 0 then (infCode true, fDivZero) else if neg then (qnan, fInvalid) else sfuLog2 x m e
    | 2 => if m = 0 then (infCode neg, fDivZero) else sfuRecip neg m e
    | 3 => if m = 0 then (infCode neg, fDivZero) else if neg then (qnan, fInvalid) else sfuRsqrt m e
    | 4 => if m = 0 then (x, 0) else sfuTanh x neg m e
    | 5 => if m = 0 then (x, 0) else sfuErf x neg m e
    | _ =>
      if m = 0 then (if fn = 6 then x else 0x3F800000, 0)
      else if 10 < (Nat.log2 m : Int) + e ∨ 1024 * fxOne < fxOf m e then (qnan, fInvalid)
      else sfuSinCos x (fn == 7) neg m e

end Sys2Proof.Machine
end

