-- ==== Sys2Proof/Machine/Operands.lean ====
section
/-! DEFINITION. Bundles: slots and their fields, what makes a bundle illegal, predication, the registers an operation
reads and writes, and the allocation windows (R77 to R80, R121 to R144). -/

namespace Sys2Proof.Machine

/-- One slot of a bundle: operation, predicate register, its inversion, operand bits [53:0] (R122). -/
structure SlotOp where
  op : Nat
  pred : Nat
  pneg : Bool
  w : Nat
  deriving DecidableEq, Repr

/-- A slot's place in the bundle: M 0, V 1, L 2, C 3 (R121). -/
def slotIndex : Slot → Nat
  | .m => 0
  | .v => 1
  | .l => 2
  | .c => 3

/-- The slot of a bundle for a unit. -/
def slotOf (b : BitVec 256) (u : Slot) : SlotOp :=
  let x := (b.extractLsb' (64 * slotIndex u) 64).toNat
  { op := bits x 63 58, pred := bits x 57 55, pneg := bit x 54, w := bits x 53 0 }

/-- Bits [hi:lo] of a slot's operands. -/
def SlotOp.f (x : SlotOp) (hi lo : Nat) : Nat := bits x.w hi lo

/-- A bundle with a unit's slot replaced by an operation code and bits [57:0]. -/
def withSlot (b : BitVec 256) (u : Slot) (op : Nat) (w : BitVec 58) : BitVec 256 :=
  let sh := 64 * slotIndex u
  (b &&& ~~~((0xFFFFFFFFFFFFFFFF : BitVec 256) <<< sh)) ||| (BitVec.ofNat 256 (op * 2 ^ 58 + w.toNat) <<< sh)

/-- The bundle that fills unwritten instruction memory: HALT in C, NOP elsewhere (R353). -/
def haltBundle : BitVec 256 := (4 : BitVec 256) <<< 250

/-- The operand bit ranges a listed operation uses; none for an opcode the table does not list (R125). -/
def usedBits : Slot → Nat → Option (List (Nat × Nat))
  | _, 0 => some []
  | .m, 1 => some [(53, 40)]
  | .m, 2 => some []
  | .m, 3 => some [(53, 23)]
  | .v, 1 => some [(53, 24)]
  | .v, 2 => some [(51, 39), (31, 24)]
  | .v, 3 => some [(53, 39), (31, 24)]
  | .v, 4 => some [(51, 39), (31, 24)]
  | .v, 5 => some [(53, 44), (33, 32), (31, 24)]
  | .v, 6 => some [(53, 44), (27, 24)]
  | .v, 7 => some [(53, 44), (27, 24)]
  | .v, 8 => some [(53, 44), (31, 24)]
  | .v, 9 => some [(53, 39), (31, 24)]
  | .v, 10 => some [(53, 39)]
  | .v, 11 => some [(53, 44), (38, 8)]
  | .v, 12 => some [(53, 39)]
  | .v, 13 => some [(51, 49), (46, 44), (41, 39), (31, 24)]
  | .l, 1 => some [(53, 13)]
  | .l, 2 => some [(53, 13)]
  | .l, 3 => some [(53, 13)]
  | .l, 4 => some [(53, 53), (48, 13)]
  | .c, 1 => some [(53, 37), (31, 0)]
  | .c, 2 => some [(53, 20)]
  | .c, 3 => some [(53, 41)]
  | .c, 4 => some []
  | .c, 5 => some [(53, 46)]
  | .c, 6 => some [(53, 46)]
  | .c, 7 => some [(53, 32)]
  | .c, 8 => some [(53, 32)]
  | .c, 9 => some [(53, 32)]
  | .c, 10 => some [(53, 29)]
  | .c, 11 => some [(53, 49)]
  | .c, 12 => some [(53, 46)]
  | .c, 13 => some []
  | _, _ => none

/-- Every operand bit set is one the operation uses (R122). -/
def SlotOp.reservedClear (x : SlotOp) (used : List (Nat × Nat)) : Bool :=
  decide (used.foldl (fun a r => a + bits x.w r.1 r.2 * 2 ^ r.2) 0 = x.w)

/-- Whether a stream binding word binds to something (R354). -/
def bound (t : Tab (BitVec 32)) (s : Nat) : Bool := decide (bits (Tab.get 0 t s).toNat 2 0 ≠ 0)

/-- Field values R132 allows a listed operation, at a bundle address, with the core's bindings. -/
def SlotOp.fieldsLegal (x : SlotOp) (u : Slot) (pc : Nat) (sendB landB : Tab (BitVec 32)) : Bool :=
  match u, x.op with
  | .m, 1 => (pairDepth (x.f 47 44) (x.f 43 40)).isSome
  | .m, 3 => if x.f 48 47 = 3 then decide (x.f 43 39 ≤ 17) else decide (x.f 43 39 = 0)
  | .v, 1 => decide (x.f 31 24 ≤ 8)
  | .v, 2 => decide (x.f 31 24 ≤ 5)
  | .v, 3 => decide (x.f 31 24 ≤ 10)
  | .v, 4 => decide (x.f 31 24 ≤ 9)
  | .v, 5 => decide (x.f 31 24 ≤ 7)
  | .v, 6 | .v, 7 => decide (x.f 27 24 ≤ 5)
  | .v, 8 => decide (x.f 31 24 ≤ 7)
  | .v, 9 => decide (x.f 31 24 ≤ 2)
  | .v, 11 => decide (x.f 31 28 ≤ 2 ∧ x.f 27 24 ≤ 4)
  | .v, 13 => decide (x.f 31 24 ≤ 3)
  | .l, 1 => decide (x.f 44 43 ≤ 2)
  | .l, 2 => decide (x.f 44 43 ≤ 1)
  | .l, 3 => decide (x.f 44 43 = 2 ∧ x.f 52 49 ≤ 11)
  | .l, 4 => decide (x.f 44 43 = 1)
  | .c, 1 => decide (x.f 41 38 ≤ 6)
  | .c, 2 => decide (1 ≤ x.f 37 24 ∧ pc + x.f 37 24 ≤ 8191)
  | .c, 3 | .c, 4 => decide (x.pred = 0) && !x.pneg
  | .c, 5 => bound sendB (x.f 48 46)
  | .c, 6 => bound landB (x.f 48 46)
  | .c, 9 => decide (x.f 43 32 ≤ 1)
  | .c, 10 => decide (x.f 35 29 ≤ 64)
  | .c, 12 => decide (x.f 49 46 ≤ 6)
  | _, _ => true

/-- The checks of R132 on one slot that need no register contents. -/
def SlotOp.legal (x : SlotOp) (u : Slot) (pc : Nat) (sendB landB : Tab (BitVec 32)) : Bool :=
  match usedBits u x.op with
  | none => false
  | some l => x.reservedClear l && x.fieldsLegal u pc sendB landB

/-- The first slot of a bundle that breaks R132 statically; an address beyond the memory counts against slot M. -/
def staticIllegal (b : BitVec 256) (pc : Nat) (sendB landB : Tab (BitVec 32)) : Option Nat :=
  if 8191 < pc then some 0
  else ([Slot.m, .v, .l, .c].find? fun u => !(slotOf b u).legal u pc sendB landB).map slotIndex

/-! ## Predicates (R134, R135, R137) -/

/-- Predicate register `n`: P0 reads as all ones (R120). -/
def Core.preg (k : Core) (n : Nat) : BitVec 64 := if n = 0 then BitVec.allOnes 64 else Tab.get 0 k.p n

/-- Address register `n`: A0 reads as zero (R120). -/
def Core.areg (k : Core) (n : Nat) : BitVec 64 := if n = 0 then 0 else Tab.get 0 k.a n

def Core.vreg (k : Core) (n : Nat) : Vec := Tab.get 0 k.v n

def Core.tileAt (k : Core) (n : Nat) : Tile := Tab.get {} k.tile n

/-- Whether a loop's current iteration runs with its slots on (R135, R137). -/
def Loop.on (l : Loop) : Bool := !l.off && (match l.limit with | some n => decide (l.idx < n) | none => true)

/-- The lanes of a slot that are on: bit 0 alone counts but for the V slot and ST (R134). -/
def Core.lanesOn (k : Core) (x : SlotOp) : BitVec 64 :=
  if k.loops.all Loop.on then (if x.pneg then ~~~(k.preg x.pred) else k.preg x.pred) else 0

/-! ## The static flow of a core's program (R136, R140) -/

/-- The next bundle and the open loops once bundle `last` has issued: bodies that end there end their iteration (R136). -/
def endBodies (last : Nat) : List Loop → Nat → Bool → Nat × List Loop
  | [], nxt, _ => (nxt, [])
  | l :: t, nxt, jumped =>
    if l.start + l.len - 1 = last then
      if l.idx + 1 < l.count then (if jumped then nxt else l.start, { l with idx := l.idx + 1 } :: t)
      else endBodies last t (last + 1) false
    else (nxt, l :: t)

/-- Bundles a walk of a program takes at most: more than any run to a STEP that comes. -/
def walkFuel : Nat := 2 ^ 256

/-- A program walked from bundle `pc` with its open loops to its `m`-th STEP: the bundle after it and the loops open there, or those of
the last STEP before a HALT or the end of the memory. `free` gives what an Adyn or a predicate had made of a LOOP at a bundle: its
limit, and whether it is off (R135, R137; DEDUCED, log entry 15). -/
def coreWalk (imem : Tab (BitVec 256)) (free : Nat → Nat × Bool) : Nat → Nat → List Loop → Nat → Nat × List Loop → Nat × List Loop
  | 0, _, _, _, at' => at'
  | n + 1, pc, loops, m, at' =>
    let x := slotOf (Tab.get haltBundle imem pc) .c
    if x.op = 4 ∨ 8191 < pc then at'
    else
      let l : Loop := { start := pc + 1, len := x.f 37 24, count := x.f 53 38, idx := 0,
                        limit := if x.f 23 20 = 0 then none else some (free pc).1, off := (x.pred ≠ 0 || x.pneg) && (free pc).2 }
      let skip := x.op = 2 ∧ l.count = 0
      let opened := if x.op = 2 ∧ l.count ≠ 0 then l :: loops else loops
      let nxt := if x.op = 3 then x.f 53 41 else if skip then pc + 1 + l.len else pc + 1
      let on := endBodies (if skip then pc + l.len else pc) opened nxt (x.op = 3)
      if x.op = 13 then (if m ≤ 1 then on else coreWalk imem free n on.1 on.2 (m - 1) on)
      else coreWalk imem free n on.1 on.2 m at'

/-! ## Registers read and written (R124, R141) -/

/-- The units a slot reads; A0 and P0 are constants and have no entry. A register field that the chosen function does not use is not
read (R141; DESIGN CHOICE, log entry 68). -/
def SlotOp.reads (x : SlotOp) (u : Slot) : List SbUnit :=
  let va := SbUnit.v (x.f 48 44)
  let vb := SbUnit.v (x.f 43 39)
  let vc := SbUnit.v (x.f 38 34)
  let l : List SbUnit := match u, x.op with
    | .m, 1 => [.v (x.f 53 49), .tile (x.f 48 48)]
    | .m, 3 => [.acc]
    | .v, 1 =>
      if x.f 31 24 = 3 then [va, vb, vc] else if x.f 31 24 = 6 ∨ x.f 31 24 = 7 then [va] else [va, vb]
    | .v, 2 | .v, 3 | .v, 4 | .v, 9 | .v, 10 | .v, 12 => [va, vb]
    | .v, 5 | .v, 6 | .v, 7 | .v, 8 => [va]
    | .v, 11 => if x.f 31 28 = 0 then [va] else [va, vc]
    | .v, 13 => [.p (x.f 46 44), .p (x.f 41 39)]
    | .l, 2 => [.a (x.f 48 45), .v (x.f 53 49)]
    | .l, 1 | .l, 3 | .l, 4 => [.a (x.f 48 45)]
    | .c, 1 => (if x.f 41 38 = 6 then [] else [.a (x.f 49 46)]) ++ if x.f 37 37 = 1 then [] else [.a (x.f 45 42)]
    | .c, 2 => [.a (x.f 23 20)]
    | .c, 5 => [.v (x.f 53 49)]
    | .c, 7 | .c, 8 | .c, 9 => [.a (x.f 51 48), .a (x.f 47 44)]
    | _, _ => []
  (if x.op = 0 then [] else SbUnit.p x.pred :: l).filter fun y => y ≠ .a 0 ∧ y ≠ .p 0

/-- The unit a slot writes and the beats until the result is valid (R124, R341). -/
def SlotOp.writes (x : SlotOp) (u : Slot) : List (SbUnit × Nat) :=
  let vd := SbUnit.v (x.f 53 49)
  let pd := SbUnit.p (x.f 51 49)
  let ad := SbUnit.a (x.f 53 50)
  let l : List (SbUnit × Nat) := match u, x.op with
    | .m, 3 => [(vd, 4)]
    | .v, 1 | .v, 5 | .v, 7 | .v, 11 => [(vd, 4)]
    | .v, 2 | .v, 4 => [(pd, 2)]
    | .v, 3 | .v, 10 | .v, 12 => [(vd, 2)]
    | .v, 6 => [(vd, 5)]
    | .v, 8 => [(vd, 8)]
    | .v, 9 => [(vd, 6)]
    | .v, 13 => [(pd, 1)]
    | .l, 1 => [(vd, 14)]
    | .l, 3 | .l, 4 => [(.tile (x.f 53 53), 15)]
    | .c, 1 | .c, 11 | .c, 12 => [(ad, 1)]
    | .c, 6 => [(vd, 2)]
    | _, _ => []
  l.filter fun y => y.1 ≠ .a 0 ∧ y.1 ≠ .p 0

/-- The beat at which a unit's last result is valid. -/
def Core.validAt (k : Core) (x : SbUnit) : Nat :=
  match k.score.find? fun e => e.1 = x with
  | some e => e.2
  | none => 0

/-- The scoreboard with a new valid beat for a unit. -/
def scoreSet (l : List (SbUnit × Nat)) (x : SbUnit) (n : Nat) : List (SbUnit × Nat) :=
  (x, n) :: l.filter fun e => e.1 ≠ x

/-- The scoreboard after the writes of one slot at a beat; none where a write is not later than the one recorded
(R141). -/
def scoreWrites (beat : Nat) : List (SbUnit × Nat) → List (SbUnit × Nat) → Option (List (SbUnit × Nat))
  | l, [] => some l
  | l, w :: t =>
    match l.find? fun e => e.1 = w.1 with
    | some e => if beat + w.2 ≤ e.2 then none else scoreWrites beat (scoreSet l w.1 (beat + w.2)) t
    | none => scoreWrites beat (scoreSet l w.1 (beat + w.2)) t

/-! ## Allocation windows (R77, R80) -/

/-- The enabled windows of a space that grant a kind of access, as ranges. -/
def grants (l : List (BitVec 128)) (space : Nat) (write : Bool) : List (Nat × Nat) :=
  l.filterMap fun w =>
    let x := w.toNat
    let base := bits x 47 0
    let len := bits x 95 48
    if len ≠ 0 ∧ bits x 99 96 = space ∧ (if write then bit x 101 else bit x 100) then some (base, base + len) else none

/-- Whether every byte of [lo, hi) lies in one of the ranges, by at most `n` hops. -/
def coveredBy (l : List (Nat × Nat)) (hi : Nat) : Nat → Nat → Bool
  | 0, lo => decide (hi ≤ lo)
  | n + 1, lo =>
    if hi ≤ lo then true
    else match l.filter fun r => r.1 ≤ lo ∧ lo < r.2 with
      | [] => false
      | r :: t => coveredBy l hi n (t.foldl (fun a x => max a x.2) r.2)

/-- Every byte of an access lies in an enabled window of its space that grants it (R80). -/
def inWindows (l : List (BitVec 128)) (space off n : Nat) (write : Bool) : Bool :=
  coveredBy (grants l space write) (off + n) (l.length + 1) off

/-- A core's windows in order. -/
def Core.windowList (k : Core) : List (BitVec 128) := k.windows.map (·.2)

/-- The size of an address space that requests can reach (R302). -/
def spaceSize (space : Nat) : Nat :=
  match space with
  | 0 => 0x400000000
  | 1 => 0xD800000000
  | _ => 0

/-- The bytes an L-slot access moves. -/
def SlotOp.accessSize (x : SlotOp) : Nat := 64 * 2 ^ x.f 44 43

/-- An L-slot access's local offset (R144). -/
def Core.localOff (k : Core) (x : SlotOp) : Nat := ((k.areg (x.f 48 45)).toNat + x.f 42 13) % 2 ^ 30

/-- Whether an L-slot operation accesses memory at all under its predicate (R134). -/
def Core.accesses (k : Core) (x : SlotOp) : Bool :=
  if x.op = 0 then false
  else if x.op = 2 then decide ((k.lanesOn x).toNat % 2 ^ (x.accessSize / 4) ≠ 0)
  else (k.lanesOn x).getLsbD 0

end Sys2Proof.Machine
end

