-- ==== Sys2Proof/Machine/CoreOps.lean ====
section
/-! DEFINITION. What each core operation does at issue: one definition for each operation of R124, over the operands it
reads before any result of its bundle is written (R131). -/

namespace Sys2Proof.Machine

/-- What an operation sees at issue: the core before the bundle, its slot, its lanes that are on, the region's beat and
clock counts, and the job values it can read. -/
structure OpCtx where
  k : Core
  x : SlotOp
  on : BitVec 64
  c : Nat
  phys : Nat
  beat : Nat
  clock : Nat
  seed : Nat
  rank : Nat
  ownChip : Nat
  chipOf : Nat → Option Nat

/-- Bit 0 of the predicate, which decides for a whole slot (R134). -/
def OpCtx.isOn (o : OpCtx) : Bool := o.on.getLsbD 0

def OpCtx.va (o : OpCtx) : Vec := o.k.vreg (o.x.f 48 44)

def OpCtx.vb (o : OpCtx) : Vec := o.k.vreg (o.x.f 43 39)

def OpCtx.vc (o : OpCtx) : Vec := o.k.vreg (o.x.f 38 34)

def OpCtx.rnd (o : OpCtx) : Rnd := rndOf (o.x.f 33 32)

def OpCtx.fn (o : OpCtx) : Nat := o.x.f 31 24

/-- A lane of a vector register as a number. -/
def ln (v : Vec) (k : Nat) : Nat := (lane v k).toNat

/-! ## M slot -/

/-- MMA (R88, R89, R126): the sums are readable 6 beats later. -/
def opMma (o : OpCtx) (n : Core) : Core :=
  let n := { n with score := scoreSet n.score .acc (o.beat + 6) }
  let ta := o.x.f 47 44
  let tb := o.x.f 43 40
  let depth := (pairDepth ta tb).getD 0
  if o.isOn then { n with acc := mmaAccs (o.k.vreg (o.x.f 53 49)) (o.k.tileAt (o.x.f 48 48)) ta tb depth n.acc } else n

/-- MCLR: every accumulator finite zero (R90, R124). -/
def opMclr (o : OpCtx) (n : Core) : Core :=
  let n := { n with score := scoreSet n.score .acc (o.beat + 1) }
  if o.isOn then { n with acc := [] } else n

/-- RDOUT (R95, R127). -/
def opRdout (o : OpCtx) (n : Core) : Core :=
  if o.isOn then
    let fmt := o.x.f 48 47
    let r := readoutVec n.acc fmt (o.x.f 43 39) (rndOf (o.x.f 46 45)) (sext 16 (o.x.f 38 23))
    let n1 := n.later (o.beat + 4) (.vreg (o.x.f 53 49) (BitVec.allOnes 2048) r.1)
    let n2 := if r.2 = 0 then n1 else n1.later (o.beat + 4) (.flags r.2)
    if o.x.f 44 44 = 1 then { n2 with acc := readoutClear n.acc fmt (o.x.f 43 39) } else n2
  else n

/-! ## V slot -/

/-- A V-slot result into Vd, and its flags, some beats later. -/
def OpCtx.put (o : OpCtx) (n : Core) (lat : Nat) (r : VOut) : Core :=
  let n1 := n.later (o.beat + lat) (.vreg (o.x.f 53 49) r.mask r.val)
  let n2 := if r.flags = 0 then n1 else n1.later (o.beat + lat) (.flags r.flags)
  if r.wf = 0 then n2 else n2.later (o.beat + lat) (.wf r.wf)

/-- A predicate result: bit `k` for each lane that is on, and the flags those lanes raise. -/
def OpCtx.putP (o : OpCtx) (n : Core) (lat : Nat) (f : Nat → Bool × StFlags) : Core :=
  let l := (List.range 64).map fun k => if o.on.getLsbD k then f k else (false, 0)
  let val := BitVec.ofNat 64 (l.reverse.foldl (fun a x => 2 * a + x.1.toNat) 0)
  let fl := l.foldl (fun a x => a ||| x.2) (0 : StFlags)
  let n1 := n.later (o.beat + lat) (.preg (o.x.f 51 49) o.on val)
  if fl = 0 then n1 else n1.later (o.beat + lat) (.flags fl)

/-- FOP (R105, R107). -/
def opFop (o : OpCtx) (n : Core) : Core :=
  o.put n 4 (lanewise o.on fun k => fopLane o.fn o.rnd (ln o.va k) (ln o.vb k) (ln o.vc k))

/-- FCMP (R107). -/
def opFcmp (o : OpCtx) (n : Core) : Core := o.putP n 2 fun k => fpCmp o.fn (ln o.va k) (ln o.vb k)

/-- IOP (R108). -/
def opIop (o : OpCtx) (n : Core) : Core :=
  o.put n 2 (lanewise o.on fun k => (iopLane o.fn (ln o.va k) (ln o.vb k), 0))

/-- ICMP (R108). -/
def opIcmp (o : OpCtx) (n : Core) : Core := o.putP n 2 fun k => (icmpLane o.fn (ln o.va k) (ln o.vb k), 0)

/-- CVT (R109, R125). -/
def opCvt (o : OpCtx) (n : Core) : Core := o.put n 4 (cvtVec o.fn o.rnd o.on o.va)

/-- QUANT (R110, R111, R128). -/
def opQuant (o : OpCtx) (n : Core) : Core := o.put n 5 (quantVec (o.x.f 27 24) o.on o.va)

/-- DEQUANT (R109, R128). -/
def opDequant (o : OpCtx) (n : Core) : Core := o.put n 4 (dequantVec (o.x.f 27 24) o.on o.va)

/-- SFU (R112 to R114). -/
def opSfu (o : OpCtx) (n : Core) : Core := o.put n 8 (lanewise o.on fun k => sfuLane o.fn (ln o.va k))

/-- RNG (R115 to R117, R130). -/
def opRng (o : OpCtx) (n : Core) : Core := o.put n 6 (rngVec o.fn o.seed o.k.step.toNat o.on o.va o.vb)

/-- WADD (R100). -/
def opWadd (o : OpCtx) (n : Core) : Core := o.put n 2 (waddVec o.on o.va o.vb)

/-- WCVT (R129). -/
def opWcvt (o : OpCtx) (n : Core) : Core :=
  o.put n 4 (wcvtVec (o.x.f 31 28) (o.x.f 27 24) o.rnd (sext 16 (o.x.f 23 8)) o.on o.va o.vc)

/-- PERM (R125). -/
def opPerm (o : OpCtx) (n : Core) : Core := o.put n 2 (permVec o.on o.va o.vb)

/-- POP (R125). -/
def opPop (o : OpCtx) (n : Core) : Core :=
  let a := o.k.preg (o.x.f 46 44)
  let b := o.k.preg (o.x.f 41 39)
  let r := match o.fn with
    | 0 => a &&& b
    | 1 => a ||| b
    | 2 => a ^^^ b
    | _ => a &&& ~~~b
  o.putP n 1 fun k => (r.getLsbD k, 0)

/-! ## L slot -/

/-- A bank access of this slot at a bank beat (R66, R144). -/
def OpCtx.access (o : OpCtx) (due valid : Nat) (kind : BankKind) (data : Vec) (mask : BitVec 256) : BankAcc :=
  { due := o.beat + due, valid := o.beat + valid, core := o.c, phys := o.phys, kind := kind,
    off := o.c / 64 * 2 ^ 30 + o.k.localOff o.x, size := o.x.accessSize, data := data, mask := mask, pc := o.k.pc }

/-- LD: banks read at beat 7, valid at 14. -/
def opLd (o : OpCtx) : Option BankAcc :=
  if o.k.accesses o.x then some (o.access 7 14 (.ld (o.x.f 53 49)) 0 0) else none

/-- ST: the bytes of the lanes that are on, banks written at beat 9. -/
def opSt (o : OpCtx) : Option BankAcc :=
  if o.k.accesses o.x then
    let bytes := o.x.accessSize
    let mask := (List.range bytes).foldl (fun a i => if o.on.getLsbD (i / 4) then a + 2 ^ i else a) 0
    some (o.access 9 9 .st (o.k.vreg (o.x.f 53 49)) (BitVec.ofNat 256 mask))
  else none

/-- LDW: part `part` of a weight tile, valid at 15 (R126). -/
def opLdw (o : OpCtx) : Option BankAcc :=
  if o.k.accesses o.x then some (o.access 7 15 (.ldw (o.x.f 53 53) (o.x.f 52 49)) 0 0) else none

/-- LDWS: a tile's scales, valid at 15 (R126). -/
def opLdws (o : OpCtx) : Option BankAcc :=
  if o.k.accesses o.x then some (o.access 7 15 (.ldws (o.x.f 53 53)) 0 0) else none

/-! ## C slot -/

/-- A C operation's outcome: the core, the next bundle, whether a JUMP chose it, whether a STEP was made, and the bundle
whose end ends enclosing bodies. -/
structure CtlOut where
  core : Core
  nxt : Nat
  last : Nat
  jumped : Bool := false
  stepped : Bool := false

/-- A C operation that falls through. -/
def OpCtx.next (o : OpCtx) (n : Core) : CtlOut := { core := n, nxt := o.k.pc + 1, last := o.k.pc }

/-- AOP (R125). -/
def opAop (o : OpCtx) (n : Core) : CtlOut :=
  let a := o.k.areg (o.x.f 49 46)
  let x := if o.x.f 37 37 = 1 then BitVec.ofNat 64 (o.x.f 31 0) else o.k.areg (o.x.f 45 42)
  let r := match o.x.f 41 38 with
    | 0 => a + x
    | 1 => a - x
    | 2 => a <<< (x.toNat % 64)
    | 3 => a >>> (x.toNat % 64)
    | 4 => a &&& x
    | 5 => a ||| x
    | _ => x
  o.next (if o.isOn then n.later (o.beat + 1) (.areg (o.x.f 53 50) r) else n)

/-- LOOP (R135 to R137): opens a loop, or skips its body when the count is 0. -/
def opLoop (o : OpCtx) (n : Core) : CtlOut :=
  let count := o.x.f 53 38
  let len := o.x.f 37 24
  let dyn := o.x.f 23 20
  if count = 0 then { core := n, nxt := o.k.pc + 1 + len, last := o.k.pc + len }
  else
    o.next { n with loops := { start := o.k.pc + 1, len := len, count := count, idx := 0
                               limit := if dyn = 0 then none else some (o.k.areg dyn).toNat, off := !o.isOn } :: n.loops }

/-- JUMP: taken in an iteration that is turned off, too (R136). -/
def opJump (o : OpCtx) (n : Core) : CtlOut := { core := n, nxt := o.x.f 53 41, last := o.k.pc, jumped := true }

/-- HALT (R133). -/
def opHalt (o : OpCtx) (n : Core) : CtlOut := o.next (if o.isOn then { n with halted := true } else n)

/-- SEND: the flit is at the stream's tail in the next beat; zeros when the predicate is off (R135, R145). -/
def opSend (o : OpCtx) (n : Core) : CtlOut :=
  let t := o.x.f 48 46
  let f : SFlit := { payload := if o.isOn then o.k.vreg (o.x.f 53 49) else 0, ready := o.beat + 1 }
  o.next { n with send := Tab.set n.send t (Tab.get [] n.send t ++ [f]) }

/-- RECV: pops the head; discards it when the predicate is off (R135, R145). -/
def opRecv (o : OpCtx) (n : Core) : CtlOut :=
  let t := o.x.f 48 46
  match Tab.get [] n.land t with
  | [] => o.next n
  | f :: rest =>
    let n1 := { n with land := Tab.set n.land t rest }
    o.next (if o.isOn then n1.later (o.beat + 2) (.vreg (o.x.f 53 49) (BitVec.allOnes 2048) f.payload) else n1)

/-- The queue entry and tag a far request takes (R149 to R151, R316). -/
def OpCtx.farReq (o : OpCtx) (n : Core) (kind : FarKind) : CtlOut :=
  let q := o.x.f 53 52
  let len := o.x.f 43 32
  let far := o.k.areg (o.x.f 47 44)
  let rank := bits far.toNat 63 52
  let fq : FarQ := Tab.get {} n.farq q
  let live := o.isOn && decide (len ≠ 0)
  let r : FarReq :=
    { kind := kind, tag := fq.ctr, loc := o.c / 64 * 2 ^ 30 + (o.k.areg (o.x.f 51 48)).toNat % 2 ^ 30, far := far,
      len := len, own := o.chipOf rank == some o.ownChip, chip := (o.chipOf rank).getD 0xFFFF,
      period := live && fq.ranks.contains rank, done := !live }
  let fq' : FarQ :=
    { entries := fq.entries ++ [r], ctr := fq.ctr + 1, issued := fq.issued + 1
      ranks := if live then rank :: fq.ranks else fq.ranks }
  o.next { n with farq := Tab.set n.farq q fq' }

/-- FLD (R149). -/
def opFld (o : OpCtx) (n : Core) : CtlOut := o.farReq n .fld

/-- FST (R149). -/
def opFst (o : OpCtx) (n : Core) : CtlOut := o.farReq n .fst

/-- FENG (R149). -/
def opFeng (o : OpCtx) (n : Core) : CtlOut := o.farReq n .feng

/-- Whether a WAIT covers a tag (R155). -/
def covers (tag : BitVec 16) (count : Nat) (t : BitVec 16) : Bool := decide ((t - tag).toNat < count)

/-- WAIT, once it does not stall: covered entries that are complete are freed (R135, R155). -/
def opWait (o : OpCtx) (n : Core) : CtlOut :=
  let q := o.x.f 53 52
  let fq : FarQ := Tab.get {} n.farq q
  let keep (r : FarReq) : Bool := !(covers (BitVec.ofNat 16 (o.x.f 51 36)) (o.x.f 35 29) r.tag && r.done)
  o.next { n with farq := Tab.set n.farq q { fq with entries := fq.entries.filter keep } }

/-- FLAGS (R139). -/
def opFlags (o : OpCtx) (n : Core) : CtlOut :=
  if o.isOn then
    let v := BitVec.ofNat 64 (o.k.flags.toNat + o.k.wf.toNat * 256)
    let n1 := n.later (o.beat + 1) (.areg (o.x.f 53 50) v)
    o.next (if o.x.f 49 49 = 1 then { n1 with flags := 0, wf := 0 } else n1)
  else o.next n

/-- SREAD (R138). -/
def opSread (o : OpCtx) (n : Core) : CtlOut :=
  let v : Nat := match o.x.f 49 46 with
    | 0 => o.k.step.toNat
    | 1 => o.beat
    | 2 => o.c
    | 3 => o.rank
    | 4 => match o.k.loops with
      | l :: _ => l.idx
      | [] => 0
    | 5 => o.k.stallBeats
    | _ => o.clock
  o.next (if o.isOn then n.later (o.beat + 1) (.areg (o.x.f 53 50) (BitVec.ofNat 64 v)) else n)

/-- Whether a pending result is a flag or WF bit, which a STEP drops (R140). -/
def Pend.isFlag (p : Pend) : Bool :=
  match p.eff with
  | .flags _ | .wf _ => true
  | _ => false

/-- STEP (R140). -/
def opStep (o : OpCtx) (n : Core) : CtlOut :=
  if o.isOn then
    { o.next { n with step := n.step + 1, flags := 0, wf := 0, pend := n.pend.filter fun p => !p.isFlag
                      farq := n.farq.map fun f => (f.1, { f.2 with ctr := 0, issued := 0, ranks := [] }) } with
      stepped := true }
  else o.next n

end Sys2Proof.Machine
end

