-- ==== Sys2Proof/Machine/Issue.lean ====
section
/-! DEFINITION. Issue: the checks of a bundle in their order, its effects, loops, stalls and holds, the bridges, and one
clock beat of a region (R73 to R76, R131 to R161). -/

namespace Sys2Proof.Machine

/-! ## Checks (R132, R141, R143) -/

/-- Whether a bundle breaks a condition of R132; the slot it is found in. -/
def Core.illegal (k : Core) (b : BitVec 256) : Option Nat :=
  match staticIllegal b k.pc k.sendBind k.landBind with
  | some n => some n
  | none =>
    let c := slotOf b .c
    match c.op, k.loops with
    | 2, l => if 4 ≤ l.length then some 3 else match l with
      | x :: _ => if x.start + x.len - 1 < k.pc + c.f 37 24 then some 3 else none
      | [] => none
    | 3, x :: _ => if x.start ≤ c.f 53 41 ∧ c.f 53 41 ≤ x.start + x.len - 1 then none else some 3
    | _, _ => none

/-- Whether a stream operation finds no flit, or no room (R141, R148). -/
def Core.streamBlocked (k : Core) (x : SlotOp) (u : Slot) (beat : Nat) : Bool :=
  match u, x.op with
  | .c, 5 => decide (8 ≤ (Tab.get [] k.send (x.f 48 46)).length)
  | .c, 6 => match Tab.get [] k.land (x.f 48 46) with
    | f :: _ => decide (beat < f.ready)
    | [] => true
  | _, _ => false

/-- The scoreboard after a bundle's slots, or the first slot that fails (R141, R142). Slots are recorded in the order M, V, L, C, so of two
that write one register the later must be valid later (R131 gives slots no order; DESIGN CHOICE, log entry 68). -/
def Core.schedule (k : Core) (b : BitVec 256) (beat : Nat) : List Slot → List (SbUnit × Nat) →
    Nat ⊕ List (SbUnit × Nat)
  | [], sc => .inr sc
  | u :: t, sc =>
    let x := slotOf b u
    if (x.reads u).any fun y => beat < k.validAt y then .inl (slotIndex u)
    else match scoreWrites beat sc (x.writes u) with
      | none => .inl (slotIndex u)
      | some sc' => if k.streamBlocked x u beat then .inl (slotIndex u) else k.schedule b beat t sc'

/-- What the slot of a unit sees at issue. -/
def State.ctx (s : State) (c : Nat) (b : BitVec 256) (u : Slot) : OpCtx :=
  let r := s.region (c / 64)
  let k := s.core c
  let x := slotOf b u
  { k := k, x := x, on := k.lanesOn x, c := c, phys := r.map.getD (c % 64) 0, beat := r.beat, clock := r.clock - r.clock0,
    seed := leNat (s.blob R.jobSeed), rank := s.ownRank, ownChip := s.chip, chipOf := s.rankChip }

/-- Whether an L-slot access is misaligned or outside the core's windows (R80, R134, R144). -/
def OpCtx.lFence (o : OpCtx) : Bool :=
  if o.k.accesses o.x then
    let off := o.k.localOff o.x
    let n := o.x.accessSize
    decide (off % n ≠ 0) || !inWindows o.k.windowList 0 (o.c / 64 * 2 ^ 30 + off) n (o.x.op == 2)
  else false

/-- Whether a far request fails its address checks (R80, R150, R311). -/
def OpCtx.farFence (o : OpCtx) : Bool :=
  if (o.x.op = 7 ∨ o.x.op = 8 ∨ o.x.op = 9) ∧ o.isOn then
    let n := 64 * o.x.f 43 32
    let al := (o.k.areg (o.x.f 51 48)).toNat % 2 ^ 30
    let far := (o.k.areg (o.x.f 47 44)).toNat
    let space := bits far 51 48
    let off := bits far 47 0
    decide (al % 64 ≠ 0 ∨ off % 64 ≠ 0)
      || !inWindows o.k.windowList 0 (o.c / 64 * 2 ^ 30 + al) n (o.x.op == 7)
      || (match o.chipOf (bits far 63 52) with
        | none => true
        | some chip =>
          if chip = o.ownChip then !inWindows o.k.windowList space off n (o.x.op != 7)
          else decide (1 < space ∨ spaceSize space < off + n))
  else false

/-- The far queue a C operation names. -/
def OpCtx.farQ (o : OpCtx) : FarQ := Tab.get {} o.k.farq (o.x.f 53 52)

/-- A request to a queue with 64 entries in use (R151). -/
def OpCtx.overflows (o : OpCtx) : Bool :=
  decide (o.x.op = 7 ∨ o.x.op = 8 ∨ o.x.op = 9) && decide (64 ≤ o.farQ.entries.length)

/-- A tag misused: too many requests in the step, a WAIT on a tag not issued, a STEP with entries in use (R151, R155,
R160). A STEP whose predicate is off is not checked: it has no effect on state (R135), and R160 does not name the case (DEDUCED,
log entry 66). -/
def OpCtx.tagFault (o : OpCtx) : Bool :=
  match o.x.op with
  | 7 | 8 | 9 => decide (65536 ≤ o.farQ.issued)
  | 10 => (List.range (o.x.f 35 29)).any fun i => decide (o.farQ.issued ≤ (o.x.f 51 36 + i) % 65536)
  | 13 => o.isOn && o.k.farq.any fun f => f.2.entries ≠ []
  | _ => false

/-- The first check of R143 that a bundle fails, with its slot; else the scoreboard after it. -/
def State.check (s : State) (c : Nat) (b : BitVec 256) : (Nat × Nat) ⊕ List (SbUnit × Nat) :=
  let k := s.core c
  let l := s.ctx c b .l
  let o := s.ctx c b .c
  match k.illegal b with
  | some n => .inl (0x1005, n)
  | none => match k.schedule b (s.region (c / 64)).beat [.m, .v, .l, .c] k.score with
    | .inl n => .inl (0x1001, n)
    | .inr sc =>
      if l.lFence then .inl (0x1004, 2)
      else if o.farFence then .inl (0x1004, 3)
      else if o.overflows then .inl (0x1006, 3)
      else if o.tagFault then .inl (0x1007, 3)
      else .inr sc

/-- Whether a WAIT that has passed its checks stalls (R156). -/
def State.stalls (s : State) (c : Nat) (b : BitVec 256) : Bool :=
  let o := s.ctx c b .c
  decide (o.x.op = 10) && o.isOn && o.farQ.entries.any fun r =>
    covers (BitVec.ofNat 16 (o.x.f 51 36)) (o.x.f 35 29) r.tag && !r.done

/-! ## Effects -/

/-- The M slot's effect by its operation code. -/
def runM (o : OpCtx) (n : Core) : Core :=
  match o.x.op with
  | 1 => opMma o n
  | 2 => opMclr o n
  | 3 => opRdout o n
  | _ => n

/-- The V slot's effect by its operation code. -/
def runV (o : OpCtx) (n : Core) : Core :=
  match o.x.op with
  | 1 => opFop o n
  | 2 => opFcmp o n
  | 3 => opIop o n
  | 4 => opIcmp o n
  | 5 => opCvt o n
  | 6 => opQuant o n
  | 7 => opDequant o n
  | 8 => opSfu o n
  | 9 => opRng o n
  | 10 => opWadd o n
  | 11 => opWcvt o n
  | 12 => opPerm o n
  | 13 => opPop o n
  | _ => n

/-- The L slot's bank access by its operation code. -/
def runL (o : OpCtx) : Option BankAcc :=
  match o.x.op with
  | 1 => opLd o
  | 2 => opSt o
  | 3 => opLdw o
  | 4 => opLdws o
  | _ => none

/-- The C slot's effect by its operation code. -/
def runC (o : OpCtx) (n : Core) : CtlOut :=
  match o.x.op with
  | 1 => opAop o n
  | 2 => opLoop o n
  | 3 => opJump o n
  | 4 => opHalt o n
  | 5 => opSend o n
  | 6 => opRecv o n
  | 7 => opFld o n
  | 8 => opFst o n
  | 9 => opFeng o n
  | 10 => opWait o n
  | 11 => opFlags o n
  | 12 => opSread o n
  | 13 => opStep o n
  | _ => o.next n

/-- The core after its bundle, with its L-slot access. -/
def State.runBundle (s : State) (c : Nat) (b : BitVec 256) (sc : List (SbUnit × Nat)) : Core × Option BankAcc :=
  let k := { s.core c with score := sc }
  let k1 := runV (s.ctx c b .v) (runM (s.ctx c b .m) k)
  let o := runC (s.ctx c b .c) k1
  let (nxt, loops) := endBodies o.last o.core.loops o.nxt o.jumped
  let k2 := { o.core with pc := nxt, loops := loops, issued := true }
  (if o.stepped then { k2 with restartPc := nxt, restartLoops := loops } else k2, runL (s.ctx c b .l))

/-- The newest request of a bundle's far operation. -/
def OpCtx.newest (o : OpCtx) (k : Core) : Option FarReq :=
  if o.x.op = 7 ∨ o.x.op = 8 ∨ o.x.op = 9 then (Tab.get {} k.farq (o.x.f 53 52) : FarQ).entries.getLast? else none

/-- A far request with the ranges that its work item touches as its bytes stand, where it is for an own engine (R396). -/
def State.withItem (s : State) (r : FarReq) : FarReq :=
  if r.kind = .feng ∧ r.own then { r with item := s.itemSpans (ofBytes 512 (s.readSram r.loc 64).1) } else r

/-- A new far request noted: one for an own engine with the ranges its item touches as its bytes stand (R396), and one that clashes with
outstanding ones makes all of them undefined (R154). -/
def State.noteFar (s : State) (c q : Nat) (r : FarReq) : State :=
  if r.done then s
  else
    let others := s.modCore c fun k =>
      let fq : FarQ := Tab.get {} k.farq q
      { k with farq := Tab.set k.farq q { fq with entries := fq.entries.dropLast } }
    let r1 := s.withItem r
    let hit := others.anyClash r1.spans
    (if hit then others.markClash r1.spans else others).modCore c fun k =>
      let fq : FarQ := Tab.get {} k.farq q
      { k with farq := Tab.set k.farq q { fq with entries := fq.entries ++ [{ r1 with undef := r1.undef || hit }] } }

/-- A bank access joins those that wait in its region. -/
def State.joinBank (s : State) (r : Nat) : Option BankAcc → State
  | some a => s.modRegion r fun x => { x with bank := x.bank ++ [a] }
  | none => s

/-- A bundle that passes its checks and does not stall issues. -/
def State.runIssue (s : State) (c : Nat) (b : BitVec 256) (sc : List (SbUnit × Nat)) : State :=
  let k := (s.runBundle c b sc).1
  let s1 := (s.setCore c k).joinBank (c / 64) (s.runBundle c b sc).2
  let o := s.ctx c b .c
  match o.newest k with
  | some r => s1.noteFar c (o.x.f 53 52) r
  | none => s1

/-- A WAIT begins to stall (R156). -/
def State.addStall (s : State) (c : Nat) (b : BitVec 256) : State :=
  let x := slotOf b .c
  let r := s.region (c / 64)
  let st : Stall := { core := c, q := x.f 53 52, tag := BitVec.ofNat 16 (x.f 51 36), count := x.f 35 29, beats := 0,
                      bundle := b, beat := r.beat }
  (s.modRegion (c / 64) fun y => { y with stalls := y.stalls ++ [st] }).bump R.stallEventsJob 32

/-- Whether all that keeps a bundle from issuing is a SEND whose stream is full in legacy region mode, where the queue holds the
sender back (R76). That the sender is its region, whose cores issue as one, is a DESIGN CHOICE, log entry 68. -/
def State.heldBack (s : State) (c : Nat) (b : BitVec 256) : Bool :=
  let x := slotOf b .c
  let st := x.f 48 46
  !(s.core c).halted && s.reg R.clockMode != 0 && x.op == 5 && decide (8 ≤ (Tab.get [] (s.core c).send st).length)
    && (match (s.modCore c fun k => { k with send := Tab.set k.send st [] }).check c b with
      | .inr _ => true
      | .inl _ => false)

/-- A core fault found at issue: the bundle does not issue and the region stops after this beat (R161). -/
def State.issueFault (s : State) (c code slot : Nat) : State :=
  let r := s.region (c / 64)
  let k := s.core c
  let phys := 72 * (c / 64) + r.map.getD (c % 64) 0
  ((s.modCore c fun k => { k with issued := true }).raise code (c / 64) (coreDetail c phys slot k.pc r.beat)
    (some (c, k.pc))).stopAfter (c / 64)

/-- One core's issue of one bundle in its region's beat (R131, R133, R143, R156). -/
def State.issueBundle (s : State) (c : Nat) (b : BitVec 256) : State :=
  if (s.core c).halted then s.modCore c fun k => { k with issued := true }
  else match s.check c b with
    | .inl (code, slot) => if s.heldBack c b then s else s.issueFault c code slot
    | .inr sc => if s.stalls c b then s.addStall c b else s.runIssue c b sc

/-! ## Bridges (R73 to R76, R145 to R148) -/

/-- The region in the direction of a binding code: row − 1, row + 1, column − 1, column + 1 (R354). -/
def neighbour (r code : Nat) : Nat :=
  match code with
  | 2 => r - 4
  | 3 => r + 4
  | 4 => r - 1
  | _ => r + 1

/-- The flits of a neighbour bridge from region `r` that region `t` may read now, landed while their streams have room: none
before its ready beat, in order (R73, R148). -/
def State.bridgeDeliver (s : State) (r t : Nat) : Nat → State
  | 0 => s
  | n + 1 =>
    match Tab.get [] (s.region t).bridgeIn r with
    | [] => s
    | f :: rest =>
      let l := Tab.get [] (s.core f.core).land f.stream
      if (s.region t).beat < f.ready ∨ 8 ≤ l.length then s
      else
        let s1 := s.modRegion t fun x => { x with bridgeIn := Tab.set x.bridgeIn r rest }
        (s1.modCore f.core fun k =>
          { k with land := Tab.set k.land f.stream (l ++ [{ payload := f.payload, ready := f.ready }]) }).bridgeDeliver r t n

/-- The head of a send stream, once it has reached the tail's beat. -/
def State.sendHead (s : State) (c st : Nat) : Option SFlit :=
  match Tab.get [] (s.core c).send st with
  | f :: _ => if f.ready ≤ (s.region (c / 64)).beat then some f else none
  | [] => none

/-- A send stream without its head. -/
def State.popSend (s : State) (c st : Nat) : State :=
  s.modCore c fun k => { k with send := Tab.set k.send st (Tab.get [] k.send st).tail }

/-- A flit of a send stream bound to a neighbour bridge moves into it: 16 entries deep, one flit of 256 bytes a beat and
direction, ready 6 beats on; in legacy mode the bridge is a queue without a ready beat (R73, R76, R145). -/
def State.bridgeMove (s : State) (c st : Nat) : State :=
  let bind := (Tab.get 0 (s.core c).sendBind st).toNat
  let code := bits bind 2 0
  let r := c / 64
  let t := neighbour r code
  let q := Tab.get [] (s.region t).bridgeIn r
  if code < 2 ∨ 5 < code ∨ (s.region r).sent.contains t ∨ 16 ≤ q.length then s
  else match s.sendHead c st with
    | some f =>
      let ready := if s.native then (s.region r).beat + 6 else 0
      let b : BFlit := { core := bits bind 12 3, stream := bits bind 15 13, payload := f.payload, ready := ready }
      ((s.popSend c st).modRegion r fun x => { x with sent := t :: x.sent }).modRegion t fun x =>
        { x with bridgeIn := Tab.set x.bridgeIn r (q ++ [b]) }
    | none => s

/-- A flit of a send stream bound to the spine bridge enters it: 64 flits deep, 4 a slot (R75, R146). One that missed its
send deadline is dropped: it is never transmitted (R177). -/
def State.spineEnter (s : State) (c st : Nat) : State :=
  let r := s.region (c / 64)
  let debt := Tab.get 0 s.lateDebt (8 * c + st)
  if bits (Tab.get 0 (s.core c).sendBind st).toNat 2 0 ≠ 1 ∨ 64 ≤ r.bridgeOut.length ∨ 4 ≤ r.spineCtr then s
  else match s.sendHead c st with
    | some f =>
      let s1 := (s.popSend c st).modRegion (c / 64) fun x => { x with spineCtr := x.spineCtr + 1 }
      if debt ≠ 0 then { s1 with lateDebt := Tab.set s.lateDebt (8 * c + st) (debt - 1) }
      else s1.modRegion (c / 64) fun x =>
        { x with bridgeOut := x.bridgeOut ++ [{ core := c, stream := st, payload := f.payload, ready := s.now }] }
    | none => s

/-- Every send stream of a region's cores moved by one flit where it can be, and the flits of its neighbour bridges landed. Cores and
their streams go in table order, which decides who has the one place of a neighbour bridge in a beat and the four of the spine bridge in
a slot; the rest wait (R73, R75; DESIGN CHOICE, log entry 67). -/
def State.moveStreams (s : State) (r : Nat) : State :=
  let s1 := s.each (s.region r).cores fun t k => t.each k.2.send fun t x =>
    if x.2 = [] then t else (t.bridgeMove (64 * r + k.1) x.1).spineEnter (64 * r + k.1) x.1
  s1.each (s1.region r).bridgeIn fun t x => if x.2 = [] then t else t.bridgeDeliver x.1 r 16

/-! ## Beats, stalls and holds -/

/-- Whether the cores of a region may issue now. -/
def State.issuing (s : State) (r : Nat) : Bool :=
  let x := s.region r
  x.clocked && x.running && !x.stopped && !x.frameHeld && !s.held r

/-- The mapped cores of a region that have not issued in this beat. -/
def State.toIssue (s : State) (r : Nat) : List Nat :=
  ((List.range (s.region r).map.length).map (64 * r + ·)).filter fun c => !(s.core c).issued

/-- The bundle at a core's program counter. -/
def State.fetch (s : State) (c : Nat) : BitVec 256 := Tab.get haltBundle (s.core c).imem (s.core c).pc

/-- A WAIT at a core's program counter that would stall now. -/
def State.wouldStall (s : State) (c : Nat) : Bool :=
  !(s.core c).halted && (match s.check c (s.fetch c) with | .inr _ => s.stalls c (s.fetch c) | .inl _ => false)

/-- A held clock beat: the region and its stalled cores are charged (R159). -/
def State.chargeHold (s : State) (r : Nat) : State :=
  let s1 := s.modRegion r fun x =>
    { x with heldJob := x.heldJob + 1, heldStep := x.heldStep + 1,
             stalls := x.stalls.map fun t => if t.holds then { t with beats := t.beats + 1 } else t }
  s1.each ((s1.region r).stalls.filter Stall.holds) fun t x => t.modCore x.core fun k => { k with stallBeats := k.stallBeats + 1 }

/-- The bundles of stalls that have ended issue where nothing else holds their region (R157). -/
def State.resumeStalls (s : State) : State :=
  s.each (List.range 16) fun t r =>
    if t.issuing r ∧ (t.region r).stalls ≠ [] then
      (t.modRegion r fun x => { x with stalls := [] }).each (t.region r).stalls fun u x => u.issueBundle x.core x.bundle
    else t

/-- A region that reaches the anchor of its next frame holds; one that does so after that frame's start has overrun
(R440). -/
def State.reachAnchor (s : State) (r : Nat) : State :=
  let x := s.region r
  if ¬ (s.native && x.running && !x.stopped) ∨ x.frameHeld ∨ x.beat ≠ x.framesStarted * s.reg R.frameBeats then s
  else
    let s1 := s.modRegion r fun y => { y with frameHeld := true }
    if s.frameIndex < x.framesStarted then s1
    else
      let mark := ((x.frameMarks.find? fun m => m.1 = x.framesStarted).map (·.2)).getD x.clock
      (s1.bump R.frameOverruns 32).event 0x5023 r ((x.clock - mark) % 2 ^ 32)

/-- The end of a region's beat: bank beats, results that become valid, streams. The beat count advances only while the
region may issue; what it has issued completes all the same (R161, R426). -/
def State.endBeat (s : State) (r : Nat) : State :=
  let s1 := s.bankBeat r
  let s2 := s1.modRegion r fun x =>
    let may := x.running && !x.stopped
    { x with beat := x.beat + may.toNat, drain := x.drain + (!may).toNat, stopped := x.stopped || x.stopping, stopping := false,
             cores := x.cores.map fun k => (k.1, { k.2.commit (x.beat + x.drain + 1) with issued := false }) }
  (s2.moveStreams r).reachAnchor r

/-- Whether a region's pipelines still hold something. -/
def Region.busy (x : Region) : Bool := x.bank ≠ [] || x.cores.any fun k => k.2.pend ≠ []

/-- A clock beat counted (R426), and a new beat of the region's neighbour bridges begun. -/
def State.tick (s : State) (r : Nat) : State := s.modRegion r fun y => { y with clock := y.clock + 1, sent := [] }

/-- The WAITs that stall in this clock beat begin to, in every region that would issue (R156). -/
def State.stallsDue (s : State) : State :=
  s.each ((List.range 16).filter s.issuing) fun t r =>
    t.each ((s.toIssue r).filter s.wouldStall) fun u c => u.addStall c (s.fetch c)

/-- One clock beat of a region (R131, R156, R440): flits move in a held beat, too. In legacy mode a core that its queue holds back
holds its region, uncounted (R76). A beat in which a frame hold and a WAIT hold overlap counts as a frame-hold beat alone (R164; DESIGN
CHOICE, log entry 67). -/
def State.regionBeat (s : State) (r : Nat) : State :=
  let x := s.region r
  if ¬ x.clocked then s
  else if x.frameHeld then ((s.bump (R.frameHoldBeatsJob r) 64).tick r).moveStreams r
  else if s.held r then ((s.chargeHold r).tick r).moveStreams r
  else if x.running ∧ ¬ x.stopped ∧ (s.toIssue r).any fun c => s.heldBack c (s.fetch c) then (s.tick r).moveStreams r
  else if x.running ∧ ¬ x.stopped then
    ((s.each (s.toIssue r) fun t c => t.issueBundle c (t.fetch c)).tick r).endBeat r
  else if x.running ∨ x.busy then (s.tick r).endBeat r
  else s.modRegion r fun y => { y with clock := y.clock + 1 }

/-- The regions that a region has neighbour bridges with (R48, R73). -/
def neighboursOf (r : Nat) : List Nat :=
  (if 4 ≤ r then [r - 4] else []) ++ (if r < 12 then [r + 4] else []) ++ (if r % 4 ≠ 0 then [r - 1] else [])
    ++ (if r % 4 ≠ 3 then [r + 1] else [])

/-- The lead of a region over a neighbour: noted, and beyond 4 BRIDGE_SKEW, once a bridge until the counts are realigned
(R74). -/
def State.noteLead (s : State) (r t : Nat) : State :=
  let d := (s.region r).beat - (s.region t).beat
  let s1 := s.setReg R.bridgeSkewMax (max (s.reg R.bridgeSkewMax) (min d 255))
  if 4 < d ∧ ¬ (s.region r).skewed.contains t then
    (s1.modRegion r fun x => { x with skewed := t :: x.skewed }).raise 0x5020 r d
  else s1

/-- The leads of every running region in native mode during a job or a recovery run; in a job one of 3 or more stretches the period of a
region whose clock beats (R74, R76, R438, R555). -/
def State.checkSkews (s : State) : State :=
  if ¬ (s.native && (s.inJob || s.reg R.runState == 2)) then s
  else
    let runs (r : Nat) : Bool := (s.region r).lit && (s.region r).running
    s.each ((List.range 16).filter runs) fun t r =>
      let behind := (neighboursOf r).filter fun q => runs q && decide ((t.region q).beat < (t.region r).beat)
      let t1 := if t.inJob ∧ (t.region r).clocked ∧ behind.any fun q => decide ((t.region q).beat + 3 ≤ (t.region r).beat)
        then t.bump (R.stretchedBeatsJob r) 64 else t
      t1.each behind fun u q => u.noteLead r q

/-- The oldest queued write of a region's tier whose bank no core access has in this beat performed, and its place taken by one
that waits for room; none in a short stop (R70, R433; that a write with a free bank passes one without is a DESIGN CHOICE, log entry 20). -/
def State.bgOne (s : State) (r tier : Nat) : State :=
  match (s.region r).bg.find? fun x => (s.region r).shortStopTo.isNone ∧ tierOf x.off = tier ∧ s.bankBusy r (bankOf x.off) = false with
  | none => s
  | some x =>
    let en := (List.range 64).map fun i => x.mask.getLsbD i
    let t := (s.writePart 0 x.off (bytesOf 64 x.data) en).2
    t.modRegion r fun y =>
      match y.bgWaiting.find? fun z => tierOf z.off = tier with
      | some z => { y with bg := y.bg.erase x ++ [z], bgWaiting := y.bgWaiting.erase z }
      | none => { y with bg := y.bg.erase x }

/-- One queued background write of each tier of each region. -/
def State.bgBeat (s : State) : State :=
  s.each (List.range 16) fun t r => if (t.region r).bg = [] then t else t.each (List.range 4) fun t i => t.bgOne r i

/-- One clock beat of every region: the background writes whose banks are free, stalled bundles whose hold is over, the WAITs
that stall, the beat of each region (R70, R156, R157). -/
def State.clockBeat (s : State) : State :=
  (s.bgBeat.resumeStalls.stallsDue.each (List.range 16) State.regionBeat).checkSkews

/-- A core issues a bundle of its own now: after a clock beat where it has issued in this one already, or where a bundle of its
region that has stalled is still to issue. -/
def State.issueNow (s : State) (c : Nat) (b : BitVec 256) : State :=
  let r := c / 64
  if ¬ s.issuing r ∨ (s.region r).map.length ≤ c % 64 then s
  else
    let s1 := if (s.core c).issued ∨ (s.region r).stalls ≠ [] then s.clockBeat else s
    if s1.issuing r ∧ ¬ (s1.core c).issued then s1.issueBundle c b else s1

end Sys2Proof.Machine
end

