-- ==== Sys2Proof/Machine/Fec.lean ====
section
/-! DEFINITION. The link's two codes: CRC-32 of IEEE 802.3 Clause 3 (R225) and RS(544,514) of Clause 91 (R220, R223). -/

namespace Sys2Proof.Machine

/-! ## The flit's CRC -/

/-- The CRC a flit should carry: over its bytes 0 to 11 and 16 to 271. -/
def flitCrc (f : BitVec 2176) : BitVec 32 :=
  crc32 (bytesOf 12 (f.setWidth 96) ++ bytesOf 256 (f >>> 128))

/-- The flit with its CRC field computed. -/
def withCrc (f : BitVec 2176) : BitVec 2176 :=
  (f &&& ~~~((0xFFFFFFFF : BitVec 2176) <<< 96)) ||| ((flitCrc f).setWidth 2176 <<< 96)

/-- Whether a flit's CRC holds. -/
def crcOk (f : BitVec 2176) : Bool := bits f.toNat 127 96 = (flitCrc f).toNat

/-! ## GF(2^10) of x^10 + x^3 + 1 -/

/-- Multiplication by α. -/
def g10X (a : Nat) : Nat := if a < 512 then 2 * a else (2 * a) ^^^ 0x409

/-- Multiplication, `n` bits of the second factor. -/
def g10MulN : Nat → Nat → Nat → Nat
  | 0, _, _ => 0
  | n + 1, a, b => (if b % 2 = 1 then a else 0) ^^^ g10MulN n (g10X a) (b / 2)

def g10Mul (a b : Nat) : Nat := if a = 0 ∨ b = 0 then 0 else g10MulN 10 a b

/-- A power by repeated squaring, at most `n` bits of the exponent. -/
def g10PowN : Nat → Nat → Nat → Nat
  | 0, _, _ => 1
  | n + 1, a, e => g10Mul (if e % 2 = 1 then a else 1) (g10PowN n (g10Mul a a) (e / 2))

/-- α to the e-th power, and the inverse. -/
def g10Alpha (e : Nat) : Nat := g10PowN 10 2 (e % 1023)

def g10Inv (a : Nat) : Nat := g10PowN 10 a 1022

/-- A polynomial, lowest coefficient first, at a point. -/
def g10Eval (p : List Nat) (x : Nat) : Nat := p.foldr (fun c a => g10Mul a x ^^^ c) 0

/-- The codeword's 30 syndromes: its value at α^0 to α^29, symbol 0 the highest power. -/
def rs544Syndromes (c : List Nat) : List Nat :=
  (List.range 30).map fun j => let x := g10Alpha j; c.foldl (fun a d => g10Mul a x ^^^ d) 0

/-- Sum of two polynomials. -/
def g10Add : List Nat → List Nat → List Nat
  | [], q => q
  | p, [] => p
  | a :: p, b :: q => (a ^^^ b) :: g10Add p q

/-- The Berlekamp–Massey recursion: locator, former locator, its discrepancy, length, gap. -/
def rs544Bm (s : List Nat) : Nat → Nat → List Nat → List Nat → Nat → Nat → Nat → List Nat × Nat
  | 0, _, l, _, _, len, _ => (l, len)
  | k + 1, n, l, b, bd, len, m =>
    let d := (List.range (len + 1)).foldl (fun a i => a ^^^ g10Mul (l.getD i 0) (s.getD (n - i) 0)) 0
    if d = 0 then rs544Bm s k (n + 1) l b bd len (m + 1)
    else
      let k1 := g10Mul d (g10Inv bd)
      let l1 := g10Add l (List.replicate m 0 ++ b.map (g10Mul k1))
      if 2 * len ≤ n then rs544Bm s k (n + 1) l1 l d (n + 1 - len) 1
      else rs544Bm s k (n + 1) l1 b bd len (m + 1)

/-- The product of two polynomials modulo x^30. -/
def g10Mulmod (p q : List Nat) : List Nat :=
  (List.range 30).map fun k => (List.range (k + 1)).foldl (fun a i => a ^^^ g10Mul (p.getD i 0) (q.getD (k - i) 0)) 0

/-- A codeword of 544 symbols decoded: the corrected symbols and the positions corrected, at most 15; `none` where it
cannot be corrected (R223). -/
def rs544Decode (c : List Nat) : Option (List Nat × List Nat) :=
  let s := rs544Syndromes c
  if s.all (· = 0) then some (c, [])
  else
    let (l, len) := rs544Bm s 30 0 [1] [1] 1 0 1
    let om := g10Mulmod s l
    let dl := (List.range l.length).map fun i => if i % 2 = 0 then l.getD (i + 1) 0 else 0
    let pos := (List.range 544).filter fun i => g10Eval l (g10Alpha (1023 - (543 - i))) = 0
    if len = 0 ∨ 15 < len ∨ pos.length ≠ len then none
    else
      let c1 := pos.foldl (fun c i =>
        let x := g10Alpha (543 - i)
        let xi := g10Inv x
        let e := g10Mul x (g10Mul (g10Eval om xi) (g10Inv (g10Eval dl xi)))
        c.set i (c.getD i 0 ^^^ e)) c
      if (rs544Syndromes c1).all (· = 0) then some (c1, pos) else none

/-- The code's generator polynomial, lowest coefficient first: its roots are α^0 to α^29 (R220). -/
def rs544Gen : List Nat :=
  (List.range 30).foldl (fun g j => g10Add (0 :: g) (g.map (g10Mul (g10Alpha j)))) [1]

/-- The 30 check symbols of 514 message symbols, symbol 0 the highest power (R220). -/
def rs544Parity (m : List Nat) : List Nat :=
  let g := (rs544Gen.take 30).reverse
  m.foldl (fun r d =>
    let k := r.headD 0 ^^^ d
    List.zipWith (· ^^^ ·) (r.drop 1 ++ [0]) (g.map (g10Mul k))) (List.replicate 30 0)

/-- The 514 message symbols of a codeword header and 640 bytes of the slot stream (R220). -/
def codewordMessage (hdr : Nat) (l : List Byte) : List Nat :=
  let v := hdr % 2 ^ 20 + leNat l * 2 ^ 20
  (List.range 514).map fun i => bits v (10 * i + 9) (10 * i)

/-- A codeword's 544 symbols (R220). -/
def rs544Encode (hdr : Nat) (l : List Byte) : List Nat :=
  let m := codewordMessage hdr l
  m ++ rs544Parity m

/-- The header of a codeword from its index, its frame, and whether it announces a width switch (R221). -/
def headerWord (index frame : Nat) (switch : Bool) : Nat :=
  index % 2048 + frame % 16 * 2 ^ 11 + switch.toNat * 2 ^ 15 + 0xB * 2 ^ 16

/-- The 640 bytes of the slot stream that a codeword carries (R220). -/
def codewordBytes (c : List Nat) : List Byte :=
  toLE 640 ((c.take 514).foldr (fun d a => d + 1024 * a) 0 / 2 ^ 20)

/-- The 20-bit header of a codeword (R221): index, frame bits, width switch, constant. -/
def codewordHeader (c : List Nat) : Nat × Nat × Bool × Nat :=
  let h := c.getD 0 0 + 1024 * c.getD 1 0
  (bits h 10 0, bits h 14 11, bit h 15, bits h 19 16)

end Sys2Proof.Machine
end

