-- ==== Sys2Proof/Machine/Supply.lean ====
section
/-! DEFINITION. Supply, wake and reset pins, the ramp governor, temperatures, the service UART's receiver and the test
port's instruction register (R11 to R48, R449, R514, R578). -/

namespace Sys2Proof.Machine

open Host (Outcome)

/-- The answer of every command: the next state. -/
abbrev Res := Host.Outcome State Fault Refusal

/-! ## Blades and the input -/

/-- Both blade readings taken, and which of them read 37.0 V or above (R30). The entries of their averages follow at the end
of the millisecond (R48). -/
def State.readBlades (s : State) (a b : Nat) : State :=
  { s with bladeA := a, bladeB := b }.setReg R.bladePresent
    ((if 37000 ≤ a then 1 else 0) + (if 37000 ≤ b then 2 else 0))

/-- One sample of the supply's 1 ms averages: blade voltages, and the input current as input power over the higher blade's
voltage, rounded down; the entries take the averages each millisecond (R48). How the current is rounded and which voltage
divides it is the model's choice. DESIGN CHOICE. -/
def State.sampleSupply (s : State) (inputMw : Nat) : State :=
  let a := s.mvSumA + s.bladeA
  let b := s.mvSumB + s.bladeB
  let c := s.maSum + inputMw * 1000 / max s.bladeA s.bladeB
  let n := s.msSamples + 1
  if s.us % 1000 ≠ 0 then { s with mvSumA := a, mvSumB := b, maSum := c, msSamples := n }
  else (({ s with mvSumA := 0, mvSumB := 0, maSum := 0, msSamples := 0 }.setReg R.bladeAMv (a / n)).setReg R.bladeBMv
    (b / n)).setReg R.inputCurrentMa (c / n % 2 ^ 32)

/-- R31, R32: insertion needs both blades at 40.0 V or above, after a trip at 59.5 V or below as well. -/
def State.insertable (s : State) (a b : Nat) : Bool :=
  s.power = .cold && decide (40000 ≤ a) && decide (40000 ≤ b)
    && (s.shutdownTo.isNone || (decide (a ≤ 59500) && decide (b ≤ 59500)))

/-- INPUT_POWER_ARRIVAL (R31, R509): a power-on reset, then Banked. The blades have read these voltages for 10 ms, so their
averages are the same. -/
def execInputPowerArrival (aMv bMv : Nat) (s : State) : Res :=
  if s.insertable aMv bMv then
    .next ((({ (s.powerOn .banked).readBlades aMv bMv with inputSwitch := true, refclk := true, bootCause := 0 }).setReg
      R.bladeAMv aMv).setReg R.bladeBMv bMv)
  else .next s

/-- INPUT_UNDERVOLTAGE (R29): both blades below 40.0 V; a forced shutdown to Banked in every state that has power. In Banked a
boot under way stops and nothing falls, so exempt_falls stays, as R19 has it for Kindled. DEDUCED. -/
def execInputUndervoltage (aMv bMv : Nat) (s : State) : Res :=
  let s1 := s.readBlades aMv bMv
  if max aMv bMv < 40000 ∧ s.power ≠ .cold then
    .next (s1.forcedShutdown 0x5001 0xFF (max aMv bMv) .banked)
  else .next s1

/-- INPUT_OVERVOLTAGE (R29): either blade above 60.5 V; the input switch opens, Cold. -/
def execInputOvervoltage (aMv bMv : Nat) (s : State) : Res :=
  let s1 := s.readBlades aMv bMv
  if 60500 < max aMv bMv ∧ s.power ≠ .cold then .next (s1.forcedShutdown 0x5002 0xFF (max aMv bMv) .cold)
  else .next s1

/-- INPUT_OVERCURRENT (R30): above 70 A in all for 20 µs; the input switch opens, Cold. -/
def execInputOvercurrent (ma : Nat) (s : State) : Res :=
  if 70000 < ma ∧ s.power ≠ .cold then .next (s.forcedShutdown 0x5003 0xFF (ma % 2 ^ 32) .cold) else .next s

/-- ALWAYS_ON_DOMAIN_STOP (R29): below 30.0 V the always-on domain stops, Cold. -/
def execAlwaysOnDomainStop (aMv bMv : Nat) (s : State) : Res :=
  if max aMv bMv < 30000 ∧ s.power ≠ .cold then .next ((s.powerOn .cold).readBlades aMv bMv)
  else .next (s.readBlades aMv bMv)

/-- BLADE_LOSS (R30): in Lit or Full, one blade below 37.0 V while the other stays at 40.0 V or above. -/
def execBladeLoss (blade : Fin 2) (mv : Nat) (s : State) : Res :=
  let s1 := if blade = 0 then s.readBlades mv s.bladeB else s.readBlades s.bladeA mv
  let other := if blade = 0 then s.bladeB else s.bladeA
  if mv < 37000 ∧ 40000 ≤ other ∧ (s.power = .lit ∨ s.power = .full) then
    .next (s1.forcedShutdown 0x5004 0xFF mv .kindled)
  else .next s1

/-- INPUT_SWITCH_REVERSE_OPEN (R34): the input switch opens. The spec does not say when it closes again: in the model it stays
open until INPUT_POWER_ARRIVAL out of Cold. DESIGN CHOICE. -/
def execInputSwitchReverseOpen (s : State) : Res := .next { s with inputSwitch := false }

/-- REFCLK_LOSS (R19): a forced shutdown to Kindled in Kindled and above; in Banked only the clock's absence. -/
def execRefclkLoss (s : State) : Res :=
  let s1 := { s with refclk := false }
  if s.power = .kindled ∨ s.power = .lit ∨ s.power = .full then .next (s1.forcedShutdown 0x5005 0xFF 0 .kindled)
  else .next s1

/-! ## Wake and reset pins -/

/-- The wake out of Banked (R19, R20, R468): with REFCLK, no boot under way and RESET_N high. -/
def State.wake (s : State) : State :=
  if s.power = .banked ∧ s.boot = .none ∧ s.refclk ∧ ¬ s.resetLow then { s with boot := .running s.bootCause } else s

/-- WAKE (R20): WAKE_N low for at least 10 µs. -/
def execWake (lowNs : Nat) (s : State) : Res := if 10000 ≤ lowNs then .next s.wake else .next s

/-- WAKE_PATTERN (R468): eight consecutive on-periods. -/
def execWakePattern (_port : GPort) (onPeriods : Nat) (s : State) : Res :=
  if 8 ≤ onPeriods then .next s.wake else .next s

/-- COLD_RESET (R21, R514): RESET_N low for at least 1 µs; the part stays in reset while the pin is low. -/
def execColdReset (lowNs : Nat) (s : State) : Res :=
  if 1000 ≤ lowNs ∧ s.power ≠ .cold then .next ({ s with resetLow := true }.coldReset (.held 1)) else .next s

/-- RESET_RELEASE (R514): the boot begins; a reset begun in Banked leaves the part there, its cause kept for the boot to
come. -/
def execResetRelease (s : State) : Res :=
  let s1 := { s with resetLow := false }
  match s.boot with
  | .held c =>
    if s.resetInBanked then .next { s1 with boot := .none, bootCause := c } else .next { s1 with boot := .running c }
  | _ => .next s1

/-- WATCHDOG_EXPIRY (R511): a cold reset with cause watchdog. -/
def execWatchdogExpiry (s : State) : Res := if s.awake then .next (s.coldReset (.running 3)) else .next s

/-! ## The ramp governor (R35 to R42, R578), in mW -/

/-- The rated step of a unit (R37). -/
def unitStep : PowerUnit → Nat
  | .region _ => 25000
  | .stack _ => 15000
  | .group _ => 20000
  | .access _ => 15000

/-- Ballast the lit regions can give: 150 W each while ballast is enabled (R38, R40). -/
def State.ballastCap (s : State) : Nat := if s.reg R.ballastEnable = 0 then 0 else 150000 * s.litList.length

/-- The level a job or a recovery run asks the governor for (R36, R557); none between jobs. -/
def State.jobLevel (s : State) : Option Nat :=
  let run := match s.run with | some r => if s.reg R.runState = 1 ∨ s.reg R.runState = 2 then r.level else 0 | none => 0
  match s.reg R.jobState with
  | 1 | 2 | 3 => some (max (s.reg R.jobHoldW * 1000) run)
  | 4 => none
  | _ => if run = 0 then none else some run

/-- The target of H for a load: the job's level, else the load with the next unit's step while a lit region can give
the ballast (R36, R37, R578). -/
def State.target (s : State) (load : Nat) : Nat :=
  match s.jobLevel with
  | some l => if s.litList = [] then load else l
  | none => match s.admitting with
    | u :: _ => if s.litList = [] then load else load + unitStep u
    | [] => load

/-- H one sample later: towards its target by at most the slew limit; at once onto the load while nothing is lit (R36,
R578). -/
def State.nextH (s : State) (load : Nat) : Nat :=
  let t := s.target load
  let slew := s.reg R.slewLimitWPerMs
  if s.litList = [] then t
  else if s.h < t then min t (s.h + slew)
  else max t (s.h - slew)

/-- The governor state that H and its target show (R48): a level that is asked for and reached shows hold, and H that moves
shows ramp up or ramp down, between jobs too, where the spec could also mean follow. DESIGN CHOICE. -/
def State.govState (s : State) (old new load : Nat) : Nat :=
  if old < new then 1 else if new < old then 3 else if s.jobLevel.isSome then 2
  else if s.admitting ≠ [] ∧ new < s.target load then 1 else 0

/-- The next unit to remove goes once the ballast of the others covers the fall (R41, R449). -/
def State.removeNext (s : State) : State :=
  match s.remove with
  | [] => s
  | u :: rest =>
    let s1 := ({ s with remove := rest }.dropUnit u)
    if s.reg R.ballastEnable = 0 ∨ s.h + unitStep u ≤ s.load + s1.ballastCap ∨ (s1.litList = [] ∧ s.h ≤ s.load + 20000)
      then s1
    else s

/-- The warm reset is complete once no unit waits for removal and no job is ending (R515, R525). -/
def State.settleWarm (s : State) : State :=
  if s.warmDue ∧ s.remove = [] ∧ s.endPending.isNone then ({ s with warmDue := false }).event 0x7061 0xFF noDetail else s

/-- The end of a 50 µs window: its input power, the peak of the clause that runs, a new admission slot (R35, R455). -/
def State.closeWindow (s : State) : State :=
  if s.us % 50 ≠ 0 then s
  else
    let peak := s.loadSum / 50 / 1000
    let cl := s.reg R.activeClause
    let s1 := s.setReg R.inputPowerMw (s.winSum / 50 % 2 ^ 32)
    let s2 := if cl < 8 ∧ s.reg (R.clausePeakW cl) < peak then s1.setReg (R.clausePeakW cl) peak else s1
    { s2 with winSum := 0, loadSum := 0, windowUsed := 0 }

/-- Whether a lit region is in a short stop (R433). -/
def State.inShortStop (s : State) : Bool := s.litList.any fun r => (s.region r).shortStopTo.isSome

/-- The ballast that a sample asks for: what fills the load to H, within what the lit regions give; in a short stop no more than
before it, so that its dip is not filled (R38, R521, M6; DEDUCED, log entry 67). -/
def State.fillNow (s : State) : Nat :=
  let b := min (s.h - s.load) s.ballastCap
  if s.inShortStop then min b s.ballast else b

/-- A shortfall beyond the ballast of the lit regions: an exempt fall, and BALLAST_EXHAUSTED (R40, R46). The dip of a short stop is none:
R432 keeps it within R35 (R521, M6). -/
def State.shortfall (s : State) : State :=
  if s.litList ≠ [] ∧ ¬ s.inShortStop ∧ s.reg R.ballastEnable = 1 ∧ s.load + s.ballastCap < s.h then
    let d := (s.h - s.load) / 1000
    s.exempt.raise 0x5008 0xFF d
  else s

/-- GOVERNOR_SAMPLE (R36): one sample of the load, 1 µs after the one before it. -/
def governorSampleNow (loadMw : Nat) (s : State) : Res :=
  if s.power = .cold then .next s
  else
    let new := s.nextH loadMw
    let g := s.govState s.h new loadMw
    let us := s.us + 1
    let s1 := { s with us := us, load := loadMw, h := new,
                       eventsSent := if us % 1000000 = 0 then 0 else s.eventsSent }
    let s2 := (s1.setReg R.governorState g).shortfall
    let b := s2.fillNow
    let s3 := { s2 with ballast := b, winSum := s2.winSum + s2.load + b, loadSum := s2.loadSum + s2.load }
    .next (((s3.sampleSupply (s2.load + b)).closeWindow).removeNext.settleWarm)

/-- Whether the next unit may be added now (R37, R578): H a step above the load, or at the level of a ramp, or nothing lit
and no unit added in this window. -/
def State.admissible (s : State) (u : PowerUnit) : Bool :=
  if s.windowUsed ≠ 0 then false
  else if s.litList = [] then true
  else decide (s.load + unitStep u ≤ s.h)
    || (match s.jobLevel with | some l => decide (l ≤ s.h) && (s.reg R.jobState = 1 || s.reg R.runState = 1) | none => false)

/-- UNIT_ADMISSION (R37, R450): the next unit waiting is added if the governor admits it, and none without both blades and a
grade, since it would enter Lit or Full (R30, R57); a stack that only an access wakes leaves the power state as it is. -/
def unitAdmissionNow (s : State) : Res :=
  match s.admitting with
  | [] => .next s
  | u :: rest =>
    if s.awake ∧ s.admissible u ∧ (s.canLight ∨ u.isAccess) then
      let alone := s.litList = []
      .next ({ ({ s with admitting := rest }.addUnit u) with windowUsed := if alone then 1 else 0 })
    else .next s

/-- The level the load is judged against: H, in a recovery run no less than its clause's envelope (R42, R557). -/
def State.envelope (s : State) : Nat :=
  match s.run, s.reg R.runState with
  | some r, 2 => max s.h r.level
  | _, _ => s.h

/-- ENVELOPE_EXCEEDED (R42, R557): the load above that level by more than 25 W or 2 %, whichever is larger, quenches. The model raises it
only while a job or a recovery run asks for a level: between jobs and in ENDING nothing is left to quench, and the spec does
not say that it is raised there. DESIGN CHOICE. -/
def envelopeExceededNow (loadMw : Nat) (s : State) : Res :=
  if s.envelope + max 25000 (s.envelope / 50) < loadMw ∧ s.jobLevel.isSome then
    .next ({ s with load := loadMw }.raise 0x5006 0xFF (loadMw / 1000))
  else .next s

/-! ## Temperatures (R44, R47) -/

/-- Warning point, shutdown point, event code and unit byte of a sensor. -/
def sensorRow : Sensor → Int × Int × Nat × Nat
  | .region r => (100, 115, 0x5009, r.val)
  | .stack k => (90, 105, 0x500A, k.val)
  | .optics e => (70, 85, 0x500B, e.val)
  | .mgmt => (100, 115, 0x500C, 0xFF)

/-- A sensor's reading kept. -/
def State.setTemp (s : State) (x : Sensor) (c : Int) : State :=
  match x with
  | .region r => s.modRegion r.val fun y => { y with temp := c }
  | .stack k => s.modStack k.val fun y => { y with temp := c }
  | .optics e => { s with opticsTemp := Tab.set s.opticsTemp e.val c }
  | .mgmt => { s with mgmtTemp := c }

/-- Whether the sensors are read: from Kindled upward. -/
def State.kindled (s : State) : Bool := s.power = .kindled || s.power = .lit || s.power = .full

/-- A sensor's reading taken (R47): the warning is logged once at the warning point or above, again only after a fall of 5 °C
below it. -/
def State.noteTemp (s : State) (x : Sensor) (c : Int) : State :=
  let (warn, _, code, unit) := sensorRow x
  if warn ≤ c ∧ ¬ s.warned.contains x then ({ s.setTemp x c with warned := x :: s.warned }).event code unit (twos 32 c)
  else if c ≤ warn - 5 then { s.setTemp x c with warned := s.warned.filter (· ≠ x) }
  else s.setTemp x c

/-- TEMP_WARN (R47). -/
def execTempWarn (x : Sensor) (c : Int) (s : State) : Res := .next (if s.kindled then s.noteTemp x c else s)

/-- OVERTEMP_SHUTDOWN (R44): a sensor at its shutdown temperature. -/
def execOvertempShutdown (x : Sensor) (c : Int) (s : State) : Res :=
  let (_, shut, _, unit) := sensorRow x
  if ¬ s.kindled then .next s
  else if shut ≤ c then .next ((s.noteTemp x c).forcedShutdown 0x5007 unit (twos 32 c) .kindled)
  else .next (s.noteTemp x c)

/-! ## UART receiver and test port -/

/-- UART_RX_CHARACTER (R24, R25): into the buffer of 256 characters, or discarded and counted. -/
def execUartRxCharacter (ch : Byte) (s : State) : Res :=
  if ¬ s.kindled ∨ s.boot ≠ .none then .next s
  else if s.uartRx.length < 256 then .next { s with uartRx := s.uartRx ++ [ch] }
  else .next (s.bump R.uartRxDiscards 32)

/-- Whether test access is authorised (R27). -/
def State.authorised (s : State) : Bool := s.reg R.testAccess = 1

/-- Whether it is authorised in a scope: 0 test instructions and boundary scan, 1 the range 0xF000, 2 console writes (R572). -/
def State.scoped (s : State) (b : Nat) : Bool := s.authorised && bit (s.reg R.testScope) b

/-- A TAP instruction loaded; nothing answers in Cold (R26). -/
def State.tapTo (s : State) (r : TapReg) : State := if s.power = .cold then s else { s with tap := r }

/-- The boundary register selected, its 13 cells as they capture: free, since the spec does not say what each samples (R26). -/
def State.boundaryScan (s : State) (extest : Bool) : State :=
  if s.power = .cold then s
  else let (n, t) := s.fresh; { t with tap := .boundary extest, boundary := Config.boundaryCells n }

/-- A block of the locked range 0xF000 reached through the test port: free, since the spec lists none of its entries (R26). -/
def State.testScan (s : State) (op : Nat) : State :=
  if s.power = .cold then s
  else let (n, t) := s.fresh; { t with tap := .test op, testBlock := Config.testScan op n }

/-- TEST_LOGIC_RESET (R28): BYPASS is selected; the authorisation stays. -/
def execTestLogicReset (s : State) : Res := .next (s.tapTo .bypass)

/-- SAMPLE_PRELOAD (R26). -/
def execSamplePreload (s : State) : Res := .next (if s.scoped 0 then s.boundaryScan false else s.tapTo .bypass)

/-- EXTEST (R26): the boundary register when authorised and no job runs. The spec refuses it while a job runs and does not say that one
selected before falls back to BYPASS when a job starts: in the model it stays selected (DESIGN CHOICE, log entry 67). -/
def execExtest (s : State) : Res :=
  .next (if s.scoped 0 ∧ ¬ s.inJob then s.boundaryScan true else s.tapTo .bypass)

/-- AUTH_MAILBOX (R26): in every lock state. -/
def execAuthMailbox (s : State) : Res := .next (s.tapTo .mailbox)

/-- TEST_ACCESS_INSTRUCTION (R26): opcode 0x40 + op. -/
def execTestAccessInstruction (op : Fin 64) (s : State) : Res :=
  .next (if s.scoped 0 then s.testScan op.val else s.tapTo .bypass)

/-- BYPASS (R26): opcode 0xFF and every opcode the table does not name. -/
def execBypass (op : Byte) (s : State) : Res :=
  let o := op.toNat
  if o = 0x02 ∨ o = 0x06 ∨ o = 0x20 ∨ (0x40 ≤ o ∧ o < 0x80) then .next s else .next (s.tapTo .bypass)

end Sys2Proof.Machine
end

