-- ==== Sys2Proof/Machine/Link.lean ====
section
/-! DEFINITION. One port's link layer: what it transmits in a slot, and what an arriving flit does to sequence numbers,
credits, the replay buffer and the class buffers (R224 to R252). -/

namespace Sys2Proof.Machine

/-! ## Flits -/

/-- The header fields of a flit that the caller gives (R224). -/
structure FlitHdr where
  type : Nat
  vc : Nat := 0
  period : Bool := false
  seq : BitVec 12 := 0
  txSlot : Nat := 0
  frameLo : Nat := 0
  late : Bool := false
  deriving DecidableEq, Repr

/-- The 14 credit counts of the receive direction, as an idle flit lists them (R230). -/
def Port.creditBytes (x : Port) : List Byte :=
  (List.range 14).flatMap fun i => bytesOf 2 (Tab.get 0 x.grantOut i)

/-- The credit count a header returns: the next changed one in the rotation, else the next (R248). -/
def Port.creditPick (x : Port) : Nat :=
  let order := (List.range 14).map fun i => (x.rotation + i) % 14
  (order.find? fun i => Tab.get 0 x.grantOut i ≠ Tab.get 0 x.returned i).getD (x.rotation % 14)

/-- The control bits a flit bears whatever it carries: ack, replay request and one credit count (R235, R236, R248). -/
def Port.control (x : Port) (i : Nat) : Nat :=
  (x.rxE - 1).toNat * 2 ^ 20 + 2 ^ 32 + x.gap.toNat * 2 ^ 33 + (Tab.get 0 x.grantOut i).toNat * 2 ^ 50
    + (i / 2 + 1) * 2 ^ 66 + i % 2 * 2 ^ 69

/-- A flit from its header fields and payload, its CRC computed (R224, R225). -/
def Port.flit (x : Port) (h : FlitHdr) (payload : Vec) : BitVec 2176 :=
  let lo := h.type + h.vc * 2 ^ 4 + h.period.toNat * 2 ^ 7 + h.seq.toNat * 2 ^ 8 + x.control x.creditPick
    + h.txSlot % 4096 * 2 ^ 34 + h.frameLo % 16 * 2 ^ 46 + h.late.toNat * 2 ^ 70
  withCrc (BitVec.ofNat 2176 lo ||| (payload.setWidth 2176 <<< 128))

/-- The port after its header returned a credit count. -/
def Port.returnedOne (x : Port) : Port :=
  let i := x.creditPick
  { x with rotation := (i + 1) % 14, returned := Tab.set x.returned i (Tab.get 0 x.grantOut i) }

/-- A field of a flit's header. -/
def fh (f : BitVec 2176) (hi lo : Nat) : Nat := bits f.toNat hi lo

/-- The payload of a flit. -/
def flitPayload (f : BitVec 2176) : Vec := (f >>> 128).setWidth 2048

/-! ## Transmitting -/

/-- Sequence numbers transmitted and not acknowledged (R233). -/
def Port.outstanding (x : Port) : Nat := (x.seqTx - 1 - x.ackPt).toNat

/-- The slot stream of one slot: the stamp and the flit (R219). -/
def slotBytes (slot frame : Nat) (f : BitVec 2176) : List Byte :=
  toLE 3 (slot % 4096 + frame % 16 * 2 ^ 12 + 0x5A * 2 ^ 16) ++ bytesOf 272 f

/-- A slot's bytes at their offset in the frame's slot stream; each 640 bytes that fill a codeword are encoded under its header
(R219 to R221). -/
def Port.feed (x : Port) (pos : Nat) (l : List Byte) (hdr : Nat → Nat) : Port :=
  let (a, b) := if x.stream.1 + x.stream.2.length = pos then (x.stream.1, x.stream.2 ++ l) else (pos, l)
  let i := ceilDiv a 640
  let stop := 640 * (i + 1)
  if stop ≤ a + b.length then
    { x with word := some (hdr i, slice b (640 * i - a) 640), stream := (stop, b.drop (stop - a)) }
  else { x with stream := (a, b) }

/-- Whether this frame is the last at the present width of the transmit direction: a half agreed for the next frame boundary, or the
switch to full width in RATE (R259). -/
def State.switchNext (s : State) (p : Nat) : Bool :=
  (s.reg (R.linkState p) == 5 && s.reg (R.width p) == 1)
    || (match (s.port p).switchAt with | some (f, _) => decide (f = s.frame + 1) | none => false)

/-- A flit in the present slot of a port's wire and of its slot stream. -/
def State.onWire (s : State) (p : Nat) (f : BitVec 2176) : State :=
  s.modPort p fun x =>
    { x.feed (275 * (s.slot / slotStride (s.reg (R.width p)))) (slotBytes s.slot s.frame f)
        (fun i => headerWord i s.frame (s.switchNext p)) with wire := f, sentAt := some s.now }

/-- A flit put on the wire of a port: its header returned a credit count. -/
def State.putWire (s : State) (p : Nat) (f : BitVec 2176) : State := (s.onWire p f).modPort p fun x => x.returnedOne

/-- The 544 symbols of the last codeword a port transmitted (R220). -/
def Port.symbols (x : Port) : List Nat := match x.word with | some (h, l) => rs544Encode h l | none => []

/-- A sequenced flit transmitted for the first time: it takes the next number and enters the replay buffer (R233, R237). -/
def State.sendNew (s : State) (p : Nat) (h : FlitHdr) (payload : Vec) : State :=
  let x := s.port p
  let f := x.flit { h with seq := x.seqTx } payload
  (s.putWire p f).modPort p fun x => { x with replay := x.replay ++ [⟨x.seqTx, f⟩], seqTx := x.seqTx + 1, timer := if x.replay = [] then some s.now else x.timer,
                                                      ackAt := if x.replay = [] then s.now else x.ackAt }

/-- An idle control flit, which returns every credit count (R230). -/
def State.sendIdle (s : State) (p : Nat) : State :=
  let x := s.port p
  let f := x.flit { type := 0, seq := x.seqTx, txSlot := s.slot, frameLo := s.frame } (ofBytes 2048 x.creditBytes)
  (s.putWire p f).modPort p fun x => { x with returned := x.grantOut }

/-- Whether this end of a port is the leader: the lower (chip number, port, serial) (R256). -/
def State.leads (s : State) (p : Nat) : Bool :=
  let peer := s.blob (R.peerIdentity p)
  let c := field peer 0 2
  let q := field peer 2 1
  decide (s.chip < c) || (s.chip == c && (decide (p < q) || (p == q && decide (Config.serial.toNat < field peer 32 8))))

/-- The pending link control operation sent (R231, R232). A WIDTH_REQ names the frame boundary of the switch when it is first sent:
the second one from then; a half taken from the leader stands (R256, R262). -/
def State.sendOp (s : State) (p : Nat) (op half : Nat) : State :=
  let x := s.port p
  let f := x.flit { type := 5, txSlot := s.slot, frameLo := s.frame }
    (ofBytes 2048 (toLE 1 op ++ toLE 1 half ++ toLE 2 s.chip))
  (s.putWire p f).modPort p fun x =>
    if op ≠ 1 ∨ x.switchAt.any (fun a => a.2 = half) ∨ (x.switchAt.isSome ∧ ¬ s.leads p) then x
    else { x with switchAt := some (s.frame + 2, half) }

/-- The last place of a slot: the pending link operation, else an idle control flit (R232). -/
def State.sendLast (s : State) (p : Nat) : State :=
  match (s.port p).linkOp with
  | some (op, half) => s.sendOp p op half
  | none => s.sendIdle p

/-- Whether two messages share class, source and destination. -/
def sameFlow (a b : Msg) : Bool := classOf a.vc == classOf b.vc && mf a 2 2 == mf b 2 2 && mf a 4 2 == mf b 4 2

/-- Whether an earlier message of the same flow is still in the part (R252). -/
def State.behind (s : State) (q : TxMsg) : Bool :=
  s.waiting.any (fun y => decide (y.stamp < q.stamp) && sameFlow y.msg q.msg)
    || s.mgmtQueue.any (fun y => decide (y.1 < q.stamp) && sameFlow y.2 q.msg)
    || s.ports.any fun x => x.2.txq.any (fun y => decide (y.stamp < q.stamp) && sameFlow y.msg q.msg)
      || x.2.held.any (fun y => decide (y.1 < q.stamp) && sameFlow y.2 q.msg)
      || x.2.continOf.toList.any fun y => decide (y.stamp < q.stamp) && sameFlow y.msg q.msg

/-- Whether a message's credits are available on a port (R247). -/
def Port.affords (x : Port) (m : Msg) : Bool := decide (1 ≤ x.credit m.vc 0) && decide (m.units.length ≤ x.credit m.vc 1)

/-- Whether a port's mode and width carry a channel (R267, R448). -/
def State.carries (s : State) (p vc : Nat) : Bool :=
  let mode := s.reg (R.portMode p)
  let base := s.reg (R.width p) = 1
  match vc with
  | 6 => mode ≠ 0
  | 7 => mode = 1 ∨ mode = 2
  | _ => mode = 1 ∧ ¬ base

/-- The payloads of a message's flits (R228). -/
def msgFlits (m : Msg) : List Vec :=
  let u (i : Nat) : List Byte := match m.units[i]? with | some x => bytesOf 64 x | none => zeros 64
  let n := ceilDiv (m.units.length - 3) 4
  ofBytes 2048 (msgBytes m ++ u 0 ++ u 1 ++ u 2)
    :: (List.range n).map fun j => ofBytes 2048 (u (4 * j + 3) ++ u (4 * j + 4) ++ u (4 * j + 5) ++ u (4 * j + 6))

/-- A credit-class header of the current slot. -/
def State.classHdr (s : State) (type : Nat) (m : Msg) : FlitHdr :=
  { type := type, vc := m.vc, period := m.period, txSlot := s.slot, frameLo := s.frame }

/-- The next continuation of a started message. -/
def State.sendContin (s : State) (p : Nat) (q : TxMsg) (f : Vec) (rest : List Vec) : State :=
  let s1 := s.sendNew p (s.classHdr 3 q.msg) f
  let s2 := s1.modPort p fun x => { x with contin := rest, continOf := if rest = [] then none else some q }
  if rest = [] then s2.left q else s2

/-- The firmware's 12-bit identifier of an event message: its kind (0 Sync, 1 Pdelay_Req, 2 Pdelay_Resp) and the low ten bits of its
sequence number; none for a general message (R284; DESIGN CHOICE, log entry 54). -/
def stampIdent (m : Msg) : Option (BitVec 12) :=
  let b := bytesOf 64 (m.units.headD 0)
  let seq := beNat (slice b 30 2) % 1024
  if m.vc ≠ 7 then none
  else match field b 0 1 % 16 with
    | 0 => some (BitVec.ofNat 12 seq)
    | 2 => some (BitVec.ofNat 12 (1024 + seq))
    | 3 => some (BitVec.ofNat 12 (2048 + seq))
    | _ => none

/-- NT32 and the fraction now, in 2^-16 ns. -/
def State.nt48 (s : State) : Nat := s.nt32.toNat * 65536 + s.ntFrac.toNat

/-- A message started: its first flit goes, its credits are used (R247). The start of this slot is the transmit timestamp of an event
message (R283). -/
def State.sendMsg (s : State) (p : Nat) (q : TxMsg) : State :=
  let m := q.msg
  let i := 2 * (m.vc - 1)
  match msgFlits m with
  | [] => s
  | f :: rest =>
    let s1 := (s.sendNew p (s.classHdr 2 m) f).modPort p fun x =>
      { x with
        txq := x.txq.filter fun y => y.stamp ≠ q.stamp
        contin := rest, continOf := if rest = [] then none else some q
        lastClass := if m.vc ≤ 5 then m.vc else x.lastClass
        stamps := match stampIdent m with | some i => x.stamps ++ [(i, s.nt48)] | none => x.stamps
        stampMoved := match stampIdent m with | some i => x.stampMoved ++ [(i, s.ntMoved)] | none => x.stampMoved
        used := Tab.set (Tab.set x.used i (Tab.get 0 x.used i + 1)) (i + 1)
          (Tab.get 0 x.used (i + 1) + BitVec.ofNat 16 m.units.length) }
    if rest = [] then s1.left q else s1

/-- The message a port would start now: TIME, MGMT, then channels 1 to 5 in rotation (R239, R247, R251, R252). -/
def State.nextMsg (s : State) (p : Nat) : Option TxMsg :=
  let x := s.port p
  if x.resend.isSome then none
  else
    ([7, 6] ++ (List.range 5).map fun i => (x.lastClass + i) % 5 + 1).findSome? fun vc =>
      (x.txq.filter fun q : TxMsg => q.msg.vc = vc).find? fun q : TxMsg =>
        s.carries p vc && x.affords q.msg && !(q.msg.period && s.behind q)

/-- Whether a link operation must take a place of credit-class traffic now: once in each 64 slots, counted from slot 0 of the frame,
that have a slack or gap slot (R232; DEDUCED: the 64 slots are aligned, log entry 25). -/
def State.opDue (s : State) (p : Nat) : Bool :=
  (s.port p).linkOp.isSome && decide ((s.port p).opSent / 64 ≠ s.now / 64)

/-- The last place of a slack or gap slot, which counts as its place of a link operation. -/
def State.sendPlace (s : State) (p : Nat) : State :=
  if (s.port p).linkOp.isSome then (s.sendLast p).modPort p fun x => { x with opSent := s.now } else s.sendLast p

/-- The credit-class part of a slot in the order of R251, else its last place. -/
def State.sendCredit (s : State) (p : Nat) : State :=
  let x := s.port p
  let room := decide (x.outstanding < 512)
  match x.continOf, x.contin with
  | some q, f :: rest => if room then s.sendContin p q f rest else s.sendPlace p
  | _, _ =>
    if s.opDue p then s.sendPlace p
    else match s.nextMsg p with
      | some q => if room then s.sendMsg p q else s.sendPlace p
      | none => s.sendPlace p

/-- The QUENCH a port has waiting: it takes the first slot whatever its entry, and no credit (R536). -/
def State.sendQuenchFlit (s : State) (p : Nat) : Option State :=
  match (s.port p).quenchTx with
  | m :: rest =>
    if (s.port p).outstanding < 512 then
      some ((s.sendNew p (s.classHdr 2 m) ((msgFlits m).headD 0)).modPort p fun x => { x with quenchTx := rest })
    else none
  | [] => none

/-- The flit at the resend pointer sent again: current control fields, late set, the CRC anew (R226, R238). -/
def State.sendReplay (s : State) (p : Nat) : Option State :=
  let x := s.port p
  match x.resend with
  | none => none
  | some n =>
    match x.replay.find? fun e => e.seq = n with
    | none => none
    | some e =>
      let keep := bits e.flit.toNat 19 0 + bits e.flit.toNat 49 34 * 2 ^ 34 + 2 ^ 70
      let f := withCrc (BitVec.ofNat 2176 (keep + x.control x.creditPick) ||| ((flitPayload e.flit).setWidth 2176 <<< 128))
      let s1 := (s.putWire p f).modPort p fun y =>
        { y with
          resend := if n + 1 = y.seqTx then none else some (n + 1)
          guardAck := match y.guardAck with
            | some (a, 0) => if n = a + 1 then some (a, s.now + 2 * s.reg (R.readyOffsetMeasured p) + 32) else some (a, 0)
            | g => g }
      some (s1.bump R.slackReplays 32)

/-- Whether a port's width transmits in a slot (R218). -/
def State.widthSlot (s : State) (p : Nat) : Bool :=
  match s.reg (R.width p) with
  | 4 => true
  | 2 | 3 => s.slot % 2 = 0
  | _ => s.slot % 16 = 0

/-! ## Receiving -/

/-- A go-back: the pointer to ack + 1 (R238); it counts only where something is to be sent again. -/
def State.goBack (s : State) (p : Nat) : State :=
  let x := s.port p
  if x.outstanding = 0 then s
  else
    (s.modPort p fun y => { y with resend := some (y.ackPt + 1), timer := some s.now }).bump (R.goBacks p) 32

/-- A link error of R269 that only retrains the port: logged, and the port trains again. -/
def State.linkError (s : State) (p code : Nat) : State :=
  (s.event code p (fabDetail s.slot s.clauseNumber)).retrain p

/-- The acknowledgement of an arriving flit (R235); false where it raised SEQ_ERROR. -/
def State.takeAck (s : State) (p : Nat) (a : BitVec 12) : State × Bool :=
  let x := s.port p
  let d := (a - x.ackPt).toNat
  if d = 0 then (s, true)
  else if d ≤ x.outstanding then
    let gone (n : BitVec 12) : Bool := decide ((n - x.ackPt - 1).toNat < d)
    (s.modPort p fun y =>
      { y with
        ackPt := a, expiries := 0, ackAt := s.now
        replay := y.replay.filter fun e => !gone e.seq
        timer := if y.replay.all fun e => gone e.seq then none else some s.now
        resend := match y.resend with
          | none => none
          | some n => if a + 1 = y.seqTx then none else if gone n then some (a + 1) else some n }, true)
  else if d < 2048 then (s.linkError p 0x2022, false)
  else (s, true)

/-- A request for a go-back naming `a`, outside the guard of that value; one that the guard suppresses is counted (R240). -/
def State.takeRequest (s : State) (p : Nat) (a : BitVec 12) : State :=
  let go := if (s.port p).outstanding = 0 then s
    else (s.goBack p).modPort p fun y => { y with guardAck := some (a, 0) }
  match (s.port p).guardAck with
  | some (b, e) =>
    if b = a ∧ (e = 0 ∨ s.now < e) then s.modPort p fun y => { y with suppressed := y.suppressed + 1 } else go
  | none => go

/-- One returned credit count, taken if it advances by 1 to 32,767 (R246). -/
def State.takeCredit (s : State) (p i : Nat) (g : BitVec 16) : State :=
  let d := (g - Tab.get 0 (s.port p).grantIn i).toNat
  if 1 ≤ d ∧ d ≤ 32767 then s.modPort p fun x => { x with grantIn := Tab.set x.grantIn i g } else s

/-- The control fields of an arriving flit; false where the port retrains. -/
def State.takeControl (s : State) (p : Nat) (f : BitVec 2176) : State × Bool :=
  let a := BitVec.ofNat 12 (fh f 31 20)
  let (s1, ok) := if fh f 32 32 = 1 then s.takeAck p a else (s, true)
  if ¬ ok then (s1, false)
  else
    let s2 := if fh f 33 33 = 1 then s1.takeRequest p a else s1
    let c := fh f 68 66
    (if c = 0 then s2 else s2.takeCredit p (2 * (c - 1) + fh f 69 69) (BitVec.ofNat 16 (fh f 65 50)), true)

/-- A flit discarded by R223 or R225: a gap is requested (R236). -/
def State.gapAt (s : State) (p : Nat) : State := s.modPort p fun x => { x with gap := true }

/-- E advanced past every flit marked in the map, at most `n` times (R234). -/
def advanceE : Nat → BitVec 12 → List (BitVec 12) → BitVec 12 × List (BitVec 12)
  | 0, e, m => (e, m)
  | n + 1, e, m => if m.contains e then advanceE n (e + 1) (m.filter (· ≠ e)) else (e, m)

/-- What R234 does with a sequenced flit. -/
inductive SeqVerdict where
  | accept
  | duplicate
  | discard
  | error
  deriving DecidableEq, Repr

/-- The verdict for a sequence number, for a scheduled flit or one of the credit classes (R234). -/
def Port.verdict (x : Port) (seq : BitVec 12) (sched : Bool) : SeqVerdict :=
  let d := (seq - x.rxE).toNat
  if 2048 ≤ d then .duplicate
  else if 512 ≤ d then .error
  else if x.rxMap.contains seq then .duplicate
  else if d = 0 ∨ sched then .accept
  else .discard

/-- The port after it accepted a sequence number. -/
def Port.accepted (x : Port) (seq : BitVec 12) : Port :=
  if seq = x.rxE then
    let (e, m) := advanceE 512 (x.rxE + 1) x.rxMap
    { x with rxE := e, rxMap := m, gap := false }
  else { x with rxMap := seq :: x.rxMap, gap := true }

/-- The measured ready offset of a flit that arrives now: slots since its transmit slot; 1 for one that arrives in that slot or
before it, as in holdover (R179, R180). -/
def State.measured (s : State) (f : BitVec 2176) : Nat :=
  let d := (s.now + 65536 - (fh f 49 46 * 4096 + fh f 45 34)) % 65536
  if d < 32768 then max 1 d else 1

/-- Flight time measured from a scheduled flit without the late flag (R186). -/
def State.measure (s : State) (p : Nat) (f : BitVec 2176) : State :=
  if fh f 70 70 = 1 then s
  else
    let m := s.measured f
    let s1 := s.setReg (R.readyOffsetMeasured p) (m % 65536)
    let a := s.reg (R.readyOffsetAssumed p)
    if a ≠ 0 ∧ m ≠ a ∧ ¬ (s.port p).driftLogged then
      ((s1.modPort p fun x => { x with driftLogged := true }).bump R.flightDriftEvents 32).event 0x2014 p
        (fabDetail s.slot s.clauseNumber)
    else s1

/-- Whether a port carries scheduled flits: verified, and not at base width (R267, R268). -/
def State.carriesSched (s : State) (p : Nat) : Bool := s.reg (R.portMode p) = 1 && s.reg (R.width p) ≠ 1

/-- Whether a flit belongs to one of the 8 frames before the last quench boundary, and to none in which scheduled traffic has flowed
since (R209, R243). -/
def State.quenched (s : State) (frameLo : Nat) : Bool :=
  match s.quenchAt with
  | some b => decide ((b + 15 - frameLo % 16) % 16 < 8)
      && !((List.range (min 16 (s.frame + 2 - s.schedFrom))).any fun i => (s.schedFrom + i) % 16 == frameLo % 16)
  | none => false

/-- A scheduled flit into the landing buffer (R178, R187); one of the frames before a quench boundary is discarded (R209, R243). -/
def State.landFlit (s : State) (p : Nat) (f : BitVec 2176) : State :=
  if ¬ s.sched ∨ ¬ s.carriesSched p ∨ s.quenched (fh f 49 46) then s
  else
    let x := s.port p
    if 256 ≤ x.landing.length then s.raise 0x2011 p (fabDetail s.slot s.clauseNumber)
    else
      let e : Landed := { txSlot := fh f 45 34, frameLo := fh f 49 46, payload := flitPayload f, ready := s.now,
                          period := fh f 7 7 = 1, late := fh f 70 70 = 1 }
      let n := x.landing.length + 1
      let s1 := s.modPort p fun y => { y with landing := y.landing ++ [e] }
      (s1.setReg R.landingPeak (max n (s1.reg R.landingPeak))).setReg (R.landingPeakPort p)
        (max n (s1.reg (R.landingPeakPort p)))

/-- The largest header and data buffers of a class (R244). -/
def hdrBuffer (vc : Nat) : Nat := if vc ≤ 4 then 64 else if vc = 7 then 16 else 32

def dataBuffer (vc : Nat) : Nat := if vc = 3 ∨ vc = 4 then 1024 else if vc = 7 then 16 else 256

/-- The header credits a port advertises for a class, and its data credits (R245, R249). -/
def State.advertise (s : State) (p vc kind : Nat) : Nat :=
  let h := s.reg (regKey 0x3002 vc)
  if ¬ s.carries p vc ∨ h = 0 then 0
  else if kind = 0 then h else s.reg (regKey 0x3002 (7 + vc))

/-- The link bytes of a first flit as a message without units yet. -/
def firstMsg (f : BitVec 2176) : Msg :=
  { vc := fh f 6 4, period := fh f 7 7 = 1, hdr := (flitPayload f).setWidth 512, units := [] }

/-- A QUENCH in a first flit (R535, R536). -/
def isQuenchMsg (m : Msg) : Bool := m.vc == 6 && mf m 8 1 == 2

/-- The units a payload holds from byte `o`, at most `n`. -/
def payloadUnits (v : Vec) (o n : Nat) : List (BitVec 512) :=
  (List.range (min n ((256 - o) / 64))).map fun i => v.extractLsb' (8 * (o + 64 * i)) 512

/-- Messages in the management firmware's queue: those it has not taken up, and those it sends on that wait for MGMT credits, a flood
once (R331). -/
def State.mgmtHeld (s : State) : Nat :=
  s.mgmtQueue.length
    + ((s.ports.flatMap fun x => (x.2.txq.filter fun q => q.msg.vc = 6 ∧ q.arr.isSome).map (·.stamp)).eraseDups).length

/-- The receiver's bytes 56 to 63 of a TIME message (R278, R283): its receive timestamp, its port, and whether it is delayed: sent again
by a go-back, or more than one slot later than its transmit slot and the port's measured ready offset. -/
def State.stampTime (s : State) (p : Nat) (f : BitVec 2176) (m : Msg) : Msg :=
  let rx := s.nt48 / 1024 * 1024
  let slow := decide (s.measured f > s.reg (R.readyOffsetMeasured p) + 1)
  let tail := rx / 65536 % 2 ^ 32 + rx % 65536 * 2 ^ 32 + p % 256 * 2 ^ 48
    + (decide (fh f 70 70 = 1) || slow).toNat * 2 ^ 56
  { m with hdr := (m.hdr &&& ~~~((0xFFFFFFFFFFFFFFFF : BitVec 512) <<< 448)) ||| (BitVec.ofNat 512 tail <<< 448) }

/-- The TIME sink (R279, R280): a message of one of the six types waits for the firmware, any other is discarded and counted. -/
def State.sinkTime (s : State) (p : Nat) (m : Msg) : State :=
  if m.units.length = 1 ∧ [0, 8, 2, 3, 10, 11].contains ((m.units.headD 0).toNat % 16) then { s with timeIn := s.timeIn ++ [(p, m)] }
  else s.bump R.ptpDiscards 32

/-- A whole message that has come in: MGMT goes to the firmware's queue or is discarded, as one of an op that R486 does not list is (R331),
TIME to its sink, others wait in their class buffer. -/
def State.msgIn (s : State) (p : Nat) (m : Msg) : State :=
  let st := s.msgStamp
  let s1 := ({ s with msgStamp := st + 1 }).modPort p fun x => { x with held := x.held ++ [(st, m)] }
  if m.vc = 6 then
    let s2 := s1.freeHeld p st
    if mf m 8 1 < 1 ∨ 3 < mf m 8 1 then s2
    else if s2.mgmtHeld < 256 then { s2 with mgmtQueue := s2.mgmtQueue ++ [(st, m)] } else s2.bump R.mgmtDiscards 32
  else if m.vc = 7 then (s1.freeHeld p st).sinkTime p m
  else s1

/-- The first flit of a message (R227, R250). -/
def State.classFirst (s : State) (p : Nat) (f : BitVec 2176) : State :=
  let m := firstMsg f
  let n := mf m 0 1
  let x := s.port p
  if m.vc = 0 ∨ Tab.get 0 x.own (2 * (m.vc - 1)) = 0 ∨ 64 < n ∨ hdrBuffer m.vc ≤ Tab.get 0 x.rxHdr m.vc
      ∨ dataBuffer m.vc < Tab.get 0 x.rxData m.vc + n then s.linkError p 0x2023
  else
    let m1 := { (if m.vc = 7 then s.stampTime p f m else m) with units := payloadUnits (flitPayload f) 64 (min n 3) }
    let s1 := s.modPort p fun y =>
      { y with
        rxHdr := Tab.set y.rxHdr m.vc (Tab.get 0 y.rxHdr m.vc + 1)
        rxData := Tab.set y.rxData m.vc (Tab.get 0 y.rxData m.vc + n)
        rxMsg := if n ≤ 3 then none else some { msg := m1, left := n - 3 } }
    if n ≤ 3 then s1.msgIn p m1 else s1

/-- A continuation of the message that is coming in (R228, R250). -/
def State.classNext (s : State) (p : Nat) (f : BitVec 2176) : State :=
  let vc := fh f 6 4
  if vc = 0 ∨ Tab.get 0 (s.port p).own (2 * (vc - 1)) = 0 then s.linkError p 0x2023
  else match (s.port p).rxMsg with
  | none => s
  | some r =>
    let u := payloadUnits (flitPayload f) 0 (min r.left 4)
    let m := { r.msg with units := r.msg.units ++ u }
    if r.left ≤ 4 then (s.modPort p fun x => { x with rxMsg := none }).msgIn p m
    else s.modPort p fun x => { x with rxMsg := some { msg := m, left := r.left - 4 } }

/-- A QUENCH taken into a port's quench register: unless seen, it goes out on every other port that carries MGMT and
reaches the record, unless the record says to discard it (R486, R487, R536, R540). -/
def State.acceptQuench (s : State) (p : Nat) (m : Msg) : State :=
  let orig := BitVec.ofNat 64 (mf m 16 8)
  let seq := BitVec.ofNat 32 (mf m 12 4)
  if s.knowsFlood orig seq then s
  else
    let s1 := s.noteFlood orig seq
    let q : QRec :=
      { s := BitVec.ofNat 64 (mf m 40 8), a := mf m 48 1, q := mf m 28 6, p := mf m 34 6, isEnd := bit (mf m 49 1) 0,
        defer := bit (mf m 49 1) 1, release := bit (mf m 49 1) 2, stop := mf m 28 6, origin := mf m 24 2, cause := mf m 26 2 }
    let (s2, fwd) := s1.takeRecord q (BitVec.ofNat 2 (mf m 50 1))
    if fwd ∧ mf m 9 1 < 127 then
      let hop := mf m 9 1 + 1
      let h := (m.hdr &&& ~~~((0xFF : BitVec 512) <<< 72)) ||| (BitVec.ofNat 512 hop <<< 72)
      let l := s2.mgmtPorts (some p)
      (s2.each l fun t r =>
        t.modPort r fun x => { x with quenchTx := x.quenchTx ++ [{ m with hdr := h }] }).bump R.floodsForwarded 32 (min 1 l.length)
    else s2

/-- A link control operation received (R257, R262, R266): a WIDTH_REQ is refused with RETRAIN_REQ where a lane of its half has failed
here, which ends any width change agreed before; the leader's own request stands against the follower's (R256). -/
def State.linkOpIn (s : State) (p op half : Nat) : State :=
  let x := s.port p
  let bad := if half = 0 then bits x.lanesFailed.toNat 3 0 else bits x.lanesFailed.toNat 7 4
  if op = 2 then s.retrain p
  else if op = 1 ∧ half ≤ 1 ∧ s.reg (R.width p) = 4 then
    let mine := match x.linkOp with | some (1, h) => some h | _ => none
    if x.pendRetrain then s
    else if s.leads p ∧ mine.isSome ∧ mine ≠ some half then s
    else if bad ≠ 0 then
      s.modPort p fun y => { y with linkOp := some (2, 0), pendRetrain := true, opSent := 0, switchAt := none }
    else
      let agreed : Option (Nat × Nat) := match x.switchAt with
        | some (f, h) => if h = half then some (f, h) else some (s.frame + 2, half)
        | none => some (s.frame + 2, half)
      s.modPort p fun y =>
        { y with switchAt := agreed, linkOp := if mine.isSome ∧ mine ≠ some half then none else y.linkOp }
  else s

/-- A duplicate counted; one that lies above E says that E has not arrived (R234, R236). -/
def State.dropDuplicate (s : State) (p : Nat) (seq : BitVec 12) : State :=
  let d := (seq - (s.port p).rxE).toNat
  let s1 := s.bump (R.duplicatesDropped p) 32
  if 0 < d ∧ d < 512 then s1.gapAt p else s1

/-- The type-specific part of an arriving flit whose control fields are taken. -/
def State.takeBody (s : State) (p : Nat) (f : BitVec 2176) : State :=
  let x := s.port p
  let seq := BitVec.ofNat 12 (fh f 19 8)
  match flitType f with
  | 0 =>
    let d := (seq - x.rxE).toNat
    let s1 := s.each (List.range 14) fun t i => t.takeCredit p i ((flitPayload f).extractLsb' (16 * i) 16)
    if 1 ≤ d ∧ d ≤ 512 then s1.gapAt p else s1
  | 1 =>
    match x.verdict seq true with
    | .accept => ((s.modPort p fun y => y.accepted seq).measure p f).landFlit p f
    | .duplicate => s.dropDuplicate p seq
    | .discard => s
    | .error => s.linkError p 0x2022
  | 2 | 3 =>
    match x.verdict seq false with
    | .accept =>
      let s1 := s.modPort p fun y => y.accepted seq
      if flitType f = 3 then s1.classNext p f
      else if isQuenchMsg (firstMsg f) then s1.acceptQuench p (firstMsg f)
      else s1.classFirst p f
    | .duplicate => s.dropDuplicate p seq
    | .discard => s.gapAt p
    | .error => s.linkError p 0x2022
  | 5 => s.linkOpIn p (vbyte (flitPayload f) 0).toNat (vbyte (flitPayload f) 1).toNat
  | _ => s

/-- Whether a byte of an arriving flit lies in an uncorrectable codeword (R223): by the slot in which it went on the link, which is its
transmit slot, or, for a flit sent late or again, the slot one ready offset ago (DEDUCED, log entry 27). -/
def State.inBadWord (s : State) (p : Nat) (f : BitVec 2176) : Bool :=
  let a := s.now - s.reg (R.readyOffsetMeasured p)
  (s.port p).destroyed.contains
    (if fh f 70 70 = 1 then (a % 4096, a / 4096 % 16) else (fh f 45 34, fh f 49 46))

/-- A flit arrives on a port in UP (R223 to R225, R234): a damaged one or one of unknown type is discarded and counted, in IDENT, RATE and
ALIGN too. -/
def State.flitIn (s : State) (p : Nat) (f : BitVec 2176) : State :=
  let damaged : Bool := !crcOk f || decide (5 < flitType f)
  if s.reg (R.linkState p) ≠ 7 then (if damaged ∧ 4 ≤ s.reg (R.linkState p) then s.bump (R.crcErrors p) 32 else s)
  else if damaged then (s.bump (R.crcErrors p) 32).gapAt p
  else
    if s.inBadWord p f then s.gapAt p
    else
      let (s1, ok) := s.takeControl p f
      if ok then s1.takeBody p f else s1

/-- IDLE_CONTROL_FLIT (R230, R236): an idle flit's header also returns a count. -/
def idleControlFlitNow (port : PortId) (flit : BitVec 2176) (s : State) : Res :=
  if flitType flit = 0 then .next (s.flitIn port.val flit) else .next s

/-- Whether a flit is a link control flit with an operation. -/
def isOp (f : BitVec 2176) (op : Nat) : Bool := flitType f == 5 && (vbyte (flitPayload f) 0).toNat == op

/-- WIDTH_REQ received (R262). -/
def widthReqNow (port : PortId) (flit : BitVec 2176) (s : State) : Res :=
  if isOp flit 1 then .next (s.flitIn port.val flit) else .next s

/-- RETRAIN_REQ received (R257). -/
def retrainReqNow (port : PortId) (flit : BitVec 2176) (s : State) : Res :=
  if isOp flit 2 then .next (s.flitIn port.val flit) else .next s

/-- REPLAY_TIMEOUT (R241): 1,455 slots after the replay timer started, a go-back whatever the guard; the eighth in a row is
LINK_DEAD. -/
def replayTimeoutNow (port : PortId) (s : State) : Res :=
  let p := port.val
  let x := s.port p
  let due : Bool := match x.timer with | some a => decide (a + 1455 ≤ s.now) | none => false
  if s.reg (R.linkState p) ≠ 7 ∨ x.replay = [] ∨ ¬ due then .next s
  else
    let s1 := ((s.goBack p).modPort p fun y => { y with expiries := y.expiries + 1 }).bump (R.replayTimeouts p) 32
    let s2 := s1.event 0x2028 p (fabDetail s.slot s.clauseNumber)
    if x.expiries + 1 < 8 then .next s2 else .next (s2.linkError p 0x2021)

/-! ## Codewords -/

/-- The lanes of a width, lowest first (R218). -/
def lanesOf (width : Nat) : List Nat :=
  match width with
  | 1 => [0, 4]
  | 2 => [0, 1, 2, 3]
  | 3 => [4, 5, 6, 7]
  | 4 => [0, 1, 2, 3, 4, 5, 6, 7]
  | _ => []

/-- The symbols of the last codeword a port transmitted that go on a lane (R222). -/
def State.laneSymbols (s : State) (p lane : Nat) : List Nat :=
  let l := lanesOf (s.reg (R.width p))
  ((s.port p).symbols.zipIdx.filter fun x => l.getD (x.2 % l.length) 8 = lane).map (·.1)

/-- The width of a port's receive direction (R259). -/
def State.rxWidth (s : State) (p : Nat) : Nat :=
  let x := s.port p
  if x.rxWidth = 0 then s.reg (R.width p) else x.rxWidth

/-- The slots that have a byte in a codeword (R219, R223). -/
def codewordSlots (width index : Nat) : List Nat :=
  let lo := 640 * index / 275
  let hi := (640 * index + 639) / 275
  (List.range (hi + 1 - lo)).map fun i => slotStride width * (lo + i)

end Sys2Proof.Machine
end

