-- ==== Sys2Proof/Machine/LinkTrain.lean ====
section
/-! DEFINITION. Training a port: its states, identity blocks, modes, credits, width changes, and received codewords (R219 to R223, R253 to
R263). -/

namespace Sys2Proof.Machine

/-- A port's training state set. -/
def State.toLink (s : State) (p st : Nat) : State := s.setReg (R.linkState p) st

/-- DOWN: no light until the back-off has passed (R253). -/
def State.linkDown (s : State) (p : Nat) : State :=
  ((s.setPort p { (s.port p).cleared with dark := true }).linkEntries p 1 0).setReg (R.readyOffsetMeasured p) 0

/-- SEEK entered from DOWN or OFF (R253). -/
def State.seek (s : State) (p : Nat) : State :=
  ((s.modPort p fun x => { x with dark := false }).linkEntries p 2 1).bump (R.trainAttempts p) 32

/-- SIGNAL_DETECT (R253): light on lanes 0 and 4. -/
def execSignalDetect (port : PortId) (s : State) : Res :=
  if s.reg (R.linkState port.val) = 2 then .next (s.toLink port.val 3) else .next s

/-- LOCK_COMPLETE (R217, R253): lanes identified; swapped fibres are corrected and logged. -/
def execLockComplete (port : PortId) (lanes : Byte) (swapped : Bool) (s : State) : Res :=
  let p := port.val
  if s.reg (R.linkState p) ≠ 3 then .next s
  else
    let s1 := (s.modPort p fun x => { x with lanes := lanes, idRun := 0, peerSeen := false }).toLink p 4
    .next (if swapped then s1.event 0x202A p (fabDetail 0 0xFFFF) else s1)

/-- The identity block a port sends in IDENT (R254). -/
def State.identityBlock (s : State) (p : Nat) : List Byte :=
  let v := s.reg R.linkProtocolVersion
  toLE 2 s.chip ++ toLE 1 p ++ bytesOf 1 (s.port p).lanes ++ toLE 1 (v % 256) ++ toLE 1 (v / 256)
    ++ toLE 2 (s.reg R.scheduleFormat) ++ toLE 4 (s.reg R.firmwareVersion) ++ toLE 2 s.coords
    ++ toLE 1 ((if s.manifest = [] then 0 else 1) + (if (s.port p).idRun = 0 then 0 else 2)) ++ zeros 1
    ++ s.fabricIdOf ++ bytesOf 8 Config.serial ++ zeros 24

/-- Mode and held reason that the neighbour's block gives (R260). -/
def State.modeFor (s : State) (p : Nat) (b : List Byte) : Nat × Nat :=
  if field b 5 1 ≠ s.reg R.linkProtocolVersion / 256 then (4, 0)
  else if s.manifest = [] then (2, 0)
  else if ¬ bit (field b 14 1) 0 then (3, 1)
  else if slice b 16 16 ≠ s.fabricIdOf then (3, 2)
  else match expectedNeighbour s.manifest s.chip p with
    | none => (3, 4)
    | some (c, q) => if field b 0 2 ≠ c ∨ field b 2 1 ≠ q then (3, 3) else (1, 0)

/-- A group 7 port that has come UP verified with another part than the one that confirmed custody: custody_given becomes none
(R553). -/
def State.checkTwin (s : State) (p : Nat) : State :=
  if s.reg (R.portMode p) = 1 ∧ 28 ≤ p ∧ s.reg R.custodyGiven = 2
      ∧ field (s.blob (R.peerIdentity p)) 32 8 ≠ s.confirmedSerial.toNat then
    s.custodyNone.event 0x7079 0xFF noDetail
  else s

/-- IDENT is complete: the mode, and RATE, or ALIGN at base width with the lanes that both ends have locked (R253, R255, R260, R270,
R448). -/
def State.identDone (s : State) (p : Nat) (b : List Byte) : State :=
  let (mode, reason) := s.modeFor p b
  let s1 := (s.setReg (R.portMode p) mode).setReg (R.heldReason p) reason
  let s2 := if mode = 4 then s1.event 0x2026 p (fabDetail 0 0xFFFF)
    else if mode = 3 then s1.event 0x2025 p (fabDetail 0 0xFFFF + reason * 2 ^ 28)
    else s1
  if mode ≠ 4 ∧ bit s.groupsOn (p / 4) then s2.toLink p 5
  else ((s2.toLink p 6).setReg (R.width p) 1).setReg (R.lanesGood p) ((s.port p).lanes.toNat &&& field b 3 1 &&& 0x11)

/-- The transmit direction of a port changes width; the receive direction keeps its own until its codeword 0 (R259). -/
def State.txWidth (s : State) (p w : Nat) : State :=
  let old := s.reg (R.width p)
  (s.setReg (R.width p) w).modPort p fun x =>
    { x with rxWidth := if x.rxWidth = w then 0 else if x.rxWidth = 0 ∧ old ≠ w then old else x.rxWidth }

/-- A frame boundary of ports that train: the first after IDENT takes one in RATE to full width, and one whose lanes gave it a half
changes to that after a frame at the old width (R259, R261). -/
def State.rateSwitch (s : State) : State :=
  s.each (List.range 32) fun t p =>
    if t.reg (R.linkState p) = 5 ∧ t.reg (R.width p) = 1 then t.txWidth p 4
    else match (t.port p).switchAt with
      | some (f, h) =>
        if t.reg (R.linkState p) = 6 ∧ f ≤ t.frame then (t.modPort p fun x => { x with switchAt := none }).txWidth p (2 + h) else t
      | none => t

/-- A port in IDENT, RATE or ALIGN. -/
def State.training (s : State) (p : Nat) : Bool := decide (4 ≤ s.reg (R.linkState p) ∧ s.reg (R.linkState p) ≤ 6)

/-- A training flit with the identity block (R224, R254); it acknowledges nothing yet (R235). That the slot stream of RATE and ALIGN
carries the same flits is a DESIGN CHOICE, log entry 67. -/
def State.sendTraining (s : State) (p : Nat) : State :=
  let lo := 4 + s.slot % 4096 * 2 ^ 34 + s.frame % 16 * 2 ^ 46
  s.onWire p (withCrc (BitVec.ofNat 2176 lo ||| (ofBytes 2176 (s.identityBlock p) <<< 128)))

/-- An identity block received: three identical blocks and one with peer_seen complete IDENT (R254). -/
def State.takeIdentity (s : State) (p : Nat) (b : List Byte) : State :=
  if s.reg (R.linkState p) ≠ 4 then s
  else
    let old := s.blob (R.peerIdentity p)
    let x := s.port p
    let run := if old = b ∧ x.idRun ≠ 0 then x.idRun + 1 else 1
    let seen := x.peerSeen || bit (field b 14 1) 1
    let s1 := (s.setBlob (R.peerIdentity p) b).modPort p fun y => { y with idRun := run, peerSeen := seen }
    let s2 := if old ≠ b then s1.peerChanged else s1
    if 3 ≤ run ∧ seen then s2.identDone p b else s2

/-- IDENTITY_BLOCK_RECEIVE (R254). -/
def execIdentityBlockReceive (port : PortId) (block : BitVec 512) (s : State) : Res :=
  .next (s.takeIdentity port.val (bytesOf 64 block))

/-- RATE_COMPLETE (R261): full width with all lanes good both ways, else a half, to which the port changes in ALIGN, else none. Both ends
choose from the same two lane sets, so the follower takes the leader's width (R256). -/
def execRateComplete (port : PortId) (rxLanes txLanes : Byte) (s : State) : Res :=
  let p := port.val
  let g := (rxLanes &&& txLanes).toNat
  let w := if g = 0xFF then 4 else if bits g 3 0 = 15 then 2 else if bits g 7 4 = 15 then 3 else 0
  if s.reg (R.linkState p) ≠ 5 ∨ s.reg (R.width p) ≠ 4 ∨ w = 0 then .next s
  else .next (((s.setReg (R.lanesGood p) g).modPort p fun x =>
    { x with rxWidth := 0, switchAt := if w = 4 then none else some (s.frame + 2, w - 2) }).toLink p 6)

/-- UP: sequence numbers 0, credits advertised both ways, the flight time of full or half width kept (R179, R245); the twin is checked, and
a LOST notice that waited for a port goes out (R504, R553). -/
def State.linkUp (s : State) (p flight phase : Nat) (credits : List (BitVec 16)) : State :=
  let adv := (List.range 14).map fun i => (i, BitVec.ofNat 16 (s.advertise p (i / 2 + 1) (i % 2)))
  let nb := (List.range 14).map fun i => (i, credits.getD i 0)
  let x := { (s.port p).cleared with dark := false, lanes := (s.port p).lanes, grantOut := adv, returned := adv,
                                     own := adv.map fun x => (x.1, x.2.toNat), rxWidth := (s.port p).rxWidth,
                                     rxPart := (s.port p).rxPart, stream := (s.port p).stream, word := (s.port p).word,
                                     grantIn := nb, adv := nb }
  let s1 := (s.setPort p x).toLink p 7
  let s2 := if s.reg (R.width p) = 1 then s1.setReg (R.readyOffsetMeasured p) 0
    else
      (s1.setReg (R.readyOffsetMeasured p) (max 1 (flight + (if phase = 0 then 0 else 1)) % 65536)).setReg
        (R.phaseMeasured p) phase
  (s2.checkTwin p).sendOwedLost

/-- ALIGN_COMPLETE (R253): `flight` whole slots and `phase` sixteenths, the neighbour's 14 advertisements. -/
def execAlignComplete (port : PortId) (flight : Nat) (phase : Fin 16) (credits : List (BitVec 16)) (s : State) : Res :=
  if s.reg (R.linkState port.val) = 6 ∧ (s.port port.val).switchAt = none then .next (s.linkUp port.val flight phase.val credits)
  else .next s

/-- TRAIN_TIMEOUT (R253): from LOCK, IDENT, RATE or ALIGN to DOWN. -/
def execTrainTimeout (port : PortId) (s : State) : Res :=
  let p := port.val
  let st := s.reg (R.linkState p)
  if 3 ≤ st ∧ st ≤ 6 then .next ((s.linkDown p).event 0x2029 p (fabDetail 0 0xFFFF)) else .next s

/-- BACKOFF_EXPIRY (R253). -/
def execBackoffExpiry (port : PortId) (s : State) : Res :=
  if s.reg (R.linkState port.val) = 1 then .next (s.seek port.val) else .next s

/-- The lanes of a half. -/
def halfMask (half : Nat) : Nat := if half = 0 then 0x0F else 0xF0

/-- A lane of a port in UP fails (R261 to R263): at full width a request for a half whose lanes are good, unless a retrain is pending
(R266); else the port retrains. -/
def State.failLane (s : State) (p lane : Nat) : State :=
  let w := s.reg (R.width p)
  let failed := setBit (s.port p).lanesFailed.toNat lane true
  let s1 := (s.modPort p fun x => { x with lanesFailed := BitVec.ofNat 8 failed }).setReg (R.lanesGood p)
    (setBit (s.reg (R.lanesGood p)) lane false)
  let s2 := s1.event 0x2027 p (fabDetail s.slot s.clauseNumber)
  if ¬ (lanesOf w).contains lane then s2
  else if w = 4 then
    match [0, 1].find? fun h => failed &&& halfMask h = 0 with
    | some h =>
      if (s2.port p).pendRetrain then s2
      else s2.modPort p fun x => { x with linkOp := some (1, h), opSent := 0 }
    | none => s2.retrain p
  else s2.retrain p

/-- LANE_FAILED (R261 to R263): a lane has lost lock or exceeded the correction threshold. -/
def laneFailedNow (port : PortId) (lane : Fin 8) (s : State) : Res :=
  if s.reg (R.linkState port.val) ≠ 7 then .next s else .next (s.failLane port.val lane.val)

/-- Whether a clause has a table for a port, or a forward that takes flits from it (R169, R212). That a table of slack and gaps alone is
a use is a DESIGN CHOICE, log entry 68. -/
def Clause.usesPort (c : Clause) (p : Nat) : Bool :=
  bit (bits c.hdr.toNat 127 96) p || c.tables.any fun t => t.2.any fun e =>
    decide (bits e.toNat 63 60 = 0xA) && bits e.toNat 22 18 == p

/-- Whether the clause that runs uses a port. -/
def State.clauseUses (s : State) (p : Nat) : Bool :=
  s.sched && (match s.clauseAt (s.reg R.activeClause) with
    | some c => c.usesPort p
    | none => false)

/-- WIDTH_SWITCH (R259, R262, R212): at the agreed frame boundary the port takes the half's width. One that so narrows onto a lane that
has failed retrains (R263; DEDUCED, log entry 25). -/
def widthSwitchNow (port : PortId) (s : State) : Res :=
  let p := port.val
  match (s.port p).switchAt with
  | some (f, h) =>
    if s.reg (R.linkState p) = 7 ∧ f ≤ s.frame ∧ s.slot = 0 then
      let s1 := (s.modPort p fun x => { x with switchAt := none, linkOp := none, switched := some s.now }).txWidth p (2 + h)
      let s2 := if s.clauseUses p then s1.raise 0x2013 p (fabDetail s.slot s.clauseNumber) else s1
      .next (if (s.port p).lanesFailed.toNat &&& halfMask h = 0 then s2 else s2.retrain p)
    else .next s
  | none => .next s

/-- WIDTH_DECODE_TIMEOUT (R263): a frame has passed since the switch, and no codeword at the new width has decoded. -/
def widthDecodeTimeoutNow (port : PortId) (s : State) : Res :=
  let p := port.val
  let due : Bool := match (s.port p).switched with | some a => decide (a + 4096 ≤ s.now) | none => false
  if s.reg (R.linkState p) = 7 ∧ (s.reg (R.width p) = 2 ∨ s.reg (R.width p) = 3) ∧ due then .next (s.retrain p) else .next s

/-! ## Codewords received (R219 to R223) -/

/-- Corrected symbols counted, in all and by lane; a lane with more than the threshold in 100 µs, 72,727 slots, fails (R223, R261). -/
def State.countSymbols (s : State) (p : Nat) (pos : List Nat) : State :=
  let lanes := lanesOf (s.rxWidth p)
  let old := s.blob (R.laneSymbolErrors p)
  let cnt (l : Nat) : Nat := (pos.filter fun i => lanes.getD (i % lanes.length) 8 = l).length
  let s1 := (s.bump (R.fecCorrectedSymbols p) 64 pos.length).setBlob (R.laneSymbolErrors p)
    ((List.range 8).flatMap fun l => toLE 4 (field old (4 * l) 4 + cnt l))
  let news := (lanes.map fun l => (s.now, l, cnt l)).filter fun e => e.2.2 ≠ 0
  let s2 := s1.modPort p fun x => { x with laneErrs := (x.laneErrs ++ news).filter fun e => decide (s.now < e.1 + 72728) }
  let limit := s.reg R.laneFailThreshold
  if limit = 0 ∨ s.reg (R.linkState p) ≠ 7 then s2
  else
    s2.each lanes fun t l =>
      let x := t.port p
      let sum := ((x.laneErrs.filter fun e => e.2.1 = l).map (·.2.2)).sum
      if limit < sum ∧ ¬ bit x.lanesFailed.toNat l ∧ t.reg (R.linkState p) = 7 then t.failLane p l else t

/-- The width that the receive direction changes to (R259, R262): full for a port in RATE, and for one in IDENT whose neighbour is in RATE
already. -/
def State.rxTarget (s : State) (p : Nat) : Nat :=
  match (s.port p).switchAt with
  | some (_, h) => 2 + h
  | none => if s.reg (R.linkState p) = 4 ∨ s.reg (R.linkState p) = 5 then 4 else s.reg (R.width p)

/-- A codeword's place taken: at codeword 0 after the width switch bit, the receive direction changes width (R259). -/
def State.rxSwitch (s : State) (p index : Nat) : State :=
  if (s.port p).rxSwitch ∧ index = 0 then
    let w := s.rxTarget p
    s.modPort p fun x =>
      { x with rxSwitch := false, rxPart := none, switched := some s.now, rxWidth := if w = s.reg (R.width p) then 0 else w }
  else s

/-- The flits that a decoded codeword completes, from the slot begun in the one before, and the slot it begins (R219, R220). -/
def Port.unpack (x : Port) (index frame : Nat) (l : List Byte) : List (BitVec 2176) × Port :=
  let at0 := 640 * index
  let (a, b) := match x.rxPart with
    | some (f, o, old) => if f = frame ∧ o = at0 then (o - old.length, old ++ l) else (at0, l)
    | none => (at0, l)
  let skip := 275 * ceilDiv a 275 - a
  let b1 := b.drop skip
  let n := b1.length / 275
  ((List.range n).map fun i => ofBytes 2176 (slice b1 (275 * i + 3) 272),
   { x with rxPart := some (frame, at0 + 640, b1.drop (275 * n)) })

/-- A flit out of the slot stream: traffic in UP, an identity block in IDENT; one whose CRC fails or whose type is unknown is counted
whatever it is (R224, R225). -/
def State.slotFlit (s : State) (p : Nat) (f : BitVec 2176) : State :=
  if s.reg (R.linkState p) ≠ 7 ∧ crcOk f ∧ flitType f = 4 then s.takeIdentity p (bytesOf 64 (flitPayload f))
  else s.flitIn p f

/-- A decoded codeword: its header's frame, its width switch bit and the corrected symbols are noted (R221, R223). -/
def State.noteCodeword (s : State) (p : Nat) (c pos : List Nat) : State :=
  let (i, f, sw, _) := codewordHeader c
  let s1 := (s.rxSwitch p i).modPort p fun x =>
    { x with codeword := some (f, i), rxSwitch := x.rxSwitch || sw, switched := if x.rxWidth = 0 then none else x.switched
             destroyed := x.destroyed.filter fun d => d.2 = f ∨ (d.2 + 1) % 16 = f }
  if pos = [] then s1 else s1.countSymbols p pos

/-- The flits of a decoded codeword arrive (R219, R220). -/
def State.takeCodeword (s : State) (p : Nat) (c : List Nat) : State :=
  let (i, f, _, _) := codewordHeader c
  let (l, x) := (s.port p).unpack i f (codewordBytes c)
  (s.setPort p x).each l fun t g => t.slotFlit p g

/-- An uncorrectable codeword: counted, its flits destroyed, a gap requested (R223, R236). -/
def State.loseCodeword (s : State) (p index : Nat) : State :=
  let s0 := s.rxSwitch p index
  let f := match (s.port p).codeword with
    | some (f, last) => if last < index then f else (f + 1) % 16
    | none => s.frame % 16
  let s1 := (s0.bump (R.fecUncorrectable p) 64).modPort p fun x =>
    { x with codeword := some (f, index), rxPart := none
             destroyed := x.destroyed ++ (codewordSlots (s0.rxWidth p) index).map fun k => (k, f) }
  if s.reg (R.linkState p) = 7 then s1.gapAt p else s1

/-- A codeword received on a port (R219 to R223). -/
def State.codewordIn (s : State) (p index : Nat) (symbols : List (BitVec 10)) : State :=
  if s.reg (R.linkState p) < 4 ∨ symbols.length ≠ 544 then s
  else match rs544Decode (symbols.map (·.toNat)) with
    | some (c, pos) => if (codewordHeader c).2.2.2 = 0xB then (s.noteCodeword p c pos).takeCodeword p c else s
    | none => s.loseCodeword p index

end Sys2Proof.Machine
end

