-- ==== Sys2Proof/Machine/OdRead.lean ====
section
/-! DEFINITION. What the dictionary's entries read as, without any side effect (R305, R470 to R473): stored registers, and
the entries that show a value the part holds elsewhere. -/

namespace Sys2Proof.Machine

/-- Characters as bytes. -/
def asciiBytes (l : List Nat) : List Byte := l.map fun c => BitVec.ofNat 8 c

/-- The code of a power state (R445). -/
def powerCode : Power → Nat
  | .cold => 0
  | .banked => 1
  | .kindled => 2
  | .lit => 3
  | .full => 4

/-- The largest of some temperatures. -/
def maxTemp (l : List Int) : Int := l.foldl max (l.headD 0)

/-- The stretch margin m = 1 − B_F / 5,913.6 in parts per million, rounded down (R442, R457). -/
def marginPpm (frameBeats : Nat) : Nat := 1000000 * (59136 - 10 * frameBeats) / 59136

/-- The entries whose numeric value is computed from the state; others read their register. spares_total shows a write of failed_mask at
once, while spares_left, core_map and spare_mask keep the loaded image's: R82 names only the last two as staying until the next load
(DESIGN CHOICE, log entry 67). -/
def State.odNat (s : State) (k : Nat) : Nat :=
  if k = R.serial then Config.serial.toNat
  else if k = R.holdLevelW then s.h / 1000 % 65536
  else if k = R.stretchMarginPpm then marginPpm (s.reg R.frameBeats)
  else if k = R.ballastPowerW then s.ballast / 1000 % 65536
  else if k = R.hearthMaxC then twos 32 (maxTemp ((List.range 16).map fun r => (s.region r).temp))
  else if k = R.stackMaxC then twos 32 (maxTemp ((List.range 12).map fun i => (s.stack i).temp))
  else if k = R.opticsMaxC then twos 32 (maxTemp ((List.range 8).map fun e => Tab.get 0 s.opticsTemp e))
  else if k = R.mgmtC then twos 32 s.mgmtTemp
  else if k = R.sparesTotal then ((List.range 16).map fun r => (s.usable r).length - 64).sum
  else if k / 256 = R.sparesLeft 0 / 256 then
    let r := k % 256
    if (s.region r).map = [] then (s.usable r).length - 64 else (s.region r).spares.length
  else if k = R.heldBeatsJob then (((List.range 16).map fun r => (s.region r).heldJob).foldl max 0)
  else if k = R.coordinates then s.coords
  else if k = R.twinChip then s.twin
  else if k = R.manifestState then (if s.manifest = [] then 0 else 1)
  else if k = R.replySlotsUsed then s.slotsUsed
  else if k = R.frameNumber then s.frame % 2 ^ 48
  else if k = R.nt32Now then s.nt32.toNat
  else if k = R.tsDepth then s.tsq.length
  else if k = R.ownRank then s.ownRank
  else if k = R.ranksValid then ((List.range 4096).filter fun r => (s.rankChip r).isSome).length
  else if k = R.powerState then powerCode s.power
  else s.reg k

/-- The spares of a region as a mask. -/
def State.spareSet (s : State) (r : Nat) : List Nat :=
  if (s.region r).map = [] then (s.usable r).drop 64 else (s.region r).spares

/-- The entries whose bytes are computed from the state; others read their stored bytes. -/
def State.odBlob (s : State) (k : Nat) : List Byte :=
  if k = R.partNumber then asciiBytes [0x46, 0x51, 0x31, 0x32]
  else if k = R.stepping then asciiBytes [0x41, 0x31]
  else if k / 256 = R.coreMap 0 / 256 then
    (List.range 64).map fun l => BitVec.ofNat 8 ((s.region (k % 256)).map.getD l 0)
  else if k / 256 = R.spareMask 0 / 256 then toLE 9 ((s.spareSet (k % 256)).foldl (fun a p => a + 2 ^ p) 0)
  else if k = R.fabricId then s.fabricIdOf
  else if k = R.routeTable then (List.range 4096).flatMap fun c => toLE 2 (s.route c)
  else if k = R.tsPop then (match s.tsq with | e :: _ => bytesOf 16 e | [] => [])
  else if k = R.logEntry then
    (match s.log.find? fun e => e.seq.toNat = s.reg R.logSelect with | some e => e.bytes | none => [])
  else if k = R.measLogEntry then s.measLog.getD (s.reg R.measLogSelect) []
  else if k = R.quote then s.quoteBytes
  else if k = R.deviceCertificate then s.certificate
  else s.blob k

/-- The instance a multiplexed entry refers to. -/
def State.odKey (s : State) (e : OdEntry) : Nat :=
  regKey e.index e.sub (if e.sel = 0 then 0 else s.reg e.sel)

/-- The value of an entry, whatever its access. -/
def State.odBytes (s : State) (e : OdEntry) : List Byte :=
  match e.ty with
  | .blob => s.odBlob (s.odKey e)
  | _ => toLE e.size (s.odNat (s.odKey e))

/-- Whether test access is authorised for the locked range (R472). -/
def lockedRange (index : Nat) : Bool := index / 4096 == 15

/-- An entry as the dictionary window shows it: zero beyond the value, for entries that do not exist, for WO entries,
and for those whose read removes or makes something (R305). -/
def State.windowBytes (s : State) (index sub : Nat) : List Byte :=
  if lockedRange index then (if s.scoped 1 then Config.testEntry (regKey index sub) else [])
  else match odFind index sub with
    | none => []
    | some e =>
      let k := s.odKey e
      if e.acc = .wo ∨ k = R.tsPop ∨ k = R.testChallenge then [] else s.odBytes e

/-- One 64-byte unit of the dictionary window at an offset of space 2 (R302, R305). -/
def State.windowUnit (s : State) (off : Nat) : List Byte :=
  let l := s.windowBytes (bits off 47 32) (bits off 31 24)
  let u := slice l (bits off 23 0) 64
  u ++ zeros (64 - u.length)

/-- One 64-byte unit of the status apertures (R306). -/
def State.aperture (s : State) (off : Nat) : List Byte :=
  let pad (l : List Byte) : List Byte := l ++ zeros (64 - l.length)
  if off < 64 then
    pad (toLE 8 (s.reg R.fabricStepCounter) ++ toLE 8 (s.frame % 2 ^ 48) ++ toLE 2 (s.reg R.lastCoreFault)
      ++ toLE 2 s.chip ++ toLE 2 s.coords ++ toLE 2 s.ownRank ++ toLE 1 (powerCode s.power))
  else if 0x10000 ≤ off ∧ off < 0x10000 + 64 * 32 then
    let p := (off - 0x10000) / 64
    pad (toLE 1 (s.reg (R.linkState p)) ++ toLE 1 (s.reg (R.portMode p)) ++ toLE 1 (s.reg (R.width p))
      ++ toLE 1 (s.reg (R.lanesGood p)) ++ toLE 4 (s.reg (R.retrainsJob p)) ++ toLE 8 (s.reg (R.fecUncorrectable p))
      ++ toLE 4 (s.reg (R.goBacks p)) ++ toLE 2 (s.reg (R.readyOffsetMeasured p)))
  else if 0x20000 ≤ off ∧ off < 0x20000 + 64 * 16 then
    let r := (off - 0x20000) / 64
    pad (toLE 1 (s.odNat (R.sparesLeft r)) ++ toLE 1 (if (s.region r).lit then 1 else 0)
      ++ toLE 8 ((s.region r).heldJob))
  else zeros 64

end Sys2Proof.Machine
end

