-- ==== Sys2Proof/Machine/Remote.lean ====
section
/-! DEFINITION. Messages between parts: serving REQ and SVC, and what a reply does at its source (R310 to R317, R408, R539,
R551). -/

namespace Sys2Proof.Machine

/-! ## Replies at their source (R312, R315, R539) -/

/-- A far request changed by its core, queue and tag. -/
def State.modFar (s : State) (c q : Nat) (tag : BitVec 16) (f : FarReq → FarReq) : State :=
  s.modCore c fun k =>
    let fq : FarQ := Tab.get {} k.farq q
    { k with farq := Tab.set k.farq q { fq with entries := fq.entries.map fun r => if r.tag = tag then f r else r } }

/-- The far request of a core, queue and tag. -/
def State.farReq (s : State) (c q : Nat) (tag : BitVec 16) : Option FarReq :=
  (Tab.get {} (s.core c).farq q : FarQ).entries.find? fun r => r.tag = tag

/-- Words of FLD data pushed as background writes; data of an undefined request are free (R70, R154). -/
def State.pushWords (s : State) (loc : Nat) (undef : Bool) : List (BitVec 512) → State
  | [] => s
  | w :: t =>
    let (d, s1) := if undef then s.freeBytes 64 else (bytesOf 64 w, s)
    (s1.bgPush loc d).pushWords (loc + 64) undef t

/-- The record held for the control node: its P becomes held and a QUENCH goes out (R544, R551). -/
def State.holdRecord (s : State) : State :=
  match s.qrec with
  | some r => s.sendQuench { r with p := heldFrame, defer := false, release := false }
  | none => s

/-- The next weight word that waits for its repair is asked for; the record is held where there is no twin to ask (R551). -/
def State.nextRepair (s : State) : State :=
  match s.repairWait with
  | [] => s
  | w :: rest =>
    match ({ s with repairWait := rest }).askTwin w with
    | (true, t) => t
    | (false, t) => ({ t with repairWait := [] }).holdRecord

/-- The repaired weight word written back and logged (R551). -/
def State.repairWord (s : State) (d : List Byte) : State :=
  match s.repair with
  | none => s
  | some w =>
    (({ s.bgWrite 0 w d with repair := none }).event 0x7075 (w / 2 ^ 30) (s.globalAddr 0 w)).nextRepair

/-- The weight word could not be read from a custody copy: no repair, and the record is held (R551). -/
def State.repairFail (s : State) : State :=
  if s.repair.isSome then ({ s with repair := none }).holdRecord.nextRepair else s

/-- The reason of R407 that a reply status gives. -/
def dmaReason (status : Nat) : Nat := if status ≤ 4 then status else 4

/-- A DMA message's answer noted on its channel's segment. -/
def State.dmaAnswer (s : State) (x : ReplySlot) (reason : Nat) : State :=
  s.modChan x.core fun c =>
    { c with
      segOut := Tab.set c.segOut x.q (Tab.get 0 c.segOut x.q - 1)
      segBad := if reason = 0 ∨ Tab.get 0 c.segBad x.q ≠ 0 then c.segBad else Tab.set c.segBad x.q reason }

/-- The answer for an edge unit of a channel's remote destination: what it holds, or that it cannot be had, which fails its segment
(R402, R407). -/
def State.edgeIn (s : State) (x : ReplySlot) (status : Nat) (l : List (BitVec 512)) : State :=
  let d := if status = 0 then (l.take 1).flatMap (bytesOf 64) else []
  (s.modChan x.core fun c => { c with edges := (x.loc, some d) :: c.edges.filter fun e => e.1 ≠ x.loc }).dmaAnswer x
    (if d = [] then (if status = 0 then 4 else dmaReason status) else 0)

/-- The bytes of a local destination range written from offset `o` of the transfer, edges by their bytes (R402). -/
def State.writeRange (s : State) (space off : Nat) (d : List Byte) : State × Nat :=
  let lo := off / 64 * 64
  let n := ceilDiv (off - lo + d.length) 64
  let full := zeros (off - lo) ++ d
  (List.range n).foldl (fun (r : State × Nat) i =>
    let u := slice full (64 * i) 64
    let en := (List.range 64).map fun j => decide (off ≤ lo + 64 * i + j ∧ lo + 64 * i + j < off + d.length)
    let (ok, t) := r.1.writePart space (lo + 64 * i) (u ++ zeros (64 - u.length)) en
    (t, if ok then r.2 else 2)) (s, 0)

/-- The reserved slot that a reply belongs to (R312): its identifier, from the part that was asked; a discarded request is answered by
whichever part discarded it (R329). -/
def State.slotFor (s : State) (m : Msg) : Option ReplySlot :=
  s.slots.find? fun x => !x.answered && x.ident == BitVec.ofNat 32 (mf m 12 4) && (x.chip == mf m 4 2 || mf m 9 1 == 3)

/-- A reply taken by its reserved slot (R312): late epochs write nothing (R539), a status other than 0 raises
REMOTE_FAULT for a far request (R315). -/
def State.replyIn (s : State) (port : Nat) (m : Msg) : State :=
  let id := BitVec.ofNat 32 (mf m 12 4)
  let status := mf m 9 1
  match s.slotFor m with
  | none => s
  | some x =>
    let data : Bool := status = 0 ∧ (x.kind = 0 ∨ x.kind = 3)
    let s1 := { s with slots := if data then s.slots.replace x { x with answered := true } else s.slots.erase x }
    if x.kind ≤ 2 then
      if bits id.toNat 31 30 ≠ s.epoch.toNat then { s with slots := s.slots.erase x }
      else
        let undef := match s.farReq x.core x.q x.tag with | some r => r.undef | none => false
        let s2 := if status = 0 ∧ x.kind = 0 then s1.pushWords x.loc undef (m.units.take x.units) else s1
        let s3 := s2.modFar x.core x.q x.tag fun r => { r with outstanding := r.outstanding - 1 }
        if status = 0 then s3
        else
          s3.raise 0x2030 port (x.core % 1024 + x.q % 4 * 2 ^ 10 + x.tag.toNat * 2 ^ 12 + status % 256 * 2 ^ 28
            + x.chip % 4096 * 2 ^ 36)
    else if x.kind = 3 then
      let src := bits (s.chan x.core).desc.toNat 63 0
      let d := ((m.units.flatMap fun u => bytesOf 64 u).drop ((src + x.loc) % 64)).take x.units
      if status = 0 ∧ d.length = x.units then (s1.modChan x.core fun c => { c with got := (x.loc, d) :: c.got }).dmaAnswer x 0
      else s1.dmaAnswer x (if status = 0 then 4 else dmaReason status)
    else if x.kind = 4 then s1.dmaAnswer x (dmaReason status)
    else if x.kind = 7 then s1.edgeIn x status m.units
    else if x.kind = 5 then
      match m.units, status with
      | u :: _, 0 => s1.repairWord (bytesOf 64 u)
      | _, _ => s1.repairFail
    else { s1 with pushLeft := if status = 0 then s1.pushLeft - 1 else s1.pushLeft }

/-- A RSP header (R313). -/
def rspHdr (units dest src op status ident : Nat) : BitVec 512 :=
  hdrOf (linkBytes units dest src ++ toLE 1 op ++ toLE 1 status ++ zeros 2 ++ toLE 4 ident ++ zeros 8 ++ toLE 1 units
    ++ zeros 39)

/-- A reply of this part sent to a request's source; to itself it arrives at once, and a discarded one is not answered. A request of
no known op is answered as a read is (DESIGN CHOICE, log entry 29). -/
def State.reply (s : State) (port : Nat) (req : Msg) (status : Nat) (units : List (BitVec 512)) : State :=
  let op := match mf req 8 1 with | 2 => 0x82 | 3 => 0x83 | _ => 0x81
  let dest := mf req 4 2
  let m : Msg := { vc := 3, period := false, hdr := rspHdr units.length dest s.chip op status (mf req 12 4), units := units }
  if dest = s.chip then s.replyIn port m
  else
    let (q, s1) := s.newTx m
    match s1.offerMsg q with
    | some s2 => s2
    | none => s1.noteDrop q

/-- A message sent on, or discarded; a discarded REQ or SVC is answered with status 0x03 (R328, R329). -/
def State.routeMsg (s : State) (q : TxMsg) : State :=
  match s.offerMsg q with
  | some s1 => s1
  | none =>
    let s1 := s.noteDrop q
    if classOf q.msg.vc = 1 ∨ q.msg.vc = 5 then s1.reply (q.arr.getD 0) q.msg 3 [] else s1

/-- The waiting messages offered again, in order. -/
def State.retryWaiting (s : State) : State :=
  let l := s.waiting
  ({ s with waiting := [] }).each l State.routeMsg

/-! ## Serving requests (R314, R408) -/

/-- The export map's windows. -/
def State.exports (s : State) : List (BitVec 128) :=
  (List.range 16).map fun i => ofBytes 128 (slice (s.blob R.exportMap) (16 * i) 16)

/-- An access to a stack: its time is noted, and one in self-refresh comes out of it once the governor admits its step (R37, R447). What
the access reads and writes is the same while it waits: a stack in self-refresh keeps its contents. -/
def State.touchStack (s : State) (k : Nat) : State :=
  let t := s.modStack k fun x => { x with lastUse := some s.us }
  if t.remove.contains (.stack k) then t.modStack k fun x => { x with wakePending := true }
  else if (t.stack k).awake ∨ (t.stack k).wakePending ∨ t.admitting.contains (.access k) then t
  else { t with admitting := t.admitting ++ [.access k] }

/-- An access to a range of a space touches its stacks. -/
def State.touchStacks (s : State) (space off n : Nat) : State :=
  if space ≠ 1 ∨ n = 0 then s
  else
    s.each ((List.range 12).filter fun k => off / stackSize ≤ k ∧ k ≤ (off + n - 1) / stackSize) State.touchStack

/-- A request denied by the export map: logged (R314). -/
def State.deny (s : State) (port : Nat) (m : Msg) : State :=
  (((s.bump R.remoteDenied 32).setReg R.remoteDeniedLast (mf m 4 2)).event 0x2031 port
    (fabDetail s.slot s.clauseNumber)).reply port m 1 []

/-- Units of data as words in memory, from an offset. -/
def State.readUnits (s : State) (space off n : Nat) : List (BitVec 512) × Option Nat × State :=
  let (d, bad, t) := (s.touchStacks space off (64 * n)).readWords space off n
  ((List.range n).map fun i => ofBytes 512 (slice d (64 * i) 64), bad, t)

/-- Whether a REQ or SVC breaks R313. -/
def malformedReq (m : Msg) : Bool :=
  let op := mf m 8 1
  let n := mf m 24 1
  let svc := m.vc == 5
  !(op == 1 || op == 2 || (op == 3 && !svc)) || n == 0 || decide (64 < n) || (op != 1 && n != m.units.length)
    || (op == 3 && n != 1) || mf m 9 1 != 0 || mf m 10 2 != 0 || bits (mf m 16 8) 63 52 != 0
    || bits (mf m 16 8) 5 0 != 0

/-- The name of a request's access (R70). -/
def reqKey (port : Nat) (m : Msg) : List Nat := [1, port, m.hdr.toNat]

/-- Whether what a request reads or writes is undefined: another access touched it while it waited, one that touches it is outstanding,
or it is the message of a channel that writes where a scrub with write-back runs (R72, R154, R388, R396). -/
def State.reqLoses (s : State) (port : Nat) (m : Msg) : Bool :=
  s.reqLost.contains (reqKey port m) || s.anyClash (hdrSpans m.hdr.toNat)
    || m.vc == 5 && mf m 8 1 == 2 && clash (hdrSpans m.hdr.toNat) s.scrubSpans

/-- A request's access made: it waits no more, and what it meets is undefined, too. -/
def State.reqMeets (s : State) (port : Nat) (m : Msg) : State :=
  let t := if s.anyClash (hdrSpans m.hdr.toNat) then s.markClash (hdrSpans m.hdr.toNat) else s
  { t with reqLost := t.reqLost.filter fun k => k ≠ reqKey port m }

/-- A request that waits for its banks, with the words that have been free; it is outstanding from its first try on. -/
def State.reqWaits (s : State) (port : Nat) (m : Msg) (l : List (List Nat × List Nat)) : State :=
  let key := reqKey port m
  if (s.bgDone.any fun y => y.1 == key) || !s.anyClash (hdrSpans m.hdr.toNat) then { s with bgDone := l }
  else { s.markClash (hdrSpans m.hdr.toNat) with bgDone := l, reqLost := s.reqLost ++ [key] }

/-- A read answered (R382): an uncorrectable word is logged at the target and answered with status 0x02. -/
def State.serveRead (s : State) (port : Nat) (m : Msg) (space off n : Nat) : State :=
  let (u, bad, t0) := s.readUnits space off n
  let t := t0.reqMeets port m
  match bad with
  | some b => (t.eventBad space b).reply port m 2 []
  | none =>
    if s.reqLoses port m then
      let (f, t1) := t.freeBytes (64 * n)
      t1.reply port m 0 ((List.range n).map fun i => ofBytes 512 (slice f (64 * i) 64))
    else t.reply port m 0 u

/-- A write made and answered. -/
def State.serveWrite (s : State) (port : Nat) (m : Msg) (space off : Nat) : State :=
  let n := m.units.length
  let t := (s.touchStacks space off (64 * n)).reqMeets port m
  let (d, t1) := if s.reqLoses port m then t.freeBytes (64 * n) else (m.units.flatMap fun u => bytesOf 64 u, t)
  (t1.writeWords space off d).reply port m 0 []

/-- The home engine of an item: the channel of its dst, or of its src for SCRUB and CRC64 (R395). -/
def homeEngine (b : BitVec 512) : Nat :=
  let op := bits b.toNat 7 0
  let x := if op = 5 ∨ op = 8 then bits b.toNat 127 64 else bits b.toNat 191 128
  x % stackSize / 64 % 32

/-- An item put in its home engine's queue of up to 16; `none` where that is full (R395). -/
def State.queueItem (s : State) (k : Nat) (i : Item) : Option State :=
  let e := homeEngine i.bytes
  let q := Tab.get [] (s.stack k).queues e
  if 16 ≤ q.length then none else some (s.modStack k fun x => { x with queues := Tab.set x.queues e (q ++ [i]) })

/-- A REQ served at its target; the answer of an engine item comes later. `none` where its engine's queue is full. -/
def State.serveReq (s : State) (port : Nat) (m : Msg) : Option State :=
  let t := mf m 16 8
  let space := bits t 51 48
  let off := bits t 47 0
  let n := mf m 24 1
  let op := mf m 8 1
  if bits (mf m 12 4) 31 30 ≠ s.epoch.toNat then some s
  else if malformedReq m then some (s.reply port m 4 [])
  else if ¬ inWindows s.exports space off (64 * n) (op != 1) ∨ (op = 3 ∧ space ≠ 1) then some (s.deny port m)
  else if op = 1 then some (s.serveRead port m space off n)
  else if op = 2 then some (s.serveWrite port m space off)
  else
    let sp := s.itemSpans (m.units.headD 0)
    let hit := s.anyClash sp
    (if hit then s.markClash sp else s).queueItem (off / stackSize)
      { bytes := m.units.headD 0, src := .remote (mf m 4 2) (BitVec.ofNat 32 (mf m 12 4)) m.vc, spans := sp, undef := hit }

/-- Bytes of the custody area (R355). -/
def custodySize : Nat := 0x400000000

/-- Whether the custody area is open to an SVC request: to the twin's writes into its standby area outside a job, and to the twin's
reads once it holds a copy (R408). -/
def State.custodyOpen (s : State) (m : Msg) : Bool :=
  decide (mf m 4 2 = s.twin ∧ s.twin ≠ 0xFFFF ∧ bits (mf m 16 8) 47 0 + 64 * mf m 24 1 ≤ custodySize)
    && (if mf m 8 1 = 2 then !s.inJob && s.reg R.custodyHeld == 1 else s.reg R.custodyHeld == 2 || s.reg R.custodyHeld == 3)

/-- Whether a request for this part may touch the memory it names: a REQ of the epoch or an SVC, in the export map or the custody area
that is open to it (R314, R408, R539). -/
def State.mayTouch (s : State) (m : Msg) : Bool :=
  let space := bits (mf m 16 8) 51 48
  let off := bits (mf m 16 8) 47 0
  if m.vc = 5 ∧ space = 1 ∧ off < custodySize then s.custodyOpen m
  else (m.vc == 5 || decide (bits (mf m 12 4) 31 30 = s.epoch.toNat))
    && inWindows s.exports space off (64 * mf m 24 1) (mf m 8 1 != 1)

/-- An SVC request served (R408): spaces 2 and 3 are read without a window, the custody area only by the twin and in its
states, the rest by the export map. -/
def State.serveSvc (s : State) (port : Nat) (m : Msg) : State :=
  let t := mf m 16 8
  let space := bits t 51 48
  let off := bits t 47 0
  let n := mf m 24 1
  let w := mf m 8 1 = 2
  if malformedReq m then s.reply port m 4 []
  else if space = 2 ∧ ¬ w then
    if 2 ^ 48 < off + 64 * n then s.reply port m 1 []
    else s.reply port m 0 ((List.range n).map fun i => ofBytes 512 (s.windowUnit (off + 64 * i)))
  else if space = 3 ∧ ¬ w then
    if 0x30000 < off + 64 * n then s.reply port m 1 []
    else s.reply port m 0 ((List.range n).map fun i => ofBytes 512 (s.aperture (off + 64 * i)))
  else if 1 < space then s.reply port m 1 []
  else if space = 1 ∧ off < custodySize then
    if ¬ s.custodyOpen m then s.reply port m 1 []
    else if w then s.serveWrite port m space off
    else s.serveRead port m space off n
  else if ¬ inWindows s.exports space off (64 * n) w then s.deny port m
  else if w then s.serveWrite port m space off
  else s.serveRead port m space off n

/-! ## The commands -/

/-- A message of an input port as the part takes it: from its class buffer where it waits there, else as it comes. A
flagged message waits for every earlier one of its flow (R252). -/
def State.takeMsg (s : State) (p : Nat) (m : Msg) : Option (TxMsg × State) :=
  let q : TxMsg × State := match (s.port p).held.find? fun x => x.2 = m with
    | some (st, _) => ({ stamp := st, arr := some p, held := true, msg := m }, s)
    | none => ({ stamp := s.msgStamp, arr := some p, held := false, msg := m }, { s with msgStamp := s.msgStamp + 1 })
  if m.period ∧ s.behind q.1 then none else some q

/-- Whether a message of classes 1 to 5 is for this part. -/
def State.forMe (s : State) (m : Msg) : Bool := mf m 2 2 == s.chip

/-- The words of SRAM that serving a request reads or writes (R70). -/
def State.reqWords (s : State) (m : Msg) : List Nat :=
  if malformedReq m ∨ mf m 8 1 = 3 ∨ ¬ s.mayTouch m then [] else sramWords (bits (mf m 16 8) 51 48) (bits (mf m 16 8) 47 0) (64 * mf m 24 1)

/-- A REQ for this part taken by its sink, once it has had the banks it needs (R70). -/
def State.reqIn (s : State) (p : Nat) (m : Msg) : State :=
  if classOf m.vc ≠ 1 ∨ ¬ s.forMe m then s
  else match s.takeMsg p m with
    | none => s
    | some (q, s1) =>
      let (s2, ok) := s1.bgTry (reqKey p m) (s.reqWords m)
      if ¬ ok then s.reqWaits p m s2.bgDone
      else match s2.serveReq p m with
        | some s3 => s3.left q
        | none => s

/-- REQ_READ (R313, R314, R382); a REQ of no known op is answered here too. -/
def execReqRead (port : PortId) (m : Msg) (s : State) : Res :=
  if mf m 8 1 = 2 ∨ mf m 8 1 = 3 then .next s else .next (s.reqIn port.val m)

/-- REQ_WRITE (R313, R314). -/
def execReqWrite (port : PortId) (m : Msg) (s : State) : Res :=
  if mf m 8 1 = 2 then .next (s.reqIn port.val m) else .next s

/-- REQ_ENGINE_ITEM (R314, R391). -/
def execReqEngineItem (port : PortId) (m : Msg) (s : State) : Res :=
  if mf m 8 1 = 3 then .next (s.reqIn port.val m) else .next s

/-- A RSP for this part taken by its reserved slot. -/
def State.rspIn (s : State) (p : Nat) (m : Msg) (op : Nat) : State :=
  if classOf m.vc ≠ 3 ∨ ¬ s.forMe m ∨ mf m 8 1 ≠ op then s
  else match s.takeMsg p m with
    | none => s
    | some (q, s1) => (s1.replyIn p m).left q

/-- RSP_READ_DATA (R312, R315). -/
def execRspReadData (port : PortId) (m : Msg) (s : State) : Res := .next (s.rspIn port.val m 0x81)

/-- RSP_WRITE_DONE (R312, R315). -/
def execRspWriteDone (port : PortId) (m : Msg) (s : State) : Res := .next (s.rspIn port.val m 0x82)

/-- RSP_ENGINE_DONE (R312, R315, R393). -/
def execRspEngineDone (port : PortId) (m : Msg) (s : State) : Res := .next (s.rspIn port.val m 0x83)

/-- An SVC request for this part, served once it has had the banks it needs (R70). -/
def State.svcIn (s : State) (p : Nat) (m : Msg) : State :=
  if m.vc ≠ 5 ∨ ¬ s.forMe m then s
  else match s.takeMsg p m with
    | none => s
    | some (q, s1) =>
      let (s2, ok) := s1.bgTry (reqKey p m) (s.reqWords m)
      if ok then (s2.serveSvc p m).left q
      else s.reqWaits p m s2.bgDone

/-- SVC_READ (R408); an SVC of no known op is answered here too. -/
def execSvcRead (port : PortId) (m : Msg) (s : State) : Res :=
  if mf m 8 1 = 2 then .next s else .next (s.svcIn port.val m)

/-- SVC_WRITE (R408). -/
def execSvcWrite (port : PortId) (m : Msg) (s : State) : Res :=
  if mf m 8 1 = 2 then .next (s.svcIn port.val m) else .next s

/-- A MGMT header with its hop count one higher (R486). -/
def hopOn (m : Msg) : Msg :=
  { m with hdr := (m.hdr &&& ~~~((0xFF : BitVec 512) <<< 72)) ||| (BitVec.ofNat 512 (mf m 9 1 + 1) <<< 72) }

/-- A MGMT message out of the firmware's queue, if it waits there. -/
def State.unqueueMgmt (s : State) (m : Msg) : State :=
  { s with mgmtQueue := s.mgmtQueue.eraseP fun x => x.2 == m }

/-- A MGMT message to be sent on, with the stamp it came in with (R252); it stays in the firmware's queue until it goes (R331). -/
def State.takeMgmt (s : State) (p : Nat) (m : Msg) : TxMsg × State :=
  match s.mgmtQueue.find? fun x => x.2 == m with
  | some (st, _) => ({ stamp := st, arr := some p, held := false, msg := hopOn m }, s.unqueueMgmt m)
  | none => ({ stamp := s.msgStamp, arr := some p, held := false, msg := hopOn m }, { s with msgStamp := s.msgStamp + 1 })

/-- A CUSTODY message to other coordinates sent on by the route of R323 or R324; without a manifest, or at 127 hops, it
goes no further (R330, R486). -/
def State.forwardMgmt (s : State) (p : Nat) (m : Msg) : State :=
  let (q, s1) := s.takeMgmt p m
  let dest := mf m 2 2
  if s.manifest = [] ∨ 127 ≤ mf m 9 1 ∨ mf m 8 1 ≠ 3 then s1
  else match (manifestRecs s.manifest).find? fun r => r.coord = dest with
    | none => s1
    | some r => match (if (routeDir s.manifest s.chip r.chip).isSome then s.mgmtPort r.chip else none) with
      | some o => s1.queueAs o q
      | none => s1

/-- MESSAGE_FORWARD (R328 to R330): a REQ or RSP for another part, or MGMT for other coordinates. A MGMT message of an op that R486 does
not list was discarded as it came in. -/
def execMessageForward (port : PortId) (m : Msg) (s : State) : Res :=
  let p := port.val
  if m.vc = 6 then
    if mf m 8 1 < 1 ∨ 3 < mf m 8 1 then .next (s.unqueueMgmt m)
    else if mf m 2 2 = 0xFFFF ∨ mf m 2 2 = s.coords then .next s else .next (s.forwardMgmt p m)
  else if classOf m.vc ≠ 1 ∧ classOf m.vc ≠ 3 ∨ s.forMe m then .next s
  else match s.takeMsg p m with
    | none => .next s
    | some (q, s1) => .next (s1.routeMsg q)

/-- DISCOVERY (R330, R333, R488): reported by the firmware and flooded onwards once. -/
def execDiscovery (port : PortId) (m : Msg) (s : State) : Res :=
  let orig := BitVec.ofNat 64 (mf m 16 8)
  let seq := BitVec.ofNat 32 (mf m 12 4)
  let (q, s0) := s.takeMgmt port.val m
  if m.vc ≠ 6 ∨ mf m 8 1 ≠ 1 ∨ mf m 2 2 ≠ 0xFFFF ∨ ¬ s.awake then .next s
  else if s.knowsFlood orig seq then .next s0
  else
    let s1 := (s0.noteFlood orig seq).report m
    let l := s1.mgmtPorts (some port.val)
    if 127 ≤ mf m 9 1 then .next s1
    else .next ((s1.each l fun t p => t.queueAs p q).bump R.floodsForwarded 32 (min 1 l.length))

/-- DISCOVERY_TRANSMIT (R333): the part's own discovery flood while it has no manifest. -/
def execDiscoveryTransmit (s : State) : Res :=
  if s.awake ∧ s.manifest = [] then .next s.discover else .next s

end Sys2Proof.Machine
end

