-- ==== Sys2Proof/Machine/Far.lean ====
section
/-! DEFINITION. Bank beats and background writes as commands, the far scheduler, the end of a hold, and the bridges
(R66 to R76, R149 to R159, R312, R316, R382). -/

namespace Sys2Proof.Machine

/-- BANK_BEAT (R66): the accesses of a region that are due, unless the region is held or its clock stands (R156). -/
def execBankBeat (r : RegionId) (s : State) : Res := .next (s.bankBeat r.val)

/-- BACKGROUND_ACCESS (R70): the oldest queued write of a tier. -/
def backgroundAccessNow (r : RegionId) (tier : Fin 4) (s : State) : Res := .next (s.bgOne r.val tier.val)

/-! ## The far scheduler (R153) -/

/-- The first request of a queue, in issue order, that still has something to send. -/
def FarQ.next (q : FarQ) : Option FarReq := q.entries.find? fun r => !r.done && !r.stuck && decide (r.sent < r.len)

/-- The words of SRAM that sending the next part of a request reads or writes at once (R70). -/
def FarReq.words (r : FarReq) : List Nat :=
  let far := if r.own then sramWords (bits r.far.toNat 51 48) (bits r.far.toNat 47 0) (64 * r.len) else []
  match r.kind with
  | .fld => far
  | .fst => sramWords 0 (r.loc + 64 * r.sent) (64 * (if r.own then r.len else min 64 (r.len - r.sent))) ++ far
  | .feng => sramWords 0 r.loc 64

/-- An FLD from the part's own memory: each word as a background write, an uncorrectable one skipped (R382). -/
def State.ownLoad (s : State) (r : FarReq) : Nat → State
  | 0 => s
  | n + 1 =>
    let t := s.ownLoad r n
    let space := bits r.far.toNat 51 48
    let off := bits r.far.toNat 47 0 + 64 * n
    let (d, bad, t1) := (t.touchStacks space off 64).readWord space off
    match bad with
    | some b => t1.raiseBad space b
    | none =>
      let (f, t2) := if r.undef then t1.freeBytes 64 else (d, t1)
      t2.bgPush (r.loc + 64 * n) f

/-- An FST to the part's own memory: a word that is uncorrectable in SRAM is not written; the answer counts them. -/
def State.ownStore (s : State) (r : FarReq) : Nat → State × Bool
  | 0 => (s, false)
  | n + 1 =>
    let (t, stuck) := s.ownStore r n
    let space := bits r.far.toNat 51 48
    let off := bits r.far.toNat 47 0 + 64 * n
    let (d, bad, t1) := t.readSram (r.loc + 64 * n) 64
    match bad with
    | some b => (t1.raiseBad 0 b, true)
    | none =>
      let (f, t2) := if r.undef then t1.freeBytes 64 else (d, t1)
      ((t2.touchStacks space off 64).writeWord space off f, stuck)

/-- A request to the part's own memory sent whole: FENG waits while its engine's queue is full (R395). -/
def State.dispatchOwn (s : State) (c q : Nat) (r : FarReq) : State :=
  match r.kind with
  | .fld => (s.ownLoad r r.len).modFar c q r.tag fun x => { x with sent := x.len }
  | .fst =>
    let (t, stuck) := s.ownStore r r.len
    t.modFar c q r.tag fun x => { x with sent := x.len, stuck := stuck }
  | .feng =>
    let (d, bad, t) := s.readSram r.loc 64
    match bad with
    | some b => (t.raiseBad 0 b).modFar c q r.tag fun x => { x with sent := x.len, stuck := true }
    | none =>
      if bits r.far.toNat 51 48 ≠ 1 then t.modFar c q r.tag fun x => { x with sent := x.len, stuck := true }
      else
        let (f, t1) := if r.undef then t.freeBytes 64 else (d, t)
        match t1.queueItem (bits r.far.toNat 47 0 / stackSize) { bytes := ofBytes 512 f, src := .core c q r.tag } with
        | some t2 =>
          let sp := s.itemSpans (ofBytes 512 f)
          let rest := t2.modFar c q r.tag fun x => { x with done := true }
          let hit := rest.anyClash sp
          (if hit then rest.markClash sp else t2).modFar c q r.tag fun x =>
            { x with sent := x.len, outstanding := 1, item := sp, undef := x.undef || hit, done := false }
        | none => s

/-- The next message of a request to another part, once a reply slot is free (R312, R316, R539). -/
def State.dispatchRemote (s : State) (c q : Nat) (r : FarReq) : State :=
  if 1024 ≤ s.slotsUsed then s
  else
    let n := min 64 (r.len - r.sent)
    let loc := r.loc + 64 * r.sent
    let target := r.far.toNat % 2 ^ 52 + 64 * r.sent
    let ident := s.epoch.toNat * 2 ^ 30 + s.nextIdent % 2 ^ 30
    let op := match r.kind with | .fld => 1 | .fst => 2 | .feng => 3
    let (d, bad, t) := if op = 1 then ([], none, s) else s.readSram loc (64 * n)
    match bad with
    | some b => (t.raiseBad 0 b).modFar c q r.tag fun x => { x with sent := x.sent + n, stuck := true }
    | none =>
      let (f, t1) := if r.undef ∧ op ≠ 1 then t.freeBytes (64 * n) else (d, t)
      let units := if op = 1 then [] else (List.range n).map fun i => ofBytes 512 (slice f (64 * i) 64)
      let m : Msg := { vc := 1, period := r.period && r.sent == 0,
                       hdr := reqHdr units.length r.chip s.chip op ident target n, units := units }
      let slot : ReplySlot := { ident := BitVec.ofNat 32 ident, chip := r.chip, core := c, q := q, tag := r.tag,
                                loc := loc, units := n, kind := op - 1 }
      let t2 := ({ t1 with nextIdent := s.nextIdent + 1 }.reserve slot).modFar c q r.tag fun x =>
        { x with sent := x.sent + n, outstanding := x.outstanding + 1 }
      let (tx, t3) := t2.newTx m
      t3.routeMsg tx

/-- FAR_DISPATCH (R153): one own request whole, or one message of at most 64 units of a request to another part, from the next queue
in rotation, core by core from core 0 and queue by queue; one whose banks are taken waits for them (R70). The rotation and its grain are a DESIGN
CHOICE, log entry 67. -/
def execFarDispatch (r : RegionId) (s : State) : Res :=
  let x := s.region r.val
  let order := (List.range 256).map fun i => (x.farTurn + i) % 256
  let pick (i : Nat) : Option (Nat × FarReq) :=
    ((Tab.get {} (s.core (64 * r.val + i / 4)).farq (i % 4) : FarQ).next).map fun f => (i, f)
  match order.findSome? pick with
  | none => .next s
  | some (i, f) =>
    let c := 64 * r.val + i / 4
    let (s1, ok) := (s.modRegion r.val fun y => { y with farTurn := (i + 1) % 256 }).bgTry [2, c, i % 4, f.tag.toNat, f.sent] f.words
    .next (if ¬ ok then s1 else if f.own then s1.dispatchOwn c (i % 4) f else s1.dispatchRemote c (i % 4) f)

/-- FAR_REQUEST_COMPLETE (R152): everything sent, answered and written. -/
def execFarRequestComplete (core : CoreId) (q : Fin 4) (tag : BitVec 16) (s : State) : Res :=
  match s.farReq core.val q.val tag with
  | none => .next s
  | some r =>
    if r.done ∨ r.stuck ∨ r.sent < r.len ∨ r.outstanding ≠ 0
        ∨ (r.kind = .fld ∧ s.bgTouches r.loc (r.loc + 64 * r.len)) then .next s
    else .next (s.modFar core.val q.val tag fun x => { x with done := true })

/-! ## Holds (R157, R159) -/

/-- Whether every request a stalled WAIT covers is complete or freed. -/
def State.stallOver (s : State) (x : Stall) : Bool :=
  (Tab.get {} (s.core x.core).farq x.q : FarQ).entries.all fun r => r.done || !covers x.tag x.count r.tag

/-- HOLD_END (R157): stalls whose requests are complete end, and their bundles issue where nothing else holds their region. -/
def execHoldEnd (r : RegionId) (s : State) : Res :=
  let s1 := s.modRegion r.val fun x =>
    { x with stalls := x.stalls.map fun y => if s.stallOver y then { y with ended := true } else y }
  .next s1.resumeStalls

/-- WAIT_TIMEOUT (R159, R161): every stall longer than wait_timeout_beats raises it once and stops its region. -/
def execWaitTimeout (r : RegionId) (s : State) : Res :=
  let x := s.region r.val
  let isDue (y : Stall) : Bool := y.holds && !y.timedOut && decide (s.reg R.waitTimeoutBeats < y.beats)
  let late := x.stalls.filter isDue
  if late = [] then .next s
  else
    let s1 := s.modRegion r.val fun z =>
      { z with stopped := true, stalls := z.stalls.map fun y => if isDue y then { y with timedOut := true } else y }
    .next (s1.each late fun t y =>
      t.raise 0x1008 r.val (coreDetail y.core (72 * r.val + x.map.getD (y.core % 64) 0) 3 (s.core y.core).pc x.beat)
        (some (y.core, (s.core y.core).pc)))

/-! ## Bridges -/

/-- NEIGHBOUR_BRIDGE_TRANSFER (R73): a flit enters the bridge, and those that the other region may read land. -/
def execNeighbourBridgeTransfer (core : CoreId) (stream : Fin 8) (s : State) : Res :=
  let r := core.val / 64
  let code := bits (Tab.get 0 (s.core core.val).sendBind stream.val).toNat 2 0
  .next ((s.bridgeMove core.val stream.val).bridgeDeliver r (neighbour r code) 16)

/-- SPINE_BRIDGE_ENTRY (R146). -/
def execSpineBridgeEntry (core : CoreId) (stream : Fin 8) (s : State) : Res :=
  .next (s.spineEnter core.val stream.val)

end Sys2Proof.Machine
end

