-- ==== Sys2Proof/Machine/OdBase.lean ====
section
/-! DEFINITION. The checks of a write to an object dictionary entry that hold for every entry, and the shape of an entry's
own write (R471 to R476). -/

namespace Sys2Proof.Machine

/-- Side effects that come once, after the last value of a write or commit is applied (R479). -/
inductive PostOp where
  | twin (old : Nat)
  | measured
  | retrainUp
  | ports (old : Nat)
  | units
  | retune
  | lost
  | role (d old : Nat)
  deriving DecidableEq, Repr

/-- The kind of a side effect. -/
def PostOp.kind : PostOp → Nat
  | .twin _ => 0
  | .measured => 1
  | .retrainUp => 2
  | .ports _ => 3
  | .units => 4
  | .retune => 5
  | .lost => 6
  | .role d _ => 7 + d

/-- The side effects of a write or commit, the first of each kind. -/
def firstKinds (l : List PostOp) : List PostOp := l.foldl (fun a x => if a.any fun y => y.kind == x.kind then a else a ++ [x]) []

/-- What an entry's own write answers: the state, the status, the side effects to come. -/
abbrev WriteRes := State × Nat × List PostOp

/-- An accepted write. -/
def State.wOk (s : State) (l : List PostOp := []) : WriteRes := (s, 0, l)

/-- A refused write: nothing changes (R474). -/
def State.wBad (s : State) (code : Nat) : WriteRes := (s, code, [])

/-- Lengths a BLOB entry takes: 0x0302 for another, 0x0305 for an empty one without a meaning, 0 where it fits (R471,
R474, R476). A grade or configuration record fits its 1 MiB of the keeper flash (R563); R576 gives no code for a longer one, and the
model answers 0x0302 (DESIGN CHOICE, log entry 67). -/
def blobLength (k n : Nat) : Nat :=
  let exact (m : Nat) : Nat := if n = m then 0 else 0x0302
  if k / 256 = R.failedMask 0 / 256 then exact 9
  else if k = R.jobSeed then exact 16
  else if k = R.adoptDigest then exact 48
  else if k = R.quoteNonce then exact 32
  else if k = R.routeTable then exact 8192
  else if k = R.rankTable then (if n = 0 then 0 else exact 8192)
  else if k = R.manifest then 0
  else if n = 0 then 0x0305
  else if k = R.adoptRanges then (if n % 16 = 0 ∧ n ≤ 16 * 252 then 0 else 0x0302)
  else if k = R.testToken then (if n ≤ 16384 then 0 else 0x0302)
  else if k = R.fwInstall then (if n ≤ 2 ^ 24 then 0 else 0x0302)
  else if k = R.recordInstall then (if n ≤ 2 ^ 20 then 0 else 0x0302)
  else 0

/-- Whether a descriptor's address is local, in space 0 or 1, and aligned (R399). -/
def descAddr (a : Nat) : Bool :=
  bits a 63 52 == 0 && decide (bits a 51 48 ≤ 1) && bits a 5 0 == 0 && decide (bits a 47 0 + 64 ≤ spaceSize (bits a 51 48))

/-- Ranges beyond an entry's bounds: gaps and reserved bits; false for a value that is out of range (R8, R423). -/
def extraRange (k v : Nat) : Bool :=
  if R.dataCreditsReqLo ≤ k ∧ k < R.dataCreditsTime then v == 0 || decide (64 ≤ v)
  else if k = R.chipNumber then decide (v < 4096) || v == 0xFFFF
  else if k = R.eventMask then v % 2 == 0 && decide (v < 512)
  else if R.segBase 0 ≤ k ∧ k ≤ R.segBase 15 then v == 2 ^ 64 - 1 || (v % 2 ^ 21 == 0 && decide (v < 0xD800000000))
  else if k = R.runEntry then decide (v < 8192)
  else if k = R.dmaHead 0 then descAddr v
  else if k = R.dmaTriggerSource 0 then decide (v < 64)
  else if k = R.startFrame ∨ k = R.runFrame ∨ k = R.replayRelease ∨ k / 256 = R.timerStartFrame 0 / 256 then
    decide (v < 2 ^ 48)
  else true

/-- The ranges that an adopt_ranges or other custody range list gives: offset and length. -/
def adoptList (d : List Byte) : List (Nat × Nat) :=
  (List.range (d.length / 16)).map fun i => (field d (16 * i) 8, field d (16 * i + 8) 8)

/-- Offsets and lengths in multiples of 64 and inside space 0 (R562); a length of 0 has no meaning (R10). -/
def adoptOk (d : List Byte) : Bool :=
  (adoptList d).all fun r => r.1 % 64 == 0 && r.2 % 64 == 0 && r.2 != 0 && decide (r.1 + r.2 ≤ spaceSize 0)

/-- The 16-bit words of a byte string. -/
def words16 : List Byte → List Nat
  | a :: b :: t => (a.toNat + 256 * b.toNat) :: words16 t
  | _ => []

/-- Ranges and reserved fields inside a BLOB (R8, R308, R318, R326, R562): 0 where all hold. -/
def blobRange (k : Nat) (d : List Byte) : Nat :=
  if k = R.manifest then
    let h := manifestHeader d
    if d = [] then 0 else if h ≠ 0 then h
    else if (manifestRecs d).any fun r => 4096 ≤ r.chip ∨ (isTree d ∧ r.parent ≠ 0xFFFF ∧ 32768 ≤ r.parent) then 0x0301
    else 0
  else if k = R.rankTable then
    if (words16 d).any rankReserved then 0x0301 else 0
  else if k = R.routeTable then
    if (words16 d).any fun e => 512 ≤ e then 0x0301 else 0
  else if k = R.adoptRanges then
    if adoptOk d then 0 else 0x0301
  else 0

/-- Type, length and range of a value (R471, R474): 0 where all hold. A WO BOOL takes only 1. Reserved fields inside a manifest, a rank
table, a route table and adopt_ranges belong to the range check that R478 makes when a value is staged, so a staged one is refused with
0x0301 at once and not at its commit (DESIGN CHOICE, log entry 67). -/
def valueStatus (e : OdEntry) (data : List Byte) : Nat :=
  let k := regKey e.index e.sub
  match e.ty with
  | .blob => if blobLength k data.length ≠ 0 then blobLength k data.length else blobRange k data
  | .nat =>
    let v := leNat data
    if data.length ≠ e.size then 0x0302
    else if (v : Int) < e.lo ∨ e.hi < (v : Int) ∨ ¬ extraRange k v ∨ (e.acc = .wo ∧ e.size = 1 ∧ e.hi = 1 ∧ v = 0) then 0x0301
    else 0
  | .int =>
    let v := sext (8 * e.size) (leNat data)
    if data.length ≠ e.size then 0x0302 else if v < e.lo ∨ e.hi < v then 0x0301 else 0

/-- The node a source stands for; the UART stands for none. -/
def srcNode : OdSrc → Nat
  | .node0 => 0
  | .node1 => 1
  | .uart => 3

/-- Whether the other node owns an open transaction (R477). -/
def State.heldFrom (s : State) (src : OdSrc) : Bool := s.reg R.txnOwner != 2 && s.reg R.txnOwner != srcNode src

/-- What stops every write of a source before its entry is looked at: a console without test access (R472), a transaction of the other
node (R477); 0 for none. -/
def State.writeBar (s : State) (src : OdSrc) : Nat :=
  if src = .uart ∧ ¬ s.scoped 2 then 0x0501 else if s.heldFrom src then 0x0701 else 0

/-- The checks that need no value, in their order: transaction, access, staging, RWJ (R472, R477, R478). -/
def State.gateStatus (s : State) (src : OdSrc) (e : OdEntry) : Nat :=
  let own := s.reg R.txnOwner
  if s.heldFrom src then 0x0701
  else if e.acc = .ro then 0x0201
  else if own ≠ 2 ∧ regKey e.index e.sub = R.txnBegin then 0x0701
  else if own ≠ 2 ∧ e.index ≠ 0xA000 ∧ e.acc = .wo then 0x0703
  else if e.acc = .rwj ∧ s.inJob then 0x0401
  else 0

/-- A value stored in its entry. -/
def State.storeEntry (s : State) (e : OdEntry) (data : List Byte) : State :=
  match e.ty with
  | .blob => s.setBlob (s.odKey e) data
  | _ => s.setReg (s.odKey e) (leNat data)

/-- The measurement log extended by an entry (R570). -/
def State.measure1 (s : State) (kind version : Nat) (digest : List Byte) : State :=
  let n := s.measCount
  let e := toLE 2 n ++ toLE 2 kind ++ toLE 8 version ++ zeros 4 ++ digest
  let s1 := s.setBlob R.measRegister (sha384 (s.blob R.measRegister ++ e))
  { s1 with measCount := n + 1, measLog := if n < 1024 then s.measLog ++ [e] else s.measLog }

end Sys2Proof.Machine
end

