-- ==== Sys2Proof/Machine/Clock.lean ====
section
/-! DEFINITION. Region clocks: ceilings, short stops and synchronised changes, stretch, the frame hold; and the entries that
light regions, stacks and port groups (R424 to R456, R60). -/

namespace Sys2Proof.Machine

/-! ## Frequencies (R424 to R431) -/

/-- A region at a new frequency: the change is counted and logged (R456). -/
def State.nowAt (s : State) (r f : Nat) : State :=
  if s.reg (R.freqKhz r) = f then s
  else ((s.setReg (R.freqKhz r) f).bump R.freqChanges 32).event 0x5024 r f

/-- A region switches to its shadow PLL. -/
def State.switchRegion (s : State) (r : Nat) : State :=
  match (s.region r).shadowTo with
  | some f => (s.modRegion r fun x => { x with shadowTo := none, shadowLocked := false }).nowAt r f
  | none => s

/-- K is free again once no region's change is pending. -/
def State.settleK (s : State) : State := if s.changing = [] then { s with kClock := none }.retune else s

/-- SYNCHRONISED_SWITCH (R434): every region at clock beat K switches; K moves by 256 where a shadow PLL has not locked. -/
def execSynchronisedSwitch (s : State) : Res :=
  match s.kClock with
  | none => .next s
  | some k =>
    if ¬ s.native then .next s
    else
      let due := s.changing.filter fun r => decide (k ≤ (s.region r).clock)
      if due.any fun r => !(s.region r).shadowLocked then .next { s with kClock := some (k + 256) }
      else .next (s.each due State.switchRegion).settleK

/-- A synchronised change in legacy region mode takes effect after a frame boundary, each region on its own (R436). -/
def State.legacySwitch (s : State) : State :=
  if s.native then s
  else (s.each (s.changing.filter fun r => (s.region r).shadowLocked) State.switchRegion).settleK

/-- SHADOW_PLL_LOCK (R434): locked, or K moves forward by 256 for every changing region. -/
def execShadowPllLock (r : RegionId) (locked : Bool) (s : State) : Res :=
  if (s.region r.val).shadowTo.isNone then .next s
  else if locked then .next (s.modRegion r.val fun x => { x with shadowLocked := true })
  else .next { s with kClock := s.kClock.map (· + 256) }

/-- SHORT_STOP (R433): a lit region that needs a change finishes its beat and stops. -/
def execShortStop (r : RegionId) (s : State) : Res :=
  if s.shortStops ∧ s.toRetune.contains r.val ∧ (s.region r.val).shortStopTo.isNone then
    .next (s.modRegion r.val fun x => { x with shortStopTo := some (s.wantKhz r.val) })
  else .next s

/-- SHORT_STOP_RESUME (R433): the main PLL has relocked. -/
def execShortStopResume (r : RegionId) (s : State) : Res :=
  match (s.region r.val).shortStopTo with
  | some f => .next ((s.modRegion r.val fun x => { x with shortStopTo := none }).nowAt r.val f)
  | none => .next s

/-- PLL_UNLOCK (R435): the region stops at once and relocks by a short stop, whatever the mode. -/
def pllUnlockNow (r : RegionId) (s : State) : Res :=
  if (s.region r.val).lit ∧ ¬ (s.region r.val).inReset then
    .next ((s.modRegion r.val fun x => { x with shortStopTo := some (s.wantKhz r.val) }).raise 0x5022 r.val 0)
  else .next s

/-- PLL_LOCK (R451): a newly lit region leaves reset at the lower of its target and its ceiling. -/
def execPllLock (r : RegionId) (s : State) : Res :=
  if (s.region r.val).lit ∧ (s.region r.val).inReset then
    .next ((s.modRegion r.val fun x => { x with inReset := false }).setReg (R.freqKhz r.val) (s.wantKhz r.val))
  else .next s

/-! ## Ceilings and stretch -/

/-- The temperature limit in MHz (R427). -/
def tempLimit (t : Int) : Nat := if t ≤ 94 then 1150 else if t ≤ 100 then 1150 - 25 * (t - 94).toNat else 800

/-- A region's ceiling in kHz from its temperature and its ageing guard band, in steps of 12.5 MHz (R427). -/
def ceilingOf (t : Int) (guard : Nat) : Nat := min (tempLimit t * 1000) (1150000 - guard) / 12500 * 12500

/-- One region's monitors read, with the warning of R47; the guard band only rises, in steps of 12.5 MHz. -/
def State.monitor (s : State) (r : Nat) (t : Int) (need : Nat) : State :=
  let g := max (s.reg (R.ageingGuardKhz r)) (ceilDiv need 12500 * 12500)
  ((s.noteTemp (.region (Fin.ofNat 16 r)) t).setReg (R.ageingGuardKhz r) g).setReg (R.ceilingKhz r) (ceilingOf t g)

/-- The lowest lit region whose ceiling has fallen below the job frequency since it was last seen above (R430). -/
def State.lowCeiling (s : State) : Option Nat :=
  s.litList.find? fun r => decide (s.reg (R.ceilingKhz r) < 1050000) && !(s.region r).ceilLow

/-- Lit regions below the job frequency noted, so that each fall raises once. -/
def State.noteCeilings (s : State) : State :=
  s.each (List.range 16) fun t r => t.modRegion r fun x =>
    { x with ceilLow := s.inJob && x.lit && decide (s.reg (R.ceilingKhz r) < 1050000) }

/-- CEILING_UPDATE (R427, R430): the temperature in °C and the guard band in kHz that each region's monitors call for. -/
def ceilingUpdateNow (temps : List Int) (ageing : List Nat) (s : State) : Res :=
  if ¬ s.kindled then .next s
  else
    let s1 := s.each (List.range 16) fun t r => t.monitor r (temps.getD r (t.region r).temp) (ageing.getD r 0)
    let s2 := s1.noteCeilings
    match s1.lowCeiling with
    | some r => if s.inJob then .next (s2.raise 0x5021 r (s1.reg (R.ceilingKhz r))).retune else .next s2.retune
    | none => .next s2.retune

/-- DROOP_STRETCH (R437): a droop and the periods it stretches. -/
def execDroopStretch (r : RegionId) (periods : Nat) (s : State) : Res :=
  if ¬ (s.region r.val).clocked then .next s
  else
    let s1 := s.bump (R.droopEvents r.val) 32
    .next (if s.inJob then s1.bump (R.stretchedBeatsJob r.val) 64 periods else s1)

/-- FRAME_HOLD_RESUME (R440): frame n has started and every lit region has reached its anchor, so all resume. -/
def execFrameHoldResume (s : State) : Res :=
  let l := (List.range 16).filter fun r => (s.region r).lit && (s.region r).running
  if l.all fun r => (s.region r).frameHeld && decide ((s.region r).framesStarted ≤ s.frameIndex) then
    .next (s.each l fun t r => t.modRegion r fun x =>
      { x with frameHeld := false, skewed := [], framesStarted := x.framesStarted + 1 })
  else .next s

/-! ## Entries -/

/-- A write of clock_mode (R426). -/
def writeClockMode (data : List Byte) (s : State) : WriteRes :=
  if s.litList ≠ [] ∨ s.image.isSome then s.wBad 0x0402 else (s.setReg R.clockMode (leNat data)).wOk

/-- The regions that are lit or wait for admission. -/
def State.litOrAsked (s : State) : List Nat :=
  s.litList ++ s.admitting.filterMap fun u => match u with | .region r => some r | _ => none

/-- A write of freq_change_mode (R432); regions that a request accepted before is still to light count as lit, so that Full is not reached
with mode 1 (R521; DEDUCED, log entry 56). -/
def writeFreqChangeMode (data : List Byte) (s : State) : WriteRes :=
  if leNat data = 1 ∧ 4 < s.litOrAsked.length then s.wBad 0x0402
  else (s.setReg R.freqChangeMode (leNat data)).wOk [.retune]

/-- A write of target_step for the selected region (R428). -/
def writeTargetStep (data : List Byte) (s : State) : WriteRes :=
  (s.setReg (R.targetStep (s.reg R.clockRegionSelect)) (leNat data)).wOk [.retune]

/-- A write of region_light (R432, R451). -/
def writeRegionLight (data : List Byte) (s : State) : WriteRes :=
  let want := bitsSet (leNat data) 16
  let more := want.any fun r => !(s.region r).lit
  if more ∧ (¬ s.canLight ∨ (s.reg R.freqChangeMode = 1 ∧ 4 < want.length)) then s.wBad 0x0402
  else (s.setReg R.regionLight (leNat data)).wOk [.units]

/-- A write of stack_active (R447). One that would add a stack without both blades or a grade, and so take the part out of
Kindled, is refused as R451 refuses a region (R30, R57): the spec names no code for it. DESIGN CHOICE. -/
def writeStackActive (data : List Byte) (s : State) : WriteRes :=
  if ((bitsSet (leNat data) 12).any fun k => !(s.stack k).awake) ∧ ¬ s.canLight then s.wBad 0x0402
  else (s.setReg R.stackActive (leNat data)).wOk [.units]

/-- A write of group_enable (R448), refused in the same case and with the same code. DESIGN CHOICE. -/
def writeGroupEnable (data : List Byte) (s : State) : WriteRes :=
  if ((bitsSet (leNat data) 8).any fun g => !bit s.groupsOn g) ∧ ¬ s.canLight then s.wBad 0x0402
  else (s.setReg R.groupEnable (leNat data)).wOk [.units]

/-- A write of sleep_request (R453). -/
def writeSleepRequest (_data : List Byte) (s : State) : WriteRes :=
  if s.inJob ∨ s.litList ≠ [] ∨ s.stacksOn ≠ [] ∨ s.groupsOn ≠ 0 ∨ 2 ≤ s.reg R.custodyHeld then s.wBad 0x0402
  else s.enterBanked.wOk

/-- A write of failed_mask for the selected region (R60): marks only on cores the grade enables, 64 usable cores left. The
spec does not say which code answers a write that breaks both limits; the model answers 0x0303. DESIGN CHOICE. -/
def writeFailedMask (data : List Byte) (s : State) : WriteRes :=
  let r := s.reg R.regionSelect
  let m := leNat data
  if 0 < m / 2 ^ 72 ∨ (bitsSet m 72).any fun p => !bit (s.goodMask r) p then s.wBad 0x0303
  else if ((bitsSet (s.goodMask r) 72).filter fun p => !bit m p).length < 64 then s.wBad 0x0601
  else (s.setBlob (R.failedMask r) data).wOk

end Sys2Proof.Machine
end

