-- ==== Sys2Proof/Machine/CoreCommands.lean ====
section
/-! DEFINITION. The core operations as commands: a core issues one bundle, which is the operation in its slot with the
bundle's other three slots (R121 to R161). -/

namespace Sys2Proof.Machine

/-- NOP: an operation that does nothing in the slot the command names (R122, R134). -/
def execNop (core : CoreId) (unit : Slot) (w : BitVec 58) (rest : BitVec 256) (s : State) : Res :=
  .next (s.issueNow core.val (withSlot rest unit 0 w))

/-- MMA: a partial matrix product added into the exact accumulators (R126, R142). -/
def execMma (core : CoreId) (w : BitVec 58) (rest : BitVec 256) (s : State) : Res :=
  .next (s.issueNow core.val (withSlot rest .m 1 w))

/-- MCLR: accumulators cleared (R124). -/
def execMclr (core : CoreId) (w : BitVec 58) (rest : BitVec 256) (s : State) : Res :=
  .next (s.issueNow core.val (withSlot rest .m 2 w))

/-- RDOUT: accumulators read out (R124). -/
def execRdout (core : CoreId) (w : BitVec 58) (rest : BitVec 256) (s : State) : Res :=
  .next (s.issueNow core.val (withSlot rest .m 3 w))

/-- FOP: FP32 arithmetic by lane (R124). -/
def execFop (core : CoreId) (w : BitVec 58) (rest : BitVec 256) (s : State) : Res :=
  .next (s.issueNow core.val (withSlot rest .v 1 w))

/-- FCMP: FP32 comparison into a predicate. -/
def execFcmp (core : CoreId) (w : BitVec 58) (rest : BitVec 256) (s : State) : Res :=
  .next (s.issueNow core.val (withSlot rest .v 2 w))

/-- IOP: INT32 arithmetic by lane. -/
def execIop (core : CoreId) (w : BitVec 58) (rest : BitVec 256) (s : State) : Res :=
  .next (s.issueNow core.val (withSlot rest .v 3 w))

/-- ICMP: INT32 comparison into a predicate. -/
def execIcmp (core : CoreId) (w : BitVec 58) (rest : BitVec 256) (s : State) : Res :=
  .next (s.issueNow core.val (withSlot rest .v 4 w))

/-- CVT: format conversion (R124). -/
def execCvt (core : CoreId) (w : BitVec 58) (rest : BitVec 256) (s : State) : Res :=
  .next (s.issueNow core.val (withSlot rest .v 5 w))

/-- QUANT: quantisation to a scaled format (R128). -/
def execQuant (core : CoreId) (w : BitVec 58) (rest : BitVec 256) (s : State) : Res :=
  .next (s.issueNow core.val (withSlot rest .v 6 w))

/-- DEQUANT: dequantisation (R124). -/
def execDequant (core : CoreId) (w : BitVec 58) (rest : BitVec 256) (s : State) : Res :=
  .next (s.issueNow core.val (withSlot rest .v 7 w))

/-- SFU: a special function (R124). -/
def execSfu (core : CoreId) (w : BitVec 58) (rest : BitVec 256) (s : State) : Res :=
  .next (s.issueNow core.val (withSlot rest .v 8 w))

/-- RNG: random bits (R130). -/
def execRng (core : CoreId) (w : BitVec 58) (rest : BitVec 256) (s : State) : Res :=
  .next (s.issueNow core.val (withSlot rest .v 9 w))

/-- WADD: W128 addition (R124). -/
def execWadd (core : CoreId) (w : BitVec 58) (rest : BitVec 256) (s : State) : Res :=
  .next (s.issueNow core.val (withSlot rest .v 10 w))

/-- WCVT: conversion to or from W128 (R129). -/
def execWcvt (core : CoreId) (w : BitVec 58) (rest : BitVec 256) (s : State) : Res :=
  .next (s.issueNow core.val (withSlot rest .v 11 w))

/-- PERM: a permutation of bytes or lanes (R124). -/
def execPerm (core : CoreId) (w : BitVec 58) (rest : BitVec 256) (s : State) : Res :=
  .next (s.issueNow core.val (withSlot rest .v 12 w))

/-- POP: predicate logic (R124). -/
def execPop (core : CoreId) (w : BitVec 58) (rest : BitVec 256) (s : State) : Res :=
  .next (s.issueNow core.val (withSlot rest .v 13 w))

/-- LD: a load of a vector register from SRAM (R144). -/
def execLd (core : CoreId) (w : BitVec 58) (rest : BitVec 256) (s : State) : Res :=
  .next (s.issueNow core.val (withSlot rest .l 1 w))

/-- ST: a store of a vector register to SRAM (R144). -/
def execSt (core : CoreId) (w : BitVec 58) (rest : BitVec 256) (s : State) : Res :=
  .next (s.issueNow core.val (withSlot rest .l 2 w))

/-- LDW: a load of part of a weight tile (R126, R144). -/
def execLdw (core : CoreId) (w : BitVec 58) (rest : BitVec 256) (s : State) : Res :=
  .next (s.issueNow core.val (withSlot rest .l 3 w))

/-- LDWS: a load of a weight tile's scales (R144). -/
def execLdws (core : CoreId) (w : BitVec 58) (rest : BitVec 256) (s : State) : Res :=
  .next (s.issueNow core.val (withSlot rest .l 4 w))

/-- AOP: address arithmetic (R124). -/
def execAop (core : CoreId) (w : BitVec 58) (rest : BitVec 256) (s : State) : Res :=
  .next (s.issueNow core.val (withSlot rest .c 1 w))

/-- LOOP: a loop opened (R136, R137). -/
def execLoop (core : CoreId) (w : BitVec 58) (rest : BitVec 256) (s : State) : Res :=
  .next (s.issueNow core.val (withSlot rest .c 2 w))

/-- JUMP: a jump (R124). -/
def execJump (core : CoreId) (w : BitVec 58) (rest : BitVec 256) (s : State) : Res :=
  .next (s.issueNow core.val (withSlot rest .c 3 w))

/-- HALT: the core halts (R133). -/
def execHalt (core : CoreId) (w : BitVec 58) (rest : BitVec 256) (s : State) : Res :=
  .next (s.issueNow core.val (withSlot rest .c 4 w))

/-- SEND: a flit put in a send stream (R145). -/
def execSend (core : CoreId) (w : BitVec 58) (rest : BitVec 256) (s : State) : Res :=
  .next (s.issueNow core.val (withSlot rest .c 5 w))

/-- RECV: a flit taken from a landing stream (R148). -/
def execRecv (core : CoreId) (w : BitVec 58) (rest : BitVec 256) (s : State) : Res :=
  .next (s.issueNow core.val (withSlot rest .c 6 w))

/-- FLD: a far load requested (R149). -/
def execFld (core : CoreId) (w : BitVec 58) (rest : BitVec 256) (s : State) : Res :=
  .next (s.issueNow core.val (withSlot rest .c 7 w))

/-- FST: a far store requested (R149). -/
def execFst (core : CoreId) (w : BitVec 58) (rest : BitVec 256) (s : State) : Res :=
  .next (s.issueNow core.val (withSlot rest .c 8 w))

/-- FENG: an engine item requested (R149). -/
def execFeng (core : CoreId) (w : BitVec 58) (rest : BitVec 256) (s : State) : Res :=
  .next (s.issueNow core.val (withSlot rest .c 9 w))

/-- WAIT: a wait for far requests (R155, R156). -/
def execWait (core : CoreId) (w : BitVec 58) (rest : BitVec 256) (s : State) : Res :=
  .next (s.issueNow core.val (withSlot rest .c 10 w))

/-- FLAGS: flags read or cleared (R139). -/
def execFlags (core : CoreId) (w : BitVec 58) (rest : BitVec 256) (s : State) : Res :=
  .next (s.issueNow core.val (withSlot rest .c 11 w))

/-- SREAD: a status read (R138). -/
def execSread (core : CoreId) (w : BitVec 58) (rest : BitVec 256) (s : State) : Res :=
  .next (s.issueNow core.val (withSlot rest .c 12 w))

/-- STEP: the core's step counter advanced (R140). -/
def execStep (core : CoreId) (w : BitVec 58) (rest : BitVec 256) (s : State) : Res :=
  .next (s.issueNow core.val (withSlot rest .c 13 w))

end Sys2Proof.Machine
end

