-- ==== Sys2Proof/Machine/Engines.lean ====
section
/-! DEFINITION. Stack engines and their work items, scrubs, and the leak of the correction counters (R383, R386 to R396,
R447). -/

namespace Sys2Proof.Machine

/-! ## Work items (R391 to R393) -/

/-- Whether an item breaks R392: its op, flags, plane count, unit or reserved fields (status 0x05). -/
def WorkItem.illegal (w : WorkItem) : Bool :=
  w.reserved || decide (w.flags ≠ 0 ∧ ¬ (w.op = 5 ∧ w.flags = 1)) ||
    match w.op with
    | 1 | 2 => w.unit == 0 || decide (64 < w.unit)
    | 3 => w.unit != 0
    | 4 | 5 | 8 => w.unit != 0 || w.aux != 0
    | 6 => !(w.aux == 1 || w.aux == 2 || w.aux == 4)
    | 7 => w.aux != 0
    | _ => true

/-- Whether a range of `n` bytes is aligned, lies in stack `k` and outside the reserved areas (R355, R391). -/
def inStack (k off n : Nat) : Bool :=
  off % 64 == 0 && decide (k * stackSize ≤ off ∧ off + n ≤ (k + 1) * stackSize)
    && (n == 0 || (decide (custodySize ≤ off) && decide (off + n ≤ 0xD7D0000000 ∨ 0xD800000000 ≤ off)))

/-- The result's 64 bytes: outputs, status, zeros (R393). -/
def resultBytes (out : List Byte) (status : Nat) : List Byte :=
  let o := out.take 48
  o ++ zeros (48 - o.length) ++ toLE 1 status ++ zeros 15

/-- The end of an item: its result written where that lies in the stack, then the fault of a core's item or the reply of
a REQ (R393). -/
def State.finishItem (s : State) (k : Nat) (i : Item) (out : List Byte) (status : Nat) : State :=
  let w := itemFields i.bytes
  let s1 := if inStack k w.result 64 then s.writeStack w.result out else s
  match i.src with
  | .none => s1
  | .core c q tag =>
    let s2 := s1.modFar c q tag fun x => { x with outstanding := 0 }
    if status = 0 then s2 else s2.raise 0x4004 k (s.globalAddr 1 (w.result % 2 ^ 48))
  | .remote chip ident vc =>
    let req : Msg := { vc := vc, period := false, hdr := reqHdr 0 s.chip chip 3 ident.toNat 0 0, units := [] }
    s1.reply 0 req (if status = 0 then 0 else if status = 2 then 2 else 4) []

/-- Units copied one by one, from and to the offsets that `f` and `g` give for their numbers; the answer is false where
a source word was uncorrectable, at which the copy stops (R393). -/
def State.copyUnits (s : State) (f g : Nat → Nat) : Nat → State × Bool
  | 0 => (s, true)
  | n + 1 =>
    let (t, ok) := s.copyUnits f g n
    if ¬ ok then (t, false)
    else
      let (d, bad, t1) := t.readStack (f n)
      if bad then (t1, false) else (t1.writeStack (g n) d, true)

/-- The U32 indices of GATHER and SCATTER: `none` where a word of them is uncorrectable. -/
def State.readIdx (s : State) (off count : Nat) : Option (List Nat) × State :=
  let (d, bad, t) := s.readWords 1 off (ceilDiv count 16)
  match bad with
  | some _ => (none, t)
  | none => (some ((List.range count).map fun i => field d (4 * i) 4), t)

/-- GATHER and SCATTER: the status and the state. Offsets are checked before any byte is written. -/
def State.moveBlocks (s : State) (k : Nat) (w : WorkItem) : State × Nat :=
  if ¬ inStack k w.aux (64 * ceilDiv w.count 16) then (s, 1)
  else match s.readIdx w.aux w.count with
    | (none, t) => (t, 2)
    | (some idx, t) =>
      let b := 64 * w.unit
      let far (i : Nat) : Nat := idx.getD i 0 * b
      let list := if w.op = 1 then w.src else w.dst
      let lin := if w.op = 1 then w.dst else w.src
      if ¬ inStack k lin (w.count * b) ∨ ¬ (List.range w.count).all (fun i => inStack k (list + far i) b) then (t, 1)
      else
        let a (n : Nat) : Nat := list + far (n / w.unit) + 64 * (n % w.unit)
        let l (n : Nat) : Nat := lin + 64 * n
        let (t1, ok) := if w.op = 1 then t.copyUnits a l (w.count * w.unit) else t.copyUnits l a (w.count * w.unit)
        (t1, if ok then 0 else 2)

/-- FILL's pattern in a 64-byte unit. -/
def patternUnit (p : Nat) : List Byte := (List.range 8).flatMap fun _ => toLE 8 p

/-- `n` units of free bytes written, where the spec states no contents. -/
def State.freeUnits (s : State) (off : Nat) : Nat → State
  | 0 => s
  | n + 1 =>
    let (d, t) := s.freeBytes 64
    (t.writeStack off d).freeUnits (off + 64) n

/-- COPY: overlapping ranges leave free bytes. -/
def State.copyItem (s : State) (k : Nat) (w : WorkItem) : State × Nat :=
  let n := 64 * w.count
  if ¬ inStack k w.src n ∨ ¬ inStack k w.dst n then (s, 1)
  else
    let (t, ok) := s.copyUnits (fun i => w.src + 64 * i) (fun i => w.dst + 64 * i) w.count
    if w.src < w.dst + n ∧ w.dst < w.src + n then (t.freeUnits w.dst w.count, if ok then 0 else 2)
    else (t, if ok then 0 else 2)

/-! ## PACK_KV and UNPACK_KV (R394) -/

/-- The zero bytes a plane starts with, at most `n`. -/
def zeroRun : Nat → List Byte → Nat
  | 0, _ => 0
  | _, [] => 0
  | n + 1, b :: t => if b = 0 then 1 + zeroRun n t else 0

/-- The literal bytes before the next pair of zero bytes or the end, at most `n`. -/
def litRun : Nat → List Byte → Nat
  | 0, _ => 0
  | _, [] => 0
  | n + 1, b :: t => if b = 0 ∧ t.head? = some 0 then 0 else 1 + litRun n t

/-- One plane's tokens; `n` bounds their number. -/
def packPlane : Nat → List Byte → List Byte
  | 0, _ => []
  | _, [] => []
  | n + 1, l =>
    if zeroRun 2 l = 2 then
      let r := zeroRun 128 l
      BitVec.ofNat 8 (0x7F + r) :: packPlane n (l.drop r)
    else
      let t := litRun 128 l
      BitVec.ofNat 8 (t - 1) :: (l.take t ++ packPlane n (l.drop t))

/-- The bytes of plane `j` of elements of `p` bytes. -/
def planeOf (p j : Nat) (d : List Byte) : List Byte :=
  (List.range (d.length / p)).map fun i => d.getD (p * i + j) 0

/-- The packed form: header, planes, zeros to a multiple of 64; and its length before the padding. -/
def packKv (p : Nat) (d : List Byte) : List Byte × Nat :=
  let pl := (List.range p).map fun j => let x := planeOf p j d; packPlane (x.length + 1) x
  let lens := pl.flatMap fun x => toLE 4 x.length
  let body := toLE 8 d.length ++ toLE 1 p ++ zeros 7 ++ lens ++ zeros (48 - lens.length) ++ pl.flatten
  (body ++ zeros ((64 - body.length % 64) % 64), body.length)

/-- One plane's tokens decoded to at most `m` bytes; `none` where they do not come out. -/
def unpackPlane : Nat → List Byte → Nat → Option (List Byte)
  | 0, l, m => if l = [] ∧ m = 0 then some [] else none
  | _, [], m => if m = 0 then some [] else none
  | n + 1, b :: t, m =>
    if 0x80 ≤ b.toNat then
      let r := b.toNat - 0x7F
      if m < r then none else (unpackPlane n t (m - r)).map fun x => zeros r ++ x
    else
      let r := b.toNat + 1
      if m < r ∨ t.length < r then none else (unpackPlane n (t.drop r) (m - r)).map fun x => t.take r ++ x

/-- The unpacked bytes of a packed form; `none` where it is malformed. -/
def unpackKv (d : List Byte) : Option (List Byte) :=
  let len := field d 0 8
  let p := field d 8 1
  let lens := (List.range p).map fun j => field d (16 + 4 * j) 4
  if ¬ (p = 1 ∨ p = 2 ∨ p = 4) ∨ len % p ≠ 0 ∨ d.length < 64 + lens.sum then none
  else
    let planes := (List.range p).map fun j =>
      unpackPlane (lens.getD j 0 + 1) (slice d (64 + (lens.take j).sum) (lens.getD j 0)) (len / p)
    if planes.any (·.isNone) then none
    else
      let pl := planes.map fun x => x.getD []
      some ((List.range len).map fun i => (pl.getD (i % p) []).getD (i / p) 0)

/-- An output put in the dst area of `unit` units: beyond the capacity nothing is written, inside it the bytes are then
free (R393). A capacity of 0, which R10 and R392 give no meaning of its own, is no room (DESIGN CHOICE, log entry 68). -/
def State.putOutput (s : State) (w : WorkItem) (out : List Byte) : State × Nat :=
  if 64 * w.unit < out.length then (s.freeUnits w.dst w.unit, 3)
  else (s.writeWords 1 w.dst (out ++ zeros ((64 - out.length % 64) % 64)), 0)

/-- PACK_KV: outputs, status, state. -/
def State.packItem (s : State) (k : Nat) (w : WorkItem) : List Byte × Nat × State :=
  if ¬ inStack k w.src (64 * w.count) ∨ ¬ inStack k w.dst (64 * w.unit) then ([], 1, s)
  else
    let (d, bad, t) := s.readWords 1 w.src w.count
    match bad with
    | some _ => ([], 2, t)
    | none =>
      let (o, n) := packKv w.aux d
      let (t1, st) := t.putOutput w o
      (if st = 0 then toLE 8 n else [], st, t1)

/-- UNPACK_KV: its source is `count` units. -/
def State.unpackItem (s : State) (k : Nat) (w : WorkItem) : List Byte × Nat × State :=
  if ¬ inStack k w.src (64 * w.count) ∨ ¬ inStack k w.dst (64 * w.unit) then ([], 1, s)
  else
    let (d, bad, t) := s.readWords 1 w.src w.count
    match bad, unpackKv d with
    | some _, _ => ([], 2, t)
    | none, none => ([], 4, t)
    | none, some o =>
      let (t1, st) := t.putOutput w o
      (if st = 0 then toLE 8 o.length else [], st, t1)

/-- CRC64 of units. -/
def State.crcItem (s : State) (k : Nat) (w : WorkItem) : List Byte × Nat × State :=
  if ¬ inStack k w.src (64 * w.count) then ([], 1, s)
  else
    let (d, bad, t) := s.readWords 1 w.src w.count
    match bad with
    | some _ => ([], 2, t)
    | none => (bytesOf 8 (crc64Of d), 0, t)

/-! ## Scrubbing (R386 to R390) -/

/-- Whether reading a word corrects something in it. -/
def State.wordCorrects (s : State) (space off : Nat) : Bool :=
  if space = 0 then
    (List.range 64).any fun i => (sramDecode (s.sram.read (off + i)) (s.sramChk.read (off + i))).2 == .fixed
  else (rsWord (s.dram.readN off 64) (s.dramChk.readN (off / 8) 8)).2.1 != 0

/-- One word scrubbed: read through the check code, counted, and rewritten where it was corrected and write-back is set. -/
def State.scrubWord (s : State) (space off : Nat) (wb : Bool) (x : ScrubSum) : State × ScrubSum :=
  let fix := s.wordCorrects space off
  let (d, bad, t) := s.readWord space off
  let back := wb && fix && bad.isNone
  let t1 := if back then t.writeWord space off d else t
  (t1,
    { words := x.words + 1, corrected := x.corrected + fix.toNat
      bad := x.bad + bad.isSome.toNat
      first := if bad.isSome ∧ x.bad = 0 then off else x.first
      last := if bad.isSome then off else x.last
      written := x.written + back.toNat })

/-- `n` words scrubbed from an offset. -/
def State.scrubWords (s : State) (space off : Nat) (wb : Bool) (x : ScrubSum) : Nat → State × ScrubSum
  | 0 => (s, x)
  | n + 1 =>
    let (t, y) := s.scrubWord space off wb x
    t.scrubWords space (off + 64) wb y n

/-- SCRUB item: its result is a summary. -/
def State.scrubItem (s : State) (k : Nat) (w : WorkItem) : State × List Byte × Nat :=
  if ¬ inStack k w.src (64 * w.count) then (s, resultBytes [] 1, 1)
  else
    let (t, x) := s.scrubWords 1 w.src (w.flags == 1) {} w.count
    (t, x.bytes 0, 0)

/-! ## Running items -/

/-- An item run whole: result bytes, status, state. -/
def State.doItem (s : State) (k : Nat) (w : WorkItem) : List Byte × Nat × State :=
  if w.illegal then (resultBytes [] 5, 5, s)
  else if ¬ inStack k w.result 64 then (resultBytes [] 1, 1, s)
  else if w.count = 0 then (resultBytes [] 0, 0, s)
  else match w.op with
    | 1 | 2 => let (t, st) := s.moveBlocks k w; (resultBytes [] st, st, t)
    | 3 =>
      if inStack k w.dst (64 * w.count) then
        (resultBytes [] 0, 0,
          s.each (List.range w.count) fun t i => t.writeStack (w.dst + 64 * i) (patternUnit w.aux))
      else (resultBytes [] 1, 1, s)
    | 4 => let (t, st) := s.copyItem k w; (resultBytes [] st, st, t)
    | 5 => let (t, r, st) := s.scrubItem k w; (r, st, t)
    | 6 => let (o, st, t) := s.packItem k w; (resultBytes o st, st, t)
    | 7 => let (o, st, t) := s.unpackItem k w; (resultBytes o st, st, t)
    | _ => let (o, st, t) := s.crcItem k w; (resultBytes o st, st, t)

/-- The bytes that an item has written left free where its data are undefined (R154, R396). -/
def State.freeItem (s : State) (k : Nat) (i : Item) : State :=
  let lost : List (Nat × Nat × Nat × Bool) := match i.src with
    | .core c q tag => match s.farReq c q tag with
      | some r => if r.undef then r.item else []
      | none => []
    | _ => if i.undef then i.spans else []
  s.each (lost.filter fun x => x.2.2.2 && inStack k x.2.1 (x.2.2.1 - x.2.1)) fun t x => t.freeUnits x.2.1 ((x.2.2.1 - x.2.1) / 64)

/-- The item an engine runs brought to its end, if its op is `op`. -/
def State.runEngine (s : State) (k e op : Nat) : State :=
  match (Tab.get none (s.stack k).running e : Option Item) with
  | none => s
  | some i =>
    let w := itemFields i.bytes
    if w.op ≠ op then s
    else
      let (out, st, t) := (s.touchStack k).doItem k w
      let t1 := (t.modStack k fun x => { x with running := Tab.set x.running e none }).finishItem k i out st
      if st = 1 ∨ st = 5 then t1 else t1.freeItem k i

/-- The queue an engine takes from: its own, else the longest of its stack, the lowest number among equals (R395). -/
def Stack.pick (x : Stack) (e : Nat) : Nat :=
  if (Tab.get [] x.queues e) ≠ [] then e
  else
    let len (i : Nat) : Nat := (Tab.get [] x.queues i).length
    let most := ((List.range 32).map len).foldl max 0
    ((List.range 32).find? fun i => len i = most).getD e

/-- STACK_ENGINE_TAKE (R395): the oldest item; one of no known op ends at once with status 0x05. -/
def stackEngineTakeNow (k : StackId) (e : EngineId) (s : State) : Res :=
  let x := s.stack k.val
  if (Tab.get none x.running e.val : Option Item).isSome then .next s
  else
    let i := x.pick e.val
    match Tab.get [] x.queues i with
    | [] => .next s
    | it :: rest =>
      let s1 := s.modStack k.val fun y => { y with queues := Tab.set y.queues i rest }
      let op := (itemFields it.bytes).op
      if op = 0 ∨ 8 < op then .next (s1.finishItem k.val it (resultBytes [] 5) 5)
      else .next (s1.modStack k.val fun y => { y with running := Tab.set y.running e.val (some it) })

/-- GATHER (R392). -/
def gatherNow (k : StackId) (e : EngineId) (s : State) : Res := .next (s.runEngine k.val e.val 1)

/-- SCATTER (R392). -/
def scatterNow (k : StackId) (e : EngineId) (s : State) : Res := .next (s.runEngine k.val e.val 2)

/-- FILL (R392). -/
def fillNow (k : StackId) (e : EngineId) (s : State) : Res := .next (s.runEngine k.val e.val 3)

/-- COPY (R392). -/
def copyNow (k : StackId) (e : EngineId) (s : State) : Res := .next (s.runEngine k.val e.val 4)

/-- SCRUB (R392, R388). -/
def scrubNow (k : StackId) (e : EngineId) (s : State) : Res := .next (s.runEngine k.val e.val 5)

/-- PACK_KV (R394). -/
def packKvNow (k : StackId) (e : EngineId) (s : State) : Res := .next (s.runEngine k.val e.val 6)

/-- UNPACK_KV (R394). -/
def unpackKvNow (k : StackId) (e : EngineId) (s : State) : Res := .next (s.runEngine k.val e.val 7)

/-- CRC64 (R392). -/
def crc64Now (k : StackId) (e : EngineId) (s : State) : Res := .next (s.runEngine k.val e.val 8)

/-- STACK_SELF_REFRESH_ENTRY (R447): a stack that only an access brought out goes back 1 ms after its last access. -/
def execStackSelfRefreshEntry (k : StackId) (s : State) : Res :=
  if (s.stack k.val).recent s.us then .next s else .next (s.modStack k.val fun x => { x with wakePending := false })

/-- LEAK_TICK (R383): the level one lower, unless τ is 0. -/
def execLeakTick (counter : Fin 28) (s : State) : Res :=
  let i := counter.val
  if s.reg (R.leakPeriodMs i) = 0 then .next s else .next (s.setReg (R.ceLevel i) (s.reg (R.ceLevel i) - 1))

/-! ## The scrub of the entries -/

/-- Units the range of a scrub touches are all on, or brought out of self-refresh by an access (R387, R447). -/
def State.rangeAwake (s : State) (space off len : Nat) : Bool :=
  if len = 0 then true
  else if space = 0 then (List.range 16).all fun r =>
    !(decide (off < (r + 1) * 2 ^ 30 ∧ r * 2 ^ 30 < off + len)) || (s.region r).lit
  else (List.range 12).all fun k =>
    !(decide (off < (k + 1) * stackSize ∧ k * stackSize < off + len)) || (s.stack k).awake || (s.stack k).wakePending

/-- Whether some byte of a range lies in an enabled window or export window of the loaded image (R388). -/
def State.inImageWindows (s : State) (space off len : Nat) : Bool :=
  let wins := s.exports ++ (match s.image with | some i => i.windows.flatMap (·.2) | none => [])
  wins.any fun w =>
    let b := bits w.toNat 47 0
    let n := bits w.toNat 95 48
    decide (n ≠ 0) && bits w.toNat 99 96 == space && decide (off < b + n ∧ b < off + len)

/-- A scrub with write-back begins: what the channels and the SVC writes that wait write into its range is undefined (R388). -/
def State.markScrub (s : State) : State :=
  let x := s.scrubSpans
  if x = [] then s
  else
    let lost (y : List Nat × List Nat) : Bool := !s.reqLost.contains y.1 && clash (waitSpans y.1) x
    { s.markChans x none with reqLost := s.reqLost ++ (s.bgDone.filter lost).map (·.1) }

/-- A write of scrub_start (R386 to R388). -/
def writeScrubStart (_data : List Byte) (s : State) : WriteRes :=
  let space := s.reg R.scrubSpace
  let off := s.reg R.scrubOffset
  let len := s.reg R.scrubLength
  let wb := s.reg R.scrubWriteBack = 1
  if s.scrub.isSome then s.wBad 0x0402
  else if len = 0 then
    ((s.setReg R.scrubState 1).endScrub { space := space, start := off, off := off, len := 0, wb := wb, aborted := false }).wOk
  else if off % 64 ≠ 0 ∨ len % 64 ≠ 0 then s.wBad 0x0301
  else if spaceSize space < off + len then s.wBad 0x0301
  else if ¬ s.rangeAwake space off len then s.wBad 0x0402
  else if wb ∧ s.inJob ∧ ¬ ((space = 1 ∧ off + len ≤ custodySize) ∨ ¬ s.inImageWindows space off len) then s.wBad 0x0402
  else
    let x : Scrub := { space := space, start := off, off := off, len := len, wb := wb, aborted := false }
    (({ s.setReg R.scrubState 1 with scrub := some x } : State).markScrub).wOk

/-- A write of scrub_abort (R389). -/
def writeScrubAbort (_data : List Byte) (s : State) : WriteRes :=
  ({ s with scrub := s.scrub.map fun x : Scrub => { x with aborted := true } } : State).wOk

/-- One word of the running scrub read, once its bank is free (R70). -/
def State.scrubBeat (s : State) : State :=
  match s.scrub with
  | none => s
  | some x =>
    if x.aborted ∨ x.len = 0 ∨ (x.space = 0 ∧ ¬ s.bgReady x.off) then s
    else
      let (t, y) := (s.touchStacks x.space x.off 64).scrubWord x.space x.off x.wb x.sum
      { t with scrub := some { x with off := x.off + 64, len := x.len - 64, sum := y } }

/-- SCRUB_DONE (R397): the words that remain are read, unless the scrub was aborted, and the summary is written. -/
def execScrubDone (s : State) : Res :=
  match s.scrub with
  | none => .next s
  | some x =>
    if x.aborted then .next (s.endScrub x)
    else
      let (s1, ok) := s.bgTry [7] (sramWords x.space x.off x.len)
      if ¬ ok then .next s1
      else
        let (t, y) := (s1.touchStacks x.space x.off x.len).scrubWords x.space x.off x.wb x.sum (x.len / 64)
        .next (t.endScrub { x with sum := y })

end Sys2Proof.Machine
end

