-- ==== Sys2Proof/Machine/Custody.lean ====
section
/-! DEFINITION. Twin pairing, custody and detachment; and the writes of chip_number, manifest, rank table and route table
(R307 to R335, R499 to R505). -/

namespace Sys2Proof.Machine

/-! ## CUSTODY messages (R501) -/

/-- The SHA-384 of space-0 ranges as they are read through the check bits, in their order (R500, R559). -/
def State.hashRanges (s : State) (rs : List (Nat × Nat)) : List Byte × State :=
  let (d, t) := rs.foldl (fun (x : List Byte × State) r =>
    let (b, _, t) := x.2.readWords 0 r.1 (r.2 / 64)
    (x.1 ++ b.take r.2, t)) ([], s)
  (sha384 d, t)

/-- A CUSTODY message to a chip. -/
def State.sendCustody (s : State) (chip op reason count : Nat) (units : List (BitVec 512)) : State :=
  s.sendMgmt chip 3 (toLE 1 op ++ toLE 1 reason ++ toLE 2 count) units

/-- The chip at coordinates. -/
def State.chipAt (s : State) (coord : Nat) : Nat :=
  (((manifestRecs s.manifest).find? fun r => r.coord = coord).map (·.chip)).getD 0xFFFF

/-- A message that comes from the twin. -/
def State.fromTwin (s : State) (m : Msg) : Bool := s.twin != 0xFFFF && s.chipAt (mf m 4 2) == s.twin

/-- Whether nothing of its flow stands before a message in the firmware's queue, where it is flagged (R252). -/
def State.mgmtTurn (s : State) (m : Msg) : Bool :=
  !m.period || (s.mgmtQueue.find? fun x => x.2 == m).all fun x =>
    !s.behind { stamp := x.1, arr := none, held := false, msg := m }

/-- A CUSTODY message of an op that the awake part takes from its queue; a flagged one waits for the earlier ones of its flow (R252). -/
def State.takeCustody (s : State) (m : Msg) (op : Nat) (f : State → State) : State :=
  if s.awake ∧ m.vc = 6 ∧ mf m 8 1 = 3 ∧ mf m 24 1 = op ∧ mf m 2 2 = s.coords ∧ s.mgmtTurn m then f (s.unqueueMgmt m)
  else s

/-- The ranges of an OFFER: four to a unit from unit 1 on. -/
def offerRanges (m : Msg) : List (Nat × Nat) :=
  let b := (m.units.drop 1).flatMap fun u => bytesOf 64 u
  (List.range (mf m 26 2)).map fun i => (field b (16 * i) 8, field b (16 * i + 8) 8)

/-- The units of an OFFER: the digest, then the ranges. -/
def offerUnits (d : List Byte) (rs : List (Nat × Nat)) : List (BitVec 512) :=
  let b := rs.flatMap fun r => toLE 8 r.1 ++ toLE 8 r.2
  ofBytes 512 d :: (List.range (ceilDiv rs.length 4)).map fun i => ofBytes 512 (slice b (64 * i) 64)

/-- The detail of PAIR_REFUSED (R577). -/
def refusedDetail (reason : Nat) (detach : Bool) : Nat := 0xFFFFFFFF + reason * 2 ^ 32 + detach.toNat * 2 ^ 40

/-! ## The owner's side -/

/-- All four ports of group 7 verified and UP. -/
def State.groupSeven (s : State) : Bool :=
  [28, 29, 30, 31].all fun p => s.reg (R.linkState p) == 7 && s.reg (R.portMode p) == 1

/-- A write of pair_request (R500, R502). -/
def writePairRequest (_data : List Byte) (s : State) : WriteRes :=
  match s.image with
  | none => s.wBad 0x0402
  | some i =>
    if s.inJob ∨ s.twin = 0xFFFF ∨ ¬ s.groupSeven then s.wBad 0x0402
    else if 252 < i.weights.length then s.wBad 0x0601
    else
      let (d, s1) := s.hashRanges i.weights
      let s2 := (s1.setReg R.custodyGiven 1).setBlob R.givenDigest (zeros 48)
      let s3 := { s2.dropPush with pair := .offered, detaching := false, pushLeft := 0, pushQueue := [], offerDigest := d }
      (s3.sendCustody s.twin 1 0 i.weights.length (offerUnits d i.weights)).wOk

/-- Pieces of at most 64 units of a range of `n` units. -/
def pieces (off n : Nat) : List (Nat × Nat) :=
  (List.range (ceilDiv n 64)).map fun i => (off + 4096 * i, min 64 (n - 64 * i))

/-- One SVC write of the weight image, numbered and with its reply slot. -/
def State.pushPiece (s : State) (x : Nat × Nat) : State :=
  let (off, k) := x
  let (d, _, s1) := s.readWords 0 off k
  let ident := s1.nextIdent % 2 ^ 30
  let m : Msg := { vc := 5, period := false, hdr := reqHdr k s.twin s.chip 2 ident (2 ^ 48 + off) k,
                   units := (List.range k).map fun i => ofBytes 512 (slice d (64 * i) 64) }
  let y : ReplySlot := { ident := BitVec.ofNat 32 ident, chip := s.twin, core := 0, q := 0, tag := 0, loc := off, units := k,
                         kind := 6 }
  let s2 := { s1 with nextIdent := s1.nextIdent + 1, pushLeft := s1.pushLeft + 1 }.reserve y
  let (q, s3) := s2.newTx m
  s3.routeMsg q

/-- The SVC writes of a weight image that still have to go, each as a reply slot is free for it (R312). -/
def State.pushPieces (s : State) : State :=
  s.each s.pushQueue fun t x => if 1024 ≤ t.slotsUsed then t else { t with pushQueue := t.pushQueue.drop 1 }.pushPiece x

/-- SVC requests of the management processor that waited for a reply slot (R312, R317). -/
def State.svcPumps (s : State) : State :=
  let s1 := match s.repairDue, s.repair with
    | true, some w =>
      if 1024 ≤ s.slotsUsed then s
      else
        match ({ s with repair := none, repairDue := false }).askTwin w with
        | (true, t) => t
        | (false, t) => t.holdRecord.nextRepair
    | _, _ => s
  s1.pushPieces

/-- ACCEPT (R501): the owner's SVC writes begin. -/
def execAccept (m : Msg) (s : State) : Res :=
  .next (s.takeCustody m 2 fun t =>
    match t.image, t.pair with
    | some i, .offered =>
      if t.fromTwin m then
        { t with pair := .pushing, pushQueue := i.weights.flatMap fun (r : Nat × Nat) => pieces r.1 (r.2 / 64) }.pushPieces
      else t
    | _, _ => t)

/-- CUSTODY_PUSH_DONE (R501): the last write is acknowledged. -/
def execCustodyPushDone (s : State) : Res :=
  if s.pair = .pushing ∧ s.pushLeft = 0 ∧ s.pushQueue = [] then .next ({ s with pair := .completed }.sendCustody s.twin 3 0 0 [])
  else .next s

/-- The end of pairing or detachment in a refusal (R501, R505). -/
def State.pairRefused (s : State) (reason : Nat) : State :=
  if s.pair = .idle then s
  else
    let s1 := if s.detaching then s else s.dropPush.setReg R.custodyGiven 3
    { s1 with pair := .idle, detaching := false, pushLeft := 0, pushQueue := [] }.event 0x7044 0xFF (refusedDetail reason s.detaching)

/-- CONFIRM (R501): the pairing is confirmed, or the detachment completes. -/
def execConfirm (m : Msg) (s : State) : Res :=
  .next (s.takeCustody m 4 fun t =>
    if ¬ t.fromTwin m then t
    else match t.pair with
      | .completed =>
        let peer := BitVec.ofNat 64 (field (t.blob (R.peerIdentity 28)) 32 8)
        let t1 := (t.setReg R.custodyGiven 2).setBlob R.givenDigest t.offerDigest
        { t1 with pair := .idle, confirmedSerial := peer }.event 0x7043 0xFF noDetail
      | .checking =>
        let t1 := { (t.copyGone false).custodyNone with detaching := false }
        (t1.sendCustody t.twin 7 0 0 []).event 0x7047 0xFF noDetail
      | _ => t)

/-- REFUSE (R501). -/
def execRefuse (m : Msg) (s : State) : Res :=
  .next (s.takeCustody m 5 fun t => if t.fromTwin m then t.pairRefused (mf m 25 1) else t)

/-- CUSTODY_TIMEOUT (R501): a step without an answer for 5 s. The part that waits as holder refuses with reason 5. -/
def execCustodyTimeout (s : State) : Res :=
  if s.pair = .idle ∧ s.reg R.custodyHeld = 1 then .next ((s.copyGone false).sendCustody (s.reg R.heldSource) 5 5 0 [])
  else .next (s.pairRefused 5)

/-- A write of detach_request (R505). -/
def writeDetachRequest (_data : List Byte) (s : State) : WriteRes :=
  if s.inJob ∨ s.reg R.custodyGiven = 1 then s.wBad 0x0402
  else ({ s with pair := .checking, detaching := true }.sendCustody s.twin 6 0 0 []).wOk

/-! ## The holder's side -/

/-- OFFER (R501): refused while a job runs or to another than the twin, and, with the state unchanged, where its range count or
a length is zero (R10); else the copy begins afresh. -/
def execOffer (m : Msg) (s : State) : Res :=
  .next (s.takeCustody m 1 fun t =>
    let c := t.chipAt (mf m 4 2)
    if t.inJob then t.sendCustody c 5 1 0 []
    else if ¬ t.fromTwin m then t.sendCustody c 5 2 0 []
    else if offerRanges m = [] ∨ (offerRanges m).any (fun r => r.2 = 0) then t.sendCustody c 5 Config.zeroOfferReason.toNat 0 []
    else
      let t1 := ((t.copyGone false).setReg R.custodyHeld 1).setReg R.heldSource c
      let t2 := { t1.setReg R.lostNoticeChip c with heldRanges := offerRanges m, wantDigest := (bytesOf 64 (m.units.headD 0)).take 48 }
      t2.sendCustody c 2 0 0 [])

/-- The digest of the held copy, read from the custody area. -/
def State.hashCopy (s : State) : List Byte × State :=
  let (d, t) := s.heldRanges.foldl (fun (x : List Byte × State) r =>
    let (b, _, t) := x.2.readWords 1 r.1 (r.2 / 64)
    (x.1 ++ b.take r.2, t)) ([], s)
  (sha384 d, t)

/-- COMPLETE (R501): the received copy is hashed and confirmed or refused. -/
def execComplete (m : Msg) (s : State) : Res :=
  .next (s.takeCustody m 3 fun t =>
    let c := t.chipAt (mf m 4 2)
    if ¬ t.fromTwin m then t.sendCustody c 5 2 0 []
    else if t.reg R.custodyHeld ≠ 1 then t.sendCustody c 5 4 0 []
    else
      let (d, t1) := t.hashCopy
      if d = t.wantDigest then ((t1.setReg R.custodyHeld 2).setBlob R.heldDigest d).sendCustody c 4 0 0 []
      else (t1.copyGone false).sendCustody c 5 3 0 [])

/-- CHECK (R501): the copy is hashed again; when it is intact it is held for a detached twin. -/
def execCheck (m : Msg) (s : State) : Res :=
  .next (s.takeCustody m 6 fun t =>
    let c := t.chipAt (mf m 4 2)
    if ¬ t.fromTwin m then t.sendCustody c 5 2 0 []
    else if t.reg R.custodyHeld < 2 then t.sendCustody c 5 4 0 []
    else
      let (d, t1) := t.hashCopy
      if d = t.blob R.heldDigest then (t1.setReg R.custodyHeld 3).sendCustody c 4 0 0 [] else t1.sendCustody c 5 3 0 [])

/-- RELEASE (R503, R505): custody_given becomes none, and a copy that is being received is dropped. -/
def execRelease (m : Msg) (s : State) : Res :=
  .next (s.takeCustody m 7 fun t =>
    if ¬ t.fromTwin m then t
    else
      let t1 := t.custodyNone
      if t.reg R.custodyHeld = 1 then t1.copyGone false else t1)

/-- LOST (R503). -/
def execLost (m : Msg) (s : State) : Res :=
  .next (s.takeCustody m 8 fun t => if t.fromTwin m then t.custodyNone else t)

/-- A write of custody_release (R504, R505). -/
def writeCustodyRelease (_data : List Byte) (s : State) : WriteRes :=
  if s.inJob then s.wBad 0x0401
  else if s.reg R.custodyHeld = 0 then s.wOk
  else ((s.copyGone false).sendCustody (s.reg R.heldSource) 7 0 0 []).wOk

/-! ## Topology writes (R308, R320, R321, R326, R334) -/

/-- A write of chip_number (R334): a manifest that is loaded must have it; where the same commit writes a manifest, that one must
(R334: both stand in one transaction), which `writeManifest` checks. -/
def writeChipNumber (data : List Byte) (s : State) : WriteRes :=
  let c := leNat data
  let staged := s.staged.any fun x => x.1 == R.manifest / 256
  if s.manifest ≠ [] ∧ ¬ staged ∧ (recOf s.manifest c).isNone then s.wBad 0x0303
  else (s.setReg R.chipNumber c).wOk [.twin s.twin, .retrainUp]

/-- A write of the manifest (R320, R321). -/
def writeManifest (data : List Byte) (s : State) : WriteRes :=
  let st := if data = [] then 0 else manifestStatus data s.chip
  if st ≠ 0 then s.wBad st
  else
    (((s.setBlob R.manifest data).setBlob R.rankTable []).setBlob R.routeTable []).wOk [.twin s.twin, .measured, .retrainUp, .lost]

/-- Whether every rank entry is well formed and maps chips one to one, the part's own among them. -/
def State.ranksStatus (s : State) (d : List Byte) : Nat :=
  let es := (List.range 4096).map fun r => field d (2 * r) 2
  let valid := es.filter fun e => 32768 ≤ e
  if es.any rankReserved then 0x0301
  else if valid.any fun e => (recOf s.manifest (e % 4096)).isNone then 0x0303
  else if ¬ valid.Nodup ∨ ¬ (valid.any fun e => e % 4096 = s.chip) then 0x0303
  else 0

/-- A write of the rank table (R308, R309). -/
def writeRankTable (data : List Byte) (s : State) : WriteRes :=
  if s.manifest = [] then s.wBad 0x0402
  else if data = [] then (s.setBlob R.rankTable []).wOk
  else
    let st := s.ranksStatus data
    if st ≠ 0 then s.wBad st else (s.setBlob R.rankTable data).wOk

/-- One route entry against its derived one: 0, or the code it breaks (R326). -/
def routeStatus (e d : Nat) : Nat :=
  let m := e % 16
  let dm := d % 16
  if 512 ≤ e then 0x0301
  else if bits e 7 4 ≠ bits d 7 4 ∨ (bit e 8 && !bit d 8) then 0x0303
  else if (m &&& dm) ≠ m ∨ (m = 0 ∧ dm ≠ 0) then 0x0303
  else 0

/-- A write of the route table (R326). -/
def writeRouteTable (data : List Byte) (s : State) : WriteRes :=
  match ((List.range 4096).map fun c => routeStatus (field data (2 * c) 2) (derivedRoute s.manifest s.chip c)).find? (· ≠ 0) with
  | some st => s.wBad st
  | none => (s.setBlob R.routeTable data).wOk

end Sys2Proof.Machine
end

