-- ==== Sys2Proof/Machine/Dma.lean ====
section
/-! DEFINITION. The DMA block: descriptors, segments, chains, triggers and timers (R399 to R421). -/

namespace Sys2Proof.Machine

/-! ## Descriptors (R399, R400) -/

/-- The size of any space, for reads of the dictionary window and the status aperture (R302). -/
def fullSpace (space : Nat) : Nat := match space with | 2 => 2 ^ 48 | 3 => 0x30000 | x => spaceSize x

/-- A local range as the channel may use it: in its space, not in the image or clause area, written only in spaces 0, 1. -/
def localRange (a n : Nat) (write : Bool) : Bool :=
  let space := bits a 51 48
  let off := bits a 47 0
  bits a 63 52 == 0 && decide (space ≤ (if write then 1 else 3)) && decide (off + n ≤ fullSpace space)
    && (space != 1 || decide (off + n ≤ 0xD7D0000000 ∨ 0xD800000000 ≤ off))

/-- A remote range: a valid rank of a direct neighbour, in its space, written only in spaces 0 and 1 (R317). -/
def State.remoteRange (s : State) (a n : Nat) (write : Bool) : Bool :=
  let space := bits a 51 48
  (match s.rankChip (bits a 63 52) with
    | some c => (s.svcGroup c).isSome
    | none => false)
    && decide (space ≤ (if write then 1 else 3)) && decide (bits a 47 0 + n ≤ fullSpace space)

/-- A descriptor that breaks R400; its addresses count only where it moves bytes (R401). -/
def State.descInvalid (s : State) (d : Desc) : Bool :=
  d.reserved != 0 || decide (16 ≤ d.flags) || decide (1 < d.mode) || decide (d.seg < 12 ∨ 30 < d.seg)
    || (!d.fill && d.pattern != 0) || (d.srcRemote && d.dstRemote) || (d.fill && d.srcRemote)
    || decide (64 * d.segSize < d.len)
    || (d.len != 0
      && ((!d.fill && !(if d.srcRemote then s.remoteRange d.src d.len false else localRange d.src d.len false))
        || !(if d.dstRemote then s.remoteRange d.dst d.len true else localRange d.dst d.len true)))

/-! ## Moving bytes (R402 to R404) -/

/-- `n` DRAM words from `lo`: bytes, numbers of the bad words, and the counts made. -/
def State.readDramWords (s : State) (lo : Nat) : Nat → List Byte × List Nat × State
  | 0 => ([], [], s)
  | n + 1 =>
    let (d, bad, t) := s.readDramWords lo n
    let (w, b, t1) := t.readStack (lo + 64 * n)
    (d ++ w, if b then bad ++ [n] else bad, t1)

/-- A local source range: its bytes and the positions of those that cannot be read. -/
def State.readRange (s : State) (a n : Nat) : List Byte × List Nat × State :=
  let off := bits a 47 0
  match bits a 51 48 with
  | 0 =>
    let (d, _, t) := s.readSram off n
    (d, (List.range n).filter fun i =>
      (sramDecode (s.sram.read (off + i)) (s.sramChk.read (off + i))).2 = .bad, t)
  | 1 =>
    let lo := off / 64 * 64
    let (d, bad, t) := (s.touchStacks 1 off n).readDramWords lo (ceilDiv (off - lo + n) 64)
    ((d.drop (off - lo)).take n, (List.range n).filter fun i => bad.contains ((off - lo + i) / 64), t)
  | sp =>
    ((List.range n).map fun i =>
      let u := (off + i) / 64 * 64
      (if sp = 2 then s.windowUnit u else s.aperture u).getD ((off + i) % 64) 0, [], s)

/-- Pattern bytes for `n` bytes from destination offset `a` (R404). -/
def patternBytes (p a n : Nat) : List Byte := (List.range n).map fun i => BitVec.ofNat 8 (p / 256 ^ ((a + i) % 8))

/-- The bytes of a transfer from offset `o`: source bytes, or the pattern. -/
def State.transferBytes (s : State) (d : Desc) (o n : Nat) : List Byte × List Nat × State :=
  if d.fill then (patternBytes d.pattern (d.dst + o) n, [], s) else s.readRange (d.src + o) n

/-- Whether a byte of a transfer is undefined: its source or its destination has met another access (R419, R420). -/
def Chan.undefAt (x : Chan) (d : Desc) (i : Nat) : Bool :=
  x.clash.any fun c =>
    (!d.dstRemote && c.1 == bits d.dst 51 48 && decide (c.2.1 ≤ bits d.dst 47 0 + i ∧ bits d.dst 47 0 + i < c.2.2))
      || (!d.srcRemote && !d.fill && c.1 == bits d.src 51 48
        && decide (c.2.1 ≤ bits d.src 47 0 + i ∧ bits d.src 47 0 + i < c.2.2))

/-- Bytes of a transfer from offset `o`, free where they are undefined. -/
def State.freeWhere (s : State) (x : Chan) (d : Desc) (o : Nat) (l : List Byte) : List Byte × State :=
  if x.clash = [] then (l, s)
  else
    let (f, t) := s.freeBytes l.length
    ((l.zip f).zipIdx.map fun b => if x.undefAt d (o + b.2) then b.1.2 else b.1.1, t)

/-- The destination words of a range that are written in part and hold an uncorrectable word (R378). -/
def State.badEdges (s : State) (space off n : Nat) : List Nat :=
  if space ≠ 1 then []
  else
    ([off / 64 * 64, (off + n - 1) / 64 * 64].eraseDups).filter fun w =>
      decide (w < off ∨ off + n < w + 64) && (rsWord (s.dram.readN w 64) (s.dramChk.readN (w / 8) 8)).2.2

/-- Bytes of a segment put at their local destination from offset `o` of the transfer (R402, R409): 0, or 2 where a partial write
found its word uncorrectable. `bad` says which bytes could not be had; in a segment that fails, the units that hold such bytes
keep their old ones, and each other unit is written or not as a free value says. -/
def State.putSegment (s : State) (c : Nat) (d : Desc) (o : Nat) (l : List Byte) (bad : Nat → Bool) (fails : Bool) : State × Nat :=
  let x := s.chan c
  let space := bits d.dst 51 48
  let off := bits d.dst 47 0 + o
  let (l1, s1) := s.freeWhere x d o l
  let here := [(space, off, off + l.length, true)]
  let s2 := (s1.markClash here).modChan c fun y => { y with clash := x.clash }
  let edges := s.badEdges space off l.length
  if !fails && edges = [] then s2.writeRange space off l1
  else
    let lo := off / 64 * 64
    ((List.range (ceilDiv (off - lo + l.length) 64)).foldl (fun (t : State) u =>
      let w := lo + 64 * u
      let a := max off w
      let b := min (off + l.length) (w + 64)
      let (n, t1) := t.fresh
      if (List.range (b - a)).any fun i => bad (a - off + i) then t1
      else if edges.contains w || (Config.freeDma n).getLsbD 0 then (t1.writeRange space a (slice l1 (a - off) (b - a))).1
      else t1) s2, if edges = [] then 0 else 2)

/-- The words of SRAM that moving `n` bytes of a transfer from offset `o` reads and writes here (R70, R420). -/
def Desc.words (d : Desc) (o n : Nat) : List Nat :=
  (if d.fill || d.srcRemote then [] else sramWords (bits d.src 51 48) (bits d.src 47 0 + o) n)
    ++ (if d.dstRemote then [] else sramWords (bits d.dst 51 48) (bits d.dst 47 0 + o) n)

/-- The words of SRAM that the end of a remote segment writes: those of a read's local destination (R70, R420). -/
def Desc.landWords (d : Desc) (o n : Nat) : List Nat := if d.srcRemote then d.words o n else []

/-- `n` bytes of a local transfer moved from offset `o`: the reason its segment fails with, 0 for none. A reason that the command brings
fails it, too (R407). -/
def State.movePiece (s : State) (c : Nat) (d : Desc) (o n reason : Nat) : State × Nat :=
  let (l, bad, t) := s.transferBytes d o n
  let (t1, r) := (t.touchStacks (bits d.dst 51 48) (bits d.dst 47 0 + o) n).putSegment c d o l (fun i => bad.contains i)
    (bad != [] || reason != 0)
  (t1, if bad ≠ [] ∨ r ≠ 0 then 2 else reason)

/-- A remote segment's bytes, all of whose answers have come or been given up, put at their local destination (R407, R409). -/
def State.landSegment (s : State) (c : Nat) (d : Desc) (i : Nat) (fails : Bool) : State × Nat :=
  let x := s.chan c
  let (o, n) := d.segRange i
  let mine := x.got.filter fun g => o ≤ g.1 ∧ g.1 < o + n
  let byte (k : Nat) : Option Byte := (mine.find? fun g => g.1 ≤ k ∧ k < g.1 + g.2.length).bind fun g => g.2[k - g.1]?
  let l := (List.range n).map fun k => (byte (o + k)).getD 0
  let (t, r) := (s.touchStacks (bits d.dst 51 48) (bits d.dst 47 0 + o) n).putSegment c d o l
    (fun k => (byte (o + k)).isNone) fails
  (t.modChan c fun y => { y with got := y.got.filter fun g => ¬ (o ≤ g.1 ∧ g.1 < o + n) }, r)

/-! ## Chains and triggers (R411 to R415) -/

/-- A descriptor's local address with the part's chip number (R304). -/
def State.ownAddr (s : State) (a : Nat) : Nat := s.globalAddr (bits a 51 48) (bits a 47 0)

/-- The detail of a class 0x60 entry: reason and descriptor address (R484). -/
def dmaDetail (reason addr : Nat) : Nat := reason % 64 + addr / 64 * 64 % 2 ^ 64

/-- A channel IDLE with a status, its pending events cleared. -/
def State.chanIdle (s : State) (c status : Nat) : State :=
  ((s.setReg (R.dmaState c) 0).setReg (R.dmaStatus c) status).setChan c {}

/-- A channel takes the next descriptor of its chain. -/
def State.chanRun (s : State) (c : Nat) : State :=
  (s.setReg (R.dmaState c) 2).modChan c fun x => { x with busy := false, credit := true }

/-- A trigger event counted as ignored, with how many the present slot has counted: a stop of the same slot takes them back (R419). -/
def State.ignoreEvent (s : State) (c : Nat) : State :=
  let t := s.bump (R.eventsIgnored c) 32
  let d := t.reg (R.eventsIgnored c) - s.reg (R.eventsIgnored c)
  t.modChan c fun y => { y with evAt := some s.now, evCount := if y.evAt = some s.now then y.evCount + d else d }

/-- A stop takes back what events of its own slot have counted (R419). -/
def State.unignore (s : State) (c : Nat) : State :=
  let x := s.chan c
  if x.evAt = some s.now then
    (s.setReg (R.eventsIgnored c) (s.reg (R.eventsIgnored c) - x.evCount)).modChan c fun y => { y with evAt := none, evCount := 0 }
  else s

/-- An event dropped beyond 255 pending: counted, logged once per frame (R415). -/
def State.dropEvent (s : State) (c : Nat) : State :=
  let s1 := s.ignoreEvent c
  if s.dmaOverflowFrame = some s.frame then s1
  else ({ s1 with dmaOverflowFrame := some s.frame }).event 0x6003 c (dmaDetail 0 (s.reg (R.currentDesc c)))

/-- A trigger event reaching a channel; one in the slot of a stop is dropped uncounted, one before the stop too (R415, R419; that the beat
of R419 is the slot is a DESIGN CHOICE, log entry 16). -/
def State.eventTo (s : State) (c : Nat) : State :=
  let x := s.chan c
  match s.reg (R.dmaState c) with
  | 1 => s.chanRun c
  | 2 =>
    if x.stopReq ∧ x.stopAt = some s.now then s
    else if s.reg (R.dmaPaced c) = 0 then s.ignoreEvent c
    else if 255 ≤ x.pending then s.dropEvent c
    else s.modChan c fun y => { y with pending := y.pending + 1 }
  | _ => s

/-- Whether a channel that runs has a chain of no descriptors, which ends at its start (R411). -/
def State.emptyChain (s : State) (c : Nat) : Bool := s.reg (R.dmaState c) == 2 && s.reg (R.dmaDescCount c) == 0

/-- An event of kind 1 (timer), 2 (descriptor) or 3 (chain) delivered to every channel it triggers; chains of no
descriptors end at once and raise their own, to a depth of `n`. -/
def State.deliver (s : State) : Nat → Nat → Nat → State
  | 0, _, _ => s
  | n + 1, kind, src =>
    s.each (List.range 64) fun t c =>
      if t.reg (R.dmaTrigger c) = kind ∧ t.reg (R.dmaTriggerSource c) = src then
        let t1 := t.eventTo c
        if t1.emptyChain c then (t1.chanIdle c 0).deliver n 3 c else t1
      else t

/-- A chain that ends with a status; DONE raises its chain event. -/
def State.endChain (s : State) (c status : Nat) : State :=
  let s1 := s.chanIdle c status
  if status = 0 then s1.deliver 64 3 c else s1

/-- A write of start (R412, R414). -/
def writeDmaStart (_data : List Byte) (s : State) : WriteRes :=
  let c := s.reg R.channelSelect
  if s.reg (R.dmaState c) ≠ 0 then s.wBad 0x0402
  else
    let s1 := (s.setReg (R.descDone c) 0).setChan c { addr := s.reg (R.dmaHead c) }
    if s.reg (R.dmaTrigger c) ≠ 0 then (s1.setReg (R.dmaState c) 1).wOk
    else
      let s2 := s1.chanRun c
      (if s2.emptyChain c then s2.endChain c 0 else s2).wOk

/-- A write of stop (R417). -/
def writeDmaStop (_data : List Byte) (s : State) : WriteRes :=
  let c := s.reg R.channelSelect
  match s.reg (R.dmaState c) with
  | 1 => (s.chanIdle c 3).wOk
  | 2 =>
    if (s.chan c).busy then ((s.unignore c).modChan c fun x => { x with stopReq := true, stopAt := some s.now }).wOk
    else ((s.unignore c).chanIdle c 3).wOk
  | _ => s.wOk

/-- The writes of the channel's set-up entries: only while it is IDLE; trigger and source keep R414 (R423). -/
def writeDmaSetup (k : Nat) (data : List Byte) (s : State) : WriteRes :=
  let c := s.reg R.channelSelect
  let v := leNat data
  let trig := if k = R.dmaTrigger 0 then v else s.reg (R.dmaTrigger c)
  let src := if k = R.dmaTriggerSource 0 then v else s.reg (R.dmaTriggerSource c)
  if s.reg (R.dmaState c) ≠ 0 then s.wBad 0x0402
  else if (k = R.dmaTrigger 0 ∨ k = R.dmaTriggerSource 0) ∧ ((trig = 1 ∧ 15 < src) ∨ (2 ≤ trig ∧ src = c)) then s.wBad 0x0303
  else (s.setReg (k + c) v).wOk

/-! ## Running a descriptor -/

/-- The bytes 48 to 63 that a channel writes back (R399). -/
def State.writeBack (s : State) (addr status reason bitmap : Nat) : State :=
  ((s.touchStacks (bits addr 51 48) (bits addr 47 0 + 48) 16).writeRange (bits addr 51 48) (bits addr 47 0 + 48)
    (toLE 1 status ++ toLE 1 reason ++ zeros 6 ++ toLE 8 bitmap)).1

/-- A descriptor that ended well: the descriptor event, then the stop, the end of the chain, or the next one (R410,
R411, R415, R417). -/
def State.descOk (s : State) (c : Nat) (d : Desc) : State :=
  let x := s.chan c
  let ran := x.ran + 1
  let s1 := (s.bump (R.descDone c) 32).modChan c fun y => { y with busy := false, credit := false, ran := ran, addr := d.next }
  let s2 := s1.deliver 64 2 c
  let n := s.reg (R.dmaDescCount c)
  if x.stopReq then s2.chanIdle c 3
  else if d.last ∨ (n ≠ 0xFFFFFFFF ∧ n ≤ ran) then s2.endChain c 0
  else if s.reg (R.dmaPaced c) = 0 then s2.chanRun c
  else if (s2.chan c).pending = 0 then s2.setReg (R.dmaState c) 1
  else (s2.modChan c fun y => { y with pending := y.pending - 1 }).chanRun c

/-- A channel that takes up a descriptor: nothing of it is moved, and what it has in common with every access outstanding, with the other
channels' transfers in flight and with a scrub with write-back is undefined (R72, R154, R388, R419). -/
def State.takesUp (s : State) (c : Nat) (x : Chan) : Chan :=
  let others := (s.chans.filter fun y => y.1 ≠ c).flatMap fun y => y.2.flight
  { x with segDone := [], segOut := [], segBad := [], sent := 0, got := [], edges := [], flagged := false, was := []
           clash := common (s.outSpans ++ others ++ s.scrubSpans) x.flight }

/-- DESCRIPTOR_FETCH (R399 to R401, R413). A link that R399 does not allow ends the chain as an invalid descriptor does, with nothing
read or written back: DESIGN CHOICE, log entry 16. -/
def descriptorFetchNow (ch : ChanId) (s : State) : Res :=
  let c := ch.val
  let x := s.chan c
  if s.reg (R.dmaState c) ≠ 2 ∨ x.busy ∨ ¬ x.credit then .next s
  else
    let a := x.addr
    let here := s.ownAddr a
    let (s0, ok) := s.bgTry [5, c] (if descAddr a then sramWords (bits a 51 48) (bits a 47 0) 48 else [])
    let (l, bad, t) := s0.readRange a 48
    let t1 := t.setReg (R.currentDesc c) here
    if ¬ ok then .next s0
    else if ¬ descAddr a then .next (((s.setReg (R.currentDesc c) here).endChain c 5).event 0x6002 c (dmaDetail 0 here))
    else if bad ≠ [] then .next ((t1.endChain c 6).event 0x6002 c (dmaDetail 0 here))
    else
      let raw : BitVec 512 := ofBytes 512 l
      let d := descFields raw
      if t1.descInvalid d then .next (((t1.writeBack a 5 0 0).endChain c 5).event 0x6002 c (dmaDetail 0 here))
      else if d.len = 0 then .next ((t1.writeBack a 0 0 0).descOk c d)
      else .next (t1.modChan c fun y => (t1.takesUp c { y with busy := true, desc := raw }))

/-- An SVC message of a channel for `units` units at a far address, with its reply slot (R312, R406). Its first one of a descriptor may
bear the period flag. -/
def State.dmaSend (s : State) (c i far units n kind : Nat) (data : List (BitVec 512)) : State :=
  let x := s.chan c
  let d := descFields x.desc
  let chip := (s.rankChip (bits (if d.srcRemote then d.src else d.dst) 63 52)).getD 0
  let ident := s.nextIdent % 2 ^ 30
  let m : Msg := { vc := 5, period := d.period && !x.flagged, units := data
                   hdr := reqHdr data.length chip s.chip (if kind = 4 then 2 else 1) ident (far % 2 ^ 52 / 64 * 64) units }
  let slot : ReplySlot := { ident := BitVec.ofNat 32 ident, chip := chip, core := c, q := i, tag := 0, units := n, kind := kind
                            loc := if kind = 7 then far else x.sent }
  let t := { s with nextIdent := s.nextIdent + 1 }.reserve slot
  let (tx, t1) := (t.modChan c fun y => { y with flagged := true, segOut := Tab.set y.segOut i (Tab.get 0 y.segOut i + 1) }).newTx m
  t1.routeMsg tx

/-- The units that `n` bytes of a remote destination fill only in part: SVC messages carry whole units and no byte enables (R313), so what
those hold is read before (R402; DESIGN CHOICE, log entry 16). -/
def partUnits (far n : Nat) : List Nat :=
  ((if far % 64 ≠ 0 then [far / 64 * 64] else []) ++ if (far + n) % 64 ≠ 0 then [(far + n) / 64 * 64] else []).eraseDups

/-- What an edge unit held, once it has been read; empty where that failed. -/
def Chan.edge (x : Chan) (w : Nat) : Option (List Byte) := (x.edges.find? fun e => e.1 = w).bind (·.2)

/-- The next bytes of a remote destination sent, the units at their edges read before with nothing of the channel outstanding (R402). -/
def State.dmaPush (s : State) (c i far n : Nat) : State :=
  let x := s.chan c
  let d := descFields x.desc
  let lead := far % 64
  let units := ceilDiv (lead + n) 64
  let skip (t : State) : State := t.modChan c fun y => { y with sent := x.sent + n, edges := [] }
  match (partUnits far n).find? fun w => (x.edge w).isNone with
  | some w =>
    if x.segOut.any fun y => y.2 ≠ 0 then s
    else (s.dmaSend c i w 1 64 7 []).modChan c fun y =>
      if (y.edge w).isSome then y else { y with edges := (w, none) :: y.edges.filter fun e => e.1 ≠ w }
  | none =>
    if (partUnits far n).any fun w => x.edge w = some [] then skip s
    else
      let (s1, ok) := s.bgTry [3, c] (d.words x.sent n)
      if ¬ ok then s1
      else
        let (l0, bad, t0) := s1.transferBytes d x.sent n
        let (l, t) := t0.freeWhere x d x.sent l0
        if bad ≠ [] then
          (skip t).modChan c fun y => { y with segBad := if Tab.get 0 y.segBad i = 0 then Tab.set y.segBad i 2 else y.segBad }
        else
          let pre := ((x.edge (far / 64 * 64)).getD []).take lead
          let post := ((x.edge ((far + n) / 64 * 64)).getD []).drop ((far + n) % 64)
          let full := pre ++ l ++ if (far + n) % 64 = 0 then [] else post
          skip (t.dmaSend c i far units n 4 ((List.range units).map fun j => ofBytes 512 (slice full (64 * j) 64)))

/-- One SVC message of a channel's remote transfer sent, if a reply slot is free (R406, R421). -/
def State.dmaPump (s : State) (c : Nat) : State :=
  let x := s.chan c
  let d := descFields x.desc
  if ¬ x.busy ∨ ¬ (d.srcRemote ∨ d.dstRemote) ∨ d.len ≤ x.sent ∨ 1024 ≤ s.slotsUsed then s
  else
    let i := x.sent / d.segSize
    let fin := min d.len ((i + 1) * d.segSize)
    if (x.segDone.any fun y => y.1 = i) then s.modChan c fun y => { y with sent := fin }
    else
      let far := (if d.srcRemote then d.src else d.dst) + x.sent
      let n := min (4096 - far % 64) (fin - x.sent)
      if d.dstRemote then s.dmaPush c i far n
      else (s.dmaSend c i far (ceilDiv (far % 64 + n) 64) n 3 []).modChan c fun y => { y with sent := x.sent + n }

/-- The bytes of a space as they are stored. -/
def State.rawBytes (s : State) (space off n : Nat) : List Byte := (if space = 0 then s.sram else s.dram).readN off n

/-- A local segment that fails: each unit of it that has been moved holds its new bytes or its old ones, as a free value says (R409). -/
def State.undoSegment (s : State) (c : Nat) (d : Desc) (i : Nat) : State :=
  let mine (g : Nat × List Byte) : Bool := g.1 / d.segSize == i
  (s.each ((s.chan c).was.filter mine) fun t g => (t.putSegment c d g.1 g.2 (fun _ => false) true).1).modChan c fun y =>
    { y with was := y.was.filter fun g => !mine g }

/-- Up to 4 KiB of local units of a channel's transfer moved, once their banks are free (R70, R421); what they held is kept until their
segment ends (R409). -/
def State.localTurn (s : State) (c : Nat) : State :=
  let x := s.chan c
  let d := descFields x.desc
  if ¬ x.busy ∨ d.srcRemote ∨ d.dstRemote ∨ d.len ≤ x.sent then s
  else
    let i := x.sent / d.segSize
    let fin := min d.len ((i + 1) * d.segSize)
    if (x.segDone.any fun y => y.1 = i) then s.modChan c fun y => { y with sent := fin }
    else
      let n := min (4096 - (d.dst + x.sent) % 64) (fin - x.sent)
      let (s1, ok) := s.bgTry [3, c] (d.words x.sent n)
      if ¬ ok then s1
      else
        let had := Tab.get 0 x.segBad i
        let old := s.rawBytes (bits d.dst 51 48) (bits d.dst 47 0 + x.sent) n
        let (t, r) := s1.movePiece c d x.sent n had
        let t1 := t.modChan c fun y => { y with sent := x.sent + n, was := if r = 0 then y.was ++ [(x.sent, old)] else y.was }
        if r = 0 then t1 else (t1.undoSegment c d i).modChan c fun y => { y with segBad := if had = 0 then Tab.set y.segBad i r else y.segBad }

/-- The running channel whose turn it is (R421). -/
def State.dmaNext (s : State) : Option Nat :=
  let l := (s.chans.filter fun x => x.2.busy).map (·.1)
  ((l.filter (s.dmaTurn ≤ ·)) ++ l.filter (· < s.dmaTurn)).head?

/-- The turn of the next running channel in rotation: one message, or 4 KiB of local units (R421). -/
def State.dmaPumps (s : State) : State :=
  match s.dmaNext with
  | none => s
  | some c => { (s.dmaPump c).localTurn c with dmaTurn := (c + 1) % 64 }

/-- A remote segment ended with a reason: what a read has brought is written now. -/
def State.endRemote (s : State) (c : Nat) (d : Desc) (i r : Nat) : State :=
  let (t, w) := if d.srcRemote then s.landSegment c d i (r != 0) else (s, 0)
  t.modChan c fun y => { y with edges := [], segOut := Tab.set y.segOut i 0, segDone := Tab.set y.segDone i (if r = 0 then w else r) }

/-- A local segment ended, all its bytes moved or not (R407, R409): 0, or the reason it fails with. -/
def State.endLocal (s : State) (c : Nat) (d : Desc) (i reason : Nat) : State :=
  let had := Tab.get 0 (s.chan c).segBad i
  let t := if had = 0 ∧ reason ≠ 0 then s.undoSegment c d i else s
  t.modChan c fun y => { y with segDone := Tab.set y.segDone i (if had ≠ 0 then had else reason)
                                was := y.was.filter fun g => g.1 / d.segSize ≠ i }

/-- DMA_SEGMENT_DONE (R405, R407, R421): a local segment whose bytes are all moved ends, the channel's own turn taken first where some
are left; a remote one has all its answers, and its bytes land once the banks they need have been free (R70). A reason the command
brings fails a segment that would have succeeded. -/
def dmaSegmentDoneNow (ch : ChanId) (seg : Fin 64) (reason : Byte) (s : State) : Res :=
  let c := ch.val
  let i := seg.val
  let x := s.chan c
  let d := descFields x.desc
  let (o, n) := d.segRange i
  if ¬ x.busy ∨ d.segs ≤ i ∨ (x.segDone.any fun y => y.1 = i) then .next s
  else if d.srcRemote ∨ d.dstRemote then
    let (s1, ok) := s.bgTry [4, c, i] (d.landWords o n)
    if x.sent < o + n ∨ Tab.get 0 x.segOut i ≠ 0 then .next s
    else if ¬ ok then .next s1
    else .next (s1.endRemote c d i (if Tab.get 0 x.segBad i ≠ 0 then Tab.get 0 x.segBad i else reason.toNat))
  else
    let s1 := if x.sent < o + n ∧ s.dmaNext = some c then s.dmaPumps else s
    if (s1.chan c).sent < o + n then .next s1 else .next (s1.endLocal c d i reason.toNat)

/-- DMA_REMOTE_TIMEOUT (R407): a segment with a message unanswered fails, sends no more, and its reply slots are freed; what a read has
brought lands now or, with a bank taken, at its DMA_SEGMENT_DONE (R70). -/
def dmaRemoteTimeoutNow (ch : ChanId) (seg : Fin 64) (s : State) : Res :=
  let c := ch.val
  let i := seg.val
  let x := s.chan c
  if ¬ x.busy ∨ Tab.get 0 x.segOut i = 0 ∨ (x.segDone.any fun y => y.1 = i) then .next s
  else
    let s1 := { s with slots := s.slots.filter fun y => ¬ ((y.kind = 3 ∨ y.kind = 4 ∨ y.kind = 7) ∧ y.core = c ∧ y.q = i) }
    let d := descFields x.desc
    let (o, n) := d.segRange i
    let r := if Tab.get 0 x.segBad i ≠ 0 then Tab.get 0 x.segBad i else 5
    let s2 := s1.modChan c fun y => { y with sent := max y.sent (o + n), edges := [], segOut := Tab.set y.segOut i 0
                                             segBad := Tab.set y.segBad i r }
    let (s3, ok) := s2.bgTry [4, c, i] (d.landWords o n)
    if ok then .next (s3.endRemote c d i r) else .next s3

/-- DESCRIPTOR_COMPLETE (R407, R410): every segment has ended, and the bank of the descriptor's end has been free (R70). -/
def descriptorCompleteNow (ch : ChanId) (s : State) : Res :=
  let c := ch.val
  let x := s.chan c
  let d := descFields x.desc
  if ¬ x.busy ∨ x.segDone.length < d.segs then .next s
  else
    let (s0, ok) := s.bgTry [6, c] (sramWords (bits x.addr 51 48) (bits x.addr 47 0 + 48) 16)
    let fails := x.segDone.filter fun y => y.2 ≠ 0
    let map := fails.foldl (fun a y => a + 2 ^ y.1) 0
    let reason := (fails.head?.map (·.2)).getD 0
    if ¬ ok then .next s0
    else if fails = [] then .next ((s0.writeBack x.addr 0 0 0).descOk c d)
    else
      let st := if fails.length < x.segDone.length then 1 else 2
      let s1 := ((s0.writeBack x.addr st reason map).setReg (R.dmaFailBitmap c) map).setReg (R.dmaFailReason c) reason
      .next ((s1.endChain c st).event 0x6001 c (dmaDetail reason (s.ownAddr x.addr)))

/-! ## Timers (R416) -/

/-- A write of a timer's enable. -/
def writeTimerEnable (data : List Byte) (s : State) : WriteRes :=
  let t := s.reg R.timerSelect
  if leNat data = 0 then
    ({ s.setReg (R.timerEnable t) 0 with timerNext := Tab.set s.timerNext t none } : State).wOk
  else
    let first := s.reg (R.timerStartFrame t) * 4096 + s.reg (R.timerStartSlot t)
    ({ (s.setReg (R.timerEnable t) 1).setReg (R.timerFires t) 0 with
        timerNext := Tab.set s.timerNext t (some first) } : State).wOk

/-- The writes of a timer's set-up entries: only while it is not enabled (R423). -/
def writeTimerSetup (k : Nat) (data : List Byte) (s : State) : WriteRes :=
  let t := s.reg R.timerSelect
  if s.reg (R.timerEnable t) ≠ 0 then s.wBad 0x0402 else (s.setReg (k + t) (leNat data)).wOk

/-- DMA_TIMER_FIRE (R416): a firing slot has come; one that was skipped fires once, and the schedule goes on. -/
def execDmaTimerFire (t : Fin 16) (s : State) : Res :=
  let i := t.val
  match (Tab.get none s.timerNext i : Option Nat) with
  | none => .next s
  | some n =>
    if s.reg (R.timerEnable i) = 0 ∨ s.now < n then .next s
    else
      let p := s.reg (R.timerPeriod i)
      let nxt := if p = 0 then none else some (n + ((s.now - n) / p + 1) * p)
      .next (({ s with timerNext := Tab.set s.timerNext i nxt }.bump (R.timerFires i) 32).deliver 64 1 i)

end Sys2Proof.Machine
end

