-- ==== Sys2Proof/Machine/Fabric.lean ====
section
/-! DEFINITION. The scheduled fabric slot by slot: slot table entries, local sends, forwards, landings, pending uses,
deadlines, and what each port transmits (R165 to R193, R209). -/

namespace Sys2Proof.Machine

/-! ## Clauses (R195 to R197) -/

/-- Entries of a port table. -/
def Clause.len (c : Clause) : Nat := 512 * 2 ^ bits c.hdr.toNat 49 48

def Clause.frames (c : Clause) : Nat := bits c.hdr.toNat 47 16

def Clause.deadline (c : Clause) : Nat := bits c.hdr.toNat 79 64

def Clause.envelope (c : Clause) : Nat := bits c.hdr.toNat 95 80

def Clause.present (c : Clause) : Nat := bits c.hdr.toNat 127 96

/-- The variant a clause names for a port that runs at 4 lanes: 15 for none. -/
def Clause.variant (c : Clause) (p : Nat) : Nat := bits c.hdr.toNat (128 + 4 * p + 3) (128 + 4 * p)

/-- The entry of a port's table in a slot; 0 where the port has no table (R173, R197). -/
def Clause.entry (c : Clause) (p k : Nat) : BitVec 64 := (Tab.get [] c.tables p).getD (k % c.len) 0

/-- A slot table entry taken apart (R169). -/
structure SlotEntry where
  valid : Bool
  kind : Nat
  period : Bool
  mask : Nat
  input : Nat
  number : Nat
  hold : Nat
  deriving DecidableEq, Repr

/-- The fields of an entry's 64 bits. -/
def entryFields (e : BitVec 64) : SlotEntry :=
  let x := e.toNat
  { valid := bit x 63, kind := bits x 62 60, period := bit x 59, mask := bits x 55 23, input := bits x 22 18,
    number := bits x 17 8, hold := bits x 7 0 }

/-- The output ports of a mask. -/
def SlotEntry.outs (e : SlotEntry) : List Nat := bitsSet e.mask 32

/-- The core and stream of a send or landing map entry (R174). -/
def mapEntry (l : List (BitVec 32)) (n : Nat) : Nat × Nat :=
  let x := (l.getD n 0).toNat
  (bits x 9 0, bits x 12 10)

/-- The clause that carries scheduled traffic now. -/
def State.runningClause (s : State) : Option Clause :=
  if s.sched then s.clauseAt (s.reg R.activeClause) else none

/-- The entry of a port in the present slot. -/
def State.entryNow (s : State) (c : Clause) (p : Nat) : SlotEntry := entryFields (c.entry p s.slot)

/-! ## Landings (R183 to R185, R193) -/

/-- The upstream slot and frame bits a use matches: k − h − R, in earlier frames where negative (R181). -/
def useOf (a hold r : Nat) : Nat × Nat :=
  let u := (a + 4096 * 16 - hold - r) % 65536
  (u % 4096, u / 4096)

/-- The flit a use waits for, once it is in its landing buffer. -/
def State.flitFor (s : State) (u : FUse) : Option Landed :=
  (s.port u.input).landing.find? fun f => f.txSlot = u.txSlot ∧ f.frameLo = u.frameLo ∧ f.ready ≤ s.now

/-- Whether a use stands before another in landing order: earlier entry slot, then lower input port. -/
def landsBefore (x y : FUse) : Bool := decide (x.slot < y.slot) || (x.slot == y.slot && decide (x.input < y.input))

/-- Whether a landing's turn has come: nothing earlier into its stream is left, nor, for a flagged flit, anywhere. -/
def State.landTurn (s : State) (u : FUse) (f : Landed) : Bool :=
  s.uses.all fun x => !(landsBefore x u) || x.land.isNone
    || (if f.period then decide (u.slot ≤ x.slot) && decide (x.land ≠ u.land) else decide (x.land ≠ u.land))

/-- Room in a region's spine bridge for another landing in this slot (R75). -/
def State.bridgeRoom (s : State) (r : Nat) : Bool :=
  let l := (s.region r).spineIn
  decide (l.length < 64) && decide ((l.filter fun f => f.ready = s.now + 4).length < 4)

/-- A use with nothing left to do gives up its flit (R188). -/
def State.settleUse (s : State) (u : FUse) : State :=
  if u.ports = [] ∧ u.land.isNone then
    ({ s with uses := s.uses.filter fun x => x ≠ u }).modPort u.input fun x =>
      { x with landing := x.landing.filter fun f => ¬ (f.txSlot = u.txSlot ∧ f.frameLo = u.frameLo) }
  else s

/-- A use replaced by what is left of it. -/
def State.putUse (s : State) (u v : FUse) : State :=
  ({ s with uses := s.uses.map fun x => if x = u then v else x }).settleUse v

/-- The wait of a pending use that ends, kept if it is the longest (R183, R215). -/
def State.noteWait (s : State) (u : FUse) : State :=
  if ¬ u.pended then s else s.setReg R.pendingWaitMax (max (s.reg R.pendingWaitMax) (min 65535 (s.now - u.slot)))

/-- One landing completed if its flit is ready and its turn has come (R184). For the delivery deadline of R191 it is complete when
the flit enters the spine bridge: a flit that waits in the bridge for its stream has no deadline of its own, and its wait reaches
a deadline through the bridge's room (R147; DEDUCED from R184's order, log entry 66). -/
def State.tryLand (s : State) (u : FUse) : State :=
  match u.land, s.flitFor u with
  | some (c, st), some f =>
    if s.landTurn u f ∧ s.bridgeRoom (c / 64) then
      let b : BFlit := { core := c, stream := st, payload := f.payload, ready := s.now + 4 }
      ((s.noteWait u).modRegion (c / 64) fun x => { x with spineIn := x.spineIn ++ [b] }).putUse u { u with land := none }
    else s
  | _, _ => s

/-- Uses in landing order. -/
def sortUses (l : List FUse) : List FUse := l.mergeSort fun x y => !landsBefore y x

/-- Every landing that can complete now, in order; `only` limits it to one input port. -/
def State.landAll (s : State) (only : Option Nat) : State :=
  s.each ((sortUses s.uses).filter fun u => u.land.isSome ∧ (only = none ∨ only = some u.input)) State.tryLand

/-- Landed flits of a region enter their landing streams in order; one for a full stream holds back those behind it
(R147, R184). At most `n`. -/
def State.arrive (s : State) (r : Nat) : Nat → State
  | 0 => s
  | n + 1 =>
    match (s.region r).spineIn with
    | [] => s
    | f :: rest =>
      let l := Tab.get [] (s.core f.core).land f.stream
      if s.now < f.ready ∨ 8 ≤ l.length then s
      else
        let s1 := s.modRegion r fun x => { x with spineIn := rest }
        (s1.modCore f.core fun k =>
          { k with land := Tab.set k.land f.stream (l ++ [{ payload := f.payload, ready := (s.region r).beat }]) }).arrive r n

/-! ## Deadlines (R191) -/

/-- Uses still incomplete after their deadline raise DEADLINE_MISS once each. -/
def State.missDeadlines (s : State) : State :=
  let late := s.uses.filter fun u => u.deadline < s.now ∧ ¬ u.late
  s.each late fun t u =>
    (({ t with uses := t.uses.map fun x => if x = u then { u with late := true } else x }).bump R.deadlineMisses 32).raise
      0x2010 ((u.ports.head?).getD u.input) (fabDetail (u.slot % 4096) u.clause)

/-! ## Sending -/

/-- Whether a port can transmit now. -/
def State.canSend (s : State) (p : Nat) : Bool :=
  s.reg (R.linkState p) = 7 && s.widthSlot p && decide ((s.port p).sentAt ≠ some s.now)

/-- A scheduled flit on a port, in its place or in a slack slot. -/
def State.sendSched (s : State) (p : Nat) (txSlot frameLo : Nat) (period late : Bool) (payload : Vec) : State :=
  s.sendNew p { type := 1, period := period, txSlot := txSlot, frameLo := frameLo, late := late } payload

/-- The flit of a stream in the spine bridge that no local send has taken yet. -/
def State.openFlit (s : State) (c st : Nat) : Option BFlit :=
  (s.region (c / 64)).bridgeOut.find? fun f => f.core = c ∧ f.stream = st ∧ f.claim.isNone

/-- SLOT_LATE against the core that owns the stream; its region stops after the beat in which the deadline passes, at once where it
issues nothing now, and a frame hold no longer keeps what it has issued (R146, R161, R163, R177). A flit already in the bridge is
dropped, one still to come is dropped on entry. The record names slot C and the core's present bundle, since the fault is found in none
(R163; DESIGN CHOICE, log entry 67). -/
def State.slotLate (s : State) (c st : Nat) : State :=
  let x := s.region (c / 64)
  let k := s.core c
  let phys := 72 * (c / 64) + x.map.getD (c % 64) 0
  let s1 := match s.openFlit c st with
    | some f => s.modRegion (c / 64) fun y => { y with bridgeOut := y.bridgeOut.erase f }
    | none => { s with lateDebt := Tab.set s.lateDebt (8 * c + st) (Tab.get 0 s.lateDebt (8 * c + st) + 1) }
  let stop := s.issuing (c / 64)
  (s1.raise 0x1003 (c / 64) (coreDetail c phys 3 k.pc x.beat) (some (c, k.pc))).modRegion (c / 64)
    fun y => if stop then { y with stopping := true } else { y with stopped := true, frameHeld := false }

/-- The send deadline of a local send entry in absolute slot `a`: the entry takes the next flit of its stream if that has
entered the spine bridge by slot a − 8 (R176, R177). -/
def State.claimSend (s : State) (c : Clause) (e : SlotEntry) (a : Nat) : State :=
  let (core, st) := mapEntry c.sendMap e.number
  match s.openFlit core st with
  | some f =>
    if f.ready + 8 ≤ a then
      s.modRegion (core / 64) fun x => { x with bridgeOut := x.bridgeOut.replace f { f with claim := some a } }
    else s.slotLate core st
  | none => s.slotLate core st

/-- The flit that the local send of this slot has taken. -/
def State.takeSpine (s : State) (c st : Nat) : Option (Vec × State) :=
  match (s.region (c / 64)).bridgeOut.find? fun f => f.core = c ∧ f.stream = st ∧ f.claim = some s.now with
  | some f => some (f.payload, s.modRegion (c / 64) fun x => { x with bridgeOut := x.bridgeOut.erase f })
  | none => none

/-- REPLAY_FULL: a scheduled flit is due while a named port's replay buffer is full (R242). -/
def State.replayFull (s : State) (ports : List Nat) : Option Nat := ports.find? fun p => 512 ≤ (s.port p).outstanding

/-- A local send entry in its slot. One whose flit missed its deadline leaves an idle control flit, as R177 has it, and not what a gap
carries, as the table of R189 does (DESIGN CHOICE, log entry 67); a pending link operation goes in the idle flit's place (R232). -/
def State.doSend (s : State) (c : Clause) (e : SlotEntry) : State :=
  let (core, st) := mapEntry c.sendMap e.number
  match s.takeSpine core st with
  | none => s.each e.outs fun t q => if t.canSend q then t.sendLast q else t
  | some (v, s1) =>
    match s1.replayFull e.outs with
    | some p =>
      let s2 := s1.raise 0x2024 p (fabDetail s.slot c.number)
      s2.each e.outs fun t q => if t.canSend q then t.sendLast q else t
    | none => s1.each e.outs fun t q =>
        if t.canSend q ∧ t.carriesSched q then t.sendSched q s.slot s.frame e.period false v else t

/-- A forward or local landing entry in its slot becomes a use; its forward goes now where the flit is ready. -/
def State.doUse (s : State) (c : Clause) (e : SlotEntry) : State :=
  let r := s.reg (R.readyOffsetAssumed e.input)
  let (u, f) := useOf s.now e.hold r
  let x : FUse := { slot := s.now, input := e.input, txSlot := u, frameLo := f, ports := e.outs,
                    land := if bit e.mask 32 then some (mapEntry c.landMap e.number) else none,
                    deadline := s.now + c.deadline, clause := c.number, late := false }
  let s1 := { s with uses := s.uses ++ [x] }
  match s1.flitFor x with
  | none => { s with uses := s.uses ++ [{ x with pended := true }] }.bump R.pendingUses 32
  | some fl =>
    match s1.replayFull e.outs with
    | some p =>
      let s2 := s1.raise 0x2024 p (fabDetail s.slot c.number)
      s2.each e.outs fun t q => if t.canSend q then t.sendLast q else t
    | none =>
      (s1.each e.outs fun t q =>
        if t.canSend q ∧ t.carriesSched q then t.sendSched q s.slot s.frame fl.period false fl.payload else t).putUse
        x { x with ports := [] }

/-- Whether a port is the one at which an entry is performed: the lowest port of its mask, or the port of a landing. -/
def performsAt (e : SlotEntry) (p : Nat) : Bool := if e.kind = 3 then true else e.outs.head? == some p

/-- The deadlines of the local sends in absolute slot `a` of a clause. -/
def State.claimSlot (s : State) (c : Clause) (a : Nat) : State :=
  s.each (List.range 32) fun t p =>
    let e := entryFields (c.entry p (a % 4096))
    if e.valid ∧ e.kind = 1 ∧ performsAt e p then t.claimSend c e a else t

/-- The send deadlines that have come: of every local send from the present slot to 8 slots ahead that has not been looked
at, those of the next frame by the clause that runs in it (R176). -/
def State.claimSends (s : State) (c next : Option Clause) : State :=
  match c with
  | none => s
  | some c =>
    let last := match next with
      | some _ => s.now + 8
      | none => min (s.now + 8) (s.frame * 4096 + 4095)
    let start := max s.claimed s.now
    let s1 := s.each ((List.range 9).map (start + ·)) fun t a =>
      if last < a then t else if a / 4096 = s.frame then t.claimSlot c a
      else match next with
        | some n => t.claimSlot n a
        | none => t
    { s1 with claimed := last + 1 }

/-- The scheduled operations of a slot. -/
def State.doEntries (s : State) (c : Clause) : State :=
  s.each (List.range 32) fun t p =>
    let e := t.entryNow c p
    if ¬ e.valid ∨ ¬ performsAt e p then t
    else match e.kind with
      | 1 => t.doSend c e
      | 2 | 3 => t.doUse c e
      | _ => t

/-- The pending forward that a port's slack slot carries: the earliest entry slot, ties by input port (R189). -/
def State.pendingFor (s : State) (p : Nat) : Option (FUse × Landed) :=
  (sortUses (s.uses.filter fun u => u.ports.contains p ∧ u.slot < s.now)).findSome? fun u =>
    (s.flitFor u).map fun f => (u, f)

/-- A pending forward sent on one port, with its entry's slot and the late flag (R183). -/
def State.sendPending (s : State) (p : Nat) : Option State :=
  if 512 ≤ (s.port p).outstanding ∨ ¬ s.carriesSched p then none
  else match s.pendingFor p with
    | none => none
    | some (u, f) =>
      let s1 := (s.noteWait u).sendSched p (u.slot % 4096) (u.slot / 4096) f.period true f.payload
      some (s1.putUse u { u with ports := u.ports.filter (· ≠ p) })

/-- A slack slot: replays, pending forwards, the credit classes, an idle flit (R189). -/
def State.sendSlack (s : State) (p : Nat) : State :=
  match s.sendReplay p with
  | some t => t
  | none => match s.sendPending p with
    | some t => t
    | none => s.sendCredit p

/-- What a port that carried no scheduled flit transmits in this slot (R172, R173, R189); in IDENT, RATE and ALIGN its identity block (R254,
R259). A QUENCH raised in this slot goes in it (R536). -/
def State.fillSlot (s : State) (c : Option Clause) (p : Nat) : State :=
  if s.training p then (if s.widthSlot p then s.sendTraining p else s)
  else if ¬ s.canSend p then s
  else match s.sendQuenchFlit p, c with
    | some t, _ => t
    | none, none => s.sendSlack p
    | none, some c =>
      let e := s.entryNow c p
      if ¬ e.valid then s.sendLast p else if e.kind = 4 then s.sendSlack p else s.sendCredit p

/-- QUENCH messages take the first slot of every port (R536). -/
def State.quenchSlots (s : State) : State :=
  s.each (List.range 32) fun t p =>
    if t.canSend p then (match t.sendQuenchFlit p with | some u => u | none => t) else t

/-! ## Network time in a slot (R165, R271 to R273) -/

/-- Network time at the end of the slot: 1.375 ns on, in 2^-16 ns, less the part of the slot that a step left behind; a wrap of NT32
is marked (R272, R274). -/
def State.advanceTime (s : State) : State :=
  let t := s.nt32.toNat * 65536 + s.ntFrac.toNat + (90112 - s.subSlot)
  { s with nt32 := BitVec.ofNat 32 (t / 65536), ntFrac := BitVec.ofNat 16 t, subSlot := 0,
           wrapDue := s.wrapDue + (if 2 ^ 48 ≤ t then 1 else 0) }

/-- Whether the spine runs: Kindled or above. -/
def State.spineOn (s : State) : Bool := s.awake

/-- One slot, with the clause that runs in the next frame where it is known: arrivals and landings, the slot's entries, what every port
transmits, deadlines, and the time. -/
def State.slotStep (s : State) (next : Option Clause) : State :=
  let s0 := s.each (List.range 16) fun t r =>
    if (t.region r).cores = [] then t
    else ((t.modRegion r fun x => { x with spineCtr := 0 }).moveStreams r).arrive r 64
  let s1 := ((s0.claimSends s0.runningClause next).missDeadlines.landAll none).quenchSlots
  let c := s1.runningClause
  let s2 := match c with | some c => s1.doEntries c | none => s1
  let s3 := (s2.landAll none).retryWaiting
  let s4 := s3.each (List.range 32) fun t p => t.fillSlot c p
  ({ s4 with slot := s.slot + 1 }).advanceTime

/-! ## The commands -/

/-- PENDING_FORWARD (R183): the port's slack slot carries a pending forward. -/
def execPendingForward (port : PortId) (s : State) : Res :=
  let p := port.val
  let slack : Bool := match s.runningClause with
    | some c => let e := s.entryNow c p; e.valid && e.kind == 4
    | none => false
  if s.spineOn ∧ s.sched ∧ slack ∧ s.canSend p ∧ (s.port p).resend.isNone then
    match s.sendPending p with
    | some t => .next t
    | none => .next s
  else .next s

/-- PENDING_LANDING (R185): the port's landings whose turn has come complete. -/
def execPendingLanding (port : PortId) (s : State) : Res := .next (s.landAll (some port.val))

/-- LANDING_STREAM_ARRIVAL (R147, R184). -/
def execLandingStreamArrival (r : RegionId) (s : State) : Res := .next (s.arrive r.val 64)

/-- DEADLINE_MISS (R191). -/
def execDeadlineMiss (s : State) : Res := .next s.missDeadlines

end Sys2Proof.Machine
end

