-- ==== Sys2Proof/Machine/Image.lean ====
section
/-! DEFINITION. The image container taken apart: header, section table, sections, relocation, clauses and sequence (R195
to R201, R350 to R360). Everything here is a function of the image's bytes. -/

namespace Sys2Proof.Machine

/-- Why the loader refuses an image: code, and the section, detail, clause, port and slot it records (R210, R361). -/
structure LoadErr where
  code : Nat
  sect : Nat := 0xFFFF
  detail : Nat := 0xFFFFFFFF
  clause : Nat := 0xFFFF
  port : Nat := 0xFF
  slot : Nat := 0xFFFF
  deriving DecidableEq, Repr

/-- The first error of a list of checks. -/
def firstErr {α : Type} (l : List α) (f : α → Option LoadErr) : Option LoadErr := l.findSome? f

/-- An error where a condition holds. -/
def errIf (b : Bool) (e : LoadErr) : Option LoadErr := if b then some e else none

/-! ## Header and section table (R350 to R352) -/

structure Sect where
  idx : Nat
  ty : Nat
  off : Nat
  len : Nat
  deriving DecidableEq, Repr

/-- Entry `i` of the section table. -/
def sectAt (b : List Byte) (i : Nat) : Sect :=
  let o := 128 + 32 * i
  { idx := i, ty := field b o 2, off := field b (o + 8) 8, len := field b (o + 16) 8 }

def sects (b : List Byte) : List Sect := (List.range (field b 10 2)).map (sectAt b)

def sectBytes (b : List Byte) (x : Sect) : List Byte := slice b x.off x.len

/-- Some byte of a reserved range is set. -/
def dirty (b : List Byte) (o n : Nat) : Bool := (slice b o n).any (· ≠ 0)

/-- Whether the header breaks R350, with the announced length. -/
def headerBad (b : List Byte) (len : Nat) : Bool :=
  field b 0 4 ≠ 0x4D495146 || field b 4 2 ≠ 1 || field b 8 1 = 0 || decide (0x80 < field b 8 1) || dirty b 9 1
    || field b 10 2 = 0 || decide (64 < field b 10 2) || decide (4095 < field b 12 2) || field b 14 2 = 0
    || dirty b 17 7 || field b 24 8 ≠ len || dirty b 80 48

/-- An FQ4 image. -/
def isLegacy (b : List Byte) : Bool := field b 8 1 = 0x80

def sectBad (b : List Byte) (x : Sect) : Bool :=
  let o := 128 + 32 * x.idx
  dirty b (o + 2) 6 || dirty b (o + 24) 8 || x.ty = 0 || decide (9 < x.ty) || x.off % 64 ≠ 0
    || decide (x.off < 128 + 32 * field b 10 2) || x.len = 0 || decide (field b 24 8 < x.off + x.len)

/-- Sections of a type. -/
def ofType (b : List Byte) (ty : Nat) : List Sect := (sects b).filter fun x => x.ty = ty

/-- The counts of R352; an FQ4 image has no clause set and no sequence. -/
def countsBad (b : List Byte) : Bool :=
  let n (ty : Nat) := (ofType b ty).length
  n 1 ≠ 1 || n 2 ≠ 1 || n 3 ≠ 1 || decide (1 < n 4) || decide (1 < n 5) || decide (1 < n 6) || decide (32 < n 8)
    || n 9 ≠ (if isLegacy b then 0 else 1) || (isLegacy b && n 8 ≠ 0)

/-- SEGMENTS and RELOC stand before every DATA section. -/
def orderBad (b : List Byte) : Bool :=
  match (ofType b 7).head? with
  | some d => (sects b).any fun x => (x.ty = 5 ∨ x.ty = 6) ∧ d.idx < x.idx
  | none => false

/-- IMAGE_FORMAT of the section table (R351, R352). -/
def tableErr (b : List Byte) : Option LoadErr :=
  let l := sects b
  (firstErr l fun x => errIf (sectBad b x) { code := 0x7030, sect := x.idx })
    <|> (firstErr (l.zip l.tail) fun x => errIf (decide (x.2.off < x.1.off + x.1.len)) { code := 0x7030, sect := x.2.idx })
    <|> errIf (countsBad b || orderBad b) { code := 0x7030 }

/-! ## Code, windows, streams (R352 to R354) -/

/-- A code record: core and bundles. -/
structure CodeRec where
  core : Nat
  bundles : List (BitVec 256)
  deriving DecidableEq, Repr

/-- The code records of a section, at most `n`; none where it is cut short or a reserved byte is set. -/
def codeRecs : Nat → List Byte → Option (List CodeRec)
  | 0, b => if b = [] then some [] else none
  | n + 1, b =>
    if b = [] then some []
    else
      let c := field b 2 2
      if b.length < 16 + 32 * c ∨ b.length < 16 ∨ dirty b 4 12 then none
      else
        let r : CodeRec := { core := field b 0 2, bundles := (List.range c).map fun i => ofBytes 256 (slice b (16 + 32 * i) 32) }
        (codeRecs n (b.drop (16 + 32 * c))).map (r :: ·)

/-- Fixed-size records of a section. -/
def records (n : Nat) (b : List Byte) : List (List Byte) := (List.range (b.length / n)).map fun i => slice b (n * i) n

def allocRecs (b : List Byte) : List (Nat × List (BitVec 128)) :=
  (records 272 b).map fun r => (field r 0 2, (List.range 16).map fun i => ofBytes 128 (slice r (16 + 16 * i) 16))

def streamRecs (b : List Byte) : List (Nat × List (BitVec 32)) :=
  (records 68 b).map fun r => (field r 0 2, (List.range 16).map fun i => ofBytes 32 (slice r (4 + 4 * i) 4))

def windowRow (b : List Byte) : List (BitVec 128) := (List.range 16).map fun i => ofBytes 128 (slice b (16 * i) 16)

/-! ## Segments and relocation (R356 to R359) -/

/-- A segment: declared length and alignment, and the base the control node set. -/
structure Seg where
  len : Nat
  align : Nat
  base : Nat
  deriving DecidableEq, Repr

/-- The declarations of a SEGMENTS section over the bases; without a section no segment is used. -/
def segList (b : List Byte) (bases : List Nat) : List Seg :=
  (List.range 16).map fun i => { len := field b (16 * i) 8, align := field b (16 * i + 8) 1, base := bases.getD i 0 }

/-- The reserved areas of space 0x1 (R355). -/
def reservedAreas : List (Nat × Nat) := [(0, 0x400000000), (0xD7D0000000, 0x30000000)]

/-- Two ranges of offset and length that share a byte. -/
def meets (a b : Nat × Nat) : Bool := decide (a.1 < b.1 + b.2 ∧ b.1 < a.1 + a.2)

def Seg.range (g : Seg) : Nat × Nat := (g.base, g.len)

/-- The used segments as ranges. -/
def usedSegs (l : List Seg) : List (Nat × Nat) := (l.filter fun g => g.len ≠ 0).map Seg.range

/-- Whether segment `i` breaks R356 or R357, itself or with an earlier one. -/
def segBad (l : List Seg) (i : Nat) : Bool :=
  let g : Seg := l.getD i ⟨0, 0, 0⟩
  if g.len = 0 then g.align ≠ 0
  else
    g.len % 64 ≠ 0 || decide (g.align < 21) || decide (36 < g.align) || g.base = 2 ^ 64 - 1 || g.base % 2 ^ g.align ≠ 0
      || decide (0xD800000000 < g.base + g.len) || reservedAreas.any (meets g.range)
      || (List.range 16).any fun j =>
        let h : Seg := l.getD j ⟨0, 0, 0⟩
        decide (j < i ∧ h.len ≠ 0) && meets g.range h.range

/-- A range inside one used segment. -/
def inSegment (l : List Seg) (o n : Nat) : Bool := (usedSegs l).any fun r => decide (r.1 ≤ o ∧ o + n ≤ r.1 + r.2)

/-- A relocation record (R359). -/
structure Reloc where
  ty : Nat
  seg : Nat
  owner : Nat
  loc : Nat
  addend : Nat
  deriving DecidableEq, Repr

def relocRecs (b : List Byte) : List Reloc :=
  (records 24 b).map fun r =>
    { ty := field r 0 1, seg := field r 1 1, owner := field r 2 2, loc := field r 4 4, addend := field r 8 8 }

/-- V of a record: none where the segment is unused or the addend lies beyond it. -/
def relocV (l : List Seg) (r : Reloc) : Option Nat :=
  match l[r.seg]? with
  | some g => if g.len = 0 ∨ g.len < r.addend then none else some (g.base + r.addend)
  | none => none

/-- Bytes of a string replaced from an offset. -/
def putBytes (d : List Byte) (o : Nat) (x : List Byte) : List Byte := d.take o ++ x ++ d.drop (o + x.length)

/-- DATA64 and DATA_TARGET records of section `i` applied in order to its bytes; or the index of the first that breaks R359. -/
def patchData (segs : List Seg) (i : Nat) : List (Reloc × Nat) → List Nat → List Byte → List Byte ⊕ Nat
  | [], _, d => .inl d
  | (r, k) :: t, done, d =>
    if r.owner ≠ i ∨ (r.ty ≠ 3 ∧ r.ty ≠ 6) then patchData segs i t done d
    else match relocV segs r with
      | none => .inr k
      | some v =>
        if r.ty = 3 then
          if r.loc % 8 ≠ 0 ∨ d.length < 24 + r.loc ∨ done.contains (r.loc + 1) then .inr k
          else patchData segs i t ((r.loc + 1) :: done) (putBytes d (16 + r.loc) (toLE 6 v))
        else if r.loc ≠ 0 ∨ field d 0 1 ≠ 1 ∨ done.contains 0 then .inr k
        else patchData segs i t (0 :: done) (putBytes d 8 (toLE 8 v))

/-! ## DATA sections (R360) -/

/-- Where a DATA section's bytes go: space, mode, target, and the bytes it fills. -/
def dataTarget (d : List Byte) : Nat × Nat × Nat × Nat :=
  (field d 0 1, field d 1 1, field d 8 8, if field d 1 1 = 1 then field d 16 8 else d.length - 16)

/-- Whether a DATA section's layout breaks R360. -/
def dataBad (d : List Byte) : Bool :=
  let (space, mode, _, n) := dataTarget d
  decide (1 < space) || decide (1 < mode) || dirty d 2 6 || n = 0 || n % 64 ≠ 0
    || (mode = 1 && d.length ≠ 24) || decide (d.length < 17)

/-- Whether its target breaks R360: SEGMENT_INVALID, its alignment too (R362). -/
def targetBad (segs : List Seg) (d : List Byte) : Bool :=
  let (space, _, target, n) := dataTarget d
  if target % 64 ≠ 0 then true
  else if space = 0 then decide (0x400000000 < target + n) || target / 2 ^ 30 ≠ (target + n - 1) / 2 ^ 30
  else !inSegment segs target n

/-! ## Clauses and sequence (R195 to R201) -/

/-- The clauses of a set's bytes, at most `n`; none where one is cut short. -/
def parseClauses : Nat → List Byte → Option (List Clause)
  | 0, b => if b = [] then some [] else none
  | n + 1, b =>
    if b = [] then some []
    else
      let hdr : BitVec 512 := ofBytes 512 (b.take 64)
      let ports := bitsSet (bits hdr.toNat 127 96) 32
      let l := 512 * 2 ^ bits hdr.toNat 49 48
      let size := 8256 + ports.length * l * 8
      if b.length < size then none
      else
        let words (w o k : Nat) : List Nat := (List.range k).map fun i => field b (o + w * i) w
        let c : Clause :=
          { hdr := hdr, sendMap := (words 4 64 1024).map (BitVec.ofNat 32), landMap := (words 4 4160 1024).map (BitVec.ofNat 32),
            tables := ports.zipIdx.map fun p => (p.1, (words 8 (8256 + p.2 * l * 8) l).map (BitVec.ofNat 64)) }
        (parseClauses n (b.drop size)).map (c :: ·)

/-- A clause set: section, number, clauses. -/
structure SetRec where
  sect : Nat
  num : Nat
  clauses : List Clause
  deriving DecidableEq, Repr

/-- The set numbers of the sections before one. -/
def setsBefore (b : List Byte) (x : Sect) : List Nat :=
  ((ofType b 8).filter fun y => y.idx < x.idx).map fun y => field (sectBytes b y) 0 2

/-- The layout of one section as it arrives (IMAGE_FORMAT); DATA is checked after relocation. -/
def layoutErr (b : List Byte) (x : Sect) : Bool :=
  let d := sectBytes b x
  match x.ty with
  | 1 => (codeRecs d.length d).isNone
  | 2 =>
    let c := (allocRecs d).map (·.1)
    d.length % 272 ≠ 0 || (records 272 d).any (fun r => dirty r 2 14) || c.any (1023 < ·) || !decide c.Nodup
  | 3 =>
    let c := (streamRecs d).map (·.1)
    d.length % 68 ≠ 0 || (records 68 d).any (fun r => dirty r 2 2) || c.any (1023 < ·) || !decide c.Nodup
      || (streamRecs d).any fun r => r.2.any fun w => bits w.toNat 31 16 ≠ 0
  | 4 => d.length ≠ 256
  | 5 => d.length ≠ 256 || (List.range 16).any fun i => dirty d (16 * i + 10) 6 || decide (1 < field d (16 * i + 9) 1)
  | 6 => d.length % 24 ≠ 0 || (records 24 d).any fun r => dirty r 16 8
  | 8 => decide (d.length < 64) || dirty d 2 62 || decide (31 < field d 0 2) || (setsBefore b x).contains (field d 0 2)
      || (parseClauses d.length (d.drop 64)).isNone
  | 9 => decide (d.length < 256 + 8 * field d 0 2)
  | _ => false

/-! ## The parts of a whole image -/

structure Parts where
  code : List CodeRec
  alloc : List (Nat × List (BitVec 128))
  streams : List (Nat × List (BitVec 32))
  exports : List (BitVec 128)
  segs : List Seg
  relocs : List Reloc
  sets : List SetRec
  seqHdr : BitVec 2048
  seq : List (BitVec 64)
  seqTail : Bool
  deriving DecidableEq, Repr

/-- The bytes of the one section of a type, none listed where it is absent. -/
def oneSect (b : List Byte) (ty : Nat) : List Byte :=
  match (ofType b ty).head? with
  | some x => sectBytes b x
  | none => []

/-- The index of the one section of a type. -/
def sectOf (b : List Byte) (ty : Nat) : Nat := ((ofType b ty).head?.map (·.idx)).getD 0xFFFF

def partsOf (b : List Byte) (bases : List Nat) : Parts :=
  let code := oneSect b 1
  let q := oneSect b 9
  let n := field q 0 2
  { code := (codeRecs code.length code).getD [], alloc := allocRecs (oneSect b 2), streams := streamRecs (oneSect b 3),
    exports := windowRow (oneSect b 4), segs := segList (oneSect b 5) bases, relocs := relocRecs (oneSect b 6),
    sets := (ofType b 8).map fun x =>
      let d := sectBytes b x
      { sect := x.idx, num := field d 0 2, clauses := (parseClauses d.length (d.drop 64)).getD [] },
    seqHdr := ofBytes 2048 (q.take 256), seq := (List.range n).map fun i => ofBytes 64 (slice q (256 + 8 * i) 8),
    seqTail := (q.drop (256 + 8 * n)).any (· ≠ 0) }

/-- A section's bytes as relocated: code, windows and export windows from the relocated parts (R355, R359). -/
def Parts.bytesOf (p : Parts) (b : List Byte) (x : Sect) : List Byte :=
  match x.ty with
  | 1 => p.code.flatMap fun c =>
      toLE 2 c.core ++ toLE 2 c.bundles.length ++ zeros 12 ++ c.bundles.flatMap (Sys2Proof.Machine.bytesOf 32)
  | 2 => p.alloc.flatMap fun r => toLE 2 r.1 ++ zeros 14 ++ r.2.flatMap (Sys2Proof.Machine.bytesOf 16)
  | 4 => p.exports.flatMap (Sys2Proof.Machine.bytesOf 16)
  | _ => sectBytes b x

/-- Bits of an AOP immediate in a bundle's C slot replaced (R359). -/
def patchImm (x : BitVec 256) (hi : Bool) (v : Nat) : Option (BitVec 256) :=
  let o := slotOf x .c
  if o.op ≠ 1 ∨ o.f 37 37 ≠ 1 then none
  else if hi then some (merge x ((0xFFFF : BitVec 256) <<< 192) (BitVec.ofNat 256 (v / 2 ^ 32 % 2 ^ 16) <<< 192))
  else some (merge x ((0xFFFFFFFF : BitVec 256) <<< 192) (BitVec.ofNat 256 (v % 2 ^ 32) <<< 192))

/-- The base of an enabled or disabled window of space 0x1 replaced. -/
def patchBase (w : BitVec 128) (v : Nat) : Option (BitVec 128) :=
  if bits w.toNat 99 96 ≠ 1 then none
  else some (merge w (BitVec.ofNat 128 (2 ^ 48 - 1)) (BitVec.ofNat 128 (v % 2 ^ 48)))

/-- One record that patches code, a window or an export window; none where it breaks R359. -/
def Parts.patch (p : Parts) (b : List Byte) (r : Reloc) : Option Parts :=
  match relocV p.segs r with
  | none => none
  | some v =>
    match r.ty with
    | 1 | 2 =>
      (p.code.findIdx? fun c => c.core = r.owner).bind fun i => p.code[i]?.bind fun c => c.bundles[r.loc]?.bind fun x =>
        (patchImm x (r.ty == 2) v).map fun y => { p with code := p.code.set i { c with bundles := c.bundles.set r.loc y } }
    | 4 =>
      (p.alloc.findIdx? fun c => c.1 = r.owner).bind fun i => p.alloc[i]?.bind fun c => c.2[r.loc]?.bind fun w =>
        (patchBase w v).map fun y => { p with alloc := p.alloc.set i (c.1, c.2.set r.loc y) }
    | 5 =>
      if r.owner ≠ 0xFFFF ∨ (ofType b 4) = [] then none
      else p.exports[r.loc]?.bind fun w => (patchBase w v).map fun y => { p with exports := p.exports.set r.loc y }
    | 3 | 6 => if (ofType b 7).any fun x => x.idx = r.owner then some p else none
    | _ => none

/-- Whether two records patch one field: IMM_LO and IMM_HI patch the same immediate (R359). -/
def samePatch (x y : Reloc) : Bool :=
  (x.ty == y.ty || (decide (x.ty = 1 ∨ x.ty = 2) && decide (y.ty = 1 ∨ y.ty = 2))) && x.owner == y.owner && x.loc == y.loc

/-- A window of the export map as its entry shows it: a disabled one has no reserved bit set, whatever the image gave it (R8, R77), the handoff bit
among them (R314). -/
def shownWindow (w : BitVec 128) : BitVec 128 := if bits w.toNat 95 48 = 0 then w &&& BitVec.ofNat 128 (2 ^ 102 - 1) else w

/-- Every record applied in order: the relocated parts, or the index of the first record that breaks R359. -/
def Parts.relocate (b : List Byte) : List Reloc → Nat → List Reloc → Parts → Parts ⊕ Nat
  | [], _, _, p => .inl p
  | r :: t, i, done, p =>
    if done.any (samePatch r) then .inr i
    else match p.patch b r with
      | some q => Parts.relocate b t (i + 1) (r :: done) q
      | none => .inr i

end Sys2Proof.Machine
end

