-- ==== Sys2Proof/Machine/Loader.lean ====
section
/-! DEFINITION. The loader: the checks of R362 and R210 in their order, the load itself, and its three entries (R361,
R496 to R498). -/

namespace Sys2Proof.Machine

/-! ## Code and windows (R345, R353, R77 to R79, R314) -/

/-- Core in [15:0], bundle, record or window index in [31:16] (R367). -/
def errDetail (core i : Nat) : Nat := core % 65536 + i % 65536 * 65536

/-- The send and landing bindings of a core. -/
def Parts.binds (p : Parts) (c : Nat) : Tab (BitVec 32) × Tab (BitVec 32) :=
  match p.streams.find? fun r => r.1 = c with
  | some r => ((r.2.take 8).zipIdx.map fun x => (x.2, x.1), (r.2.drop 8).zipIdx.map fun x => (x.2, x.1))
  | none => ([], [])

/-- An L-slot access that is misaligned whatever the registers hold (R345). -/
def staticMisaligned (b : BitVec 256) : Bool :=
  let x := slotOf b .l
  x.op ≠ 0 && x.f 48 45 = 0 && x.pred = 0 && !x.pneg && x.f 42 13 % x.accessSize ≠ 0

/-- An open loop as the loader follows the code: first bundle, length, count. -/
abbrev FlowLoop := Nat × Nat × Nat

/-- Where issue may go on after bundle `last`: bodies that end there begin again or end (R136). -/
def flowEnds (last : Nat) : List FlowLoop → Nat → Bool → List (Nat × List FlowLoop)
  | [], nxt, _ => [(nxt, [])]
  | l :: t, nxt, jumped =>
    if l.1 + l.2.1 - 1 = last then
      (if 2 ≤ l.2.2 then [(if jumped then nxt else l.1, l :: t)] else []) ++ flowEnds last t (last + 1) false
    else [(nxt, l :: t)]

/-- Whether a LOOP or JUMP at a bundle breaks R132 with the loops that are open, and where issue goes on: the code's flow needs no
register or predicate (R136, R137). -/
def flowStep (bs : List (BitVec 256)) (pc : Nat) (l : List FlowLoop) : Bool × List (Nat × List FlowLoop) :=
  match bs[pc]? with
  | none => (false, [])
  | some b =>
    let c := slotOf b .c
    let len := c.f 37 24
    let stop (x : FlowLoop) : Nat := x.1 + x.2.1 - 1
    match c.op with
    | 2 =>
      if 4 ≤ l.length ∨ (l.head?.any fun x => decide (stop x < pc + len)) then (true, [])
      else if c.f 53 38 = 0 then (false, flowEnds (pc + len) l (pc + 1 + len) false)
      else (false, flowEnds pc ((pc + 1, len, c.f 53 38) :: l) (pc + 1) false)
    | 3 =>
      if l.head?.any fun x => decide (c.f 53 41 < x.1 ∨ stop x < c.f 53 41) then (true, [])
      else (false, flowEnds pc l (c.f 53 41) true)
    | 4 => (false, [])
    | _ => (false, flowEnds pc l (pc + 1) false)

/-- The bundles whose LOOP or JUMP breaks R132 when it is reached from bundle 0, by a search of at most `n` steps. -/
def flowBad (bs : List (BitVec 256)) : Nat → List (Nat × List FlowLoop) → List (Nat × List FlowLoop) → List Nat
  | 0, _, _ => []
  | _, [], _ => []
  | n + 1, x :: todo, seen =>
    if seen.contains x then flowBad bs n todo seen
    else
      let (bad, next) := flowStep bs x.1 x.2
      if bad then x.1 :: flowBad bs n todo (x :: seen) else flowBad bs n (next ++ todo) (x :: seen)

/-- Bound on the loader's search: a state of the flow is a bundle and up to four open loops, each told by its first bundle, so fewer than
2 ^ 67 states with at most five to follow each. -/
def flowBound : Nat := 2 ^ 80

/-- The bundles of a core whose LOOP or JUMP breaks the nesting of R132 and R136; code without a LOOP has none. -/
def nestingBad (bs : List (BitVec 256)) : List Nat :=
  if bs.any fun b => (slotOf b .c).op = 2 then flowBad bs flowBound [(0, [])] [] else []

/-- CODE_ILLEGAL (R345, R353). -/
def Parts.codeErr (p : Parts) (sect : Nat) : Option LoadErr :=
  firstErr p.code.zipIdx fun r =>
    let c := r.1
    let (sb, lb) := p.binds c.core
    errIf (1023 < c.core || c.bundles = [] || decide (8192 < c.bundles.length)
        || (p.code.take r.2).any fun y => y.core = c.core) { code := 0x7039, sect := sect, detail := errDetail c.core r.2 }
      <|>
      let nest := nestingBad c.bundles
      firstErr c.bundles.zipIdx fun x =>
        errIf ((staticIllegal x.1 x.2 sb lb).isSome || staticMisaligned x.1 || nest.contains x.2)
          { code := 0x7039, sect := sect, detail := errDetail c.core x.2 }

/-- A window as range, and its fields. -/
def winRange (w : BitVec 128) : Nat × Nat := (bits w.toNat 47 0, bits w.toNat 95 48)

def winSpace (w : BitVec 128) : Nat := bits w.toNat 99 96

/-- Whether a window breaks R77 or R78; the handoff bit of an export window is reserved (R314). -/
def windowBad (isExport : Bool) (w : BitVec 128) : Bool :=
  let (base, len) := winRange w
  len ≠ 0 && (decide (1 < winSpace w) || bits w.toNat 127 103 ≠ 0 || base % 64 ≠ 0 || len % 64 ≠ 0
    || decide (spaceSize (winSpace w) < base + len) || bits w.toNat 101 100 = 0 || (isExport && bit w.toNat 102))

/-- Every window with the section, core and index it is recorded under; export windows have no core. -/
def Parts.windows (p : Parts) (b : List Byte) : List (Nat × Nat × Bool × BitVec 128) :=
  (p.alloc.flatMap fun r => r.2.zipIdx.map fun w => (sectOf b 2, errDetail r.1 w.2, false, w.1))
    ++ p.exports.zipIdx.map fun w => (sectOf b 4, errDetail 0xFFFF w.2, true, w.1)

/-- A check of every window. -/
def Parts.winErr (p : Parts) (b : List Byte) (code : Nat) (bad : Bool → BitVec 128 → Bool) : Option LoadErr :=
  firstErr (p.windows b) fun w => errIf (bad w.2.2.1 w.2.2.2) { code := code, sect := w.1, detail := w.2.1 }

/-- An enabled window of space 0x1 outside every used segment (R357). -/
def Parts.outside (p : Parts) (w : BitVec 128) : Bool :=
  let (base, len) := winRange w
  len ≠ 0 && winSpace w = 1 && !inSegment p.segs base len

/-- An enabled window that touches a reserved area (R355). -/
def reservedWin (w : BitVec 128) : Bool :=
  let r := winRange w
  r.2 ≠ 0 && winSpace w = 1 && reservedAreas.any (meets r)

/-- Windows of two cores that share a byte where R79 does not allow it. -/
def overlapBad (v w : BitVec 128) : Bool :=
  let a := winRange v
  let c := winRange w
  a.2 ≠ 0 && c.2 ≠ 0 && winSpace v = winSpace w && meets a c && (bit v.toNat 101 || bit w.toNat 101)
    && !(bit v.toNat 102 && bit w.toNat 102)

/-- ALLOC_OVERLAP (R79, R355). -/
def Parts.overlapErr (p : Parts) (b : List Byte) : Option LoadErr :=
  p.winErr b 0x7035 (fun _ w => reservedWin w)
    <|> firstErr p.alloc fun x => firstErr x.2.zipIdx fun w =>
      errIf (p.alloc.any fun y => decide (y.1 < x.1) && y.2.any (overlapBad w.1))
        { code := 0x7035, sect := sectOf b 2, detail := errDetail x.1 w.2 }

/-- Every clause with its set's section and its set. -/
def Parts.clauses (p : Parts) : List (Nat × List Clause × Clause) :=
  p.sets.flatMap fun t => t.clauses.map fun c => (t.sect, t.clauses, c)

/-- REQUIREMENTS (R349, R353). -/
def Parts.requireErr (p : Parts) (b : List Byte) : Option LoadErr :=
  let lit := field b 14 2
  let groups := field b 16 1
  (firstErr p.code.zipIdx fun r => errIf (!bit lit (r.1.core / 64))
      { code := 0x703C, sect := sectOf b 1, detail := errDetail r.1.core r.2 })
    <|> (firstErr p.clauses fun x => firstErr ((List.range 32).filter (bit x.2.2.present)) fun q =>
      errIf (!bit groups (q / 4)) { code := 0x703C, sect := x.1, clause := x.2.2.number, port := q })
    <|> firstErr (bitsSet lit 16) fun r => errIf (!p.code.any fun c => c.core / 64 = r) { code := 0x703C, sect := sectOf b 1 }

/-- POWER_ENVELOPE (R349). -/
def Parts.powerErr (p : Parts) (b : List Byte) : Option LoadErr :=
  let idle := 180 + 20 * (bitsSet (field b 14 2) 16).length + 5 * (bitsSet (field b 16 1) 8).length
  firstErr p.clauses fun x => errIf (decide (2400 < x.2.2.envelope ∨ x.2.2.envelope < idle))
    { code := 0x703B, sect := x.1, clause := x.2.2.number }

/-! ## The fabric's checks (R210) -/

/-- Whether a map entry may be named. -/
def mapOn (l : List (BitVec 32)) (n : Nat) : Bool := bit (l.getD n 0).toNat 13

/-- Whether an entry of port `p` breaks R169, R170 or R174. -/
def entryBad (c : Clause) (p : Nat) (x : BitVec 64) : Bool :=
  let e := entryFields x
  if !e.valid then decide (x ≠ 0)
  else bits x.toNat 58 56 ≠ 0 || match e.kind with
    | 1 => !bit e.mask p || bit e.mask 32 || e.input ≠ 0 || e.hold ≠ 0 || !mapOn c.sendMap e.number
    | 2 => !bit e.mask p || e.period || (if bit e.mask 32 then !mapOn c.landMap e.number else e.number ≠ 0)
    | 3 => e.mask ≠ 2 ^ 32 || e.input ≠ p || e.period || !mapOn c.landMap e.number
    | 4 | 5 => e.mask ≠ 0 || e.input ≠ 0 || e.number ≠ 0 || e.hold ≠ 0 || e.period
    | _ => true

/-- Whether a clause's header or maps break R174, R195 or R199 in its set. -/
def Clause.fieldsBad (c : Clause) (set : List Clause) : Bool :=
  c.frames = 0 || decide (c.deadline < 16) || decide (2048 < c.deadline) || c.envelope = 0 || bits c.hdr.toNat 63 50 ≠ 0
    || bits c.hdr.toNat 511 256 ≠ 0 || (c.sendMap ++ c.landMap).any (fun m => bits m.toNat 31 14 ≠ 0)
    || (List.range 32).any fun p =>
      let v := c.variant p
      if v = 15 then false
      else match set[v]? with
        | none => true
        | some d => decide (7 < v) || d.frames ≠ c.frames || d.len ≠ c.len || d.deadline ≠ c.deadline
            || (Tab.get [] d.tables p).zipIdx.any fun e => bit e.1.toNat 63 && e.2 % 2 = 1

/-- The ports that a clause has tables for, with their entries and slots. -/
def Clause.slots (c : Clause) : List (Nat × Nat × BitVec 64) :=
  c.tables.flatMap fun t => t.2.zipIdx.map fun e => (t.1, e.2, e.1)

/-- A check of every entry of every clause. -/
def Parts.entryErr (p : Parts) (code : Nat) (bad : Clause → Nat → Nat → BitVec 64 → Bool) : Option LoadErr :=
  firstErr p.clauses fun x => firstErr x.2.2.slots fun e => errIf (bad x.2.2 e.1 e.2.1 e.2.2)
    { code := code, sect := x.1, clause := x.2.2.number, port := e.1, slot := e.2.1 }

/-- CLAUSE_FORMAT. -/
def Parts.clauseErr (p : Parts) : Option LoadErr :=
  (firstErr p.clauses fun x => errIf (x.2.2.fieldsBad x.2.1) { code := 0x7020, sect := x.1, clause := x.2.2.number })
    <|> p.entryErr 0x7020 fun c q _ x => entryBad c q x

/-- The clauses of a set of the image. -/
def Parts.setOf (p : Parts) (n : Nat) : Option (List Clause) := (p.sets.find? fun t => t.num = n).map (·.clauses)

/-- Which half is active and the set each half holds, as the loader follows them (R203). -/
structure HalfState where
  active : Nat
  h0 : Nat
  h1 : Nat
  deriving DecidableEq, Repr

def HalfState.preload (h : HalfState) (n : Nat) : HalfState := if h.active = 0 then { h with h1 := n } else { h with h0 := n }

def HalfState.swap (h : HalfState) : HalfState := { h with active := 1 - h.active }

/-- The clauses in the active half; 0xFFFF stands for an empty half. -/
def Parts.inActive (p : Parts) (h : HalfState) : List Clause := (p.setOf (if h.active = 0 then h.h0 else h.h1)).getD []

/-- Op, slot or set or body, count and mark of a sequence entry (R201). -/
def seqOp (x : BitVec 64) : Nat := bits x.toNat 63 60

def seqSlot (x : BitVec 64) : Nat := bits x.toNat 59 57

def seqMark (x : BitVec 64) : Bool := bit x.toNat 56

def seqArg (x : BitVec 64) : Nat := bits x.toNat 59 48

def seqCount (x : BitVec 64) : Nat := bits x.toNat 31 0

/-- Bits of an entry its op does not use. -/
def seqEntryBad (p : Parts) (x : BitVec 64) : Bool :=
  match seqOp x with
  | 1 => bits x.toNat 55 0 ≠ 0
  | 2 => bits x.toNat 47 32 ≠ 0
  | 3 => bits x.toNat 47 0 ≠ 0 || (p.setOf (seqArg x)).isNone
  | 4 | 5 => bits x.toNat 59 0 ≠ 0
  | _ => true

/-- Whether the REPEATs of entries [lo, hi) break R203, at a depth. -/
def nestBad (seq : List (BitVec 64)) : Nat → Nat → Nat → Nat → Bool
  | 0, _, _, _ => false
  | n + 1, lo, hi, depth =>
    if hi ≤ lo then false
    else
      let x := seq.getD lo 0
      if seqOp x = 2 then
        let e := lo + 1 + seqArg x
        seqArg x = 0 || decide (hi < e) || decide (4 ≤ depth) || nestBad seq n (lo + 1) e (depth + 1)
          || nestBad seq n e hi depth
      else nestBad seq n (lo + 1) hi depth

/-- The loader's walk over entries [lo, hi) from some states: whether a RUN finds its slot empty, and the states after
(R203). -/
def Parts.walk (p : Parts) : Nat → Nat → Nat → List HalfState → Bool × List HalfState
  | 0, _, _, l => (false, l)
  | n + 1, lo, hi, l =>
    if hi ≤ lo then (false, l)
    else
      let x := p.seq.getD lo 0
      match seqOp x with
      | 1 =>
        if l.any fun h => (p.inActive h).length ≤ seqSlot x then (true, l) else p.walk n (lo + 1) hi l
      | 2 =>
        let e := lo + 1 + seqArg x
        let c := seqCount x
        if c = 0 then p.walk n e hi l
        else
          let (b1, l1) := p.walk n (lo + 1) e l
          let (b2, l2) := if c = 1 then (b1, l1) else p.walk n (lo + 1) e l1
          let (b3, l3) := if c ≤ 2 then (b2, l2) else p.walk n (lo + 1) e l2
          let after := if c = 1 then l1 else if c = 0xFFFFFFFF then (l2 ++ l3).dedup else if c % 2 = 0 then l2 else l3
          if b1 || b2 || b3 then (true, after) else p.walk n e hi after
      | 3 => p.walk n (lo + 1) hi ((l.map fun h => h.preload (seqArg x)).dedup)
      | 4 => p.walk n (lo + 1) hi (l.map HalfState.swap)
      | _ => p.walk n (lo + 1) hi l

/-- load_h1 of the sequence header. -/
def Parts.loadH1 (p : Parts) : Bool := bit p.seqHdr.toNat 32

/-- The halves at job start (R202). -/
def Parts.startHalves (p : Parts) : HalfState := { active := 0, h0 := 0, h1 := if p.loadH1 then 1 else 0xFFFF }

/-- SEQUENCE_FORMAT (R200, R201, R203, R208). -/
def Parts.seqErr (p : Parts) (b : List Byte) : Option LoadErr :=
  let n := p.seq.length
  let hdr := p.seqHdr.toNat
  let resBad := bits hdr 31 16 ≠ 0 || bits hdr 63 33 ≠ 0 || bits hdr 2047 1088 ≠ 0
    || (List.range 32).any fun q => bits hdr (64 + 32 * q + 31) (64 + 32 * q + 20) ≠ 0
  let lastRun := ((p.seq.filter fun x => seqOp x = 1).getLast?).getD 0
  errIf (n = 0 || decide (4096 < n) || resBad || p.seqTail || p.seq.any (seqEntryBad p)
      || seqOp (p.seq.getD (n - 1) 0) ≠ 5 || !seqMark lastRun || nestBad p.seq (n + 1) 0 n 0
      || (p.walk (n + 1) 0 n [p.startHalves]).1) { code := 0x7021, sect := sectOf b 9 }

/-- The ready offset and phase the header assumes for a port. -/
def seqReady (hdr : BitVec 2048) (p : Nat) : Nat := bits hdr.toNat (64 + 32 * p + 15) (64 + 32 * p)

/-- Ports an entry names as input or output. -/
def SlotEntry.names (e : SlotEntry) : List Nat :=
  match e.kind with
  | 1 => e.outs
  | 2 => e.input :: e.outs
  | 3 => [e.input]
  | _ => []

/-- Whether the copy rule (R171) fails for an entry, or it names a port without a ready offset. -/
def Parts.copyBad (p : Parts) (c : Clause) (k : Nat) (x : BitVec 64) : Bool :=
  let e := entryFields x
  e.valid && (((e.kind = 1 || e.kind = 2) && e.outs.any fun q => c.entry q k ≠ x)
    || e.names.any fun q => seqReady p.seqHdr q = 0)

/-- Every use of a frame at the table that performs it: slot, port, entry (R171, R197). -/
def Clause.uses (c : Clause) : List (Nat × Nat × SlotEntry) :=
  (List.range 4096).flatMap fun k => c.tables.filterMap fun t =>
    let e := entryFields (c.entry t.1 k)
    if e.valid && (e.kind == 2 || e.kind == 3) && performsAt e t.1 then some (k, t.1, e) else none

/-- Whether two uses take one flit: the same input and the same upstream slot, in one frame or in frames the clause runs
(R181). -/
def sameFlit (p : Parts) (c : Clause) (x y : Nat × Nat × SlotEntry) : Bool :=
  let u (z : Nat × Nat × SlotEntry) : Int := (z.1 : Int) - z.2.2.hold - seqReady p.seqHdr z.2.2.input
  let d := (u x - u y).natAbs
  x.2.2.input = y.2.2.input && decide (d % 4096 = 0 ∧ d / 4096 < c.frames)

/-- SLOT_COLLISION. -/
def Parts.collisionErr (p : Parts) : Option LoadErr :=
  p.entryErr 0x7022 (fun c _ k x => p.copyBad c k x)
    <|> firstErr p.clauses fun x =>
      let l := x.2.2.uses
      firstErr l.zipIdx fun y => errIf ((l.take y.2).any (sameFlit p x.2.2 y.1))
        { code := 0x7022, sect := x.1, clause := x.2.2.number, port := y.1.2.1, slot := y.1.1 }

/-- FLIGHT_MISMATCH: a port whose measured ready offset is not the assumed one. -/
def State.flightMismatch (s : State) (hdr : BitVec 2048) : Option Nat :=
  (List.range 32).find? fun p => seqReady hdr p ≠ 0 && seqReady hdr p ≠ s.reg (R.readyOffsetMeasured p)

/-- For each clause of a set, the ports that may run at 4 lanes when it runs: those for which it is a variant, or a variant of a
variant, with the ports taken in ascending order (R199, R212). -/
def narrowPorts (set : List Clause) : List Nat :=
  (List.range 32).foldl (fun n q =>
    set.zipIdx.foldl (fun m c =>
      let v := c.1.variant q
      if v < set.length then m.set v (m.getD v 0 ||| n.getD c.2 0 ||| 2 ^ q) else m) n) (List.replicate set.length 0)

/-- SLACK_SHORT: at least 32 slack entries in a frame, in even slots for a port that runs at 4 lanes (R190). -/
def Parts.slackErr (p : Parts) : Option LoadErr :=
  firstErr p.sets fun set =>
    let narrow := narrowPorts set.clauses
    firstErr set.clauses.zipIdx fun x => firstErr x.1.tables fun t =>
      let slack (e : BitVec 64 × Nat) : Bool :=
        (entryFields e.1).valid && (entryFields e.1).kind = 4 && !(bit (narrow.getD x.2 0) t.1 && e.2 % 2 = 1)
      let n := (t.2.zipIdx.filter slack).length * (4096 / x.1.len)
      errIf (decide (n < 32)) { code := 0x7024, sect := set.sect, clause := x.1.number, port := t.1 }

/-- LANDING_BUDGET: the uses that hold a flit of a port in a slot. -/
def Parts.budgetErr (p : Parts) : Option LoadErr :=
  firstErr p.clauses fun x =>
    let l := x.2.2.uses
    firstErr (List.range 32) fun q =>
      let m := l.filter fun y => y.2.2.input = q
      firstErr (List.range 4096) fun k =>
        errIf (decide (192 < (m.filter fun y => (y.1 + 4096 - k) % 4096 ≤ y.2.2.hold).length))
          { code := 0x7025, sect := x.1, clause := x.2.2.number, port := q, slot := k }

/-- The region a map entry's core stands in. -/
def mapRegion (l : List (BitVec 32)) (n : Nat) : Nat := (mapEntry l n).1 / 64

/-- Regions that local sends draw from, or landings go to, in a slot. -/
def Clause.drawn (c : Clause) (k : Nat) (land : Bool) : List Nat :=
  c.tables.filterMap fun t =>
    let e := entryFields (c.entry t.1 k)
    if !e.valid || !performsAt e t.1 then none
    else if land then (if (e.kind == 2 || e.kind == 3) && bit e.mask 32 then some (mapRegion c.landMap e.number) else none)
    else if e.kind = 1 then some (mapRegion c.sendMap e.number) else none

/-- BRIDGE_BUDGET (R75). -/
def Parts.bridgeErr (p : Parts) : Option LoadErr :=
  firstErr p.clauses fun x => firstErr (List.range x.2.2.len) fun k =>
    errIf ((List.range 16).any fun r => decide (4 < (x.2.2.drawn k false).count r ∨ 4 < (x.2.2.drawn k true).count r))
      { code := 0x7026, sect := x.1, clause := x.2.2.number, slot := k }

/-- The bytes of a clause (R196). -/
def Clause.size (c : Clause) : Nat := 8256 + c.tables.length * c.len * 8

/-- CLAUSE_MEMORY (R198). -/
def Parts.memoryErr (p : Parts) : Option LoadErr :=
  firstErr p.sets fun t =>
    errIf (decide (8 < t.clauses.length ∨ 0x800000 < (t.clauses.map Clause.size).sum)) { code := 0x7027, sect := t.sect }

/-- Whether a direction of R354 stays on the grid. -/
def onGrid (r code : Nat) : Bool :=
  match code with
  | 2 => decide (4 ≤ r)
  | 3 => decide (r < 12)
  | 4 => decide (r % 4 ≠ 0)
  | _ => decide (r % 4 ≠ 3)

/-- Whether binding `i` of core `c` (send 0 to 7, landing 8 to 15) breaks R354. -/
def Parts.bindBad (p : Parts) (c i : Nat) (w : BitVec 32) : Bool :=
  let code := bits w.toNat 2 0
  let peer := bits w.toNat 12 3
  let st := bits w.toNat 15 13
  if code < 2 then peer ≠ 0 || st ≠ 0
  else if 5 < code then true
  else
    let j := if i < 8 then 8 + st else st
    let back := match p.streams.find? fun r => r.1 = peer with
      | some r => (r.2.getD j 0).toNat
      | none => 0
    !onGrid (c / 64) code || peer / 64 ≠ neighbour (c / 64) code
      || back ≠ (code ^^^ 1) + c * 8 + i % 8 * 2 ^ 13

/-- Whether an enabled map entry names a stream not bound to the spine (R175). -/
def Parts.mapBad (p : Parts) (send : Bool) (m : BitVec 32) : Bool :=
  let (c, st) := mapEntry [m] 0
  let (sb, lb) := p.binds c
  bit m.toNat 13 && bits (Tab.get 0 (if send then sb else lb) st).toNat 2 0 ≠ 1

/-- STREAM_BINDING (R175, R354). -/
def Parts.bindErr (p : Parts) (b : List Byte) : Option LoadErr :=
  (firstErr p.streams fun r => firstErr r.2.zipIdx fun w => errIf (p.bindBad r.1 w.2 w.1)
      { code := 0x7028, sect := sectOf b 3, detail := errDetail r.1 w.2 })
    <|> firstErr p.clauses fun x =>
      errIf (x.2.2.sendMap.any (p.mapBad true) || x.2.2.landMap.any (p.mapBad false))
        { code := 0x7028, sect := x.1, clause := x.2.2.number }

/-- The checks of R210, in its order. -/
def State.fabricErr (s : State) (b : List Byte) (p : Parts) : Option LoadErr :=
  p.clauseErr <|> (if isLegacy b then none else p.seqErr b) <|> p.collisionErr
    <|> ((s.flightMismatch p.seqHdr).map fun q => ({ code := 0x7023, sect := sectOf b 9, port := q } : LoadErr))
    <|> p.slackErr <|> p.budgetErr <|> p.bridgeErr <|> p.memoryErr <|> p.bindErr b

/-! ## The load -/

/-- The digest of an image: over its bytes with the digest field zero (R350). -/
def imageDigest (b : List Byte) : List Byte := sha384 (putBytes b 32 (zeros 48))

/-- The seg_base entries. -/
def State.segBases (s : State) : List Nat := (List.range 16).map fun i => s.reg (R.segBase i)

/-- The checks before relocation: latency class, clock mode, schedule format, rank (R362). -/
def State.headErr (s : State) (b : List Byte) : Option LoadErr :=
  let c := field b 8 1
  errIf (decide (2 ≤ c ∧ c ≤ 0x7F)) { code := 0x7032 }
    <|> errIf (if c = 0x80 then s.native else c = 1 && !s.native) { code := 0x703A }
    <|> errIf (field b 6 2 ≠ 1) { code := 0x7033 }
    <|> errIf (decide (s.ownRank = 0xFFFF ∨ field b 12 2 ≠ s.ownRank)) { code := 0x7034 }

/-- Steps 4 and 5 of R361: the digest, then the checks of R362 in order; the relocated parts where all hold. -/
def State.checkImage (s : State) (b : List Byte) : Parts ⊕ LoadErr :=
  let p0 := partsOf b s.segBases
  match errIf (imageDigest b ≠ slice b 32 48) { code := 0x7031 } <|> s.headErr b with
  | some e => .inr e
  | none => match Parts.relocate b p0.relocs 0 [] p0 with
    | .inr i =>
      let core := match p0.relocs[i]? with
        | some r => if r.ty = 1 ∨ r.ty = 2 ∨ r.ty = 4 then r.owner else 0xFFFF
        | none => 0xFFFF
      .inr { code := 0x7037, sect := sectOf b 6, detail := errDetail core i }
    | .inl p =>
      match p.codeErr (sectOf b 1) <|> p.winErr b 0x7036 windowBad <|> p.winErr b 0x7038 (fun _ w => p.outside w)
          <|> p.overlapErr b <|> p.requireErr b <|> p.powerErr b <|> s.fabricErr b p with
      | some e => .inr e
      | none => .inl p

/-- The sets that the sequence can place in a half: set 0, set 1 with load_h1, each set a PRELOAD names (R36). -/
def Parts.setsPlaced (p : Parts) : List Nat :=
  0 :: ((if p.loadH1 then [1] else []) ++ (p.seq.filter fun x => seqOp x = 3).map seqArg)

/-- The clauses the sequence can run. -/
def Parts.runnable (p : Parts) : List Clause := p.setsPlaced.flatMap fun n => (p.setOf n).getD []

/-- The ports those clauses name: every clause of a set that is placed counts, one that no RUN names too (R211; DESIGN CHOICE, log entry
68). -/
def Parts.portMask (p : Parts) : Nat :=
  let l := p.runnable.flatMap fun c => c.slots.flatMap fun e =>
    if (entryFields e.2.2).valid then (entryFields e.2.2).names else []
  ((List.range 32).filter fun q => l.contains q).foldl (fun a q => a + 2 ^ q) 0

/-- A range and those above it, in ascending order, with every one that touches what has been joined so far merged. -/
def mergeFrom : Nat × Nat → List (Nat × Nat) → List (Nat × Nat)
  | x, [] => [x]
  | x, y :: t => if y.1 ≤ x.1 + x.2 then mergeFrom (x.1, max x.2 (y.1 + y.2 - x.1)) t else x :: mergeFrom y t

/-- Ranges in ascending order with those that touch merged (R499). -/
def mergeRanges : List (Nat × Nat) → List (Nat × Nat)
  | [] => []
  | x :: t => mergeFrom x t

/-- The DATA sections of an image as relocated: what the load writes. -/
def dataSects (b : List Byte) (bases : List Nat) : List (List Byte) :=
  (ofType b 7).filterMap fun x =>
    (patchData (segList (oneSect b 5) bases) x.idx (relocRecs (oneSect b 6)).zipIdx [] (sectBytes b x)).getLeft?

/-- The weight image: the space-0 ranges of the DATA sections (R499). -/
def weightRanges (b : List Byte) (bases : List Nat) : List (Nat × Nat) :=
  let l := (dataSects b bases).filterMap fun d =>
    let (space, _, target, n) := dataTarget d
    if space = 0 then some (target, n) else none
  mergeRanges (l.mergeSort fun x y => x.1 ≤ y.1)

/-- The resident image (R355). -/
def imageOf (b : List Byte) (bases : List Nat) (p : Parts) : Image :=
  { code := p.code.map fun c => (c.core, c.bundles), windows := p.alloc, streams := p.streams,
    sets := p.sets.map fun t => (t.num, t.clauses), seqHdr := p.seqHdr, seq := p.seq, regions := field b 14 2,
    rank := field b 12 2, legacy := isLegacy b, segBases := bases, ports := p.portMask, portGroups := field b 16 1,
    weights := weightRanges b bases }

/-- Core maps built afresh from the usable cores (R51). -/
def State.buildMaps (s : State) : State :=
  s.each (List.range 16) fun t r =>
    t.modRegion r fun x => { x with map := (t.usable r).take 64, spares := (t.usable r).drop 64 }

/-- Every mapped core loaded with its instruction memory, windows and bindings (R353, R361). -/
def State.loadCores (s : State) : State :=
  s.each (List.range 1024) fun t c =>
    if (t.image.map fun i => bit i.regions (c / 64)) = some true then
      t.modCore c fun k =>
        let l := t.loadedCore c
        { k with imem := l.imem, windows := l.windows, sendBind := l.sendBind, landBind := l.landBind }
    else t

/-- A byte string in whole words, padded with zeros. -/
def padWords (d : List Byte) : List Byte := d ++ zeros ((64 - d.length % 64) % 64)

/-- The resident copy of the relocated image less DATA sections, and the clause sets, written to their areas (R355). -/
def State.writeAreas (s : State) (b : List Byte) (p : Parts) : State :=
  let rest := b.take (128 + 32 * field b 10 2) ++ ((sects b).filter fun x => x.ty ≠ 7).flatMap (p.bytesOf b)
  let put (t : State) (off : Nat) (l : List Byte) : State := (t.touchStacks 1 off l.length).writeWords 1 off (padWords l)
  (put s 0xD7D0000000 rest).each (ofType b 8) fun t x =>
    let d := sectBytes b x
    put t (0xD7F0000000 + field d 0 2 * 0x800000) (d.drop 64)

/-- Step 6 of R361: an image that passed every check becomes the loaded image. -/
def State.placeImage (s : State) (b : List Byte) (p : Parts) : State :=
  let im := imageOf b s.segBases p
  let s1 := ({ s with image := some im, loading := none }).buildMaps.loadCores.writeAreas b p
  let s2 := s1.setBlob R.exportMap (p.exports.flatMap fun w => bytesOf 16 (shownWindow w))
  let s3 := (s2.setReg R.jobHoldW ((p.runnable.map Clause.envelope).foldl max 0)).setReg R.imageRank im.rank
  let s4 := (s3.setBlob R.imageDigest (slice b 32 48)).setReg R.loadState 2
  let s5 := { s4 with half0 := (p.setOf 0).getD [], half1 := if p.loadH1 then (p.setOf 1).getD [] else []
                      halfSet := [if (p.setOf 0).isSome then 0 else 0xFFFF, if p.loadH1 then 1 else 0xFFFF] }
  let s6 := s5.each (List.range 32) fun t q => t.setReg (R.readyOffsetAssumed q) (seqReady p.seqHdr q)
  s6.measure1 5 0 (slice b 32 48)

/-- A refusal recorded and logged (R361, R367, R215); no windows, no export map, no clauses stay. -/
def State.refuseImage (s : State) (e : LoadErr) : State :=
  let s1 := s.unload.setReg R.loadState 3
  let s2 := ((s1.setReg R.loadRefusalCode e.code).setReg R.refusalSection e.sect).setReg R.refusalDetail e.detail
  let s3 := if e.code / 16 = 0x702 then
      (((s2.setReg R.schedRefusalCode e.code).setReg R.refusalClause e.clause).setReg R.refusalPort e.port).setReg
        R.refusalSlot e.slot
    else s2
  s3.logEntry e.code 3 e.port (jobDetail e.clause e.slot e.detail)

/-- One section that has arrived: its layout, SEGMENTS, DATA (R361 step 3): the state after its bytes are written, or why the image is
refused. -/
def State.sectionIn (s : State) (b : List Byte) (x : Sect) : State × Option LoadErr :=
  let segs := segList (oneSect b 5) s.segBases
  if layoutErr b x then (s, some { code := 0x7030, sect := x.idx })
  else match x.ty with
    | 5 => (s, ((List.range 16).find? (segBad segs)).map fun i =>
        { code := 0x7038, sect := x.idx, detail := errDetail 0xFFFF i })
    | 7 => match patchData segs x.idx (relocRecs (oneSect b 6)).zipIdx [] (sectBytes b x) with
      | .inr i => (s, some { code := 0x7037, sect := x.idx, detail := errDetail 0xFFFF i })
      | .inl d =>
        if dataBad d then (s, some { code := 0x7030, sect := x.idx })
        else if targetBad segs d then (s, some { code := 0x7038, sect := x.idx })
        else
          let (space, mode, target, n) := dataTarget d
          let t := s.touchStacks space target n
          (if mode = 1 then t.bgZero space target n else t.bgWriteWords space target (d.drop 16), none)
    | _ => (s, none)

/-- The sections that have arrived whole, taken in order; at most `n`. What DATA sections have written stays where a later one is
refused (R360). -/
def State.sectionsIn (s : State) : Nat → Load → State × Option LoadErr
  | 0, l => ({ s with loading := some l }, none)
  | n + 1, l =>
    match (sects l.got)[l.parsed]? with
    | none => ({ s with loading := some l }, none)
    | some x =>
      if l.got.length < x.off + x.len then ({ s with loading := some l }, none)
      else match s.sectionIn l.got x with
        | (t, some e) => (t, some e)
        | (t, none) => t.sectionsIn n { l with parsed := l.parsed + 1 }

/-- The loader takes what has arrived: header, section table, sections, and after the last byte the whole image (R361); an image too short
for its header and section table is refused with its last byte or with its header (R351). -/
def State.loadMore (s : State) (l : Load) : State × Option LoadErr :=
  let table := 128 + 32 * field l.got 10 2
  if l.got.length < 128 ∧ l.got.length < l.len then ({ s with loading := some l }, none)
  else if headerBad l.got l.len ∨ l.len < table then (s, some { code := 0x7030 })
  else if l.got.length < table then ({ s with loading := some l }, none)
  else match (if l.opened then none else tableErr l.got) with
    | some e => (s, some e)
    | none => match s.sectionsIn 64 { l with opened := true } with
      | (t, some e) => (t, some e)
      | (t, none) =>
        if l.got.length < l.len then (t, none)
        else match t.checkImage l.got with
          | .inr e => (t, some e)
          | .inl p => (t.placeImage l.got p, none)

/-- custody_given becomes none when a load starts or stops; a push that runs is abandoned with a RELEASE (R503, R505). -/
def State.loadDropsCustody (s : State) : State :=
  let s1 := if s.reg R.custodyGiven = 1 then s.sendMgmt s.twin 3 (toLE 1 7) [] else s
  if s.reg R.custodyGiven = 0 then s1 else s1.custodyNone

/-- A write of image_length (R361, R496). -/
def writeImageLength (data : List Byte) (s : State) : WriteRes :=
  if s.inJob ∨ s.reg R.loadState = 1 then s.wBad 0x0402
  else
    let s1 := s.loadDropsCustody.unload.setReg R.loadState 1
    ({ s1.setReg R.bytesReceived 0 with loading := some { len := leNat data, got := [] } }).wOk

/-- A block of image_stream (R475, R497). -/
def writeImageBlock (offset total : Nat) (data : List Byte) (s : State) : WriteRes :=
  match s.loading with
  | none => s.wBad 0x0402
  | some l =>
    if data = [] then s.wBad 0x0302
    else if offset = 0 ∧ total ≠ l.len then s.wBad 0x0302
    else if (offset ≠ 0 ∧ offset ≠ l.got.length) ∨ l.len < offset + data.length then
      -- a block out of order discards the partial value (R475): the load waits for a first block again
      ({ s.setReg R.bytesReceived 0 with loading := some { len := l.len, got := [] } }, 0x0306, [])
    else
      let l := if offset = 0 then { len := l.len, got := [] } else l
      let got := l.got ++ data
      let s1 := s.setReg R.bytesReceived got.length
      match s1.loadMore { l with got := got } with
      | (t, none) => t.wOk
      | (t, some e) => (t.refuseImage e, 0x0304, [])

/-- A write of load_abort (R498). -/
def writeLoadAbort (_data : List Byte) (s : State) : WriteRes :=
  if s.reg R.loadState ≠ 1 then s.wBad 0x0402 else s.loadDropsCustody.unload.wOk

end Sys2Proof.Machine
end

