-- ==== Sys2Proof/Machine/Job.lean ====
section
/-! DEFINITION. Jobs: the clause sequence entry by entry, step marks and restart points, the start checks, and what the job
control entries do (R200 to R212, R346, R363, R429, R489 to R494, R512, R540 to R546, R558). -/

namespace Sys2Proof.Machine

/-! ## Ports and domains a job needs -/

/-- A port at 4 lanes. -/
def State.halfWidth (s : State) (p : Nat) : Bool := s.reg (R.width p) == 2 || s.reg (R.width p) == 3

/-- Verified and UP. -/
def State.verifiedUp (s : State) (p : Nat) : Bool := s.reg (R.linkState p) == 7 && s.reg (R.portMode p) == 1

/-- Whether the neighbour's schedule format differs, which makes a port unschedulable (R255). -/
def State.unschedulable (s : State) (p : Nat) : Bool := field (s.blob (R.peerIdentity p)) 6 2 ≠ s.reg R.scheduleFormat

/-- The clauses of an image's set. -/
def Image.setOf (i : Image) (n : Nat) : List Clause := Tab.get [] i.sets n

/-- load_h1 of the image's sequence header. -/
def Image.loadH1 (i : Image) : Bool := bit i.seqHdr.toNat 32

/-- The clauses that RUN entries name in the sets the sequence places in a half. -/
def Image.runClauses (i : Image) : List Clause :=
  let sets := 0 :: ((if i.loadH1 then [1] else []) ++ (i.seq.filter fun x => seqOp x = 3).map seqArg)
  let slots := (i.seq.filter fun x => seqOp x = 1).map seqSlot
  sets.flatMap fun n => ((i.setOf n).zipIdx.filter fun c => slots.contains c.2).map (·.1)

/-- A half-width port without a variant in some clause of the sequence (R211, R543). -/
def State.lacksVariant (s : State) (i : Image) (p : Nat) : Bool :=
  s.halfWidth p && i.runClauses.any fun c => c.variant p = 15

/-- The followed domain is LOCKED and no slew or holdover runs (R298). -/
def State.followedLocked (s : State) : Bool :=
  let f := s.reg R.frameReference
  decide (f < 2) && s.reg (R.domainState f) == 2

def State.timeLocked (s : State) : Bool := s.followedLocked && s.reg R.slewRemaining == 0 && !s.holdover

/-! ## Halves and copies (R202, R204) -/

/-- The clauses of a half, and a half given clauses. -/
def State.half (s : State) (h : Nat) : List Clause := if h = 0 then s.half0 else s.half1

def State.setHalf (s : State) (h set : Nat) (l : List Clause) : State :=
  let s1 := { s with halfSet := s.halfSet.set h set }
  if h = 0 then { s1 with half0 := l } else { s1 with half1 := l }

/-- The inactive half. -/
def State.idleHalf (s : State) : Nat := 1 - s.reg R.activeHalf

/-- A copy of a set into a half begins: the half holds nothing until it is complete (R204). -/
def State.startCopy (s : State) (set half : Nat) : State :=
  ({ s.setHalf half 0xFFFF [] with copy := some { set := set, half := half } }).setReg R.preloadState 1

/-- The active half's records of clause draws given values (R455). -/
def State.setPeaks (s : State) (l : List Nat) : State := s.each (List.range 8) fun t c => t.setReg (R.clausePeakW c) (l.getD c 0)

/-- The records of clause draws cleared, those of both halves (R455). -/
def State.clearPeaks (s : State) : State := { s.setPeaks [] with idlePeaks := [] }

/-- The records of one half's clauses cleared: a set has been copied into it (R455). -/
def State.clearHalfPeaks (s : State) (h : Nat) : State :=
  if h = s.reg R.activeHalf then s.setPeaks [] else { s with idlePeaks := [] }

/-- A half becomes the active one: the entries show the draws of its own clauses, and those of the other half's are kept aside (R455). -/
def State.toHalf (s : State) (h : Nat) : State :=
  if h = s.reg R.activeHalf then s
  else { (s.setReg R.activeHalf h).setPeaks s.idlePeaks with idlePeaks := (List.range 8).map fun c => s.reg (R.clausePeakW c) }

/-- Copies that bring the halves to wanted sets, one at a time; 0xFFFF asks for nothing (R543). -/
def State.recopy (s : State) (sets : List Nat) : State :=
  if s.copy.isSome then s
  else match [0, 1].find? fun h => sets.getD h 0xFFFF ≠ 0xFFFF ∧ s.halfSet.getD h 0xFFFF ≠ sets.getD h 0xFFFF with
    | some h => s.startCopy (sets.getD h 0) h
    | none => s

/-- The sets the halves hold or are being given. -/
def State.wantedSets (s : State) : List Nat :=
  match s.copy with
  | some c => s.halfSet.set c.half c.set
  | none => s.halfSet

/-- The sets of a job's start (R202). -/
def Image.startSets (i : Image) : List Nat := [0, if i.loadH1 then 1 else 0xFFFF]

/-! ## The sequence (R201 to R205) -/

/-- A fault of class 0x70 at a frame boundary. -/
def State.jobFault (s : State) (code : Nat) : State := s.raise code 0xFF noDetail

/-- A REPEAT that never ends. -/
def forever : Nat := 0xFFFFFFFF

/-- One entry taken at a frame boundary, and whether the sequence rests there. -/
def State.seqEntry (s : State) (i : Image) : State × Bool :=
  let x := i.seq.getD s.seqPos 0
  let on := { s with seqPos := s.seqPos + 1 }
  match seqOp x with
  | 1 =>
    let c := s.activeHalf.getD (seqSlot x) ⟨0, [], [], []⟩
    let s1 := ((on.setReg R.sequencePosition s.seqPos).setReg R.frameInClause 0).setReg R.activeClause (seqSlot x)
    ({ s1 with runLeft := c.frames, runMark := seqMark x, sched := true }, true)
  | 2 =>
    let lo := s.seqPos + 1
    let hi := lo + seqArg x
    let n := seqCount x
    if n = 0 then ({ s with seqPos := hi }, false)
    else ({ on with reps := (lo, hi, if n = forever then forever else n - 1) :: s.reps }, false)
  | 3 => (if s.copy.isSome then on.jobFault 0x7002 else on.startCopy (seqArg x) s.idleHalf, false)
  | 4 =>
    if s.copy.isSome then (({ s.dropScheduled with runLeft := 0 }).jobFault 0x7002, true)
    else ((on.toHalf s.idleHalf).setReg R.preloadState 0, false)
  | _ => (s.endJob 0, true)

/-- The sequence followed to its next RUN or to END, at most `n` entries. A PRELOAD or SWAP between the last RUN and END takes effect at
END's boundary (R202; DESIGN CHOICE, log entry 68). -/
def State.seqGo (s : State) (i : Image) : Nat → State
  | 0 => s.dropScheduled
  | n + 1 =>
    match s.reps with
    | (lo, hi, left) :: t =>
      if s.seqPos = hi then
        if left = 0 then { s with reps := t }.seqGo i n
        else { s with seqPos := lo, reps := (lo, hi, if left = forever then forever else left - 1) :: t }.seqGo i n
      else
        let (s1, rest) := s.seqEntry i
        if rest then s1 else s1.seqGo i n
    | [] =>
      let (s1, rest) := s.seqEntry i
      if rest then s1 else s1.seqGo i n

/-- Entries a boundary may take without reaching a RUN: more than four nested REPEATs of 65,534 entries can hold (R203). A REPEAT that
never ends and holds no RUN takes more, and carries no scheduled traffic. -/
def seqFuel : Nat := 2 ^ 192

/-- A sequence that goes on to its next RUN; an FQ4 image has none. -/
def State.seqNext (s : State) (i : Image) : State := if i.legacy then s else s.seqGo i seqFuel

/-- The clause slot that runs in place of a slot while some ports run at 4 lanes, through the variants that variants name; or the
port without a variant and the number of the clause that lacks it (R199, R212). Ports are followed in ascending order (DESIGN CHOICE, log
entry 68). -/
def State.variantFor (s : State) : List Nat → Nat → Nat ⊕ (Nat × Nat)
  | [], c => .inl c
  | p :: t, c =>
    match s.activeHalf[c]? with
    | none => .inl c
    | some x => if x.variant p = 15 then .inr (p, x.number) else s.variantFor t (x.variant p)

/-- The slot the running RUN names. -/
def State.baseSlot (s : State) : Nat :=
  match s.run, s.reg R.runState with
  | some r, 2 => r.slot
  | _, _ => (s.image.map fun i => seqSlot (i.seq.getD (s.reg R.sequencePosition) 0)).getD 0

/-- The ports whose width decides which variant runs: those of the sequence, or of a recovery run's clause (R211, R555). -/
def State.schedPorts (s : State) : List Nat :=
  if s.reg R.runState = 2 then
    match s.activeHalf[s.baseSlot]? with
    | some c => (List.range 32).filter c.usesPort
    | none => []
  else match s.image with
    | some i => bitsSet i.ports 32
    | none => []

/-- The clause of the frame that begins: the RUN's, or its variants; until a quench takes effect the ports that had
variants keep them (R212). -/
def State.pickClause (s : State) : State :=
  if ¬ s.sched then s
  else
    let ports := if s.qrec.isSome ∧ s.reg R.runState ≠ 2 then bitsSet (s.reg R.variantPorts) 32 else s.schedPorts.filter s.halfWidth
    match s.variantFor ports s.baseSlot with
    | .inl c => (s.setReg R.activeClause c).setReg R.variantPorts (ports.foldl (fun a p => a + 2 ^ p) 0)
    | .inr (p, n) => s.dropScheduled.raise 0x7003 p (jobDetail n 0 0xFFFFFFFF)

/-! ## Step marks (R205 to R207, R188, R542) -/

/-- The logical cores of the image's regions. -/
def State.jobCores (s : State) : List Nat :=
  match s.image with
  | none => []
  | some i => (bitsSet i.regions 16).flatMap fun r => (List.range 64).map (64 * r + ·)

/-- STRAY_FLIT: a scheduled flit or use left over at a step mark (R188). -/
def State.strayCheck (s : State) : State :=
  match (List.range 32).find? fun p => (s.port p).landing ≠ [] ∨ s.uses.any (fun u => u.input = p) with
  | some p => s.raise 0x2012 p (fabDetail 0 s.clauseNumber)
  | none => s

/-- STEP_MISMATCH for every unhalted core whose counter is not the new one (R206). -/
def State.stepCheck (s : State) : State :=
  let n := BitVec.ofNat 64 (s.reg R.fabricStepCounter)
  s.each (s.jobCores.filter fun c => !(s.core c).halted && (s.core c).step ≠ n) fun t c =>
    t.raise 0x7001 0xFF (jobDetail s.clauseNumber 0xFFFF (errDetail c 0xFFFF)) (some (c, (s.core c).pc))

/-- The restart point of the step that begins (R207, R542). -/
def State.restartPoint (s : State) : Restart :=
  { step := BitVec.ofNat 64 (s.reg R.fabricStepCounter), pos := s.seqPos, reps := s.reps, active := s.reg R.activeHalf,
    sets := s.wantedSets, frame := s.frameIndex,
    cores := s.jobCores.map fun c => (c, (s.core c).restartPc, (s.core c).restartLoops) }

/-- FLIGHT_DRIFT may be logged again by every port: a step begins (R186). -/
def State.freshDrift (s : State) : State :=
  s.each (List.range 32) fun t p => if (t.port p).driftLogged then t.modPort p fun x => { x with driftLogged := false } else t

/-- A step mark; no STRAY_FLIT where a quench takes effect at the boundary (R209). -/
def State.stepMark (s : State) (quench : Bool) : State :=
  let s1 := if quench then s else s.strayCheck
  let s2 := (s1.bump R.fabricStepCounter 64).stepCheck
  let s3 := s2.setReg R.heldBeatsStep (((List.range 16).map fun r => (s2.region r).heldStep).foldl max 0)
  let s4 := s3.each (List.range 16) fun t r =>
    if (t.region r).heldStep = 0 then t else t.modRegion r fun x => { x with heldStep := 0 }
  let s5 := s4.freshDrift
  let past : Bool := match s5.replaying with
    | some (st, _) => decide (st.toNat < s5.reg R.fabricStepCounter)
    | none => false
  { s5 with restarts := (s5.restartPoint :: s5.restarts).take 8, firstFault := false,
            replaying := if past then none else s5.replaying }

/-! ## Cores and regions that begin (R120, R439, R546) -/

/-- A core at its Job start values with a step counter, a bundle and open loops; stall beats count from job start. -/
def State.freshCore (s : State) (c : Nat) (step : BitVec 64) (pc : Nat) (loops : List Loop) : Core :=
  { s.loadedCore c with step := step, pc := pc, loops := loops, restartPc := pc, restartLoops := loops,
                        stallBeats := (s.core c).stallBeats }

/-- Every core of the image's regions made fresh; `at` gives its bundle and loops. -/
def State.freshCores (s : State) (step : BitVec 64) (place : Nat → Nat × List Loop) : State :=
  s.each s.jobCores fun t c => t.setCore c (s.freshCore c step (place c).1 (place c).2)

/-- The image's lit regions run from the anchor of job frame `k`, with nothing in flight (R439, R546). -/
def State.startRegions (s : State) (k : Nat) : State :=
  let l := match s.image with | some i => bitsSet i.regions 16 | none => []
  ({ s with claimed := 0, lateDebt := [] }).each (l.filter fun r => (s.region r).lit) fun t r => t.modRegion r fun x =>
    { x with beat := if s.native then k * s.reg R.frameBeats else 0, framesStarted := k + 1, running := true,
             drain := 0, skewed := [], sent := [], stopped := false, stopping := false, frameHeld := false, stalls := [], bank := [], bridgeOut := [],
             bridgeIn := [], spineIn := [], heldStep := 0, frameMarks := [(k, x.clock)] }

/-- The start of a frame noted by the regions that run. -/
def State.markFrame (s : State) : State :=
  s.each (List.range 16) fun t r =>
    if (t.region r).running then
      t.modRegion r fun x =>
        { x with frameMarks := (s.frameIndex, x.clock) :: x.frameMarks.filter fun m => x.framesStarted ≤ m.1 }
    else t

/-! ## The start of a job (R490 to R492, R512) -/

/-- ceil((to − from) / (S × 0.005632)): the frames of a ramp at the slew limit, in mW. -/
def State.rampFrames (s : State) (level : Nat) : Nat :=
  ceilDiv ((level - s.h) * 1000) (s.reg R.slewLimitWPerMs * 5632)

/-- Whether lighting the image's regions would light a fifth while freq_change_mode is 1 (R432, R521). -/
def State.fifthRegion (s : State) (i : Image) : Bool :=
  s.reg R.freqChangeMode == 1 && decide (4 < (bitsSet i.regions 16).length)

/-- The frames by which start_frame lies ahead at least: 64, and ceil((J − H) / (S × 0.005632)), which is negative while H lies above
J; H is hold_level_w, in whole W (R490). -/
def State.startLead (s : State) : Int :=
  64 - (((s.h / 1000 : Nat) : Int) - s.reg R.jobHoldW) * 1000000 / (s.reg R.slewLimitWPerMs * 5632)

/-- The first start check that fails: its event code and port (R490, R521). -/
def State.startRefusal (s : State) (i : Image) : Option (Nat × Nat) :=
  let ports := bitsSet i.ports 32
  let find (code : Nat) (f : Nat → Bool) : Option (Nat × Nat) := (ports.find? f).map fun p => (code, p)
  let when (code : Nat) (b : Bool) (p : Nat := 0xFF) : Option (Nat × Nat) := if b then some (code, p) else none
  when 0x702D (s.manifest = []) <|> when 0x702E (s.ownRank = 0xFFFF) <|> when 0x7034 (s.ownRank ≠ i.rank)
    <|> when 0x7038 (s.segBases ≠ i.segBases) <|> (s.flightMismatch i.seqHdr).map (fun p => (0x7023, p))
    <|> find 0x7029 (fun p => s.reg (R.portMode p) = 3)
    <|> find 0x702A (fun p => !s.verifiedUp p || s.unschedulable p)
    <|> find 0x702B (s.lacksVariant i)
    <|> (((List.range 8).find? fun g => bit i.portGroups g && !bit (s.reg R.groupEnable) g).map fun g => (0x702A, 4 * g))
    <|> when 0x702C (!s.timeLocked)
    <|> when 0x702F (((bitsSet i.regions 16).any fun r => decide (s.reg (R.ceilingKhz r) < 1050000)) || s.fifthRegion i)
    <|> when 0x7041 (s.reg R.custodyGiven ≠ 2)

/-- A refused start: the code logged, copied to start_refusal and, for the codes of R211, to index 0x3103 (R215). -/
def State.refuseStart (s : State) (code port : Nat) : State :=
  let s1 := (s.setReg R.startRefusal code).logEntry code 3 port noDetail
  if code = 0x7029 ∨ code = 0x702A ∨ code = 0x702B then
    (((s1.setReg R.schedRefusalCode code).setReg R.refusalClause 0xFFFF).setReg R.refusalPort port).setReg R.refusalSlot 0xFFFF
  else s1

/-- An accepted start (R452, R489, R512): Job start values, counters since job start cleared, units asked for. -/
def State.acceptStart (s : State) (i : Image) : State :=
  let s0 := { s with regs := s.regs.filter fun x => !sinceJob x.1 }
  let s1 := { s0 with formerLight := s.reg R.regionLight, formerStacks := s.reg R.stackActive, epoch := 0, qrec := none,
                      firstFault := false, faultHist := [], repaired := [], replaying := none, restarts := [], reps := []
                      seqPos := 0, runLeft := 0, runMark := false, rampAbandoned := false
                      jobIssued := false, stepHist := [], jobFrame0 := s.reg R.startFrame
                      joinWait := if s.reg R.joinStep = 0xFFFFFFFFFFFFFFFF then none else some 0 }
  let s2 := s1.each (List.range 16) fun t r => t.modRegion r fun x =>
    { x with heldJob := 0, heldStep := 0, cores := x.cores.map fun k => (k.1, { k.2 with stallBeats := 0 }) }
  let s3 := ((s2.freshCores (BitVec.ofNat 64 (s.reg R.firstStep)) fun _ => (0, [])).clearPeaks).clearSequence
  let s4 := (((s3.setReg R.preloadState (if s.copy.isSome then 1 else 0)).setReg R.jobState 1).setReg R.fabricStepCounter
    (s.reg R.firstStep)).showRec
  ((((s4.setReg R.regionLight i.regions).setReg R.stackActive 0xFFF).askUnits).recopy i.startSets).retune

/-- A write of job_start (R490). -/
def writeJobStart (_data : List Byte) (s : State) : WriteRes :=
  match s.image with
  | none => s.wBad 0x0402
  | some i =>
    if s.inJob ∨ s.reg R.loadState ≠ 2 ∨ ¬ s.canLight ∨ s.reg R.runState = 1 ∨ s.reg R.runState = 2 then s.wBad 0x0402
    else if (s.reg R.startFrame : Int) - s.frame < s.startLead then s.wBad 0x0301
    else match s.startRefusal i with
      | some (code, p) => (s.refuseStart code p, 0x0403, [])
      | none => (s.acceptStart i).wOk

/-- A write of job_abort (R494). -/
def writeJobAbort (_data : List Byte) (s : State) : WriteRes :=
  match s.reg R.jobState, s.qrec with
  | 1, _ => (s.endJob 2).wOk
  | 2, _ => (s.originate 2 true false).wOk
  | 3, some r => (s.sendQuench { r with q := s.quenchFrameNow, isEnd := true, defer := false, release := false, cause := 2 }).wOk
  | _, _ => s.wBad 0x0402

/-- A write of quench_request (R494). -/
def writeQuenchRequest (_data : List Byte) (s : State) : WriteRes :=
  if s.reg R.jobState ≠ 2 then s.wBad 0x0402
  else (s.raise 0x7049 0xFF noDetail).wOk

/-! ## A join's walk of the sequence (R558) -/

/-- What a walk carries: halves, marks and frames passed. -/
structure WalkSt where
  halves : HalfState
  marks : Nat
  frames : Nat
  deriving DecidableEq, Repr

/-- The frames of the clause a RUN names. -/
def Image.runFrames (i : Image) (h : HalfState) (slot : Nat) : Nat :=
  match (i.setOf (if h.active = 0 then h.h0 else h.h1))[slot]? with
  | some c => c.frames
  | none => 0

/-- A body walked `n` times by `f`, the walks from the third on counted by their period of two (R203). -/
def manyWalks (f : WalkSt → WalkSt) (n : Nat) (w : WalkSt) : WalkSt :=
  match n with
  | 0 => w
  | 1 => f w
  | 2 => f (f w)
  | k =>
    let a := f (f w)
    let b := f a
    let c := f b
    let odd := (k - 1) / 2
    let even := (k - 2) / 2
    { halves := if k % 2 = 0 then c.halves else b.halves, marks := a.marks + odd * (b.marks - a.marks) + even * (c.marks - b.marks)
      frames := a.frames + odd * (b.frames - a.frames) + even * (c.frames - b.frames) }

/-- Entries [lo, hi) walked to their end. -/
def Image.walkAll (i : Image) : Nat → Nat → Nat → WalkSt → WalkSt
  | 0, _, _, w => w
  | n + 1, lo, hi, w =>
    if hi ≤ lo then w
    else
      let x := i.seq.getD lo 0
      match seqOp x with
      | 1 => i.walkAll n (lo + 1) hi
          { w with marks := w.marks + (seqMark x).toNat, frames := w.frames + i.runFrames w.halves (seqSlot x) }
      | 2 =>
        let e := lo + 1 + seqArg x
        i.walkAll n e hi (manyWalks (i.walkAll n (lo + 1) e) (seqCount x) w)
      | 3 => i.walkAll n (lo + 1) hi { w with halves := w.halves.preload (seqArg x) }
      | 4 => i.walkAll n (lo + 1) hi { w with halves := w.halves.swap }
      | _ => i.walkAll n (lo + 1) hi w

/-- Entries [lo, hi) walked to the `m`-th step mark: the position after it, the open REPEATs and the walk there; or the
walk at the end with the marks still to come. -/
def Image.walkTo (i : Image) : Nat → Nat → Nat → List (Nat × Nat × Nat) → Nat → WalkSt →
    (Nat × List (Nat × Nat × Nat) × WalkSt) ⊕ WalkSt
  | 0, _, _, _, _, w => .inr w
  | n + 1, lo, hi, reps, m, w =>
    if hi ≤ lo then .inr w
    else
      let x := i.seq.getD lo 0
      match seqOp x with
      | 1 =>
        let w' := { w with marks := w.marks + (seqMark x).toNat, frames := w.frames + i.runFrames w.halves (seqSlot x) }
        if seqMark x ∧ w'.marks = m then .inl (lo + 1, reps, w') else i.walkTo n (lo + 1) hi reps m w'
      | 2 =>
        let e := lo + 1 + seqArg x
        let body := i.walkAll n (lo + 1) e
        let per := (body w).marks - w.marks
        let c := seqCount x
        let k := if per = 0 then (if c = forever then 0 else c) else min c ((m - w.marks - 1) / per)
        let w' := manyWalks body k w
        if c = k then i.walkTo n e hi reps m w'
        else
          match i.walkTo n (lo + 1) e ((lo + 1, e, if c = forever then forever else c - k - 1) :: reps) m w' with
          | .inl r => .inl r
          | .inr w2 => i.walkTo n e hi reps m w2
      | 3 => i.walkTo n (lo + 1) hi reps m { w with halves := w.halves.preload (seqArg x) }
      | 4 => i.walkTo n (lo + 1) hi reps m { w with halves := w.halves.swap }
      | _ => i.walkTo n (lo + 1) hi reps m w

/-- The bundle and open loops from which a core issues join_step, after `m` STEPs of its static flow (R136, R140, R527): a core that
halts before stays at its last STEP. -/
def State.joinCore (s : State) (m c : Nat) : Nat × List Loop :=
  if m = 0 then (0, []) else coreWalk (s.core c).imem (Config.joinLoop c (s.reg R.joinStep)) walkFuel 0 [] m (0, [])

/-- The restart point of join_step (R558). -/
def State.joinPoint (s : State) (i : Image) : Restart :=
  let h : HalfState := { active := 0, h0 := 0, h1 := if i.loadH1 then 1 else 0xFFFF }
  let w0 : WalkSt := { halves := h, marks := 0, frames := 0 }
  let step := s.reg R.joinStep
  let m := step - s.reg R.firstStep
  let (pos, reps, w) := if m = 0 then (0, [], w0)
    else match i.walkTo (i.seq.length + 1) 0 i.seq.length [] m w0 with
      | .inl r => r
      | .inr w => (i.seq.length - 1, [], w)
  { step := BitVec.ofNat 64 step, pos := pos, reps := reps, active := w.halves.active, sets := [w.halves.h0, w.halves.h1],
    frame := w.frames, cores := s.jobCores.map fun c => (c, s.joinCore m c) }

end Sys2Proof.Machine
end

