-- ==== Sys2Proof/Machine/Time.lean ====
section
/-! DEFINITION. Network time: its full value, IEEE 1588 messages, the two domains and their states, the frame reference,
steps and slews (R271 to R300). Times are in 2^-16 ns. -/

namespace Sys2Proof.Machine

/-! ## Full network time (R271, R274, R277) -/

/-- The time of the present frame's start and what has passed of it. -/
def State.frameTime (s : State) : Nat := (s.reg R.frameEpochNs + s.frame * 5632) * 65536 + s.slot * 90112 + s.subSlot

/-- A time of which only NT32 and the fraction are known, extended by the last boundary (R277). -/
def State.extendTime (s : State) (x : Nat) : Int :=
  (s.frameTime : Int) + sext 48 (((x : Int) - (s.frameTime : Int)) % (2 ^ 48 : Int)).toNat

/-- Network time now. -/
def State.fullTime (s : State) : Int := s.extendTime (s.nt32.toNat * 65536 + s.ntFrac.toNat)

/-- NT32, the fraction, frame number and slot of a time (R274, R276). -/
def State.setTime (s : State) (t : Int) : State :=
  let d := t - (s.reg R.frameEpochNs : Int) * 65536
  let frame := d.fdiv (5632 * 65536)
  let rest := (d - frame * (5632 * 65536)).toNat
  { s with nt32 := BitVec.ofNat 32 (t.fdiv 65536 % (2 ^ 32 : Int)).toNat, ntFrac := BitVec.ofNat 16 (t % (65536 : Int)).toNat,
           frame := (frame % (2 ^ 48 : Int)).toNat, slot := min 4095 (rest / 90112), subSlot := rest % 90112 }

/-- An offset kept whole: its entry shows it as S64 of 2^-16 ns, which a T that was never set can be beyond. -/
def State.setOffset (s : State) (d : Nat) (x : Int) : State :=
  let t := s.setReg (R.domainOffset d) (twos 64 x)
  let w := (x - sext 64 (twos 64 x)) / 2 ^ 64
  if (t.dom d).wraps = w then t else t.setDom d { t.dom d with wraps := w }

/-- The offset as measured. -/
def State.offsetOf (s : State) (d : Nat) : Int := s.sreg (R.domainOffset d) 64 + (s.dom d).wraps * 2 ^ 64

/-- Network time moved against the part's time base by a step or a slew: the domains' own times did not (R276, R288, R295). -/
def State.timeMoved (s : State) (x : Int) : State :=
  { s with ntMoved := s.ntMoved + x }.each [0, 1] fun t d =>
    if t.reg (R.role d) = 1 then t.setOffset d (t.offsetOf d - x)
    else t.setDom d { t.dom d with moved := (t.dom d).moved + x, sinceSync := (t.dom d).sinceSync + x }

/-- A step of network time, logged; no boundary is latched for the frames it skips (R276). -/
def State.stepTime (s : State) (t : Int) (unit detail : Nat) : State := (s.setTime t).event 0x3008 unit detail

/-- A write of frame_epoch: network time runs on, and the frame number and phase follow from the new epoch (R274). -/
def writeFrameEpoch (data : List Byte) (s : State) : WriteRes :=
  ((s.setReg R.frameEpochNs (leNat data)).setTime s.fullTime).wOk

/-! ## IEEE 1588 messages (R280, R281) -/

/-- A 10-byte timestamp: seconds, then nanoseconds. -/
def ptpStamp (t : Int) : List Byte :=
  let ns := (t.fdiv 65536).toNat
  toBE 6 (ns / 1000000000) ++ toBE 4 (ns % 1000000000)

/-- The fraction of a timestamp, which travels in the correction field. -/
def ptpFrac (t : Int) : Nat := (t % (65536 : Int)).toNat

def ptpType (b : List Byte) : Nat := field b 0 1 % 16
def ptpVersion (b : List Byte) : Nat := field b 1 1 % 16
def ptpDomain (b : List Byte) : Nat := field b 4 1
def ptpCorrection (b : List Byte) : Int := sext 64 (beNat (slice b 8 8))
def ptpSource (b : List Byte) : List Byte := slice b 20 10
def ptpSeq (b : List Byte) : BitVec 16 := BitVec.ofNat 16 (beNat (slice b 30 2))

/-- The timestamp at byte 34, in 2^-16 ns. -/
def ptpTime (b : List Byte) : Int := ((beNat (slice b 34 6) * 1000000000 + beNat (slice b 40 4)) * 65536 : Nat)

/-- The part's port identity: its serial and the port number plus 1. -/
def portIdentity (p : Nat) : List Byte := toBE 8 Config.serial.toNat ++ toBE 2 (p + 1)

/-- A 1588 message of the part: type, domain, two-step flag, correction, port, sequence, interval, body. -/
def ptpMessage (ty d : Nat) (twoStep : Bool) (corr p : Nat) (seq : BitVec 16) (interval : Nat) (body : List Byte) : List Byte :=
  toBE 1 ty ++ toBE 1 0x12 ++ toBE 2 (34 + body.length) ++ toBE 1 d ++ zeros 1 ++ toBE 1 (if twoStep then 2 else 0) ++ zeros 1
    ++ toBE 8 corr ++ zeros 4 ++ portIdentity p ++ toBE 2 seq.toNat ++ zeros 1 ++ toBE 1 interval ++ body

/-- Ports whose mode carries TIME (R267). -/
def State.carriesTime (s : State) (p : Nat) : Bool :=
  s.reg (R.linkState p) == 7 && (s.reg (R.portMode p) == 1 || s.reg (R.portMode p) == 2)

/-- The coordinates of a port's neighbour, 0xFFFF before they are known (R279). -/
def State.neighbourCoords (s : State) (p : Nat) : Nat :=
  match expectedNeighbour s.manifest s.chip p with
  | some (c, _) => ((recOf s.manifest c).map (·.coord)).getD 0xFFFF
  | none => 0xFFFF

/-- A TIME message queued on a port: one data unit that holds the 1588 message (R278). -/
def State.sendTime (s : State) (p d : Nat) (b : List Byte) : State :=
  s.queueMsg p { vc := 7, period := false, hdr := hdrOf (linkBytes 1 (s.neighbourCoords p) s.coords ++ toLE 1 d ++ zeros 55),
                 units := [ofBytes 512 b] }

/-! ## Domains -/

/-- The offset T_d − T of a domain now: as measured at its last valid Sync, less what network time has moved since (R289). -/
def State.domOffset (s : State) (d : Nat) : Int := s.offsetOf d - (s.dom d).moved

/-- Within offset_limit_ns. -/
def State.inLimit (s : State) (x : Int) : Bool := decide (x.natAbs ≤ s.reg R.offsetLimitNs * 65536)

/-- A domain that may become the frame reference: LOCKED and within the limit (R294). -/
def State.switchable (s : State) (d : Nat) : Bool := s.reg (R.domainState d) == 2 && s.inLimit (s.domOffset d)

/-- An event of a domain with its offset as detail (R484). -/
def State.domEvent (s : State) (code d : Nat) : State := s.event code d (twos 64 (s.domOffset d))

/-- A domain's frequency relative to REFCLK in a role: its trim on its grandmaster, else as measured (R288, R289). -/
def State.rateAs (s : State) (role d : Nat) : Int :=
  if role = 1 then s.sreg (R.freqTrimPpb d) 32 else s.sreg (R.freqPpb d) 32

/-- Its frequency in its present role. -/
def State.domRate (s : State) (d : Nat) : Int := s.rateAs (s.reg (R.role d)) d

/-- Holdover: network time runs on at the last frequency of the domain it followed, which is kept (R297). -/
def State.enterHoldover (s : State) : State :=
  (({ s with holdover := true, switchTo := none, heldRate := s.domRate s.lastDom }.setReg R.frameReference 2).setReg R.slewRemaining 0).domEvent 0x3005 s.lastDom

/-- The target of a pending switch is no longer to be followed: the frames stay with the domain they follow, unless that is lost too
(R294, R296). -/
def State.dropSwitch (s : State) : State :=
  let f := s.reg R.frameReference
  if s.holdover ∨ f = 2 ∨ s.reg (R.domainState f) = 1 ∨ s.reg (R.domainState f) = 2 then { s with switchTo := none }
  else s.enterHoldover

/-- The domain the frames follow is lost, with no switch away from it pending (R296). -/
def State.loseReference (s : State) (d : Nat) : State :=
  if s.reg R.frameReference ≠ d then s
  else
    let s1 : State := { s.setReg R.slewRemaining 0 with stepPending := none, lastDom := d, switchTo := none }
    if (s.reg R.timeSelect = 2 ∨ s.reg R.slewRemaining ≠ 0) ∧ s.switchable (1 - d) then { s1 with switchTo := some (1 - d) }
    else s1.enterHoldover

/-- A domain is lost. Where the frames follow it, its slew stops, and the other domain is taken at the next boundary where R294 allows
it and time_select is auto, or a slew towards the lost domain was running (R296); else holdover (R297). A pending switch to it is
dropped, a pending switch away from it goes on. -/
def State.loseFollowed (s : State) (d : Nat) : State :=
  let f := s.reg R.frameReference
  match s.switchTo with
  | some e => if e = d ∧ f ≠ d then s.dropSwitch else if f = d ∧ e ≠ d then { s with lastDom := d } else s.loseReference d
  | none => s.loseReference d

/-- The followed domain is out of limit: under auto the other is taken where R294 allows it. -/
def State.leaveFollowed (s : State) (d : Nat) : State :=
  if s.reg R.frameReference = d ∧ s.switchTo.isNone ∧ s.reg R.timeSelect = 2 ∧ s.switchable (1 - d) then
    { s with switchTo := some (1 - d), lastDom := d }
  else s

/-- A domain becomes LOCKED: the frames take it up where none is followed, by a step when it is LOCKED for the first time, its offset is
above 1,000 ns and no job runs, else by a slew; from holdover by a switch (R276, R291, R297). -/
def State.lockDomain (s : State) (d : Nat) : State :=
  let first := !(s.dom d).acquired
  let s1 := (s.setDom d { s.dom d with acquired := true }).setReg (R.domainState d) 2
  let f := s1.reg R.frameReference
  let sel := s1.reg R.timeSelect
  if s1.holdover then
    if (sel = 2 ∨ sel = d) ∧ s1.switchable d ∧ s1.switchTo.isNone then { s1 with switchTo := some d } else s1
  else if f = d ∨ (f = 2 ∧ (sel = 2 ∨ sel = d)) then
    let s2 : State := { s1.setReg R.frameReference d with lastDom := d }
    if first ∧ ¬ s2.inJob ∧ 1000 * 65536 < (s2.domOffset d).natAbs then { s2 with stepPending := some d }
    else s2.setReg R.slewRemaining (twos 64 (s2.domOffset d))
  else s1

/-- A domain with its counts back at 0 in a state. -/
def State.domTo (s : State) (d st : Nat) : State :=
  (s.setDom d { s.dom d with good := 0, bad := 0, misaligned := 0, pendSync := none }).setReg (R.domainState d) st

/-- TIME_ALIGN_LOST at each valid Sync that finds |T − T_d|, less what a slew still removes, above 25 ns after one before it that did
(R292, R293); a domain that the frames do not follow counts none. -/
def State.checkAlign (s : State) (d : Nat) : State :=
  if s.reg R.frameReference ≠ d ∨ s.reg (R.domainState d) ≠ 2 then s.setDom d { s.dom d with misaligned := 0 }
  else if s.stepPending.isSome then s
  else
    let x := s.dom d
    if (s.domOffset d - s.sreg R.slewRemaining 64).natAbs ≤ 25 * 65536 then s.setDom d { x with misaligned := 0 }
    else
      let s1 := s.setDom d { x with misaligned := x.misaligned + 1 }
      if 1 ≤ x.misaligned then s1.raise 0x3001 d (twos 64 (s.domOffset d)) else s1

/-- A valid Sync with its offset at the Sync's reception, which what network time has moved since then changes (R289, R290, R293). -/
def State.validSync (s : State) (d : Nat) (off : Int) : State :=
  let x := s.dom d
  let near (ns : Nat) : Bool := decide ((off - Config.servoPrediction d x.syncs).natAbs ≤ ns * 65536)
  let s0 := (s.setOffset d off).setReg (R.freqPpb d) (twos 32 (Config.servoFreq d x.syncs))
  let s1 := s0.setDom d { s0.dom d with syncs := x.syncs + 1, pendSync := none, moved := x.sinceSync }
  match s.reg (R.domainState d) with
  | 1 =>
    if near 10 then
      if x.good = 15 then ((s1.domTo d 2).lockDomain d).checkAlign d
      else s1.setDom d { s1.dom d with good := x.good + 1 }
    else s1.setDom d { s1.dom d with good := 0 }
  | 2 =>
    if near (s.reg R.offsetLimitNs) then (s1.setDom d { s1.dom d with bad := 0 }).checkAlign d
    else if x.bad = 2 then (((s1.checkAlign d).domTo d 1).domEvent 0x3003 d).leaveFollowed d
    else (s1.setDom d { s1.dom d with bad := x.bad + 1 }).checkAlign d
  | 3 => s1.domTo d 1
  | _ => s1

/-- The Sync interval of a domain, in 2^-16 ns. -/
def State.syncInterval (s : State) (d : Nat) : Nat := 65536000000000 / 2 ^ (-(s.sreg (R.logSyncInterval d) 32)).toNat

/-! ## Received messages -/

/-- Whether a message of the TIME sink is the one a command names: its port and its 1588 bytes. -/
def isHeldTime (m : TimeMsg) (x : Nat × Msg) : Bool :=
  x.1 == m.port.val && (bytesOf 64 (x.2.units.headD 0)).take m.bytes.length == m.bytes

/-- A message as the TIME sink holds it, with the receiver's timestamp and mark of R278; as the command gives it where it came by no
flit. -/
def State.heldTime (s : State) (m : TimeMsg) : TimeMsg :=
  match s.timeIn.find? (isHeldTime m) with
  | some x => { m with rx := mf x.2 56 4 * 65536 + mf x.2 60 2, delayed := bit (mf x.2 63 1) 0 }
  | none => m

/-- A TIME message that is accepted: on a port that carries TIME, of the right version and a known domain; others are
discarded and counted (R280, R281). A delayed one is counted, and the servo does not use it (R283). -/
def State.takeTime (s : State) (m : TimeMsg) (ty : Nat) (f : State → TimeMsg → State) : State :=
  if ¬ s.carriesTime m.port.val then s
  else
    let s1 := { s with timeIn := s.timeIn.eraseP (isHeldTime m) }
    let x := s.heldTime m
    if ptpVersion m.bytes ≠ 2 ∨ 1 < ptpDomain m.bytes ∨ ptpType m.bytes ≠ ty then s1.bump R.ptpDiscards 32
    else f (if x.delayed then s1.bump (R.delayedDiscards m.port.val) 32 else s1) x

/-- Whether a message came on the slave port of its domain. -/
def State.onSlave (s : State) (m : TimeMsg) : Bool :=
  s.reg (R.role (ptpDomain m.bytes)) == 2 && s.reg (R.slavePort (ptpDomain m.bytes)) == m.port.val

/-- A time stamp's fraction has bits [9:0] zero (R283). -/
def stampOf (t : Nat) : Nat := t / 1024 * 1024

/-- The asymmetry of a port in 2^-16 ns (R282). -/
def State.asymmetry (s : State) (p : Nat) : Int := s.sreg (R.delayAsymmetryPs p) 32 * 65536 / 1000

/-- The time of a Sync's reception on the scale that network time has now, mod 2^48. -/
def State.syncTime (s : State) (d rx : Nat) : Nat := (((rx : Int) + (s.dom d).sinceSync) % (2 ^ 48 : Int)).toNat

/-- SYNC (R289): held for its Follow_Up. -/
def syncNow (m : TimeMsg) (s : State) : Res :=
  .next (s.takeTime m 0 fun t m =>
    if ¬ t.onSlave m ∨ m.delayed then t
    else
      let d := ptpDomain m.bytes
      t.setDom d { t.dom d with
        pendSync := some (ptpSeq m.bytes, stampOf m.rx % 2 ^ 48, ptpCorrection m.bytes), sinceSync := 0 })

/-- FOLLOW_UP (R289): with its Sync, in one Sync interval, on a port with a valid path delay, a valid Sync. What network time has moved
since the Sync came is added to the Sync's own time, so a step between the two changes neither the interval nor the offset. -/
def followUpNow (m : TimeMsg) (s : State) : Res :=
  .next (s.takeTime m 8 fun t m =>
    if ¬ t.onSlave m ∨ m.delayed then t
    else
      let d := ptpDomain m.bytes
      let delay := t.reg (R.pathDelay m.port.val)
      match (t.dom d).pendSync with
      | some (seq, rx, corr) =>
        let rx1 := t.syncTime d rx
        if seq = ptpSeq m.bytes ∧ (stampOf m.rx + 2 ^ 48 - rx1) % 2 ^ 48 ≤ t.syncInterval d ∧ delay ≠ 0 then
          t.validSync d (ptpTime m.bytes + corr + ptpCorrection m.bytes + delay - t.extendTime rx1 + (t.dom d).sinceSync)
        else t
      | none => t)

/-- ANNOUNCE (R287): the grandmaster fields of the domain's slave port. -/
def execAnnounce (m : TimeMsg) (s : State) : Res :=
  .next (s.takeTime m 11 fun t m =>
    if ¬ t.onSlave m then t
    else
      let d := ptpDomain m.bytes
      (t.setDom d { t.dom d with announce := m.bytes.take 64 }).setBlob (R.gmIdentity d) (slice m.bytes 53 8))

/-- PDELAY_REQ (R282): answered with its receive timestamp, whose fraction the correction takes off; the request's own correction goes
into the Pdelay_Resp_Follow_Up (PRESUMED, IEEE 1588's peer delay of two steps, log entry 53). A delayed one is not answered, since
that timestamp is not used. -/
def execPdelayReq (m : TimeMsg) (s : State) : Res :=
  .next (s.takeTime m 2 fun t m =>
    if m.delayed then t
    else
      let p := m.port.val
      let rx := t.extendTime (stampOf m.rx)
      (t.modPort p fun x =>
        { x with pdelayFrom := ptpSource m.bytes ++ slice m.bytes 30 2, pdelayCorr := ptpCorrection m.bytes }).sendTime p 0
        (ptpMessage 3 0 true (twos 64 (-(ptpFrac rx : Int))) p (ptpSeq m.bytes) 0x7F (ptpStamp rx ++ ptpSource m.bytes)))

/-- Whether a Pdelay answer belongs to the port's exchange. -/
def State.answersPdelay (s : State) (m : TimeMsg) : Bool :=
  decide (ptpSeq m.bytes = (s.port m.port.val).pdelaySeq) && slice m.bytes 44 10 == portIdentity m.port.val

/-- PDELAY_RESP (R282): its receive timestamp and the peer's, with the fraction that its correction takes off. -/
def execPdelayResp (m : TimeMsg) (s : State) : Res :=
  .next (s.takeTime m 3 fun t m =>
    if ¬ t.answersPdelay m ∨ m.delayed then t
    else t.modPort m.port.val fun x =>
      { x with pdelayT4 := some (stampOf m.rx % 2 ^ 48),
               pdelayT2 := some (((ptpTime m.bytes - ptpCorrection m.bytes) % (2 ^ 48 : Int)).toNat) })

/-- The path delay of an exchange: half of what the round took less the peer's time, corrected by the asymmetry. Times
are mod 2^48. -/
def pathDelayOf (t1 t2 t3 t4 : Nat) (asym : Int) : Int :=
  (sext 48 ((t4 + 2 ^ 48 - t1) % 2 ^ 48) - sext 48 ((t3 + 2 ^ 48 - t2) % 2 ^ 48)) / 2 + asym

/-- PDELAY_RESP_FOLLOW_UP (R282): completes the exchange; the path delay is valid after four in a row. -/
def execPdelayRespFollowUp (m : TimeMsg) (s : State) : Res :=
  .next (s.takeTime m 10 fun t m =>
    let p := m.port.val
    if ¬ t.answersPdelay m ∨ m.delayed then t
    else
      match (t.port p).pdelayT1, (t.port p).pdelayT2, (t.port p).pdelayT4 with
      | some t1, some t2, some t4 =>
        let t3 := ((ptpTime m.bytes + ptpCorrection m.bytes) % (2 ^ 48 : Int)).toNat
        let runs := (t.port p).pdelayRuns + 1
        let t5 := t.modPort p fun x => { x with pdelayT1 := none, pdelayT2 := none, pdelayT4 := none, pdelayOpen := false, pdelayRuns := runs }
        if 4 ≤ runs ∨ t.reg (R.pathDelay p) ≠ 0 then
          t5.setReg (R.pathDelay p) (pathDelayOf t1 t2 t3 t4 (t.asymmetry p)).toNat
        else t5
      | _, _, _ => t)

/-! ## Sent messages -/

/-- The kind of an event message's identifier (`stampIdent`). -/
def stampKind (ident : BitVec 12) : Nat := ident.toNat / 1024

/-- The last sequence number up to `last` with given low ten bits. -/
def seqBefore (last : BitVec 16) (lo : Nat) : BitVec 16 := last - BitVec.ofNat 16 ((last.toNat + 65536 - lo % 1024) % 1024)

/-- The master ports of a domain that carry TIME. -/
def State.masters (s : State) (d : Nat) : List Nat := (bitsSet (s.reg (R.masterPorts d)) 32).filter s.carriesTime

/-- SYNC_TRANSMIT (R287): Sync on the master ports of a LOCKED domain; each Follow_Up goes when its timestamp is known. -/
def execSyncTransmit (d : Fin 2) (s : State) : Res :=
  if s.reg (R.role d.val) = 0 ∨ s.reg (R.domainState d.val) ≠ 2 then .next s
  else
    let seq := (s.dom d.val).seqSync
    let s1 := s.each (s.masters d.val) fun t p =>
      t.sendTime p d.val (ptpMessage 0 d.val true 0 p seq (s.reg (R.logSyncInterval d.val) % 256) (zeros 10))
    .next (s1.setDom d.val { s1.dom d.val with seqSync := seq + 1 })

/-- The grandmaster fields of an Announce, 30 bytes: those received, one step more, or the part's own (R287, R288); free bytes before a
first one has been received, for which the spec gives none (DESIGN CHOICE, log entry 28). -/
def State.announceBody (s : State) (d : Nat) : List Byte :=
  if s.reg (R.role d) = 1 then
    zeros 13 ++ toBE 1 128 ++ toBE 4 0xF8FEFFFF ++ toBE 1 128 ++ toBE 8 Config.serial.toNat ++ toBE 2 0 ++ toBE 1 0xA0
  else
    let a := (s.dom d).announce
    if a.length < 64 then (s.freeBytes 30).1
    else slice a 34 27 ++ toBE 2 ((beNat (slice a 61 2) + 1) % 65536) ++ slice a 63 1

/-- ANNOUNCE_TRANSMIT (R287, R288). -/
def execAnnounceTransmit (d : Fin 2) (s : State) : Res :=
  if s.reg (R.role d.val) = 0 ∨ s.reg (R.domainState d.val) ≠ 2 then .next s
  else
    let seq := (s.dom d.val).seqAnnounce
    let s1 := { s with freeCtr := s.freeCtr + 30 }.each (s.masters d.val) fun t p =>
      t.sendTime p d.val (ptpMessage 11 d.val false 0 p seq (s.reg (R.logAnnounceInterval d.val) % 256) (s.announceBody d.val))
    .next (s1.setDom d.val { s1.dom d.val with seqAnnounce := seq + 1 })

/-- PDELAY_REQ_TRANSMIT (R282): a new exchange on every port that carries TIME; one still open was incomplete. -/
def execPdelayReqTransmit (s : State) : Res :=
  .next (s.each ((List.range 32).filter s.carriesTime) fun t p =>
    let x := t.port p
    let seq := x.pdelaySeq + 1
    let runs := if x.pdelayOpen then 0 else x.pdelayRuns
    (t.setPort p { x with pdelaySeq := seq, pdelayRuns := runs, pdelayT1 := none, pdelayT2 := none, pdelayT4 := none, pdelayOpen := true }).sendTime p 0
      (ptpMessage 2 0 false 0 p seq 0xFD (zeros 20)))

/-- What follows a transmit timestamp, given as NT32 and fraction, and what network time has moved since: the Follow_Up of a Sync, while its
domain is LOCKED and the port one of its master ports, T1 of an exchange, or Pdelay_Resp_Follow_Up (R280, R284, R287). -/
def State.afterStamp (s : State) (p : Nat) (ident : BitVec 12) (d x : Nat) (moved : Int) : State :=
  let now := s.extendTime (stampOf x)
  match stampKind ident with
  | 0 =>
    let t := s.extendTime (((stampOf x : Int) + moved) % (2 ^ 48 : Int)).toNat + s.domOffset d
    let seq := seqBefore ((s.dom d).seqSync - 1) ident.toNat
    if s.reg (R.role d) = 0 ∨ s.reg (R.domainState d) ≠ 2 ∨ ¬ (s.masters d).contains p then s
    else s.sendTime p d (ptpMessage 8 d false (ptpFrac t) p seq (s.reg (R.logSyncInterval d) % 256) (ptpStamp t))
  | 1 => s.modPort p fun x => { x with pdelayT1 := some ((now % (2 ^ 48 : Int)).toNat) }
  | 2 =>
    let f := (s.port p).pdelayFrom
    s.sendTime p 0 (ptpMessage 10 0 false (twos 64 ((s.port p).pdelayCorr + ptpFrac now)) p (BitVec.ofNat 16 (beNat (slice f 10 2))) 0x7F (ptpStamp now ++ f.take 10))
  | _ => s

/-- The transmit timestamp of a port's event message: the start of the slot that first sent it, else of the present one (R283). -/
def State.sentStamp (s : State) (p : Nat) (ident : BitVec 12) : Nat :=
  match (s.port p).stamps.find? fun x => x.1 = ident with
  | some x => x.2
  | none => s.nt48

/-- What network time has moved since an event message's timestamp was taken. -/
def State.movedSince (s : State) (p : Nat) (ident : BitVec 12) : Int :=
  match (s.port p).stampMoved.find? fun x => x.1 = ident with
  | some x => s.ntMoved - x.2
  | none => 0

/-- A transmit timestamp queue entry; the domain bit is 0 for peer delay messages (R285). -/
def stampEntry (x : Nat) (ident : BitVec 12) (p d : Nat) : BitVec 128 :=
  BitVec.ofNat 128 (x / 65536 + stampOf (x % 65536) * 2 ^ 32 + ident.toNat * 2 ^ 48 + p * 2 ^ 60
    + (if stampKind ident = 0 then d else 0) * 2 ^ 65)

/-- TRANSMIT_TIMESTAMP (R283 to R285): into the queue of 16, or discarded, counted and logged once a frame. -/
def execTransmitTimestamp (port : PortId) (ident : BitVec 12) (domain : Fin 2) (s : State) : Res :=
  let p := port.val
  let x := s.sentStamp p ident
  let s0 := s.modPort p fun y => { y with stamps := y.stamps.eraseP fun z => z.1 = ident
                                          stampMoved := y.stampMoved.eraseP fun z => z.1 = ident }
  if s.tsq.length < 16 then
    .next ({ s0 with tsq := s.tsq ++ [stampEntry x ident p domain.val] }.afterStamp p ident domain.val x (s.movedSince p ident))
  else
    let s1 := s0.bump R.tsOverflows 32
    if s.tsLoggedFrame = some s.frame then .next s1
    else .next ({ s1 with tsLoggedFrame := some s.frame }.domEvent 0x3007 domain.val)

/-! ## Loss, holdover, slews -/

/-- MASTER_LOST (R290). -/
def execMasterLost (d : Fin 2) (s : State) : Res :=
  let st := s.reg (R.domainState d.val)
  if s.reg (R.role d.val) ≠ 2 ∨ (st ≠ 1 ∧ st ≠ 2) then .next s
  else .next (((s.domTo d.val 3).domEvent 0x3002 d.val).loseFollowed d.val)

/-- TIME_LOST (R297): holdover longer than its limit during a job. -/
def timeLostNow (s : State) : Res :=
  if s.holdover ∧ s.inJob then .next (s.raise 0x3006 s.lastDom (twos 64 (s.domOffset s.lastDom))) else .next s

/-- What a slewing frame removes of an offset: 5,632 − 5,632 / 1.0002 ns of a positive one, 5,632 / 0.9998 − 5,632 ns of a negative one,
for which network time runs slower than its target (R295). -/
def slewPerFrame (x : Int) : Nat := if x < 0 then 73834 else 73805

/-- SLEW_COMPLETE (R295): the offset is zero, within a frame that has no more of it to remove than a frame can. -/
def execSlewComplete (s : State) : Res :=
  let x := s.sreg R.slewRemaining 64
  if x.natAbs ≤ slewPerFrame x then .next ((s.setReg R.slewRemaining 0).timeMoved x) else .next s

/-- A frame of a slew: network time has moved by what it removed. -/
def State.slewFrame (s : State) : State :=
  let x := s.sreg R.slewRemaining 64
  if x = 0 then s
  else
    let left : Int := if x < 0 then -((x.natAbs - slewPerFrame x : Nat) : Int) else ((x.natAbs - slewPerFrame x : Nat) : Int)
    (s.setReg R.slewRemaining (twos 64 left)).timeMoved (x - left)

/-- A frame of a grandmaster's domain that the frames do not follow: its time runs at REFCLK's rate and freq_trim_ppb, network time at the
rate of the domain it follows, or last followed in holdover (R288, R297); 5,632 ns in 2^-16 ns times parts in 10^9. -/
def State.gmFrame (s : State) : State :=
  let f := s.reg R.frameReference
  s.each [0, 1] fun t d =>
    let trim := t.sreg (R.freqTrimPpb d) 32
    let rate : Int := if f < 2 then t.domRate f else if t.holdover then t.heldRate else trim
    if t.reg (R.role d) ≠ 1 ∨ f = d ∨ trim = rate then t
    else
      let x := (t.dom d).drift + (trim - rate) * 369098752
      (t.setDom d { t.dom d with drift := x % 1000000000 }).setOffset d (t.offsetOf d + x / 1000000000)

/-- A switch that takes effect at a frame boundary: the slew towards the target begins there (R295). -/
def State.takeSwitch (s : State) : State :=
  match s.switchTo with
  | none => s
  | some d =>
    let s1 := { s with switchTo := none, holdover := false, lastDom := d, stepPending := none }
    if ¬ s.switchable d then s.dropSwitch
    else
      (((s1.setDom d { s.dom d with misaligned := 0 }).setReg R.frameReference d).setReg R.slewRemaining
        (twos 64 (s.domOffset d))).domEvent 0x3004 d

/-- A step onto a domain at a frame boundary (R291). -/
def State.takeStep (s : State) : State :=
  match s.stepPending with
  | none => s
  | some d =>
    let off := s.domOffset d
    if s.inJob then { s with stepPending := none }.setReg R.slewRemaining (twos 64 off)
    else
      ({ s with stepPending := none }.stepTime (s.fullTime + off) d (twos 64 off)).timeMoved off

/-! ## Entries -/

/-- TS_POP (R285): a read returns and removes the oldest entry. -/
def State.popStamp (s : State) : State := { s with tsq := s.tsq.tail }

/-- A slew that a step meets goes on with what the step has left of the offset (R291, R295). -/
def State.slewOn (s : State) : State :=
  if s.reg R.slewRemaining = 0 then s else s.setReg R.slewRemaining (twos 64 (s.domOffset (s.reg R.frameReference)))

/-- A write of nt_set (R276, R288). -/
def writeNtSet (data : List Byte) (s : State) : WriteRes :=
  let t := leNat data
  if s.inJob then s.wBad 0x0402
  else if t < s.reg R.frameEpochNs then s.wBad 0x0303
  else
    let s1 := (s.stepTime (t * 65536 : Nat) 0 0).timeMoved ((t * 65536 : Nat) - s.fullTime)
    ([0, 1].foldl (fun (x : State) d => if x.reg (R.role d) = 1 then x.setOffset d 0 else x) s1).slewOn.wOk

/-- A write of time_select (R294): A or B only where the domain may be followed; auto switches nothing. -/
def writeTimeSelect (data : List Byte) (s : State) : WriteRes :=
  let d := leNat data
  if d = 2 then (s.setReg R.timeSelect 2).wOk
  else if s.reg R.frameReference = d ∧ s.switchTo.isNone ∧ s.switchable d then (s.setReg R.timeSelect d).wOk
  else if s.switchable d then ({ s.setReg R.timeSelect d with switchTo := some d }).wOk
  else s.wBad 0x0402

/-- The slave port of a domain must not be one of its master ports (R287). -/
def roleConflict (role slave masters : Nat) : Bool := role == 2 && bit masters slave

/-- What a domain does in a new role, once the write or commit is through (R286, R290, R479). -/
def State.roleFollow (s : State) (d old : Nat) : State :=
  let r := s.reg (R.role d)
  let s1 := s.setDom d { s.dom d with acquired := false, moved := 0, drift := 0 }
  let lost (t : State) : State := if t.holdover && !s.holdover then { t with heldRate := s.rateAs old d } else t
  if r = old then s
  else match r with
    | 0 => (lost ((s1.domTo d 0).loseFollowed d)).setBlob (R.gmIdentity d) (zeros 8)
    | 1 => ((s1.domTo d 2).setOffset d 0).lockDomain d
    | _ => lost ((s1.domTo d 1).loseFollowed d)

/-- A write of a domain's role (R286, R290). -/
def writeRole (d : Nat) (data : List Byte) (s : State) : WriteRes :=
  let r := leNat data
  if roleConflict r (s.reg (R.slavePort d)) (s.reg (R.masterPorts d)) then s.wBad 0x0303
  else (s.setReg (R.role d) r).wOk [.role d (s.reg (R.role d))]

/-- Writes of slave_port and master_ports (R287); a Sync of the former slave port waits for no Follow_Up of the new one (R289). -/
def writeSlavePort (d : Nat) (data : List Byte) (s : State) : WriteRes :=
  if roleConflict (s.reg (R.role d)) (leNat data) (s.reg (R.masterPorts d)) then s.wBad 0x0303
  else if leNat data = s.reg (R.slavePort d) then s.wOk
  else ((s.setReg (R.slavePort d) (leNat data)).setDom d { s.dom d with pendSync := none }).wOk

def writeMasterPorts (d : Nat) (data : List Byte) (s : State) : WriteRes :=
  if roleConflict (s.reg (R.role d)) (s.reg (R.slavePort d)) (leNat data) then s.wBad 0x0303
  else (s.setReg (R.masterPorts d) (leNat data)).wOk

end Sys2Proof.Machine
end

