-- ==== Sys2Proof/Machine/Frame.lean ====
section
/-! DEFINITION. What a frame boundary does: the sequencer, the start and the end of a job, the quench boundary, readiness and
replay, recovery runs; and the slot and copy commands (R200 to R209, R274, R440, R489 to R493, R534 to R558). -/

namespace Sys2Proof.Machine

/-! ## Readiness for a replay (R543, R544) -/

/-- The restart point of a step. -/
def State.restartOf (s : State) (st : BitVec 64) : Option Restart := s.restarts.find? fun r => r.step = st

/-- Frames of the copy of a set at 32 GB/s, with 10 µs (R196, R204). -/
def Image.copyFrames (i : Image) (set : Nat) : Nat :=
  ceilDiv (ceilDiv ((i.setOf set).map Clause.size).sum 32 + 10000) 5632

/-- Frames of a time in ns. -/
def framesOf (ns : Nat) : Nat := ceilDiv ns 5632

/-- Condition 1: no replay buffer holds a scheduled flit. -/
def State.replayClear (s : State) : Bool := (List.range 32).all fun p => (s.port p).replay.all fun e => flitType e.flit != 1

/-- Condition 2: the halves whose recorded set they do not hold. -/
def State.halvesWrong (s : State) (sets : List Nat) : List Nat :=
  [0, 1].filter fun h => sets.getD h 0xFFFF != 0xFFFF && s.halfSet.getD h 0xFFFF != sets.getD h 0xFFFF

/-- Condition 3: every port of the sequence verified and UP at the image's ready offset, with its variants. -/
def State.portsReady (s : State) : Bool :=
  match s.image with
  | none => true
  | some i => (bitsSet i.ports 32).all fun p =>
      s.verifiedUp p && s.reg (R.readyOffsetMeasured p) == s.reg (R.readyOffsetAssumed p) && !s.lacksVariant i p

/-- Condition 4: the followed domain LOCKED, or slewing. -/
def State.timeReady (s : State) : Bool := s.followedLocked || s.reg R.slewRemaining != 0

/-- Condition 5: every lit region may run, and runs, at 1,050 MHz. -/
def State.clocksReady (s : State) : Bool :=
  s.litList.all fun r => decide (1050000 ≤ s.reg (R.ceilingKhz r)) && s.reg (R.freqKhz r) == 1050000

/-- Condition 7: no far request to the part's own memory and no engine item is left. -/
def State.memoryIdle (s : State) : Bool :=
  s.jobCores.all (fun c => (s.core c).farq.all fun f => f.2.entries.all fun r => !r.own || r.done || r.stuck)
    && (List.range 12).all fun k =>
      (s.stack k).queues.all (fun q => q.2.isEmpty) && (s.stack k).running.all fun i => i.2.isNone

/-- Condition 6: no weight repair is under way, and every repaired word has been written. -/
def State.repairDone (s : State) : Bool :=
  s.repair.isNone && s.repairWait.isEmpty && s.repaired.all fun a => !s.bgTouches (a % 2 ^ 48 / 64 * 64) (a % 2 ^ 48 / 64 * 64 + 64)

/-- A recovery run that waits or runs. -/
def State.runBusy (s : State) : Bool := s.reg R.runState == 1 || s.reg R.runState == 2

/-- Whether steps of the job may issue: one has already, or H has reached the job hold level (R37). -/
def State.mayIssue (s : State) : Bool := s.jobIssued || decide (s.reg R.jobHoldW * 1000 ≤ s.h)

/-- Whether the part is ready to replay from a restart point (R543), its first step under R37 too. Sparing is complete at once. A
recovery run that waits or runs has the cores and a half, so no replay begins under it (DEDUCED, log entry 43). -/
def State.ready (s : State) (r : Restart) : Bool :=
  s.replayClear && (s.halvesWrong r.sets).isEmpty && s.portsReady && s.timeReady && s.clocksReady
    && s.repairDone && s.memoryIdle && !s.runBusy && s.mayIssue

/-- Ready for the record's step. -/
def State.readyFor (s : State) (q : QRec) : Bool :=
  match s.restartOf q.s with
  | some r => s.ready r
  | none => false

/-- The frame by which what is outstanding is bounded to finish (R544). -/
def State.readyBound (s : State) (q : QRec) : Nat :=
  let train := framesOf 8200000
  let stuck := (List.range 32).filter fun p => (s.port p).replay.any fun e => flitType e.flit == 1
  let c1 := (stuck.map fun p => ceilDiv ((s.port p).ackAt + 8 * 1455) 4096 + train).foldl max 0
  let c2 := match s.restartOf q.s, s.image with
    | some r, some i =>
      let w := s.halvesWrong r.sets
      if w = [] then 0 else q.stop + (w.map fun h => i.copyFrames (r.sets.getD h 0)).sum
    | _, _ => 0
  let c3 := if s.portsReady then 0 else s.frame + train
  let c5 := if s.clocksReady then 0 else s.frame + framesOf (s.reg R.ceilingWaitMs * 1000000)
  let reads := max 1 (s.repair.toList.length + s.repairWait.length)
  let c6 := if s.repairDone then 0 else s.frame + framesOf (reads * s.reg R.remoteTimeoutUs * 1000)
  [c1, c2, c3, c5, c6].foldl max 0

/-- Whether the frames since Q exceed recovery_wait_ms (R544). Clocks that are not back at 1,050 MHz within ceiling_wait_ms defer the replay
until then: REPLAY_DEFERRED, which its deferral logs again, is the report of R430 (DEDUCED, log entry 56). -/
def State.waitedOut (s : State) (q : QRec) : Bool := decide (s.reg R.recoveryWaitMs * 1000000 < (s.frame - q.q) * 5632)

/-- The replay deferred, the record's s and a unchanged (R544). -/
def State.deferReplay (s : State) (q : QRec) : State :=
  let p := max (q.p + s.reg R.replayDelayFrames) (s.readyBound q + 16)
  (s.event 0x7076 0xFF noDetail).sendQuench { q with p := p, defer := true, release := false }

/-- The record held for the control node after recovery_wait_ms (R544). -/
def State.holdAfterWait (s : State) (q : QRec) : State :=
  (s.event 0x7073 0xFF noDetail).sendQuench { q with p := heldFrame, defer := false, release := false }

/-- RECOVERY_HELD (R544). -/
def execRecoveryHeld (s : State) : Res :=
  match s.reg R.jobState, s.qrec with
  | 3, some q => if q.p ≠ heldFrame ∧ s.waitedOut q ∧ ¬ s.readyFor q then .next (s.holdAfterWait q) else .next s
  | _, _ => .next s

/-! ## Copies (R204, R543, R555) -/

/-- The next copy that a recovery run, a start or a pending replay needs. -/
def State.nextCopy (s : State) : State :=
  match s.reg R.runState, s.run with
  | 1, some r =>
    if s.copy.isNone ∧ s.halfSet.getD s.idleHalf 0xFFFF ≠ r.set then s.startCopy r.set s.idleHalf else s
  | 2, _ => s
  | _, _ =>
    match s.reg R.jobState, s.image, s.qrec with
    | 1, some i, _ => s.recopy (if s.joinWait.isSome then (s.joinPoint i).sets else i.startSets)
    | 3, _, some q => match s.restartOf q.s with
      | some r => s.recopy r.sets
      | none => s
    | _, _, _ => s

/-- CLAUSE_COPY_COMPLETE (R204): the half holds its set; draws of its clauses are recorded anew (R455). -/
def execClauseCopyComplete (s : State) : Res :=
  match s.copy, s.image with
  | some c, some i =>
    let s1 := { s.setHalf c.half c.set (i.setOf c.set) with copy := none }
    .next ((s1.setReg R.preloadState (if c.half = s1.idleHalf then 2 else 0)).clearHalfPeaks c.half).nextCopy
  | _, _ => .next s

/-! ## Frames of a job -/

/-- The sequence taken up at a boundary, the frame's clause, and the anchors of the regions. -/
def State.enterFrame (s : State) (i : Image) (next : Bool) : State :=
  let s1 := if next then s.seqNext i else s
  if s1.reg R.jobState = 2 then s1.pickClause.markFrame else s1

/-- Step history: the step of each of the last frames, newest first (R541). -/
def State.pushStep (s : State) (st : BitVec 64) : State := { s with stepHist := (st :: s.stepHist).take 4 }

/-- The step of the present frame, once its boundary is past. -/
def State.noteStep (s : State) (st : BitVec 64) : State := { s with stepHist := st :: s.stepHist.tail }

/-- The step the fabric counter shows. -/
def State.fabricStep (s : State) : BitVec 64 := BitVec.ofNat 64 (s.reg R.fabricStepCounter)

/-- preload_state of a part that runs a step again: copying, or ready where a SWAP has been undone (R215). -/
def State.showPreload (s : State) (undone : Bool) : State :=
  if s.copy.isSome then s.setReg R.preloadState 1
  else if undone && s.halfSet.getD s.idleHalf 0xFFFF != 0xFFFF then s.setReg R.preloadState 2
  else s

/-- A step run again from its restart point (R546). -/
def State.replayFrom (s : State) (i : Image) (r : Restart) (attempt : Nat) : State :=
  let place (c : Nat) : Nat × List Loop := match r.cores.find? fun x => x.1 = c with
    | some x => x.2
    | none => (0, [])
  let s1 := (((s.freshDrift).setReg R.fabricStepCounter r.step.toNat).toHalf r.active).showPreload (s.reg R.activeHalf ≠ r.active)
  let s2 := { s1 with seqPos := r.pos, reps := r.reps, runLeft := 0, runMark := false, frameIndex := r.frame, qrec := none,
                      replaying := some (r.step, attempt), firstFault := false, joinWait := none, jobIssued := true, schedFrom := s.frame
                      restarts := (r :: s.restarts.filter fun x => x.step ≠ r.step).take 8 }
  let s3 := ((s2.freshCores r.step place).startRegions r.frame).setReg R.jobState 2
  let s4 := ((s3.showRec).bump R.replaysJob 32).event 0x7070 0xFF noDetail
  (s4.enterFrame i true).noteStep r.step

/-- A replay's frame has come for a part that is not ready: a new quench of the step, its cause unchanged (R546, R547). -/
def State.requench (s : State) (q : QRec) : State :=
  let a := q.a + 1
  let limit := decide (s.reg R.replayLimit ≤ a)
  let s1 := s.event 0x7076 0xFF noDetail
  let s2 := if limit then s1.logEntry 0x7072 2 0xFF noDetail else s1
  let n := s.quenchFrameNow
  s2.sendQuench { q with a := a, q := n, p := n + s.reg R.replayDelayFrames, isEnd := q.isEnd || limit, defer := false,
                         release := false, cause := if limit then 0x7072 else q.cause }

/-- Far requests to other parts that have not completed abandoned: none of their messages goes out any more (R539). -/
def State.abandonRemote (s : State) : State :=
  let drop (r : FarReq) : FarReq := if r.own || r.done then r else { r with stuck := true }
  { s with regions := s.regions.map fun x => (x.1, { x.2 with
      cores := x.2.cores.map fun c => (c.1, { c.2 with
        farq := c.2.farq.map fun f => (f.1, { f.2 with entries := f.2.entries.map drop }) }) }) }

/-- The quench boundary (R538): QUENCHED, or the job's end where the record says so. -/
def State.quenchNow (s : State) (q : QRec) : State :=
  let s1 := (s.stopRegions.dropScheduled).setReg R.jobState 3
  let s2 := { s1.abandonRemote with epoch := s.epoch + 1, runLeft := 0, quenchAt := some s.frame, qrec := some { q with stop := s.frame } }
  if q.isEnd then s2.endJob q.cause
  else
    let s3 := if s.reg R.ballastEnable = 0 then s2.exempt else s2
    (s3.nextCopy.noteStep q.s).retune

/-- A frame of a QUENCHED part (R540, R544, R546). -/
def State.quenchedFrame (s : State) (i : Image) (q : QRec) : State :=
  let s1 := (s.pushStep q.s).nextCopy
  if q.isEnd ∧ q.q ≤ s.frame then s1.endJob q.cause
  else if q.p ≤ s.frame then
    match s1.restartOf q.s with
    | some r => if s1.ready r then s1.replayFrom i r q.a else s1.requench q
    | none => s1.requench q
  else if q.p = s.frame + 16 ∧ ¬ s1.readyFor q then
    if s1.waitedOut q then s1.holdAfterWait q else s1.deferReplay q
  else s1

/-- The step limit (R493): END at the same mark wins. -/
def State.limitReached (s : State) : Bool :=
  s.reg R.stepLimit != 0 && s.reg R.fabricStepCounter == (s.reg R.firstStep + s.reg R.stepLimit) % 2 ^ 64

/-- The frames of the clause that runs, one more of them completed (R215). -/
def State.countFrame (s : State) : State :=
  if s.reg R.activeClause < 8 then s.setReg R.frameInClause (s.reg R.frameInClause + 1) else s

/-- A frame of a RUNNING part: step mark, quench boundary, END or step limit, the next RUN, the clause. -/
def State.runningFrame (s : State) (i : Image) : State :=
  let s0 := (s.pushStep s.fabricStep).countFrame
  let s1 := { s0 with frameIndex := s.frameIndex + 1, runLeft := s.runLeft - 1 }
  let ended : Bool := s.sched && s1.runLeft == 0
  let due : Bool := match s.qrec with | some q => decide (q.stop ≤ s.frame) | none => false
  let s2 : State := if ended ∧ s.runMark then { s1.stepMark due with runMark := false } else s1
  let go : State :=
    if ended ∧ s.runMark ∧ s2.limitReached then
      let t : State := s2.seqNext i
      if t.reg R.jobState = 4 then t else s2.endJob 1
    else (s2.enterFrame i ended).noteStep s2.fabricStep
  match s2.qrec with
  | some q => if q.stop ≤ s.frame then s2.quenchNow q else go
  | none => go

/-- The lowest lit region whose ceiling lies below the job frequency, or that has not been moved back to it (R430). -/
def State.slowRegion (s : State) : Option Nat :=
  s.litList.find? fun r => decide (s.reg (R.ceilingKhz r) < 1050000)
    || decide (0 < s.reg (R.freqKhz r) ∧ s.reg (R.freqKhz r) < 1050000)

/-- The job's first frame (R202, R492): where H has not reached J or the ramp was abandoned, no step issues (R37) and
START_LATE is raised; where a lit region's ceiling fell while the job was starting and the region does not run at 1,050 MHz again,
FREQ_CEILING_LOW (R430). -/
def State.firstFrame (s : State) (i : Image) : State :=
  let s1 := { s.freshDrift with frameIndex := 0, jobFrame0 := s.frame, stepHist := [], firstFault := false }
  let s2 := s1.each (List.range 16) fun t r => t.modRegion r fun x =>
    { x with clock0 := x.clock, ceilLow := x.lit && decide (s.reg (R.ceilingKhz r) < 1050000) }
  let late : Bool := decide (s.h < s.reg R.jobHoldW * 1000) || s.rampAbandoned
  if late ∨ s.slowRegion.isSome then
    let s3 := s2.setReg R.jobState 2
    let s4 := { s3 with restarts := [s3.restartPoint] }.pushStep s3.fabricStep
    match s.slowRegion with
    | some r => if late then s4.raise 0x7040 0xFF (jobDetail 0xFFFF 0 0xFFFFFFFF) else s4.raise 0x5021 r (s.reg (R.ceilingKhz r))
    | none => s4.raise 0x7040 0xFF (jobDetail 0xFFFF 0 0xFFFFFFFF)
  else
    let s3 := ({ s2 with jobIssued := true, schedFrom := s.frame }.startRegions 0).setReg R.jobState 2
    let s4 := { s3 with restarts := [s3.restartPoint] }
    let ok : Bool := i.legacy || s.halfSet.getD 0 0xFFFF == 0
    (if ok then s4.enterFrame i true else (s4.jobFault 0x7002).markFrame).pushStep s4.fabricStep

/-- A join without the release of its frame: abandoned to IDLE (R558). -/
def State.abandonJoin (s : State) : State :=
  let s1 := ((s.setReg R.jobState 0).setReg R.joinStep 0xFFFFFFFFFFFFFFFF).abandonStart
  { s1 with joinWait := none }.event 0x7076 0xFF noDetail

/-- A join's first frame: it runs as a replay of join_step, or quenches that step again where it is not ready (R546, R558), for START_LATE
where H has not reached J or the ramp was abandoned (R492). -/
def State.joinFrame (s : State) (i : Image) (a : Nat) : State :=
  let r := s.joinPoint i
  let st := r.step
  let s1 := s.each (List.range 16) fun t k => t.modRegion k fun x => { x with clock0 := x.clock }
  let s2 := { s1 with jobFrame0 := 0, stepHist := [st, st, st, st], restarts := [r] }
  if s.rampAbandoned ∨ ¬ s.mayIssue then
    ({ s2.setReg R.jobState 2 with replaying := some (st, a), joinWait := none }.event 0x7076 0xFF noDetail).raise 0x7040 0xFF
      (jobDetail 0xFFFF 0 0xFFFFFFFF)
  else if s2.ready r then s2.replayFrom i r a
  else
    let q : QRec := { s := st, a := a, q := s.frame, p := s.frame, isEnd := false, defer := false, release := false,
                      stop := s.frame, origin := s.chip, cause := 0 }
    ({ s2.setReg R.jobState 3 with qrec := some q, joinWait := none }.showRec).requench q

/-- A STARTING part at its start frame. -/
def State.startingFrame (s : State) (i : Image) : State :=
  if s.frame < s.reg R.startFrame then s.nextCopy
  else match s.joinWait with
    | some 0 => s.abandonJoin
    | some (a + 1) => s.joinFrame i a
    | none => s.firstFrame i

/-! ## Recovery runs (R555 to R557) -/

/-- The end of a recovery run in state 3 done or 4 failed. -/
def State.endRun (s : State) (r : RunRec) (st : Nat) (begun : Bool) : State :=
  let s1 := if begun then
      (((s.stopRegions.dropScheduled).toHalf s.idleHalf).setReg R.activeClause 0xFF).setReg R.variantPorts 0
    else s
  let s2 := { s1.setReg R.runState st with run := none, runFailed := false, runLeft := 0 }
  let s3 := if r.onIdle then ((s2.setReg R.regionLight r.formerLight).setReg R.stackActive r.formerStacks).askUnits else s2
  if st = 3 then s3.event 0x7077 0xFF noDetail else s3

/-- Whether a waiting run can begin: its set in the idle half; on an IDLE part its units on and H at its level. -/
def State.runReady (s : State) (i : Image) (r : RunRec) : Bool :=
  s.copy.isNone && s.halfSet.getD s.idleHalf 0xFFFF == r.set
    && (!r.onIdle || (decide (r.level ≤ s.h) && s.litMask == i.regions && s.stacksOn.length == 12))

/-- A run's first frame: its clause in the half that becomes active, cores at their Job start values, FLIGHT_DRIFT free to be logged again
(R186, R555). On an IDLE part no job has started: what SREAD 5 and 6 count from stays as the last job left it (DESIGN CHOICE, log
entry 68). -/
def State.beginRun (s : State) (r : RunRec) : State :=
  let s1 := ((s.freshDrift.toHalf s.idleHalf).setReg R.preloadState 0).setReg R.runState 2
  let fr := match s1.clauseAt r.slot with | some c => c.frames | none => 0
  let s2 := { s1 with run := some { r with left := r.count * fr }, sched := true, schedFrom := s.frame, frameIndex := 0, runFailed := false }
  let s3 := (s2.freshCores (BitVec.ofNat 64 (s.reg R.firstStep)) fun _ => (r.entry, [])).startRegions 0
  ((s3.setReg R.activeClause r.slot).setReg R.frameInClause 0).pickClause.markFrame

/-- A frame of a recovery run counted: the frames completed in its present RUN (R215). -/
def State.runCount (s : State) (r : RunRec) : State :=
  match s.clauseAt r.slot with
  | some c => s.setReg R.frameInClause (if (r.left - 1) % c.frames = 0 then 0 else c.frames - (r.left - 1) % c.frames)
  | none => s

/-- A recovery run whose job has ended under it ends with it (R46, R556; for a job that ends otherwise DEDUCED, log entry 43). -/
def State.runEnds (s : State) : State :=
  match s.run, s.reg R.runState with
  | some r, 1 => s.endRun r 4 false
  | some r, 2 => s.endRun r 4 true
  | _, _ => s

/-- A recovery run at a frame boundary. -/
def State.runFrame (s : State) (i : Image) : State :=
  match s.run, s.reg R.runState with
  | some r, 1 =>
    if s.frame < r.frame then s.nextCopy
    else if s.runReady i r then s.beginRun r
    else s.endRun r 4 false
  | some r, 2 =>
    if s.runFailed then s.endRun r 4 true
    else if r.left ≤ 1 then s.endRun r 3 true
    else ({ s with run := some { r with left := r.left - 1 }, frameIndex := s.frameIndex + 1 }.runCount r).pickClause.markFrame
  | _, _ => s

/-! ## The boundary -/

/-- A new frame: its number, slot 0, the latched NT32 with fraction 0 (R274), slews, switches and steps (R291, R295). -/
def State.newFrame (s : State) : State :=
  let n := (s.frame + 1) % 2 ^ 48
  let t := (s.reg R.frameEpochNs + n * 5632) % 2 ^ 32
  let s1 := { s with frame := n, slot := 0, nt32 := BitVec.ofNat 32 t, ntFrac := 0, subSlot := 0, latched := BitVec.ofNat 32 t,
                     wrapDue := s.wrapDue + (if t < s.nt32.toNat then 1 else 0) }
  (s1.gmFrame.slewFrame.takeSwitch).takeStep

/-- What the job and a recovery run do at the start of a frame. -/
def State.jobFrame (s : State) : State :=
  match s.image with
  | none => s
  | some i =>
    match s.reg R.jobState, s.qrec with
    | 0, _ => s.runFrame i
    | 1, _ => s.startingFrame i
    | 2, _ => s.runningFrame i
    | 3, some q => (s.runFrame i).quenchedFrame i q
    | _, _ => s.runEnds

/-- A frame boundary but for a commit that is due at it. -/
def State.frameStep (s : State) : State := s.newFrame.rateSwitch.legacySwitch.jobFrame

/-- SLOT_TICK (R165): one slot of the fabric, and what the DMA channels put into the classes. -/
def slotTickNow (s : State) : Res :=
  let next := if s.sched ∧ 4088 ≤ s.slot then s.frameStep.runningClause else none
  if s.spineOn ∧ s.slot < 4096 then .next (s.slotStep next).dmaPumps.svcPumps else .next s

/-- WRAP_EVENT (R272): NT32 has passed from its last value to 0; once for each time. -/
def execWrapEvent (s : State) : Res :=
  if 0 < s.wrapDue then .next ({ s with wrapDue := s.wrapDue - 1 }.bump R.wrapCount 32) else .next s

/-! ## Recovery entries (R545, R552, R555 to R559) -/

/-- A write of replay_release (R545). -/
def writeReplayRelease (data : List Byte) (s : State) : WriteRes :=
  let v := leNat data
  match s.reg R.jobState, s.qrec with
  | 3, some q =>
    if v = heldFrame then (s.sendQuench { q with p := v, defer := false, release := true }).wOk
    else if v < s.frame + 64 then s.wBad 0x0301
    else (s.sendQuench { q with p := v, defer := false, release := true }).wOk
  | _, _ => s.wBad 0x0402

/-- A write of spare_core (R54, R552). -/
def writeSpareCore (data : List Byte) (s : State) : WriteRes :=
  let c := leNat data
  if s.reg R.jobState ≠ 3 then s.wBad 0x0402
  else match s.spare c with
    | some t => t.wOk
    | none =>
      let x := s.region (c / 64)
      (s.raise 0x1081 (c / 64) (coreDetail c (72 * (c / 64) + x.map.getD (c % 64) 0) 0 (s.core c).pc x.beat)
        (some (c, (s.core c).pc))).wOk

/-- The ports that a clause's tables name. -/
def Clause.ports (c : Clause) : List Nat := (List.range 32).filter c.usesPort

/-- A write of run_start (R555, R557). -/
def writeRunStart (_data : List Byte) (s : State) : WriteRes :=
  let st := s.reg R.jobState
  match s.image with
  | none => s.wBad 0x0402
  | some i =>
    if (st ≠ 0 ∧ st ≠ 3) ∨ s.runBusy ∨ ¬ s.followedLocked then s.wBad 0x0402
    else match (i.setOf (s.reg R.runSet))[s.reg R.runSlot]? with
      | none => s.wBad 0x0402
      | some c =>
        if ¬ c.ports.all s.verifiedUp then s.wBad 0x0402
        else if st = 0 ∧ (¬ s.canLight ∨ s.fifthRegion i ∨ (s.reg R.groupEnable &&& i.portGroups) ≠ i.portGroups) then s.wBad 0x0402
        else
          let level := c.envelope * 1000
          if s.reg R.runFrame < s.frame + 64 + i.copyFrames (s.reg R.runSet) + s.rampFrames level then s.wBad 0x0301
          else if s.reg R.runCount = 0 then ((s.setReg R.runState 3).event 0x7077 0xFF noDetail).wOk
          else
            let r : RunRec := { set := s.reg R.runSet, slot := s.reg R.runSlot, count := s.reg R.runCount,
                                entry := s.reg R.runEntry, frame := s.reg R.runFrame, left := 0, onIdle := st = 0,
                                formerLight := s.reg R.regionLight, formerStacks := s.reg R.stackActive, level := level }
            let s1 := { s.setReg R.runState 1 with run := some r }
            let s2 := if st = 0 then ((s1.setReg R.regionLight i.regions).setReg R.stackActive 0xFFF).askUnits else s1
            s2.nextCopy.wOk

/-- Writes of the run and adoption parameters while a run or an adoption is under way (R562). -/
def writeRunSetup (k : Nat) (data : List Byte) (s : State) : WriteRes :=
  if s.runBusy ∨ s.adopt then s.wBad 0x0402
  else if k = R.adoptRanges ∨ k = R.adoptDigest then (s.setBlob k data).wOk
  else (s.setReg k (leNat data)).wOk

/-- A write of adopt_start (R559). -/
def writeAdoptStart (_data : List Byte) (s : State) : WriteRes :=
  let twins := [28, 29, 30, 31].all fun p =>
    s.reg (R.linkState p) == 7 && s.reg (R.portMode p) == 1 && field (s.blob (R.peerIdentity p)) 0 2 == s.twin
  if s.reg R.jobState ≠ 0 ∨ s.image.isNone ∨ ¬ twins then s.wBad 0x0402
  else ({ s with adopt := true }).wOk

/-- CUSTODY_ADOPTED (R559): the ranges, in ascending order, hashed and compared. -/
def execCustodyAdopted (s : State) : Res :=
  match s.image with
  | some i =>
    if ¬ s.adopt then .next s
    else
      let rs := (adoptList (s.blob R.adoptRanges)).mergeSort fun x y => decide (x.1 ≤ y.1)
      let (d, s0) := s.hashRanges rs
      let s1 := { s0 with adopt := false }
      if d = s.blob R.adoptDigest then
        let peer := BitVec.ofNat 64 (field (s.blob (R.peerIdentity 28)) 32 8)
        let s2 := { s1 with image := some { i with weights := rs }, confirmedSerial := peer }
        .next (((s2.setReg R.custodyGiven 2).setBlob R.givenDigest d).event 0x7078 0xFF noDetail)
      else .next ((s1.setReg R.custodyGiven 3).setBlob R.givenDigest (zeros 48))
  | none => .next { s with adopt := false }

/-- WEIGHT_REPAIRED (R551): the word read from the twin's custody copy is written back. -/
def execWeightRepaired (region : RegionId) (data : BitVec 512) (s : State) : Res :=
  match s.repair with
  | some w =>
    if w / 2 ^ 30 = region.val then
      .next ({ s with slots := s.slots.filter fun x => x.kind ≠ 5 }.repairWord (bytesOf 64 data))
    else .next s
  | none => .next s

/-- WEIGHT_REPAIR_TIMEOUT (R551). -/
def execWeightRepairTimeout (s : State) : Res :=
  .next { s with slots := s.slots.filter fun x => x.kind ≠ 5 }.repairFail

end Sys2Proof.Machine
end

