-- ==== Sys2Proof/Machine/Ed25519.lean ====
section
/-! DEFINITION. Verifying Ed25519 signatures (R564, R566), as RFC 8032 defines them: the curve over 2^255 - 19 in extended
coordinates, and the group equation with the cofactor. The standard is named by the spec and not printed in it (PRESUMED, log
entry 12). -/

namespace Sys2Proof.Machine

/-- The field's prime. -/
def edP : Nat := 2 ^ 255 - 19

/-- The order of the base point. -/
def edL : Nat := 2 ^ 252 + 27742317777372353535851937790883648493

/-- Sum, difference and product in the field. -/
def edAdd (a b : Nat) : Nat := (a + b) % edP
def edSub (a b : Nat) : Nat := (a + edP - b % edP) % edP
def edMul (a b : Nat) : Nat := a * b % edP

/-- The bits of a number below 2^256, the highest first. -/
def bitsDown (e : Nat) : List Bool := ((List.range 256).map fun i => Nat.testBit e i).reverse

/-- A power in the field, of an exponent below 2^256. -/
def edPow (b e : Nat) : Nat := (bitsDown e).foldl (fun a x => let q := edMul a a; if x then edMul q b else q) 1

/-- The curve's constant d = -121665 / 121666. -/
def edD : Nat := edMul (edSub 0 121665) (edPow 121666 (edP - 2))

/-- A point in extended coordinates: X, Y, Z and T = XY / Z. -/
structure EdPoint where
  x : Nat
  y : Nat
  z : Nat
  t : Nat
  deriving DecidableEq, Repr

/-- The neutral point. -/
def edZero : EdPoint := ⟨0, 1, 1, 0⟩

/-- The sum of two points, the same formula for a point and itself. -/
def EdPoint.add (p q : EdPoint) : EdPoint :=
  let a := edMul (edSub p.y p.x) (edSub q.y q.x)
  let b := edMul (edAdd p.y p.x) (edAdd q.y q.x)
  let c := edMul (edMul (edMul 2 edD) p.t) q.t
  let d := edMul (edMul 2 p.z) q.z
  let e := edSub b a
  let f := edSub d c
  let g := edAdd d c
  let h := edAdd b a
  ⟨edMul e f, edMul g h, edMul f g, edMul e h⟩

/-- A multiple of a point, by a number below 2^256. -/
def EdPoint.mul (p : EdPoint) (k : Nat) : EdPoint :=
  (bitsDown k).foldl (fun a x => let q := a.add a; if x then q.add p else q) edZero

/-- Whether two points are one. -/
def EdPoint.same (p q : EdPoint) : Bool :=
  edMul p.x q.z == edMul q.x p.z && edMul p.y q.z == edMul q.y p.z

/-- The square root of u / v that is even or odd as asked, if there is one. -/
def edRoot (u v : Nat) (odd : Bool) : Option Nat :=
  let v3 := edMul (edMul v v) v
  let v7 := edMul (edMul v3 v3) v
  let r := edMul (edMul u v3) (edPow (edMul u v7) ((edP - 5) / 8))
  let w := edMul v (edMul r r)
  let x? : Option Nat :=
    if w = u % edP then some r
    else if w = edSub 0 u then some (edMul r (edPow 2 ((edP - 1) / 4)))
    else none
  x?.bind fun x =>
    if x = 0 ∧ odd then none else some (if (x % 2 == 1) == odd then x else edP - x)

/-- The point that 32 bytes encode. -/
def edDecode (b : List Byte) : Option EdPoint :=
  let n := leNat b
  let y := n % 2 ^ 255
  let y2 := edMul y y
  if edP ≤ y then none
  else (edRoot (edSub y2 1) (edAdd (edMul edD y2) 1) (Nat.testBit n 255)).map fun x => ⟨x, y, 1, edMul x y⟩

/-- The base point: y = 4/5 and an even x. -/
def edBase : Option EdPoint := edDecode (toLE 32 (edMul 4 (edPow 5 (edP - 2))))

/-- Whether a 64-byte signature of a message verifies under a 32-byte public key: [8][S]B = [8]R + [8][k]A. -/
def ed25519Verify (key m sig : List Byte) : Bool :=
  let s := leNat (slice sig 32 32)
  match edBase, edDecode (sig.take 32), edDecode key with
  | some b, some r, some a =>
    let k := leNat (sha512 (sig.take 32 ++ key ++ m)) % edL
    sig.length == 64 && key.length == 32 && decide (s < edL) && ((b.mul s).mul 8).same ((r.add (a.mul k)).mul 8)
  | _, _, _ => false

end Sys2Proof.Machine
end

