-- ==== Sys2Proof/Machine/MlDsa.lean ====
section
/-! DEFINITION. Verifying ML-DSA-65 signatures (R564, R566), as FIPS 204 defines them, with SHAKE128 and SHAKE256 of FIPS 202. The
standards are named by the spec and not printed in it (PRESUMED, log entry 12). -/

namespace Sys2Proof.Machine

/-! ## SHAKE (FIPS 202) -/

/-- The powers of x modulo x^8 + x^6 + x^5 + x^4 + 1 over two elements, as bytes: the register whose first bit makes the round
constants. -/
def keccakPow : Nat → Nat
  | 0 => 1
  | t + 1 => let r := 2 * keccakPow t; if 256 ≤ r then (r - 256) ^^^ 0x71 else r

/-- The constant of round `i`: bit 2^j − 1 is the register's first bit after j + 7 i steps. -/
def keccakConst (i : Nat) : BitVec 64 :=
  (List.range 7).foldl (fun w j => if keccakPow (j + 7 * i) % 2 = 1 then w ||| BitVec.twoPow 64 (2 ^ j - 1) else w) 0

/-- The constants of the 24 rounds. -/
def keccakConsts : List (BitVec 64) := (List.range 24).map keccakConst

/-- The tour of the lanes but the first, each with its rotation: from column 1 of row 0 on, column x of row y goes to column y of row
2 x + 3 y, and the t-th lane turns by the t-th triangular number. -/
def keccakTour : List (Nat × Nat × Nat) :=
  ((List.range 24).foldl (fun (z : List (Nat × Nat × Nat) × Nat × Nat) t =>
    (z.1 ++ [(z.2.1, z.2.2, (t + 1) * (t + 2) / 2 % 64)], z.2.2, (2 * z.2.1 + 3 * z.2.2) % 5)) ([], 1, 0)).1

/-- Lane of column `x`, row `y`, each modulo 5. -/
def keccakLane (l : List (BitVec 64)) (x y : Nat) : BitVec 64 := l.getD (x % 5 + 5 * (y % 5)) 0

/-- The lanes spread to the place each takes from the tour, turned by its rotation (rho and pi). -/
def keccakSpread (l : List (BitVec 64)) : List (BitVec 64) :=
  keccakTour.foldl (fun r z => r.set (z.2.1 + 5 * ((2 * z.1 + 3 * z.2.1) % 5)) ((keccakLane l z.1 z.2.1).rotateLeft z.2.2)) l

/-- One round on the 25 lanes, row by row. -/
def keccakRound (l : List (BitVec 64)) (rc : BitVec 64) : List (BitVec 64) :=
  let parity := (List.range 5).map fun x => (List.range 5).foldl (fun w y => w ^^^ keccakLane l x y) 0
  let mixed := l.zipIdx.map fun z => z.1 ^^^ keccakLane parity (z.2 + 4) 0 ^^^ (keccakLane parity (z.2 + 1) 0).rotateLeft 1
  let r := keccakSpread mixed
  (r.zipIdx.map fun z =>
    z.1 ^^^ (keccakLane r (z.2 + 2) (z.2 / 5) &&& ~~~ keccakLane r (z.2 + 1) (z.2 / 5))).modify 0 (· ^^^ rc)

/-- Keccak-f[1600]. -/
def keccakF (a : List (BitVec 64)) : List (BitVec 64) := keccakConsts.foldl keccakRound a

/-- Blocks of `rate` bytes absorbed, `n` of them. -/
def absorb (rate : Nat) : Nat → List (BitVec 64) → List Byte → List (BitVec 64)
  | 0, a, _ => a
  | n + 1, a, m =>
    let w := (List.range 25).map fun i => if 8 * i < rate then BitVec.ofNat 64 (field m (8 * i) 8) else 0
    absorb rate n (keccakF (List.zipWith (· ^^^ ·) a w)) (m.drop rate)

/-- `n` blocks of output. -/
def squeeze (rate : Nat) : Nat → List (BitVec 64) → List Byte
  | 0, _ => []
  | n + 1, a => (a.flatMap fun w => bytesOf 8 w).take rate ++ squeeze rate n (keccakF a)

/-- The first `len` bytes of SHAKE with a rate: 168 for SHAKE128, 136 for SHAKE256. -/
def shake (rate : Nat) (m : List Byte) (len : Nat) : List Byte :=
  let gap := rate - m.length % rate
  let pad : List Byte := if gap = 1 then [0x9F] else [0x1F] ++ zeros (gap - 2) ++ [0x80]
  (squeeze rate (ceilDiv len rate) (absorb rate (m.length / rate + 1) (List.replicate 25 0) (m ++ pad))).take len

/-- SHAKE256, the function H of FIPS 204. -/
def shake256 (m : List Byte) (len : Nat) : List Byte := shake 136 m len

/-! ## The ring -/

/-- The modulus. -/
def dsaQ : Nat := 8380417

/-- A polynomial of 256 coefficients below the modulus. -/
abbrev DsaPoly := List Nat

/-- A power modulo q, of an exponent below 1024. -/
def dsaPow (b e : Nat) : Nat :=
  (List.range 10).reverse.foldl (fun a i => let s := a * a % dsaQ; if Nat.testBit e i then s * b % dsaQ else s) 1

/-- The bits of a byte in reverse order. -/
def rev8 (m : Nat) : Nat := (List.range 8).foldl (fun a i => if Nat.testBit m i then a + 2 ^ (7 - i) else a) 0

def dsaAdd (a b : DsaPoly) : DsaPoly := List.zipWith (fun x y => (x + y) % dsaQ) a b
def dsaSub (a b : DsaPoly) : DsaPoly := List.zipWith (fun x y => (x + dsaQ - y % dsaQ) % dsaQ) a b
def dsaMul (a b : DsaPoly) : DsaPoly := List.zipWith (fun x y => x * y % dsaQ) a b
def dsaScale (k : Nat) (a : DsaPoly) : DsaPoly := a.map fun x => k * x % dsaQ

/-- The number-theoretic transform of 2^n coefficients, from the root of index m on. -/
def dsaNtt : Nat → Nat → DsaPoly → DsaPoly
  | 0, _, w => w
  | n + 1, m, w =>
    let a := w.take (2 ^ n)
    let b := dsaScale (dsaPow 1753 (rev8 m)) (w.drop (2 ^ n))
    dsaNtt n (2 * m) (dsaAdd a b) ++ dsaNtt n (2 * m + 1) (dsaSub a b)

/-- Its inverse, without the division by 2^n. -/
def dsaInv : Nat → Nat → DsaPoly → DsaPoly
  | 0, _, w => w
  | n + 1, m, w =>
    let a := dsaInv n (2 * m) (w.take (2 ^ n))
    let b := dsaInv n (2 * m + 1) (w.drop (2 ^ n))
    dsaAdd a b ++ dsaScale (dsaPow 1753 (512 - rev8 m)) (dsaSub a b)

def ntt (w : DsaPoly) : DsaPoly := dsaNtt 8 1 w
def nttInv (w : DsaPoly) : DsaPoly := dsaScale 8347681 (dsaInv 8 1 w)

/-! ## Sampling and packing -/

/-- The coefficients that triples of bytes give, those not below q rejected. -/
def dsaTriples : Nat → List Byte → DsaPoly
  | 0, _ => []
  | n + 1, l =>
    let z := field l 0 3 % 2 ^ 23
    let rest := dsaTriples n (l.drop 3)
    if z < dsaQ then z :: rest else rest

/-- An entry of the matrix, row `r` and column `c`: 256 coefficients out of the first 1,024 triples. -/
def dsaEntry (rho : List Byte) (r c : Nat) : DsaPoly := (dsaTriples 1024 (shake 168 (rho ++ toLE 1 c ++ toLE 1 r) 3072)).take 256

/-- The challenge's 49 places, from place 207 up: the first byte that is not above the place names the coefficient that moves there. -/
def dsaBall (signs : Nat) : Nat → List Byte → DsaPoly → DsaPoly
  | 0, _, c => c
  | n + 1, l, c =>
    let i := 255 - n
    match l.dropWhile fun b => decide (i < b.toNat) with
    | [] => c
    | j :: rest => dsaBall signs n rest ((c.set i (c.getD j.toNat 0)).set j.toNat (if Nat.testBit signs (48 - n) then dsaQ - 1 else 1))

/-- The challenge polynomial of 49 coefficients 1 or -1. -/
def dsaChallenge (seed : List Byte) : DsaPoly :=
  let s := shake256 seed 1088
  dsaBall (field s 0 8) 49 (s.drop 8) (List.replicate 256 0)

/-- 256 fields of `w` bits each. -/
def dsaUnpack (w : Nat) (b : List Byte) : List Nat :=
  let n := leNat b
  (List.range 256).map fun i => n / 2 ^ (w * i) % 2 ^ w

/-- The hint bits of one polynomial: the strictly rising places between two indexes, none where they do not rise. -/
def dsaRising : List Byte → Bool
  | a :: b :: t => decide (a.toNat < b.toNat) && dsaRising (b :: t)
  | _ => true

/-- The places of the hints, for each of the 6 polynomials; none where the 61 bytes are malformed. -/
def dsaHints (y : List Byte) : Option (List (List Byte)) :=
  let cut (i : Nat) : Nat := if i = 0 then 0 else field y (54 + i) 1
  let ok := (List.range 6).all fun i =>
    decide (cut i ≤ cut (i + 1)) && decide (cut (i + 1) ≤ 55) && dsaRising (slice y (cut i) (cut (i + 1) - cut i))
  if ok && (slice y (cut 6) (55 - cut 6)).all (· == 0) then
    some ((List.range 6).map fun i => slice y (cut i) (cut (i + 1) - cut i))
  else none

/-- Twice gamma2. -/
def dsaStep : Nat := 523776

/-- The high part of a coefficient, and whether its low part is above zero. -/
def dsaDecompose (r : Nat) : Nat × Bool :=
  let low := r % dsaStep
  let r0 : Int := if low ≤ dsaStep / 2 then low else (low : Int) - dsaStep
  let high := ((r : Int) - r0).toNat
  if high = dsaQ - 1 then (0, decide (0 < r0 - 1)) else (high / dsaStep, decide (0 < r0))

/-- The high part with its hint. -/
def dsaUseHint (h : Bool) (r : Nat) : Nat :=
  let (r1, up) := dsaDecompose r
  if h then (if up then (r1 + 1) % 16 else (r1 + 15) % 16) else r1

/-- The high parts of a polynomial packed, four bits each. -/
def dsaPackHigh (w : List Nat) : List Byte := toLE 128 ((w.zipIdx.map fun x => x.1 * 16 ^ x.2).sum)

/-! ## Verifying -/

/-- Whether a 3,309-byte signature of a message with a context of at most 255 bytes verifies under a 1,952-byte public key. -/
def mldsaVerify (key m ctx sig : List Byte) : Bool :=
  let rho := key.take 32
  let t1 := (List.range 6).map fun i => dsaUnpack 10 (slice key (32 + 320 * i) 320)
  let z := (List.range 5).map fun i => (dsaUnpack 20 (slice sig (48 + 640 * i) 640)).map fun x => (524288 - x : Int)
  match dsaHints (slice sig 3248 61) with
  | none => false
  | some h =>
    let mu := shake256 (shake256 key 64 ++ toLE 1 0 ++ toLE 1 ctx.length ++ ctx ++ m) 64
    let c := ntt (dsaChallenge (sig.take 48))
    let zn := z.map fun p => ntt (p.map fun x => (x % (dsaQ : Int)).toNat)
    let w (i : Nat) : DsaPoly :=
      let az := zn.zipIdx.foldl (fun a x => dsaAdd a (dsaMul (dsaEntry rho i x.2) x.1)) (List.replicate 256 0)
      nttInv (dsaSub az (dsaMul c (ntt (dsaScale 8192 (t1.getD i [])))))
    let high (i : Nat) : List Nat :=
      (w i).zipIdx.map fun x => dsaUseHint ((h.getD i []).any fun b => b.toNat == x.2) x.1
    let small := z.all fun p => p.all fun x => decide (x.natAbs < 524288 - 196)
    key.length == 1952 && sig.length == 3309 && decide (ctx.length ≤ 255) && small
      && shake256 (mu ++ (List.range 6).flatMap fun i => dsaPackHigh (high i)) 48 == sig.take 48

end Sys2Proof.Machine
end

