-- ==== Sys2Proof/Machine/Security.lean ====
section
/-! DEFINITION. Signed records, the boot chain, the anti-rollback record, attestation, test access and its mailbox, and the
entries of resets and the log (R23 to R28, R483, R509 to R515, R563 to R576). -/

namespace Sys2Proof.Machine

/-! ## Signed records (R564 to R566) -/

/-- The 12 ASCII bytes of the signature context. -/
def recContext : List Byte := asciiBytes [0x48, 0x4C, 0x4D, 0x2D, 0x46, 0x51, 0x31, 0x32, 0x2D, 0x52, 0x45, 0x43]

/-- A signed record taken apart. -/
structure SRec where
  ty : Nat
  version : Nat
  body : List Byte
  signed : List Byte
  signer : List Byte
  ed : List Byte
  mldsa : List Byte
  deriving DecidableEq, Repr

/-- A record that follows R564, or none. -/
def parseRec (b : List Byte) : Option SRec :=
  let n := field b 16 8
  let m := field b (32 + n) 4
  if b.length < 36 ∨ field b 0 4 ≠ 0x52434548 ∨ ¬ [1, 2, 3, 5, 6, 7].contains (field b 4 2) ∨ field b 6 2 ≠ 1 ∨ n = 0
      ∨ field b 24 8 ≠ 0 ∨ b.length ≠ 32 + n + 4 + m + 64 + 3309 then none
  else
    some { ty := field b 4 2, version := field b 8 8, body := slice b 32 n, signed := b.take (32 + n),
           signer := slice b (36 + n) m, ed := slice b (36 + n + m) 64, mldsa := slice b (100 + n + m) 3309 }

/-- The record and the certificates of its signer chain, at most `n` of them: none where one breaks R564 or R565, and whether
the chain ended. -/
def chainOf : Nat → List Byte → Option (List SRec × Bool)
  | 0, _ => some ([], false)
  | n + 1, b =>
    match parseRec b with
    | none => none
    | some r =>
      if r.signer = [] then some ([r], true)
      else match chainOf n r.signer with
        | some (l, ended) => some (r :: l, ended)
        | none => none

/-- A certificate's body follows R565. -/
def SRec.isCert (r : SRec) : Bool := r.ty == 6 && r.body.length == 2000 && field r.body 12 4 == 0

/-- A certificate allows a type. -/
def SRec.allows (r : SRec) (ty : Nat) : Bool := decide (ty < 32) && bit (field r.body 8 4) ty

/-- The keys of the signer of the first record of a chain. -/
def signerKeys : List SRec → List Byte × List Byte
  | c :: _ => (slice c.body 16 32, slice c.body 48 1952)
  | [] => (Config.rootEd.toList, Config.rootMldsa.toList)

/-- Whether every record of a chain passes a check against its signer. -/
def chainAll (f : SRec → List SRec → Bool) : List SRec → Bool
  | [] => true
  | r :: t => f r t && chainAll f t

/-- R566: 0 where the record verifies as one of type `ty` with a minimum version, else the reason code. -/
def verifyRec (b : List Byte) (ty minVersion : Nat) : Nat :=
  match chainOf 4 b with
  | none => 1
  | some (l, ended) =>
    if (l.head?.map (·.ty)) ≠ some ty ∨ l.tail.any (fun c => !c.isCert) then 1
    else if ¬ ended then 2
    else if ¬ chainAll (fun r t => match t with | c :: _ => c.allows r.ty | [] => true) l then 3
    else if ¬ chainAll (fun r t => ed25519Verify (signerKeys t).1 (recContext ++ r.signed) r.ed) l then 4
    else if ¬ chainAll (fun r t => mldsaVerify (signerKeys t).2 r.signed recContext r.mldsa) l then 5
    else if ty ≤ 3 ∧ (l.head?.map (·.version)).getD 0 < minVersion then 6
    else 0

/-- The detail of a class 0x80 entry (R575). -/
def secDetail (ty reason : Nat) : Nat := ty % 65536 + reason % 256 * 65536

/-- The detail of an entry on a record: its own type field and the reason (R575). -/
def recDetail (b : List Byte) (reason : Nat) : Nat := secDetail (field b 4 2) reason

/-! ## The anti-rollback record (R568) -/

/-- A valid copy: its 80 bytes carry the MAC. -/
def rollbackOk (l : List Byte) : Bool := l.length == 80 && slice l 32 48 == hmac384 Config.macKey (l.take 32)

/-- An 80-byte record of a counter and three minimums. -/
def rollbackOf (counter fw grade cfg : Nat) : List Byte :=
  let b := toLE 8 counter ++ toLE 8 fw ++ toLE 8 grade ++ toLE 8 cfg
  b ++ hmac384 Config.macKey b

/-- The valid copy with the higher counter. -/
def State.rollback (s : State) : Option (List Byte) :=
  match rollbackOk s.rollback0, rollbackOk s.rollback1 with
  | true, true => some (if field s.rollback0 0 8 < field s.rollback1 0 8 then s.rollback1 else s.rollback0)
  | true, false => some s.rollback0
  | false, true => some s.rollback1
  | false, false => none

/-- The minimum version of a record type: 1 firmware, 2 grade, 3 configuration. -/
def State.minFor (s : State) (ty : Nat) : Nat := (s.rollback.map fun l => field l (8 * ty) 8).getD 0

/-- The minimums as the dictionary shows them. -/
def State.showMins (s : State) : State := s.setBlob R.minVersions (toLE 8 (s.minFor 1) ++ toLE 8 (s.minFor 2) ++ toLE 8 (s.minFor 3))

/-- A minimum raised: the copy without the higher valid counter is written, the counter one higher (R568). -/
def State.raiseMin (s : State) (ty v : Nat) : State :=
  let c := (s.rollback.map fun l => field l 0 8).getD 0
  let m (t : Nat) : Nat := if t = ty then max v (s.minFor t) else s.minFor t
  let new := rollbackOf ((c + 1) % 2 ^ 64) (m 1) (m 2) (m 3)
  let first : Bool := s.rollback == some s.rollback0 && rollbackOk s.rollback0
  (if first then { s with rollback1 := new } else { s with rollback0 := new }).showMins

/-- The firmware banks. -/
def State.bank (s : State) (b : Nat) : List Byte := if b = 0 then s.bankA else s.bankB

def State.setBank (s : State) (b : Nat) (l : List Byte) : State := if b = 0 then { s with bankA := l } else { s with bankB := l }

/-- The version of a bank that verifies, else 0. -/
def State.bankVersion (s : State) (b : Nat) : Nat :=
  if verifyRec (s.bank b) 1 (s.minFor 1) = 0 then field (s.bank b) 8 8 else 0

def State.showBanks (s : State) : State := s.setBlob R.bankVersions (toLE 8 (s.bankVersion 0) ++ toLE 8 (s.bankVersion 1))

/-- With no valid copy, both are rewritten: the firmware minimum is the higher version of the banks that verify without the
version check (R568). -/
def State.rebuildRollback (s : State) : State :=
  if s.rollback.isSome then s
  else
    let v (b : Nat) : Nat := if verifyRec (s.bank b) 1 0 = 0 then field (s.bank b) 8 8 else 0
    let r := rollbackOf 0 (max (v 0) (v 1)) 0 0
    { s with rollback0 := r, rollback1 := r }.event 0x8003 0xFF 0

/-! ## Boot (R56, R57, R567, R570) -/

/-- The grade record's masks (its body: identifier, sixteen 9-byte masks, 8 bytes for each row repair). -/
def gradeMask (body : List Byte) (r : Nat) : List Byte := slice body (4 + 9 * r) 9

/-- The good cores of a mask. -/
def goodCount (m : List Byte) : Nat := (bitsSet (leNat m) 72).length

/-- The grade record applied, or GRADE_INVALID with its reason (R56, R57). A record that fails verification for whatever reason shows 2,
and a region with fewer than 64 good cores shows its count in good_cores_min, below the range of R82 (DESIGN CHOICE, log entry 68). -/
def State.applyGrade (s : State) : State :=
  let v := if s.gradeRec = [] then 1 else if verifyRec s.gradeRec 2 (s.minFor 2) ≠ 0 then 2 else 0
  if v ≠ 0 then (((s.setReg R.gradeState v).setReg R.gradeRecordVersion 0).event 0x1080 0 0).noteCoreFault 0x1080 none
  else
    let body := slice s.gradeRec 32 (field s.gradeRec 16 8)
    let fewest := ((List.range 16).map fun r => goodCount (gradeMask body r)).foldl min 72
    let s1 := s.measure1 3 (field s.gradeRec 8 8) (sha384 s.gradeRec)
    let s2 := s1.each (List.range 16) fun t r => t.setBlob (R.goodMask r) (gradeMask body r)
    let s3 := (((s2.setReg R.gradeId (field body 0 4)).setReg R.gradeRecordVersion (field s.gradeRec 6 2)).setReg
      R.goodCoresMin fewest).setReg R.rowRepairs ((body.length - 148) / 8)
    if fewest < 64 then ((s3.setReg R.gradeState 3).event 0x1080 0 0).noteCoreFault 0x1080 none else s3.setReg R.gradeState 0

/-- The values a configuration record lists: index, subindex, U16 length, value; at most `n` of them (R567). -/
def cfgItems : Nat → List Byte → Tab (List Byte)
  | 0, _ => []
  | n + 1, b =>
    if b.length < 5 then []
    else
      let len := field b 3 2
      (regKey (field b 0 2) (field b 2 1), slice b 5 len) :: cfgItems n (b.drop (5 + len))

/-- Whether a configuration body (R567) lists a value of no bytes, a length without a meaning (R10). -/
def cfgEmptyItem (l : List Byte) : Bool := (cfgItems l.length l).any fun x => x.2.isEmpty

/-- R566, and for a configuration record R10 as well: its reason code 0x01 where it lists a value of no bytes. -/
def verifyConfig (r : List Byte) (minVersion : Nat) : Nat :=
  let v := verifyRec r 3 minVersion
  if v = 0 ∧ cfgEmptyItem ((slice r 32 (field r 16 8)).drop 1) then 1 else v

/-- The configuration records: those that verify replace table defaults of class K entries, others are ignored and logged. -/
def State.applyConfig (s : State) : State :=
  ({ s with cfg := [] }.setReg R.configSlots 0).each (List.range 8) fun t n =>
    let r := Tab.get [] t.config n
    if r = [] then t
    else
      let v := verifyConfig r (t.minFor 3)
      if v ≠ 0 then t.event 0x8002 0xFF (recDetail r v)
      else
        let body := (slice r 32 (field r 16 8)).drop 1
        let l := (cfgItems body.length body).filter fun x : Nat × List Byte => regPer x.1 = Per.k
        let t1 := t.measure1 4 (field r 8 8) (sha384 r)
        { t1 with cfg := l.reverse ++ t1.cfg }.setReg R.configSlots (t1.reg R.configSlots + 2 ^ n)

/-- The bank that boots and the banks that fail, each with its reason, boot_bank first. -/
def State.chooseBank (s : State) : Option Nat × List (Nat × Nat) :=
  let b := s.reg R.bootBank
  let v := verifyRec (s.bank b) 1 (s.minFor 1)
  if v = 0 then (some b, [])
  else
    let w := verifyRec (s.bank (1 - b)) 1 (s.minFor 1)
    if w = 0 then (some (1 - b), [(b, v)]) else (none, [(b, v), (1 - b, w)])

/-- A line of the boot ROM on the service UART (R24). -/
def State.uartLine (s : State) (l : List Byte) : State := { s with uartTx := s.uartTx ++ [l] }

/-- Domains take the states of their roles: a slave acquires, a grandmaster is LOCKED (R290, R517). -/
def State.startDomains (s : State) : State :=
  let t0 : Int := (s.reg R.frameEpochNs : Int) * 65536
  let s1 := (s.setTime t0).setReg R.frameReference 2
  s1.each [0, 1] fun t d => match t.reg (R.role d) with
    | 1 => (t.domTo d 2).lockDomain d
    | 2 => t.domTo d 1
    | _ => t.domTo d 0

/-- What the firmware of a verified bank does up to Kindled. A custody copy that was lost is reported (R453, R504). -/
def State.bootFirmware (s : State) (b cause ms : Nat) : State :=
  let r := s.bank b
  let d := sha384 r
  let s1 := { s.setBlob R.measRegister (zeros 48) with measLog := [], measCount := 0 }
  let s2 := (((s1.measure1 1 0 Config.romDigest.toList).measure1 2 (field r 8 8) d).uartLine [BitVec.ofNat 8 b, 0]).uartLine
    Config.romDigest.toList |>.uartLine d
  let s3 := ((s2.setReg R.runningBank b).setReg R.firmwareVersion (field r 8 4)).setReg R.bootTimeMs (ms % 2 ^ 32)
  let s4 := { s3.applyGrade.applyConfig.showBanks.showMins with power := .kindled, boot := .none, bootCause := 255 }
  let s5 := s4.startDomains.retrainAll (List.range 32)
  let s6 := s5.finishJob
  let s7 := if cause = 255 then s6 else s6.setReg R.resetCause cause
  let s8 := if cause = 1 ∨ cause = 2 ∨ cause = 3 then s7.event 0x7060 0xFF noDetail else s7
  (if cause = 3 then s8.event 0x7063 0xFF noDetail else s8).sendOwedLost

/-- BOOT_COMPLETE (R567): the boot under way ends after `ms`, in Kindled or stopped without a bank. One out of Banked whose
REFCLK is gone ends in Banked, which the part does not leave without it (R19); the next wake boots anew. The boot ROM's
status is one line for each bank tried: the bank, and the reason it failed or 0 (R24). -/
def execBootComplete (ms : Nat) (s : State) : Res :=
  match s.boot with
  | .running cause =>
    if s.power = .banked ∧ ¬ s.refclk then .next { s with boot := .none, bootCause := cause } else
    let s0 := s.rebuildRollback
    let (run, bad) := s0.chooseBank
    let s1 := s0.each bad fun t x =>
      (t.event 0x8001 x.1 (recDetail (t.bank x.1) x.2)).uartLine [BitVec.ofNat 8 x.1, BitVec.ofNat 8 x.2]
    match run with
    | some b => .next (s1.bootFirmware b cause ms)
    | none => .next { s1 with boot := .stopped }
  | _ => .next s

/-! ## Test access (R28, R572, R573) -/

/-- Reading test_challenge or the mailbox command CHALLENGE: a new challenge. -/
def State.drawChallenge (s : State) : List Byte × State :=
  let (n, s1) := s.fresh
  let c := (Config.challenge n ++ zeros 32).take 32
  (c, { s1 with challenge := some c })

/-- The reason a token is refused, 0 where it grants access. -/
def State.tokenReason (s : State) (b : List Byte) : Nat :=
  let v := verifyRec b 5 0
  if v ≠ 0 then v
  else
    let body := slice b 32 (field b 16 8)
    if body.length ≠ 48 ∨ field body 44 4 ≠ 0 then 1
    else if field body 0 8 ≠ Config.serial.toNat ∨ s.challenge ≠ some (slice body 8 32) then 7
    else 0

/-- A token submitted: its reason and the state (R572). -/
def State.submitToken (s : State) (b : List Byte) : Nat × State :=
  let v := s.tokenReason b
  if v ≠ 0 then (v, s.event 0x8005 0xFF (recDetail b v))
  else
    let scope := field (slice b 32 (field b 16 8)) 40 4
    let s1 := { (s.setReg R.testAccess 1).setReg R.testScope scope with challenge := none }
    (0, (s1.measure1 7 (field b 8 8) (sha384 b)).event 0x8004 0xFF (secDetail 5 0))

/-- A mailbox command served while AUTH_MAILBOX is selected, from Kindled upward, which a part in reset or boot is not, or after a boot
that stopped; the response is 512 bytes (R573). -/
def State.mailbox (s : State) (cmd : Nat) (f : State → Nat × List Byte × State) : State :=
  if s.tap = .mailbox ∧ (s.awake ∨ s.boot = .stopped) then
    let (status, data, s1) := f s
    let r := toLE 1 cmd ++ toLE 1 status ++ zeros 2 ++ toLE 2 data.length ++ zeros 2 ++ data
    { s1 with mailStatus := status, mailResponse := r ++ zeros (512 - r.length) }
  else s

/-- CHALLENGE (R573). -/
def execChallenge (s : State) : Res :=
  .next (s.mailbox 1 fun t => let (c, t1) := t.drawChallenge; (0, c, t1))

/-- PIECE (R573): 1 to 504 bytes at an offset below 16,384. -/
def execPiece (off : Nat) (data : List Byte) (s : State) : Res :=
  .next (s.mailbox 2 fun t =>
    if off < 16384 ∧ 1 ≤ data.length ∧ data.length ≤ 504 then (0, [], { t with token := Tab.set t.token off data }) else (1, [], t))

/-- The bytes of a token of some length from its pieces; a byte no piece gave is 0. -/
def tokenBytes (l : Tab (List Byte)) (n : Nat) : List Byte :=
  l.foldl (fun b x => (b.take x.1 ++ x.2 ++ b.drop (x.1 + x.2.length)).take n) (zeros n)

/-- SUBMIT (R573); one of length 0 is refused and keeps the pieces (R10). -/
def execSubmit (len : Nat) (s : State) : Res :=
  .next (s.mailbox 3 fun t =>
    if len = 0 then (1, [], t)
    else
      let (v, t1) := t.submitToken (tokenBytes t.token (min len 16384))
      (v, [], { t1 with token := [] }))

/-- STATUS (R573): the status of the command before. -/
def execStatus (s : State) : Res := .next (s.mailbox 4 fun t => (t.mailStatus, [], t))

/-- LOCK (R573). -/
def execLock (s : State) : Res := .next (s.mailbox 5 fun t => (0, [], t.lockTest))

/-- Whether a token's 48-byte body has its reserved bytes set (R8, R572). -/
def tokenReserved (b : List Byte) : Bool := field b 16 8 == 48 && field b 76 4 != 0

/-- A write of test_token (R572); one whose body has a reserved byte set is refused with the code of R476 and logged as every refusal
is (R8, R572). -/
def writeTestToken (data : List Byte) (s : State) : WriteRes :=
  if tokenReserved data then (s.event 0x8005 0xFF (recDetail data 1), 0x0301, [])
  else
    let (v, s1) := s.submitToken data
    (s1, if v = 0 then 0 else 0x0502, [])

/-- A write of test_lock. -/
def writeTestLock (_data : List Byte) (s : State) : WriteRes := s.lockTest.wOk

/-! ## Installing records (R569) -/

/-- A firmware record of which the last block has come, for the bank that is not running. -/
def writeFirmware (data : List Byte) (s : State) : WriteRes :=
  let b := 1 - s.reg R.runningBank
  if s.inJob then s.wBad 0x0401
  else
    let v := verifyRec data 1 (s.minFor 1)
    let s1 := s.setBank b []
    if v = 0 then (((((s1.setBank b data).setReg R.fwInstallState 2).showBanks).event 0x8006 b (secDetail 1 0))).wOk
    else (((s1.setReg R.fwInstallState 3).showBanks).event 0x8002 b (recDetail data v), 0x0502, [])

/-- The first block of a firmware record: the bank no longer verifies. -/
def State.startFirmware (s : State) : State := ((s.setBank (1 - s.reg R.runningBank) []).setReg R.fwInstallState 1).showBanks

/-- A write of rollback_commit (R569). -/
def writeRollbackCommit (_data : List Byte) (s : State) : WriteRes :=
  ((s.raiseMin 1 (field (s.bank (s.reg R.runningBank)) 8 8)).showBanks).wOk

/-- A write of record_install (R569): a grade record, or a configuration record for the slot its body names, 0 to 7 (R576). -/
def writeRecordInstall (data : List Byte) (s : State) : WriteRes :=
  let ty := if field data 4 2 = 3 then 3 else 2
  let v := if ty = 3 then verifyConfig data (s.minFor 3) else verifyRec data 2 (s.minFor 2)
  let slot := field data 32 1
  if s.inJob then s.wBad 0x0401
  else if ty = 3 ∧ 8 ≤ slot then s.wBad 0x0301
  else if v ≠ 0 then (s.event 0x8002 0xFF (recDetail data v), 0x0502, [])
  else
    let s1 := if ty = 2 then { s with gradeRec := data }
      else { s with config := Tab.set s.config slot data }.setReg R.configSlots (setBit (s.reg R.configSlots) slot true)
    (s1.raiseMin ty (field data 8 8)).wOk

/-! ## Attestation (R571) -/

/-- A write of quote_nonce. -/
def writeQuoteNonce (data : List Byte) (s : State) : WriteRes := ({ s with nonce := some data }).wOk

/-- The 160-byte body of a quote. -/
def State.quoteBody (s : State) (nonce : List Byte) : List Byte :=
  let flags := (decide (1024 < s.measCount)).toNat + 2 * s.authorised.toNat
  toLE 8 Config.serial.toNat ++ nonce ++ s.blob R.measRegister ++ toLE 2 s.measLog.length ++ toLE 1 flags ++ zeros 1
    ++ toLE 4 (s.reg R.firmwareVersion) ++ toLE 4 (s.reg R.gradeId) ++ s.blob R.imageDigest ++ toLE 2 s.chip
    ++ toLE 6 s.frame ++ zeros 4

/-- A new quote, signed with the identity keys under the device certificate chain. -/
def State.makeQuote (s : State) (nonce : List Byte) : State :=
  let b := toLE 4 0x52434548 ++ toLE 2 7 ++ toLE 2 1 ++ toLE 8 0 ++ toLE 8 160 ++ zeros 8 ++ s.quoteBody nonce
  { s with quoteBytes := b ++ toLE 4 s.certificate.length ++ s.certificate ++ (Config.ed25519Sign (recContext ++ b)).toList
                           ++ (Config.mldsaSign b recContext).toList }

/-- A read of quote: at offset 0 a new one; the status, the bytes, the state. -/
def State.readQuote (s : State) (off len : Nat) : Nat × List Byte × State :=
  match s.nonce with
  | none => (0x0402, [], s)
  | some n =>
    let s1 := if off = 0 then s.makeQuote n else s
    if s1.quoteBytes.length < off + len then (0x0302, [], s1) else (0, slice s1.quoteBytes off len, s1)

/-! ## Resets, alert, log -/

/-- A write of alert_clear (R23). -/
def writeAlertClear (_data : List Byte) (s : State) : WriteRes := ({ s with alertLow := false }).wOk

/-- A write of log_clear (R507): sequence numbers go on. -/
def writeLogClear (_data : List Byte) (s : State) : WriteRes := (({ s with log := [] }).setReg R.logCount 0).wOk

/-- Writes of cold_reset, warm_reset and job_reset (R514). -/
def writeColdReset (_data : List Byte) (s : State) : WriteRes := (s.coldReset (.running 2)).wOk

def writeWarmReset (_data : List Byte) (s : State) : WriteRes := s.warmReset.wOk

def writeJobReset (_data : List Byte) (s : State) : WriteRes :=
  if s.reg R.jobState ≠ 0 ∨ s.reg R.loadState = 1 then s.wBad 0x0402 else s.jobReset.wOk

end Sys2Proof.Machine
end

