-- ==== Sys2Proof/Machine/Od.lean ====
section
/-! DEFINITION. Reads and writes of the object dictionary from outside: the entries with an effect of their own, direct and
staged writes, transactions, block assembly; and the commands that are one entry's write (R471 to R482). -/

namespace Sys2Proof.Machine

/-! ## Entries whose write does more than store -/

/-- A write of port_enable (R270): ports follow once the write or commit is through. -/
def writePortEnable (data : List Byte) (s : State) : WriteRes :=
  (s.setReg R.portEnable (leNat data)).wOk [.ports (s.reg R.portEnable)]

/-- A write of port_reset (R257, R265, R270). Where the port's group is being enabled, the retrain that enabling it makes serves both; where
that does not come, the port retrains when the group leaves the queue (R519). -/
def writePortReset (data : List Byte) (s : State) : WriteRes :=
  let p := leNat data
  if s.seqUses p then s.wBad 0x0402
  else if ¬ bit (s.reg R.portEnable) p then s.wOk
  else if s.admitting.contains (.group (p / 4)) then ({ s with resetOwed := (s.resetOwed.filter (· ≠ p)) ++ [p] } : State).wOk
  else (s.retrain p).wOk

/-- A write of a segment base: not while an image is loading (R367). -/
def writeSegBase (k : Nat) (data : List Byte) (s : State) : WriteRes :=
  if s.reg R.loadState = 1 then s.wBad 0x0402 else (s.setReg k (leNat data)).wOk

/-- A write of leak_period_ms: the ticks start anew at this moment, which the commands LEAK_TICK then show (R383). -/
def writeLeakPeriod (data : List Byte) (s : State) : WriteRes :=
  (s.setReg (R.leakPeriodMs (s.reg R.counterSelect)) (leNat data)).wOk

/-- Entries of the supply, the fabric, time and topology with a write of their own. -/
def writers0 : List (Nat × (List Byte → State → WriteRes)) := [
  (regKey 0x2103 1, writeAlertClear),
  (regKey 0x2201 4, writeFailedMask),
  (regKey 0x2400 1, writeClockMode),
  (regKey 0x2400 2, writeFreqChangeMode),
  (regKey 0x2401 2, writeTargetStep),
  (regKey 0x2402 2, writeRegionLight),
  (regKey 0x2402 3, writeStackActive),
  (regKey 0x2402 4, writeGroupEnable),
  (regKey 0x2402 5, writeSleepRequest),
  (regKey 0x2500 1, writeColdReset),
  (regKey 0x2500 2, writeWarmReset),
  (regKey 0x2500 3, writeJobReset),
  (R.portEnable, writePortEnable),
  (regKey 0x3000 4, writePortReset),
  (R.chipNumber, writeChipNumber),
  (R.manifest, writeManifest),
  (R.routeTable, writeRouteTable),
  (R.timeSelect, writeTimeSelect),
  (R.frameEpochNs, writeFrameEpoch),
  (R.ntSet, writeNtSet),
  (R.role 0, writeRole 0), (R.role 1, writeRole 1),
  (R.slavePort 0, writeSlavePort 0), (R.slavePort 1, writeSlavePort 1),
  (R.masterPorts 0, writeMasterPorts 0), (R.masterPorts 1, writeMasterPorts 1)]

/-- Entries of memory, DMA, jobs, recovery and security with a write of their own. -/
def writers1 : List (Nat × (List Byte → State → WriteRes)) := [
  (R.leakPeriodMs 0, writeLeakPeriod),
  (R.scrubStart, writeScrubStart), (R.scrubAbort, writeScrubAbort),
  (R.dmaHead 0, writeDmaSetup (R.dmaHead 0)), (R.dmaDescCount 0, writeDmaSetup (R.dmaDescCount 0)),
  (R.dmaTrigger 0, writeDmaSetup (R.dmaTrigger 0)), (R.dmaTriggerSource 0, writeDmaSetup (R.dmaTriggerSource 0)),
  (R.dmaPaced 0, writeDmaSetup (R.dmaPaced 0)),
  (R.dmaStart 0, writeDmaStart), (R.dmaStop 0, writeDmaStop),
  (R.timerEnable 0, writeTimerEnable), (R.timerStartFrame 0, writeTimerSetup (R.timerStartFrame 0)),
  (R.timerStartSlot 0, writeTimerSetup (R.timerStartSlot 0)), (R.timerPeriod 0, writeTimerSetup (R.timerPeriod 0)),
  (R.jobStart, writeJobStart), (R.jobAbort, writeJobAbort), (R.quenchRequest, writeQuenchRequest),
  (R.imageLength, writeImageLength), (R.loadAbort, writeLoadAbort),
  (R.rankTable, writeRankTable),
  (R.pairRequest, writePairRequest), (R.detachRequest, writeDetachRequest), (R.custodyRelease, writeCustodyRelease),
  (R.replayRelease, writeReplayRelease), (R.spareCore, writeSpareCore),
  (R.runSet, writeRunSetup R.runSet), (R.runSlot, writeRunSetup R.runSlot), (R.runCount, writeRunSetup R.runCount),
  (R.runEntry, writeRunSetup R.runEntry), (R.runFrame, writeRunSetup R.runFrame), (R.runStart, writeRunStart),
  (R.adoptRanges, writeRunSetup R.adoptRanges), (R.adoptDigest, writeRunSetup R.adoptDigest), (R.adoptStart, writeAdoptStart),
  (R.logClear, writeLogClear),
  (R.fwInstall, writeFirmware), (R.rollbackCommit, writeRollbackCommit), (R.recordInstall, writeRecordInstall),
  (R.quoteNonce, writeQuoteNonce), (R.testToken, writeTestToken), (R.testLock, writeTestLock)]

/-- Segment bases. -/
def writers2 : List (Nat × (List Byte → State → WriteRes)) :=
  (List.range 16).map fun i => (R.segBase i, writeSegBase (R.segBase i))

/-- An entry's own write: its effect, or its value stored (R471). -/
def State.ownWrite (s : State) (e : OdEntry) (data : List Byte) : WriteRes :=
  match (writers0 ++ writers1 ++ writers2).find? fun w => w.1 == regKey e.index e.sub with
  | some w => w.2 data s
  | none => (s.storeEntry e data).wOk

/-! ## Side effects after a write or commit (R479) -/

/-- Ports whose enable changed: OFF where cleared, training where newly set (R270). -/
def State.portsFollow (s : State) (old : Nat) : State :=
  let new := s.reg R.portEnable
  s.each (List.range 32) fun t p =>
    if bit old p && !bit new p then t.portOff p else if !bit old p && bit new p then t.retrain p else t

/-- One side effect: a change of twin_chip (R503), an accepted manifest measured (R570), retrains (R257), ports and units, and
a loss of custody that a manifest lets the part report (R504). -/
def State.post (s : State) : PostOp → State
  | .twin old => if s.twin ≠ old ∧ s.reg R.custodyGiven ≠ 0 then s.custodyNone else s
  | .measured => if s.manifest = [] then s else s.measure1 6 0 (sha384 s.manifest)
  | .retrainUp => s.retrainAll ((List.range 32).filter fun p => s.reg (R.linkState p) == 7)
  | .ports old => s.portsFollow old
  | .units => s.askUnits.payResets
  | .retune => s.retune
  | .lost => s.sendOwedLost
  | .role d old => s.roleFollow d old

/-- The side effects of a write or commit, each kind once and in order. -/
def State.posts (s : State) (l : List PostOp) : State := s.each (firstKinds l) State.post

/-! ## Transactions (R477 to R481) -/

/-- A staged value's key. -/
def stageKey (e : OdEntry) : Nat := e.index * 256 + e.sub

/-- A value staged: at most 256 entries and 128 KiB (R478). -/
def State.stage (s : State) (e : OdEntry) (data : List Byte) : State × Nat :=
  let t := Tab.set s.staged (stageKey e) data
  if 256 < t.length ∨ 131072 < (t.map fun x => x.2.length).sum then (s, 0x0602)
  else ({ s.setReg R.txnStaged t.length with staged := t }, 0)

/-- The staged values applied in ascending order, each checked against the state the ones before it leave (R479): the
state and its side effects, or the entry that failed and its code. -/
def applyStaged (src : OdSrc) : List (Nat × List Byte) → State → List PostOp → (State × List PostOp) ⊕ (Nat × Nat)
  | [], s, l => .inl (s, l)
  | x :: rest, s, l =>
    match odFind (x.1 / 256) (x.1 % 256) with
    | none => .inr (x.1, 0x0101)
    | some e =>
      let g := s.gateStatus src e
      let v := valueStatus e x.2
      if g ≠ 0 then .inr (x.1, g)
      else if v ≠ 0 then .inr (x.1, v)
      else
        let (t, code, m) := s.ownWrite e x.2
        if code ≠ 0 then .inr (x.1, code) else applyStaged src rest t (l ++ m)

/-- The source that owns the transaction. -/
def State.ownerSrc (s : State) : OdSrc := if s.reg R.txnOwner = 1 then .node1 else .node0

/-- The commit applied: its status, 0 or 0x0704. -/
def State.applyCommit (s : State) : State × Nat :=
  match applyStaged s.ownerSrc s.staged s [] with
  | .inl (t, l) => (((t.setReg R.txnLastError 0).setReg R.txnLastEntry 0xFFFFFFFF).endTxn.posts l, 0)
  | .inr (k, code) => (((s.setReg R.txnLastError code).setReg R.txnLastEntry k).endTxn, 0x0704)

/-- A commit that is due, applied and answered (R479, R482). -/
def State.dueCommit (s : State) : State :=
  if ¬ s.commitDue then s
  else
    let (t, code) := s.applyCommit
    ({ t with answer := code }).answerCommits code

/-- txn_begin: the writing node becomes the owner (R477). The UART is no node and owns none. -/
def State.txnOpen (s : State) (src : OdSrc) : State × Nat :=
  match src with
  | .uart => (s, 0x0402)
  | _ => (s.setReg R.txnOwner (srcNode src), 0)

/-- txn_commit: at once between jobs, at the next frame boundary in one (R479). The status is that of a commit applied at
once; one that waits is answered when it is applied. -/
def State.txnClose (s : State) : State × Nat :=
  if s.reg R.txnOwner = 2 then (s, 0x0702)
  else if s.inJob then ({ s with commitDue := true }, 0)
  else s.applyCommit

/-- txn_rollback: nothing staged stays and no one owns the transaction (R480). A commit that waits has none left. -/
def State.txnDrop (s : State) : State × Nat :=
  if s.reg R.txnOwner = 2 then (s, 0x0702) else (s.endTxn.answerCommits 0x0702, 0)

/-! ## Writes (R471 to R478) -/

/-- The checks of a write: none but those of the entry itself are left where the answer is its row (R471 to R478). -/
def State.odCheck (s : State) (src : OdSrc) (index sub : Nat) (data : List Byte) : OdEntry ⊕ Nat :=
  match odFind index sub with
  | none => .inr (if (odFind index 0).isSome then 0x0102 else 0x0101)
  | some e =>
    let g := s.gateStatus src e
    if g ≠ 0 then .inr g
    else
      let v := valueStatus e data
      if v ≠ 0 then .inr v else .inl e

/-- A write that has passed its checks: transaction entries, staging, or the entry's own write with its side effects. -/
def State.odApply (s : State) (src : OdSrc) (e : OdEntry) (data : List Byte) : State × Nat :=
  let k := regKey e.index e.sub
  if k = R.txnBegin then s.txnOpen src
  else if k = R.txnCommit then s.txnClose
  else if k = R.txnRollback then s.txnDrop
  else if s.reg R.txnOwner ≠ 2 ∧ e.index ≠ 0xA000 then s.stage e data
  else
    let (t, code, l) := s.ownWrite e data
    (t.posts l, code)

/-- A write to an entry from outside: the state and the status. -/
def State.odWrite (s : State) (src : OdSrc) (index sub : Nat) (data : List Byte) : State × Nat :=
  if s.writeBar src ≠ 0 then (s, s.writeBar src)
  else if lockedRange index then
    (s, if src = .uart ∨ s.scoped 1 then (if s.inJob then 0x0401 else 0) else 0x0501)
  else match s.odCheck src index sub data with
    | .inr code => (s, code)
    | .inl e => s.odApply src e data

/-- Whether an entry is written by BLOCK only (R475, R507, R576). -/
def blockOnly (index sub : Nat) : Bool := regKey index sub == R.imageStream || regKey index sub == R.fwInstall

/-- A whole value written by WRITE (R463, R475). -/
def State.wholeWrite (s : State) (src : OdSrc) (index sub : Nat) (data : List Byte) : State × Nat :=
  if s.writeBar src = 0 ∧ blockOnly index sub then (s, 0x0302) else s.odWrite src index sub data

/-! ## Blocks (R475) -/

/-- The partial value of an entry. -/
def State.partialOf (s : State) (index sub : Nat) : Option Assembly :=
  s.assembly.find? fun a => a.index == index && a.sub == sub

/-- Without the partial value of an entry. -/
def State.noPartial (s : State) (index sub : Nat) : State :=
  { s with assembly := s.assembly.filter fun a => !(a.index == index && a.sub == sub) }

/-- What the first block of a firmware record does beside starting the partial value (R569). -/
def State.firstBlock (s : State) (src : OdSrc) (index sub : Nat) : State ⊕ Nat :=
  if regKey index sub ≠ R.fwInstall then .inl s
  else match odFind index sub with
    | none => .inl s
    | some e =>
      let g := s.gateStatus src e
      if g ≠ 0 then .inr g else if s.inJob then .inr 0x0401 else .inl s.startFirmware

/-- A block for an entry whose value is assembled before it is checked. A first block must give a total_length of at least 1 (R10, R462);
it and every later one must not reach past it (R475). -/
def State.joinBlock (s : State) (src : OdSrc) (index sub off total : Nat) (data : List Byte) : State × Nat :=
  let partial? : (State × Assembly) ⊕ (State × Nat) :=
    if off = 0 ∧ total = 0 then .inr (s, 0x0306)
    else if off = 0 ∧ total < data.length then .inr (s.noPartial index sub, 0x0306)
    else if off = 0 then
      match s.firstBlock src index sub with
      | .inr code => .inr (s, code)
      | .inl t => .inl (t.noPartial index sub, { index := index, sub := sub, total := total, got := [] })
    else match s.partialOf index sub with
      | none => .inr (s, 0x0306)
      | some a => if a.got.length ≠ off then .inr (s.noPartial index sub, 0x0306) else .inl (s.noPartial index sub, a)
  match partial? with
  | .inr x => x
  | .inl (t, a) =>
    let got := a.got ++ data
    if a.total < got.length then (t, 0x0306)
    else if got.length = a.total then t.odWrite src index sub got
    else ({ t with assembly := t.assembly ++ [{ a with got := got }] }, 0)

/-- A BLOCK write (R475, R497). -/
def State.blockIn (s : State) (src : OdSrc) (index sub off total : Nat) (data : List Byte) : State × Nat :=
  if s.writeBar src ≠ 0 then (s, s.writeBar src)
  else if lockedRange index then
    (s, if src = .uart ∨ s.scoped 1 then (if s.inJob then 0x0401 else 0) else 0x0501)
  else match odFind index sub with
    | none => (s, if (odFind index 0).isSome then 0x0102 else 0x0101)
    | some e =>
      if data = [] then (s, 0x0302)
      else if e.acc = .ro then (s, 0x0201)
      else if regKey index sub = R.imageStream then
        let g := s.gateStatus src e
        if g ≠ 0 then (s, g)
        else
          let (t, code, l) := writeImageBlock off total data s
          (t.posts l, code)
      else s.joinBlock src index sub off total data

/-! ## Reads -/

/-- A read of an entry: the status, the bytes, the state after what the read removes or draws (R472, R474, R572). -/
def State.odRead (s : State) (src : OdSrc) (index sub : Nat) : Nat × List Byte × State :=
  if lockedRange index then
    if (if src = .uart then s.authorised else s.scoped 1) then (0, Config.testEntry (regKey index sub), s) else (0x0501, [], s)
  else match odFind index sub with
    | none => (if (odFind index 0).isSome then 0x0102 else 0x0101, [], s)
    | some e =>
      let k := regKey index sub
      if e.acc = .wo then (0x0202, [], s)
      else if k = R.testChallenge then
        let (c, t) := s.drawChallenge
        (0, c, t)
      else if k = R.tsPop then (0, s.odBytes e, s.popStamp)
      else (0, s.odBytes e, s)

/-- A value read by READ: at most 8,192 bytes, and not quote, which BLOCK reads (R463, R475, R571). -/
def State.wholeRead (s : State) (src : OdSrc) (index sub : Nat) : Nat × List Byte × State :=
  let (st, data, t) := s.odRead src index sub
  if regKey index sub = R.quote ∨ 8192 < data.length then (0x0302, [], s) else (st, data, t)

/-- Bytes read by BLOCK: inside the value, at least one and at most 8,192 (R463, R475, R476). -/
def State.blockOut (s : State) (src : OdSrc) (index sub off len : Nat) : Nat × List Byte × State :=
  if len = 0 ∨ 8192 < len then (0x0302, [], s)
  else if regKey index sub = R.quote then s.readQuote off len
  else
    let (st, data, t) := s.odRead src index sub
    if st ≠ 0 then (st, [], t)
    else if data.length < off + len then (0x0302, [], s)
    else (0, slice data off len, t)

/-! ## Commands -/

/-- What a write to the entry of key `k` leaves: the state with the status it is answered with. A commit that waits for its boundary is
answered when it is applied (R479). -/
def answered (k : Nat) (x : State × Nat) : Res :=
  .next (if k = R.txnCommit ∧ x.2 = 0 ∧ x.1.commitDue then x.1 else { x.1 with answer := x.2, answerData := [] })

/-- A command that writes one entry: the management firmware serves it while it runs (R461). -/
def State.rowWrite (s : State) (src : OdSrc) (k : Nat) (data : List Byte) : Res :=
  if s.awake then answered k (s.odWrite src (k / 65536) (k / 256 % 256) data) else .next s

/-- OD_WRITE (R471). -/
def execOdWrite (src : OdSrc) (index sub : Nat) (data : List Byte) (s : State) : Res :=
  if s.awake then answered (regKey index sub) (s.wholeWrite src index sub data) else .next s

/-- ALERT_CLEAR (R23). -/
def execAlertClear (src : OdSrc) (data : List Byte) (s : State) : Res := s.rowWrite src (regKey 0x2103 1) data

/-- PORT_RESET (R257, R265). -/
def execPortReset (src : OdSrc) (data : List Byte) (s : State) : Res := s.rowWrite src (regKey 0x3000 4) data

/-- NT_SET (R276, R288). -/
def execNtSet (src : OdSrc) (data : List Byte) (s : State) : Res := s.rowWrite src (R.ntSet) data

/-- TIME_SELECT (R294). -/
def execTimeSelect (src : OdSrc) (data : List Byte) (s : State) : Res := s.rowWrite src (R.timeSelect) data

/-- PAIR_REQUEST (R499 to R501). -/
def execPairRequest (src : OdSrc) (data : List Byte) (s : State) : Res := s.rowWrite src (R.pairRequest) data

/-- DETACH_REQUEST (R505). -/
def execDetachRequest (src : OdSrc) (data : List Byte) (s : State) : Res := s.rowWrite src (R.detachRequest) data

/-- CUSTODY_RELEASE (R504). -/
def execCustodyRelease (src : OdSrc) (data : List Byte) (s : State) : Res := s.rowWrite src (R.custodyRelease) data

/-- CHIP_NUMBER_WRITE (R334). -/
def execChipNumberWrite (src : OdSrc) (data : List Byte) (s : State) : Res := s.rowWrite src (R.chipNumber) data

/-- MANIFEST_WRITE (R320, R321). -/
def execManifestWrite (src : OdSrc) (data : List Byte) (s : State) : Res := s.rowWrite src (R.manifest) data

/-- RANK_TABLE_WRITE (R308). -/
def execRankTableWrite (src : OdSrc) (data : List Byte) (s : State) : Res := s.rowWrite src (R.rankTable) data

/-- ROUTE_TABLE_WRITE (R326). -/
def execRouteTableWrite (src : OdSrc) (data : List Byte) (s : State) : Res := s.rowWrite src (R.routeTable) data

/-- SCRUB_START (R386). -/
def execScrubStart (src : OdSrc) (data : List Byte) (s : State) : Res := s.rowWrite src (R.scrubStart) data

/-- SCRUB_ABORT (R389). -/
def execScrubAbort (src : OdSrc) (data : List Byte) (s : State) : Res := s.rowWrite src (R.scrubAbort) data

/-- DMA_START (R412). -/
def execDmaStart (src : OdSrc) (data : List Byte) (s : State) : Res := s.rowWrite src (R.dmaStart 0) data

/-- DMA_STOP (R417). -/
def execDmaStop (src : OdSrc) (data : List Byte) (s : State) : Res := s.rowWrite src (R.dmaStop 0) data

/-- CLOCK_MODE_WRITE (R426). -/
def execClockModeWrite (src : OdSrc) (data : List Byte) (s : State) : Res := s.rowWrite src (regKey 0x2400 1) data

/-- FREQ_CHANGE_MODE_WRITE (R432). -/
def execFreqChangeModeWrite (src : OdSrc) (data : List Byte) (s : State) : Res := s.rowWrite src (regKey 0x2400 2) data

/-- TARGET_STEP_WRITE (R428). -/
def execTargetStepWrite (src : OdSrc) (data : List Byte) (s : State) : Res := s.rowWrite src (regKey 0x2401 2) data

/-- REGION_LIGHT (R451). -/
def execRegionLight (src : OdSrc) (data : List Byte) (s : State) : Res := s.rowWrite src (regKey 0x2402 2) data

/-- STACK_ACTIVE (R447). -/
def execStackActive (src : OdSrc) (data : List Byte) (s : State) : Res := s.rowWrite src (regKey 0x2402 3) data

/-- GROUP_ENABLE (R448). -/
def execGroupEnable (src : OdSrc) (data : List Byte) (s : State) : Res := s.rowWrite src (regKey 0x2402 4) data

/-- SLEEP_REQUEST (R453). -/
def execSleepRequest (src : OdSrc) (data : List Byte) (s : State) : Res := s.rowWrite src (regKey 0x2402 5) data

/-- FAILED_MASK_WRITE (R60). -/
def execFailedMaskWrite (src : OdSrc) (data : List Byte) (s : State) : Res := s.rowWrite src (regKey 0x2201 4) data

/-- SPARE_CORE (R552). -/
def execSpareCore (src : OdSrc) (data : List Byte) (s : State) : Res := s.rowWrite src (R.spareCore) data

/-- TXN_BEGIN (R477). -/
def execTxnBegin (src : OdSrc) (data : List Byte) (s : State) : Res := s.rowWrite src (R.txnBegin) data

/-- TXN_COMMIT (R479). -/
def execTxnCommit (src : OdSrc) (data : List Byte) (s : State) : Res := s.rowWrite src (R.txnCommit) data

/-- TXN_ROLLBACK (R480). -/
def execTxnRollback (src : OdSrc) (data : List Byte) (s : State) : Res := s.rowWrite src (R.txnRollback) data

/-- JOB_START (R490). -/
def execJobStart (src : OdSrc) (data : List Byte) (s : State) : Res := s.rowWrite src (R.jobStart) data

/-- JOB_ABORT (R494). -/
def execJobAbort (src : OdSrc) (data : List Byte) (s : State) : Res := s.rowWrite src (R.jobAbort) data

/-- QUENCH_REQUESTED (R494). -/
def execQuenchRequested (src : OdSrc) (data : List Byte) (s : State) : Res := s.rowWrite src (R.quenchRequest) data

/-- LOAD_START (R496). -/
def execLoadStart (src : OdSrc) (data : List Byte) (s : State) : Res := s.rowWrite src (R.imageLength) data

/-- LOAD_ABORT (R498). -/
def execLoadAbort (src : OdSrc) (data : List Byte) (s : State) : Res := s.rowWrite src (R.loadAbort) data

/-- COLD_RESET_WRITE (R514). -/
def execColdResetWrite (src : OdSrc) (data : List Byte) (s : State) : Res := s.rowWrite src (regKey 0x2500 1) data

/-- WARM_RESET (R514). -/
def execWarmReset (src : OdSrc) (data : List Byte) (s : State) : Res := s.rowWrite src (regKey 0x2500 2) data

/-- JOB_RESET (R514). -/
def execJobReset (src : OdSrc) (data : List Byte) (s : State) : Res := s.rowWrite src (regKey 0x2500 3) data

/-- REPLAY_RELEASE (R545). -/
def execReplayRelease (src : OdSrc) (data : List Byte) (s : State) : Res := s.rowWrite src (R.replayRelease) data

/-- RUN_START (R555). -/
def execRunStart (src : OdSrc) (data : List Byte) (s : State) : Res := s.rowWrite src (R.runStart) data

/-- ADOPT_START (R559). -/
def execAdoptStart (src : OdSrc) (data : List Byte) (s : State) : Res := s.rowWrite src (R.adoptStart) data

/-- ROLLBACK_COMMIT (R569). -/
def execRollbackCommit (src : OdSrc) (data : List Byte) (s : State) : Res := s.rowWrite src (R.rollbackCommit) data

/-- RECORD_INSTALL (R569). -/
def execRecordInstall (src : OdSrc) (data : List Byte) (s : State) : Res := s.rowWrite src (R.recordInstall) data

/-- QUOTE_NONCE (R571). -/
def execQuoteNonce (src : OdSrc) (data : List Byte) (s : State) : Res := s.rowWrite src (R.quoteNonce) data

/-- TEST_TOKEN (R572). -/
def execTestToken (src : OdSrc) (data : List Byte) (s : State) : Res := s.rowWrite src (R.testToken) data

/-- TEST_LOCK (R572). -/
def execTestLock (src : OdSrc) (data : List Byte) (s : State) : Res := s.rowWrite src (R.testLock) data

/-- LOG_CLEAR (R507). -/
def execLogClear (src : OdSrc) (data : List Byte) (s : State) : Res := s.rowWrite src (R.logClear) data

/-- PORT_ENABLE (R270). -/
def execPortEnable (src : OdSrc) (data : List Byte) (s : State) : Res := s.rowWrite src (R.portEnable) data

/-- LEAK_PERIOD_MS (R383). -/
def execLeakPeriodMs (src : OdSrc) (data : List Byte) (s : State) : Res := s.rowWrite src (R.leakPeriodMs 0) data

/-- DMA_TIMER_ENABLE (R416). -/
def execDmaTimerEnable (src : OdSrc) (data : List Byte) (s : State) : Res := s.rowWrite src (R.timerEnable 0) data

/-- DOMAIN_ROLE_WRITE (R286). -/
def execDomainRoleWrite (src : OdSrc) (d : Fin 2) (data : List Byte) (s : State) : Res := s.rowWrite src (R.role d.val) data

/-- IMAGE_BLOCK (R497). -/
def execImageBlock (src : OdSrc) (offset total : Nat) (data : List Byte) (s : State) : Res :=
  if s.awake then answered R.imageStream (s.blockIn src (R.imageStream / 65536) (R.imageStream / 256 % 256) offset total data) else .next s

/-- FW_INSTALL (R569): a block of the value. -/
def execFwInstall (src : OdSrc) (offset total : Nat) (data : List Byte) (s : State) : Res :=
  if s.awake then answered R.fwInstall (s.blockIn src (R.fwInstall / 65536) (R.fwInstall / 256 % 256) offset total data) else .next s

/-- What a command that reads leaves: the bytes and the status it is answered with. -/
def readBack (x : Nat × List Byte × State) : Res := .next { x.2.2 with answer := x.1, answerData := x.2.1 }

/-- TS_POP (R285): a read of ts_pop. -/
def execTsPop (src : OdSrc) (s : State) : Res :=
  if s.awake then readBack (s.wholeRead src (R.tsPop / 65536) (R.tsPop / 256 % 256)) else .next s

/-- QUOTE (R571): a block read of quote. -/
def execQuote (src : OdSrc) (offset length : Nat) (s : State) : Res :=
  if s.awake then readBack (s.blockOut src (R.quote / 65536) (R.quote / 256 % 256) offset length) else .next s

/-- TEST_CHALLENGE (R572): a read of test_challenge. -/
def execTestChallenge (src : OdSrc) (s : State) : Res :=
  if s.awake then readBack (s.wholeRead src (R.testChallenge / 65536) (R.testChallenge / 256 % 256)) else .next s

/-- TXN_TIMEOUT (R481, R482): the owner was silent; a commit that waits for its boundary is not touched. -/
def execTxnTimeout (s : State) : Res := if s.awake ∧ ¬ s.commitDue then .next s.rollBack else .next s

/-- A commit that waits for its boundary, applied at once where the part is IDLE (R482). -/
def State.commitIfIdle (s : State) : State := if s.reg R.jobState = 0 then s.dueCommit else s

/-- FLIT_RECEIVE (R234). -/
def execFlitReceive (port : PortId) (flit : BitVec 2176) (s : State) : Res := .next (s.flitIn port.val flit).commitIfIdle

/-- CODEWORD_RECEIVE (R219 to R223): corrected symbols are counted and the flits that the codeword completes arrive; an uncorrectable
codeword destroys every flit with a byte in it. A decoded word without the header's constant is at no codeword boundary and is
nothing (R221; DEDUCED, log entry 27). -/
def execCodewordReceive (port : PortId) (index : Nat) (symbols : List (BitVec 10)) (s : State) : Res :=
  .next (s.codewordIn port.val index symbols).commitIfIdle

/-- QUENCH (R487, R536, R540). -/
def execQuench (port : PortId) (m : Msg) (s : State) : Res :=
  if isQuenchMsg m ∧ s.awake then .next (s.acceptQuench port.val m).commitIfIdle else .next s

/-- FRAME_BOUNDARY (R202): the frame's work, then a commit that is due (R479, R482). -/
def execFrameBoundary (s : State) : Res := if s.spineOn then .next s.frameStep.dueCommit else .next s

/-- Whether ENDING is over: no unit on its way out, H at the load, the governor back in state follow (R493). -/
def State.endingOver (s : State) : Bool :=
  s.awake && s.reg R.jobState == 4 && s.endPending.isSome && s.remove.isEmpty && decide (s.h ≤ s.load) && s.reg R.governorState == 0

/-- JOB_ENDED (R493): the part is IDLE; a commit that waits is applied at once (R482). -/
def execJobEnded (s : State) : Res := if s.endingOver then .next s.finishJob.dueCommit.settleWarm else .next s

end Sys2Proof.Machine
end

