-- ==== Sys2Proof/Machine/Glazin.lean ====
section
/-! DEFINITION. The Glazin chain: which frames a part takes, answers or passes on, the sequence windows, beacons and wake, and
the console of the service UART (R24, R25, R458 to R469). -/

namespace Sys2Proof.Machine

/-- The other Glazin port. -/
def otherPort : GPort → GPort
  | .a => .b
  | .b => .a

/-- A port's index in tables. -/
def gIdx : GPort → Nat
  | .a => 0
  | .b => 1

/-- A frame discarded and counted (R460, R463, R464, R467). -/
def State.discardFrame (s : State) : State := s.bump R.framesDiscarded 32

/-- Whether a frame is taken at all: FCS, EtherType, version (R460), and an opcode of the table (R463). -/
def soundFrame (f : GFrame) : Bool :=
  f.fcsOk && f.etherType == 0x88B5 && f.version == 1 && decide (1 ≤ f.opcode.toNat) && decide (f.opcode.toNat ≤ 5)

/-- A frame passed on to the other port, unchanged, or discarded where that link is down (R464). -/
def State.passOn (s : State) (p : GPort) (op : Byte) (f : GFrame) : State :=
  if s.gUp (otherPort p) then s.sendG (otherPort p) op f else s.discardFrame

/-! ## Requests (R464 to R466) -/

/-- The source a request's node byte names. -/
def nodeSrc (n : Byte) : OdSrc := if n = 1 then .node1 else .node0

/-- The bits of a window a request falls into: to be executed, answered again, or stale. -/
inductive Seen where
  | run
  | again (g : GOut)
  | stale
  deriving DecidableEq, Repr

/-- Where a sequence number stands in a node's window (R466). A commit that waits for its boundary has been executed and has
no response yet. -/
def State.seen (s : State) (node seq : Nat) : Seen :=
  let w := Tab.get {} s.windows node
  let q := BitVec.ofNat 16 seq
  match w.high with
  | none => .run
  | some h =>
    let ahead := (q - h).toNat
    if 1 ≤ ahead ∧ ahead ≤ 32767 then .run
    else if 64 ≤ (h - q).toNat then .stale
    else match w.kept.find? fun x => x.1 == q with
      | some x => .again x.2
      | none => if s.commitReply.any fun x => x.2.node.toNat == node && x.2.sequence == q then .stale else .run

/-- The highest number executed moves up to a new one (R466). -/
def State.noteSeq (s : State) (node : Nat) (q : BitVec 16) : State :=
  let w : Window := Tab.get {} s.windows node
  let high := match w.high with
    | none => q
    | some h => if 1 ≤ (q - h).toNat ∧ (q - h).toNat ≤ 32767 then q else h
  { s with windows := Tab.set s.windows node { high := some high, kept := w.kept.filter fun x => decide ((high - x.1).toNat < 64) } }

/-- What executing a request answers: status, data, state; none for a commit that is answered later. -/
abbrev Served := Nat × List Byte × State

/-- Whether a request names cold_reset or warm_reset: the response to a write of one goes out before the reset takes effect (R514). -/
def resets (f : GFrame) : Bool :=
  regKey f.index.toNat f.sub.toNat == regKey 0x2500 1 || regKey f.index.toNat f.sub.toNat == regKey 0x2500 2

/-- A request for this part, of a sound node, run once and answered (R464 to R466, R479, R514). `run` is what the opcode does. -/
def State.serve (s : State) (p : GPort) (op : Byte) (f : GFrame) (run : OdSrc → State → Served) : State :=
  let n := f.node.toNat
  match s.seen n f.sequence.toNat with
  | .again g => { s.bump R.duplicatesAnswered 32 with gtx := s.gtx ++ [{ g with port := p }] }
  | .stale => { s with gtx := s.gtx ++ [s.responseTo p op f 0x0104 []] }
  | .run =>
    let s1 := s.noteSeq n f.sequence
    let (st, data, t) := run (nodeSrc f.node) s1
    if resets f ∧ st = 0 then
      let (_, _, u) := run (nodeSrc f.node) (s1.answerG (s1.responseTo p op f 0 []))
      { u with answer := 0, answerData := [] }
    else
    let t := { t with answer := st, answerData := data }
    let commit := regKey f.index.toNat f.sub.toNat = R.txnCommit ∧ op ≠ 1
    if commit ∧ st = 0 ∧ t.commitDue then { t with commitReply := t.commitReply ++ [(p, { f with opcode := op })] }
    else
      let g := t.responseTo p op f st data
      if t.awake then t.answerG g else { t with gtx := t.gtx ++ [g] }

/-- A request with a sound header: for this part, mismatched, discarded, or passed on (R464). -/
def State.request (s : State) (p : GPort) (op : Byte) (f : GFrame) (run : OdSrc → State → Served) : State :=
  let own := BitVec.ofNat 8 (s.reg R.chainPosition)
  let posHit := f.position = 0xFF ∨ f.position = own
  let chipHit := f.chip = 0xFFFF ∨ f.chip.toNat = s.chip
  if f.position = 0xFF ∧ f.chip = 0xFFFF then s.discardFrame
  else if posHit ∧ chipHit then
    if f.node ≠ 0 ∧ f.node ≠ 1 then s.discardFrame else s.serve p op f run
  else if f.position ≠ 0xFF ∧ f.position = own then { s with gtx := s.gtx ++ [s.responseTo p op f 0x0103 []] }
  else s.passOn p op f

/-- A received frame of a request opcode: discarded, passed on as a response, or taken as a request. -/
def State.frameIn (s : State) (p : GPort) (op : Byte) (f : GFrame) (run : OdSrc → State → Served) : State :=
  if ¬ soundFrame f then s.discardFrame
  else if f.flags.getLsbD 0 then s.passOn p op f
  else s.request p op f run

/-- The length of a request's data agrees with its opcode, else 0x0302 (R463). -/
def fits (f : GFrame) (data : Bool) : Bool :=
  f.data.length == f.length && decide (f.data.length ≤ 8192) && (data || f.data.isEmpty)

/-- READ (R463). -/
def execRead (port : GPort) (f : GFrame) (s : State) : Res :=
  if ¬ s.awake then .next s
  else .next (s.frameIn port 1 f fun src t =>
    if fits f false then t.wholeRead src f.index.toNat f.sub.toNat else (0x0302, [], t))

/-- WRITE (R463). -/
def execWrite (port : GPort) (f : GFrame) (s : State) : Res :=
  if ¬ s.awake then .next s
  else .next (s.frameIn port 2 f fun src t =>
    if fits f true then
      let (u, st) := t.wholeWrite src f.index.toNat f.sub.toNat f.data
      (st, [], u)
    else (0x0302, [], t))

/-- BLOCK_READ (R463, R475): a BLOCK request without the write flag. -/
def execBlockRead (port : GPort) (f : GFrame) (s : State) : Res :=
  if ¬ s.awake then .next s
  else .next (s.frameIn port 3 { f with flags := f.flags &&& 0xFD } fun src t =>
    if f.data = [] then t.blockOut src f.index.toNat f.sub.toNat f.offset f.length else (0x0302, [], t))

/-- BLOCK_WRITE (R463, R475): a BLOCK request with the write flag. -/
def execBlockWrite (port : GPort) (f : GFrame) (s : State) : Res :=
  if ¬ s.awake then .next s
  else .next (s.frameIn port 3 { f with flags := f.flags ||| 2 } fun src t =>
    if fits f true then
      let (u, st) := t.blockIn src f.index.toNat f.sub.toNat f.offset f.total f.data
      (st, [], u)
    else (0x0302, [], t))

/-- EVENT (R464): passed on. -/
def execEvent (port : GPort) (f : GFrame) (s : State) : Res :=
  if ¬ s.awake then .next s else .next (if soundFrame f then s.passOn port 4 f else s.discardFrame)

/-! ## Beacons and links (R467 to R469, R506) -/

/-- The beacon sent on, or held for a link that is down if it wakes, after the wake pattern on that port (R467, R469). -/
def State.sendBeacon (s : State) (p : GPort) (f : GFrame) : State :=
  if s.gUp p then s.sendG p 5 f
  else if f.flags.getLsbD 2 then { s with heldBeacon := Tab.set s.heldBeacon (gIdx p) (some f), wakeTx := s.wakeTx ++ [p] }
  else s

/-- BEACON (R467): the part takes its position and passes the beacon on towards the far end. -/
def execBeacon (port : GPort) (f : GFrame) (s : State) : Res :=
  let p := f.position.toNat
  let n := f.chainLength.toNat
  if ¬ s.awake then .next s
  else if ¬ soundFrame f ∨ n ≤ p then .next s.discardFrame
  else
    let old := s.reg R.chainPosition
    let s1 := (s.setReg R.chainPosition p).setReg R.chainLength n
    let s2 := if p = old then s1 else (s1.bump R.positionChanges 32).event 0x704A 0xFF noDetail
    match port with
    | .a => if p + 1 < n then .next (s2.sendBeacon .b { f with position := f.position + 1 }) else .next s2
    | .b => if 1 ≤ p then .next (s2.sendBeacon .a { f with position := f.position - 1 }) else .next s2

/-- BEACON_HOLD_EXPIRY (R469): the held beacon is discarded. -/
def execBeaconHoldExpiry (port : GPort) (s : State) : Res :=
  .next { s with heldBeacon := Tab.set s.heldBeacon (gIdx port) none }

/-- A Glazin link's entry. -/
def upReg : GPort → Nat
  | .a => R.portAUp
  | .b => R.portBUp

/-- GLAZIN_LINK_UP (R469): a held beacon goes out. -/
def execGlazinLinkUp (port : GPort) (s : State) : Res :=
  if ¬ s.awake then .next s
  else
    let s1 := s.setReg (upReg port) 1
    match (Tab.get none s.heldBeacon (gIdx port) : Option GFrame) with
    | some f => .next ({ s1 with heldBeacon := Tab.set s.heldBeacon (gIdx port) none }.sendG port 5 f)
    | none => .next s1

/-- GLAZIN_PORT_DOWN (R506). -/
def execGlazinPortDown (port : GPort) (s : State) : Res :=
  if s.awake ∧ s.gUp port then .next ((s.setReg (upReg port) 0).event 0x7048 0xFF noDetail) else .next s

/-! ## The console of the service UART (R25) -/

/-- UART_CONSOLE_COMMAND (R25): an entry or a log entry read, or a write, which needs test access. Its answer goes out as a
line of the status, two bytes, and the data. A console that uart_console_enable silences takes no command and leaves the received
characters where they are: R25 says only that it is silent (DESIGN CHOICE, log entry 8). -/
def execUartConsoleCommand (cmd : ConsoleCmd) (s : State) : Res :=
  if ¬ s.awake ∨ s.reg R.uartConsoleEnable ≠ 1 then .next s
  else
    let s0 := { s with uartRx := [] }
    let (st, data, t) : Served := match cmd with
      | .read index sub => s0.odRead .uart index sub
      | .write index sub d => let (u, code) := s0.wholeWrite .uart index sub d; (code, [], u)
      | .log seq => (0, (match s0.log.find? fun e => e.seq.toNat == seq with | some e => e.bytes | none => []), s0)
    .next ({ t with answer := st, answerData := data }.uartLine (toLE 2 st ++ data))

end Sys2Proof.Machine
end

