-- ==== Sys2Proof/Machine/Settle.lean ====
section
/-! DEFINITION. Commands whose effect may raise a fault while the part starts for a join, which takes it back to IDLE (R540, R558): a
commit that waits for its boundary is applied at once then (R482). Each is its effect, which its own family's file gives, and that. -/

namespace Sys2Proof.Machine

/-- What a command leaves, with a commit that waits applied where the command has taken a join back to IDLE (R482, R540). -/
def State.settled (s : State) (x : Res) : Res :=
  match x with
  | .next t => .next (if s.commitDue ∧ s.reg R.jobState = 1 ∧ s.joinWait.isSome then t.commitIfIdle else t)
  | .fault f => .fault f
  | .refused r => .refused r

/-- PLL_UNLOCK (R435, R482). -/
def execPllUnlock (r : RegionId) (s : State) : Res := s.settled (pllUnlockNow r s)

/-- CEILING_UPDATE (R427, R430, R482). -/
def execCeilingUpdate (temps : List Int) (ageing : List Nat) (s : State) : Res := s.settled (ceilingUpdateNow temps ageing s)

/-- STACK_ENGINE_TAKE (R395, R482). -/
def execStackEngineTake (k : StackId) (e : EngineId) (s : State) : Res := s.settled (stackEngineTakeNow k e s)

/-- GATHER (R392, R482). -/
def execGather (k : StackId) (e : EngineId) (s : State) : Res := s.settled (gatherNow k e s)

/-- SCATTER (R392, R482). -/
def execScatter (k : StackId) (e : EngineId) (s : State) : Res := s.settled (scatterNow k e s)

/-- FILL (R392, R482). -/
def execFill (k : StackId) (e : EngineId) (s : State) : Res := s.settled (fillNow k e s)

/-- COPY (R392, R482). -/
def execCopy (k : StackId) (e : EngineId) (s : State) : Res := s.settled (copyNow k e s)

/-- SCRUB (R392, R388, R482). -/
def execScrub (k : StackId) (e : EngineId) (s : State) : Res := s.settled (scrubNow k e s)

/-- PACK_KV (R394, R482). -/
def execPackKv (k : StackId) (e : EngineId) (s : State) : Res := s.settled (packKvNow k e s)

/-- UNPACK_KV (R394, R482). -/
def execUnpackKv (k : StackId) (e : EngineId) (s : State) : Res := s.settled (unpackKvNow k e s)

/-- CRC64 (R392, R482). -/
def execCrc64 (k : StackId) (e : EngineId) (s : State) : Res := s.settled (crc64Now k e s)

/-- ENVELOPE_EXCEEDED (R42, R557, R482). -/
def execEnvelopeExceeded (loadMw : Nat) (s : State) : Res := s.settled (envelopeExceededNow loadMw s)

/-- GOVERNOR_SAMPLE (R36, R482). -/
def execGovernorSample (loadMw : Nat) (s : State) : Res := s.settled (governorSampleNow loadMw s)

/-- FOLLOW_UP (R289, R482). -/
def execFollowUp (m : TimeMsg) (s : State) : Res := s.settled (followUpNow m s)

/-- SYNC (R289, R482). -/
def execSync (m : TimeMsg) (s : State) : Res := s.settled (syncNow m s)

/-- TIME_LOST (R297, R482). -/
def execTimeLost (s : State) : Res := s.settled (timeLostNow s)

/-- LANE_FAILED (R261, R263, R482). -/
def execLaneFailed (port : PortId) (lane : Fin 8) (s : State) : Res := s.settled (laneFailedNow port lane s)

/-- RETRAIN_REQ (R257, R482). -/
def execRetrainReq (port : PortId) (flit : BitVec 2176) (s : State) : Res := s.settled (retrainReqNow port flit s)

/-- REPLAY_TIMEOUT (R241, R482). -/
def execReplayTimeout (port : PortId) (s : State) : Res := s.settled (replayTimeoutNow port s)

/-- WIDTH_SWITCH (R259, R262, R212, R263, R482). -/
def execWidthSwitch (port : PortId) (s : State) : Res := s.settled (widthSwitchNow port s)

/-- WIDTH_DECODE_TIMEOUT (R263, R482). -/
def execWidthDecodeTimeout (port : PortId) (s : State) : Res := s.settled (widthDecodeTimeoutNow port s)

/-- WIDTH_REQ (R262, R482). -/
def execWidthReq (port : PortId) (flit : BitVec 2176) (s : State) : Res := s.settled (widthReqNow port flit s)

/-- IDLE_CONTROL_FLIT (R230, R236, R482). -/
def execIdleControlFlit (port : PortId) (flit : BitVec 2176) (s : State) : Res := s.settled (idleControlFlitNow port flit s)

/-- UNIT_ADMISSION (R37, R450, R30, R57, R482). -/
def execUnitAdmission (s : State) : Res := s.settled (unitAdmissionNow s)

/-- DESCRIPTOR_FETCH (R399, R401, R413, R482). -/
def execDescriptorFetch (ch : ChanId) (s : State) : Res := s.settled (descriptorFetchNow ch s)

/-- DESCRIPTOR_COMPLETE (R407, R410, R70, R482). -/
def execDescriptorComplete (ch : ChanId) (s : State) : Res := s.settled (descriptorCompleteNow ch s)

/-- DMA_SEGMENT_DONE (R405, R407, R421, R70, R482). -/
def execDmaSegmentDone (ch : ChanId) (seg : Fin 64) (reason : Byte) (s : State) : Res := s.settled (dmaSegmentDoneNow ch seg reason s)

/-- DMA_REMOTE_TIMEOUT (R407, R70, R482). -/
def execDmaRemoteTimeout (ch : ChanId) (seg : Fin 64) (s : State) : Res := s.settled (dmaRemoteTimeoutNow ch seg s)

/-- SLOT_TICK (R165, R482). -/
def execSlotTick (s : State) : Res := s.settled (slotTickNow s)

/-- BACKGROUND_ACCESS (R70, R482). -/
def execBackgroundAccess (r : RegionId) (tier : Fin 4) (s : State) : Res := s.settled (backgroundAccessNow r tier s)

end Sys2Proof.Machine
end

