-- ==== Sys2Proof/Machine/Dispatch.lean ====
section
/-! DEFINITION. What each command does: one arm per constructor of `Instr`, one meaning per arm. -/

namespace Sys2Proof.Machine

open Sys2Proof

def exec (i : Instr) (s : State) : Host.Outcome State Fault Refusal :=
  match i with
  -- supply, reset and test port (01, 14, 16)
  | .inputPowerArrival aMv bMv => Sys2Proof.Machine.execInputPowerArrival aMv bMv s
  | .inputUndervoltage aMv bMv => Sys2Proof.Machine.execInputUndervoltage aMv bMv s
  | .inputOvervoltage aMv bMv => Sys2Proof.Machine.execInputOvervoltage aMv bMv s
  | .inputOvercurrent ma => Sys2Proof.Machine.execInputOvercurrent ma s
  | .alwaysOnDomainStop aMv bMv => Sys2Proof.Machine.execAlwaysOnDomainStop aMv bMv s
  | .bladeLoss blade mv => Sys2Proof.Machine.execBladeLoss blade mv s
  | .inputSwitchReverseOpen => Sys2Proof.Machine.execInputSwitchReverseOpen s
  | .refclkLoss => Sys2Proof.Machine.execRefclkLoss s
  | .wake lowNs => Sys2Proof.Machine.execWake lowNs s
  | .wakePattern port onPeriods => Sys2Proof.Machine.execWakePattern port onPeriods s
  | .coldReset lowNs => Sys2Proof.Machine.execColdReset lowNs s
  | .resetRelease => Sys2Proof.Machine.execResetRelease s
  | .bootComplete ms => Sys2Proof.Machine.execBootComplete ms s
  | .watchdogExpiry => Sys2Proof.Machine.execWatchdogExpiry s
  | .governorSample loadMw => Sys2Proof.Machine.execGovernorSample loadMw s
  | .unitAdmission => Sys2Proof.Machine.execUnitAdmission s
  | .envelopeExceeded loadMw => Sys2Proof.Machine.execEnvelopeExceeded loadMw s
  | .tempWarn x c => Sys2Proof.Machine.execTempWarn x c s
  | .overtempShutdown x c => Sys2Proof.Machine.execOvertempShutdown x c s
  | .alertClear src data => Sys2Proof.Machine.execAlertClear src data s
  | .uartRxCharacter ch => Sys2Proof.Machine.execUartRxCharacter ch s
  | .uartConsoleCommand cmd => Sys2Proof.Machine.execUartConsoleCommand cmd s
  | .testLogicReset => Sys2Proof.Machine.execTestLogicReset s
  | .samplePreload => Sys2Proof.Machine.execSamplePreload s
  | .extest => Sys2Proof.Machine.execExtest s
  | .authMailbox => Sys2Proof.Machine.execAuthMailbox s
  | .testAccessInstruction op => Sys2Proof.Machine.execTestAccessInstruction op s
  | .bypass op => Sys2Proof.Machine.execBypass op s
  | .challenge => Sys2Proof.Machine.execChallenge s
  | .piece off data => Sys2Proof.Machine.execPiece off data s
  | .submit len => Sys2Proof.Machine.execSubmit len s
  | .status => Sys2Proof.Machine.execStatus s
  | .lock => Sys2Proof.Machine.execLock s
  -- core operations (04): core, bits [57:0] of the operation's slot, and the bundle's other slots
  | .nop core unit w rest => Sys2Proof.Machine.execNop core unit w rest s
  | .mma core w rest => Sys2Proof.Machine.execMma core w rest s
  | .mclr core w rest => Sys2Proof.Machine.execMclr core w rest s
  | .rdout core w rest => Sys2Proof.Machine.execRdout core w rest s
  | .fop core w rest => Sys2Proof.Machine.execFop core w rest s
  | .fcmp core w rest => Sys2Proof.Machine.execFcmp core w rest s
  | .iop core w rest => Sys2Proof.Machine.execIop core w rest s
  | .icmp core w rest => Sys2Proof.Machine.execIcmp core w rest s
  | .cvt core w rest => Sys2Proof.Machine.execCvt core w rest s
  | .quant core w rest => Sys2Proof.Machine.execQuant core w rest s
  | .dequant core w rest => Sys2Proof.Machine.execDequant core w rest s
  | .sfu core w rest => Sys2Proof.Machine.execSfu core w rest s
  | .rng core w rest => Sys2Proof.Machine.execRng core w rest s
  | .wadd core w rest => Sys2Proof.Machine.execWadd core w rest s
  | .wcvt core w rest => Sys2Proof.Machine.execWcvt core w rest s
  | .perm core w rest => Sys2Proof.Machine.execPerm core w rest s
  | .pop core w rest => Sys2Proof.Machine.execPop core w rest s
  | .ld core w rest => Sys2Proof.Machine.execLd core w rest s
  | .st core w rest => Sys2Proof.Machine.execSt core w rest s
  | .ldw core w rest => Sys2Proof.Machine.execLdw core w rest s
  | .ldws core w rest => Sys2Proof.Machine.execLdws core w rest s
  | .aop core w rest => Sys2Proof.Machine.execAop core w rest s
  | .loop core w rest => Sys2Proof.Machine.execLoop core w rest s
  | .jump core w rest => Sys2Proof.Machine.execJump core w rest s
  | .halt core w rest => Sys2Proof.Machine.execHalt core w rest s
  | .send core w rest => Sys2Proof.Machine.execSend core w rest s
  | .recv core w rest => Sys2Proof.Machine.execRecv core w rest s
  | .fld core w rest => Sys2Proof.Machine.execFld core w rest s
  | .fst core w rest => Sys2Proof.Machine.execFst core w rest s
  | .feng core w rest => Sys2Proof.Machine.execFeng core w rest s
  | .wait core w rest => Sys2Proof.Machine.execWait core w rest s
  | .flags core w rest => Sys2Proof.Machine.execFlags core w rest s
  | .sread core w rest => Sys2Proof.Machine.execSread core w rest s
  | .step core w rest => Sys2Proof.Machine.execStep core w rest s
  -- banks, far queues, bridges (02, 04)
  | .bankBeat r => Sys2Proof.Machine.execBankBeat r s
  | .backgroundAccess r tier => Sys2Proof.Machine.execBackgroundAccess r tier s
  | .farDispatch r => Sys2Proof.Machine.execFarDispatch r s
  | .farRequestComplete core q tag => Sys2Proof.Machine.execFarRequestComplete core q tag s
  | .holdEnd r => Sys2Proof.Machine.execHoldEnd r s
  | .waitTimeout r => Sys2Proof.Machine.execWaitTimeout r s
  | .neighbourBridgeTransfer core stream => Sys2Proof.Machine.execNeighbourBridgeTransfer core stream s
  | .spineBridgeEntry core stream => Sys2Proof.Machine.execSpineBridgeEntry core stream s
  -- scheduled fabric (05)
  | .slotTick => Sys2Proof.Machine.execSlotTick s
  | .pendingForward port => Sys2Proof.Machine.execPendingForward port s
  | .pendingLanding port => Sys2Proof.Machine.execPendingLanding port s
  | .landingStreamArrival r => Sys2Proof.Machine.execLandingStreamArrival r s
  | .deadlineMiss => Sys2Proof.Machine.execDeadlineMiss s
  -- link (06)
  | .codewordReceive port index symbols => Sys2Proof.Machine.execCodewordReceive port index symbols s
  | .flitReceive port flit => Sys2Proof.Machine.execFlitReceive port flit s
  | .idleControlFlit port flit => Sys2Proof.Machine.execIdleControlFlit port flit s
  | .widthReq port flit => Sys2Proof.Machine.execWidthReq port flit s
  | .retrainReq port flit => Sys2Proof.Machine.execRetrainReq port flit s
  | .replayTimeout port => Sys2Proof.Machine.execReplayTimeout port s
  | .signalDetect port => Sys2Proof.Machine.execSignalDetect port s
  | .lockComplete port lanes swapped => Sys2Proof.Machine.execLockComplete port lanes swapped s
  | .identityBlockReceive port block => Sys2Proof.Machine.execIdentityBlockReceive port block s
  | .rateComplete port rxLanes txLanes => Sys2Proof.Machine.execRateComplete port rxLanes txLanes s
  | .alignComplete port flight phase credits => Sys2Proof.Machine.execAlignComplete port flight phase credits s
  | .trainTimeout port => Sys2Proof.Machine.execTrainTimeout port s
  | .backoffExpiry port => Sys2Proof.Machine.execBackoffExpiry port s
  | .laneFailed port lane => Sys2Proof.Machine.execLaneFailed port lane s
  | .widthSwitch port => Sys2Proof.Machine.execWidthSwitch port s
  | .widthDecodeTimeout port => Sys2Proof.Machine.execWidthDecodeTimeout port s
  | .portReset src data => Sys2Proof.Machine.execPortReset src data s
  -- frames and time (05, 07)
  | .frameBoundary => Sys2Proof.Machine.execFrameBoundary s
  | .clauseCopyComplete => Sys2Proof.Machine.execClauseCopyComplete s
  | .wrapEvent => Sys2Proof.Machine.execWrapEvent s
  | .sync m => Sys2Proof.Machine.execSync m s
  | .followUp m => Sys2Proof.Machine.execFollowUp m s
  | .pdelayReq m => Sys2Proof.Machine.execPdelayReq m s
  | .pdelayResp m => Sys2Proof.Machine.execPdelayResp m s
  | .pdelayRespFollowUp m => Sys2Proof.Machine.execPdelayRespFollowUp m s
  | .announce m => Sys2Proof.Machine.execAnnounce m s
  | .syncTransmit d => Sys2Proof.Machine.execSyncTransmit d s
  | .announceTransmit d => Sys2Proof.Machine.execAnnounceTransmit d s
  | .pdelayReqTransmit => Sys2Proof.Machine.execPdelayReqTransmit s
  | .transmitTimestamp port ident domain => Sys2Proof.Machine.execTransmitTimestamp port ident domain s
  | .masterLost d => Sys2Proof.Machine.execMasterLost d s
  | .timeLost => Sys2Proof.Machine.execTimeLost s
  | .slewComplete => Sys2Proof.Machine.execSlewComplete s
  | .tsPop src => Sys2Proof.Machine.execTsPop src s
  | .ntSet src data => Sys2Proof.Machine.execNtSet src data s
  | .timeSelect src data => Sys2Proof.Machine.execTimeSelect src data s
  | .domainRoleWrite src d data => Sys2Proof.Machine.execDomainRoleWrite src d data s
  -- remote requests, routing, management (08, 13, 15)
  | .reqRead port m => Sys2Proof.Machine.execReqRead port m s
  | .reqWrite port m => Sys2Proof.Machine.execReqWrite port m s
  | .reqEngineItem port m => Sys2Proof.Machine.execReqEngineItem port m s
  | .rspReadData port m => Sys2Proof.Machine.execRspReadData port m s
  | .rspWriteDone port m => Sys2Proof.Machine.execRspWriteDone port m s
  | .rspEngineDone port m => Sys2Proof.Machine.execRspEngineDone port m s
  | .svcRead port m => Sys2Proof.Machine.execSvcRead port m s
  | .svcWrite port m => Sys2Proof.Machine.execSvcWrite port m s
  | .messageForward port m => Sys2Proof.Machine.execMessageForward port m s
  | .discovery port m => Sys2Proof.Machine.execDiscovery port m s
  | .discoveryTransmit => Sys2Proof.Machine.execDiscoveryTransmit s
  | .quench port m => Sys2Proof.Machine.execQuench port m s
  | .recoveryHeld => Sys2Proof.Machine.execRecoveryHeld s
  | .offer m => Sys2Proof.Machine.execOffer m s
  | .accept m => Sys2Proof.Machine.execAccept m s
  | .custodyPushDone => Sys2Proof.Machine.execCustodyPushDone s
  | .complete m => Sys2Proof.Machine.execComplete m s
  | .confirm m => Sys2Proof.Machine.execConfirm m s
  | .refuse m => Sys2Proof.Machine.execRefuse m s
  | .check m => Sys2Proof.Machine.execCheck m s
  | .release m => Sys2Proof.Machine.execRelease m s
  | .lost m => Sys2Proof.Machine.execLost m s
  | .custodyTimeout => Sys2Proof.Machine.execCustodyTimeout s
  | .pairRequest src data => Sys2Proof.Machine.execPairRequest src data s
  | .detachRequest src data => Sys2Proof.Machine.execDetachRequest src data s
  | .custodyRelease src data => Sys2Proof.Machine.execCustodyRelease src data s
  | .chipNumberWrite src data => Sys2Proof.Machine.execChipNumberWrite src data s
  | .manifestWrite src data => Sys2Proof.Machine.execManifestWrite src data s
  | .rankTableWrite src data => Sys2Proof.Machine.execRankTableWrite src data s
  | .routeTableWrite src data => Sys2Proof.Machine.execRouteTableWrite src data s
  -- stack engines and memory (10)
  | .stackEngineTake k e => Sys2Proof.Machine.execStackEngineTake k e s
  | .gather k e => Sys2Proof.Machine.execGather k e s
  | .scatter k e => Sys2Proof.Machine.execScatter k e s
  | .fill k e => Sys2Proof.Machine.execFill k e s
  | .copy k e => Sys2Proof.Machine.execCopy k e s
  | .scrub k e => Sys2Proof.Machine.execScrub k e s
  | .packKv k e => Sys2Proof.Machine.execPackKv k e s
  | .unpackKv k e => Sys2Proof.Machine.execUnpackKv k e s
  | .crc64 k e => Sys2Proof.Machine.execCrc64 k e s
  | .stackSelfRefreshEntry k => Sys2Proof.Machine.execStackSelfRefreshEntry k s
  | .leakTick counter => Sys2Proof.Machine.execLeakTick counter s
  | .scrubStart src data => Sys2Proof.Machine.execScrubStart src data s
  | .scrubAbort src data => Sys2Proof.Machine.execScrubAbort src data s
  | .scrubDone => Sys2Proof.Machine.execScrubDone s
  -- DMA (11)
  | .dmaStart src data => Sys2Proof.Machine.execDmaStart src data s
  | .dmaStop src data => Sys2Proof.Machine.execDmaStop src data s
  | .dmaTimerFire t => Sys2Proof.Machine.execDmaTimerFire t s
  | .descriptorFetch ch => Sys2Proof.Machine.execDescriptorFetch ch s
  | .dmaSegmentDone ch seg reason => Sys2Proof.Machine.execDmaSegmentDone ch seg reason s
  | .dmaRemoteTimeout ch seg => Sys2Proof.Machine.execDmaRemoteTimeout ch seg s
  | .descriptorComplete ch => Sys2Proof.Machine.execDescriptorComplete ch s
  -- clocking and power (12)
  | .ceilingUpdate temps ageing => Sys2Proof.Machine.execCeilingUpdate temps ageing s
  | .shortStop r => Sys2Proof.Machine.execShortStop r s
  | .shortStopResume r => Sys2Proof.Machine.execShortStopResume r s
  | .shadowPllLock r locked => Sys2Proof.Machine.execShadowPllLock r locked s
  | .synchronisedSwitch => Sys2Proof.Machine.execSynchronisedSwitch s
  | .pllUnlock r => Sys2Proof.Machine.execPllUnlock r s
  | .droopStretch r periods => Sys2Proof.Machine.execDroopStretch r periods s
  | .frameHoldResume => Sys2Proof.Machine.execFrameHoldResume s
  | .clockModeWrite src data => Sys2Proof.Machine.execClockModeWrite src data s
  | .freqChangeModeWrite src data => Sys2Proof.Machine.execFreqChangeModeWrite src data s
  | .targetStepWrite src data => Sys2Proof.Machine.execTargetStepWrite src data s
  | .regionLight src data => Sys2Proof.Machine.execRegionLight src data s
  | .stackActive src data => Sys2Proof.Machine.execStackActive src data s
  | .groupEnable src data => Sys2Proof.Machine.execGroupEnable src data s
  | .sleepRequest src data => Sys2Proof.Machine.execSleepRequest src data s
  | .failedMaskWrite src data => Sys2Proof.Machine.execFailedMaskWrite src data s
  | .spareCore src data => Sys2Proof.Machine.execSpareCore src data s
  | .weightRepaired region data => Sys2Proof.Machine.execWeightRepaired region data s
  -- Glazin and object dictionary (13)
  | .read port f => Sys2Proof.Machine.execRead port f s
  | .write port f => Sys2Proof.Machine.execWrite port f s
  | .blockRead port f => Sys2Proof.Machine.execBlockRead port f s
  | .blockWrite port f => Sys2Proof.Machine.execBlockWrite port f s
  | .event port f => Sys2Proof.Machine.execEvent port f s
  | .beacon port f => Sys2Proof.Machine.execBeacon port f s
  | .beaconHoldExpiry port => Sys2Proof.Machine.execBeaconHoldExpiry port s
  | .glazinLinkUp port => Sys2Proof.Machine.execGlazinLinkUp port s
  | .glazinPortDown port => Sys2Proof.Machine.execGlazinPortDown port s
  | .odWrite src index sub data => Sys2Proof.Machine.execOdWrite src index sub data s
  | .txnBegin src data => Sys2Proof.Machine.execTxnBegin src data s
  | .txnCommit src data => Sys2Proof.Machine.execTxnCommit src data s
  | .txnRollback src data => Sys2Proof.Machine.execTxnRollback src data s
  | .txnTimeout => Sys2Proof.Machine.execTxnTimeout s
  | .jobStart src data => Sys2Proof.Machine.execJobStart src data s
  | .jobAbort src data => Sys2Proof.Machine.execJobAbort src data s
  | .quenchRequested src data => Sys2Proof.Machine.execQuenchRequested src data s
  | .jobEnded => Sys2Proof.Machine.execJobEnded s
  | .loadStart src data => Sys2Proof.Machine.execLoadStart src data s
  | .imageBlock src offset total data => Sys2Proof.Machine.execImageBlock src offset total data s
  | .loadAbort src data => Sys2Proof.Machine.execLoadAbort src data s
  | .coldResetWrite src data => Sys2Proof.Machine.execColdResetWrite src data s
  | .warmReset src data => Sys2Proof.Machine.execWarmReset src data s
  | .jobReset src data => Sys2Proof.Machine.execJobReset src data s
  | .replayRelease src data => Sys2Proof.Machine.execReplayRelease src data s
  | .runStart src data => Sys2Proof.Machine.execRunStart src data s
  | .adoptStart src data => Sys2Proof.Machine.execAdoptStart src data s
  | .custodyAdopted => Sys2Proof.Machine.execCustodyAdopted s
  -- security (16)
  | .fwInstall src offset total data => Sys2Proof.Machine.execFwInstall src offset total data s
  | .rollbackCommit src data => Sys2Proof.Machine.execRollbackCommit src data s
  | .recordInstall src data => Sys2Proof.Machine.execRecordInstall src data s
  | .quoteNonce src data => Sys2Proof.Machine.execQuoteNonce src data s
  | .quote src offset length => Sys2Proof.Machine.execQuote src offset length s
  | .testChallenge src => Sys2Proof.Machine.execTestChallenge src s
  | .testToken src data => Sys2Proof.Machine.execTestToken src data s
  | .testLock src data => Sys2Proof.Machine.execTestLock src data s
  | .logClear src data => Sys2Proof.Machine.execLogClear src data s
  | .portEnable src data => Sys2Proof.Machine.execPortEnable src data s
  | .leakPeriodMs src data => Sys2Proof.Machine.execLeakPeriodMs src data s
  | .dmaTimerEnable src data => Sys2Proof.Machine.execDmaTimerEnable src data s
  | .weightRepairTimeout => Sys2Proof.Machine.execWeightRepairTimeout s
  | .pllLock r => Sys2Proof.Machine.execPllLock r s

end Sys2Proof.Machine
end

