-- ==== Sys2Proof/WellFormed.lean ====
section
/-! DEFINITION. What a well-formed command is: the shapes and ranges its operands have by the spec, beyond their types. -/

namespace Sys2Proof

/-- The bundle's other slots leave the operation's own slot empty (R121). -/
def slotFree (u : Slot) (rest : BitVec 256) : Bool :=
  rest.extractLsb' (64 * Machine.slotIndex u) 64 == 0

/-- A message of one of some channels: at most 64 data units, as many as its header says (R227, R228). -/
def msgWf (vcs : List Nat) (m : Msg) : Bool :=
  vcs.contains m.vc && decide (m.units.length ≤ 64 ∧ m.hdr.toNat % 256 = m.units.length)

/-- A value of the object dictionary: its length fits the 32 bits of a frame's length field (R462). -/
def valueWf (data : List Byte) : Bool := decide (data.length < 2 ^ 32)

/-- A temperature in the range of the entries that show one: two's complement of 16 bits (R44). -/
def celsiusWf (c : Int) : Bool := decide (-32768 ≤ c ∧ c ≤ 32767)

/-- A console command names an entry by 16 and 8 bits, a log entry by 32 (R25). -/
def ConsoleCmd.wf : ConsoleCmd → Bool
  | .read index sub => decide (index < 65536 ∧ sub < 256)
  | .write index sub data => decide (index < 65536 ∧ sub < 256) && valueWf data
  | .log seq => decide (seq < 2 ^ 32)

/-- The number fields of a Glazin frame fit their widths (R462). -/
def GFrame.wf (f : GFrame) : Bool :=
  decide (f.offset < 2 ^ 64 ∧ f.length < 2 ^ 32 ∧ f.total < 2 ^ 32 ∧ f.data.length < 2 ^ 32)

/-- A frame that a command brings has the command's opcode, or one outside the table of R463. -/
def GFrame.wfAs (f : GFrame) (op : Byte) : Bool := f.wf && (f.opcode == op || f.opcode == 0 || decide (5 < f.opcode.toNat))

/-- A TIME message's bytes stand in its header from byte 8 and in at most 64 units (R227, R283). -/
def TimeMsg.wf (m : TimeMsg) : Bool := decide (m.bytes.length ≤ 56 + 64 * 64)

/-- A command's operands have the shapes and ranges the spec gives them. -/
def Instr.wf : Instr → Bool
  | .inputPowerArrival _ _ | .inputUndervoltage _ _ | .inputOvervoltage _ _ | .inputOvercurrent _
  | .alwaysOnDomainStop _ _ | .bladeLoss _ _ | .inputSwitchReverseOpen | .refclkLoss | .wake _ | .wakePattern _ _
  | .coldReset _ | .resetRelease | .bootComplete _ | .watchdogExpiry | .governorSample _ | .unitAdmission
  | .envelopeExceeded _ | .uartRxCharacter _ | .testLogicReset | .samplePreload | .extest | .authMailbox
  | .testAccessInstruction _ | .bypass _ | .challenge | .submit _ | .status | .lock | .bankBeat _
  | .backgroundAccess _ _ | .farDispatch _ | .farRequestComplete _ _ _ | .holdEnd _ | .waitTimeout _
  | .neighbourBridgeTransfer _ _ | .spineBridgeEntry _ _ | .slotTick | .pendingForward _ | .pendingLanding _
  | .landingStreamArrival _ | .deadlineMiss | .flitReceive _ _ | .idleControlFlit _ _ | .widthReq _ _
  | .retrainReq _ _ | .replayTimeout _ | .signalDetect _ | .lockComplete _ _ _ | .identityBlockReceive _ _
  | .rateComplete _ _ _ | .trainTimeout _ | .backoffExpiry _ | .laneFailed _ _ | .widthSwitch _
  | .widthDecodeTimeout _ | .frameBoundary | .clauseCopyComplete | .wrapEvent | .syncTransmit _ | .announceTransmit _
  | .pdelayReqTransmit | .transmitTimestamp _ _ _ | .masterLost _ | .timeLost | .slewComplete | .tsPop _
  | .discoveryTransmit | .recoveryHeld | .custodyPushDone | .custodyTimeout | .stackEngineTake _ _ | .gather _ _
  | .scatter _ _ | .fill _ _ | .copy _ _ | .scrub _ _ | .packKv _ _ | .unpackKv _ _ | .crc64 _ _
  | .stackSelfRefreshEntry _ | .leakTick _ | .scrubDone | .dmaTimerFire _ | .descriptorFetch _
  | .dmaSegmentDone _ _ _ | .dmaRemoteTimeout _ _ | .descriptorComplete _ | .shortStop _ | .shortStopResume _
  | .shadowPllLock _ _ | .synchronisedSwitch | .pllUnlock _ | .droopStretch _ _ | .frameHoldResume
  | .weightRepaired _ _ | .beaconHoldExpiry _ | .glazinLinkUp _ | .glazinPortDown _ | .txnTimeout | .jobEnded
  | .custodyAdopted | .testChallenge _ | .weightRepairTimeout | .pllLock _ => true
  | .tempWarn _ c | .overtempShutdown _ c => celsiusWf c
  | .alertClear _ data | .portReset _ data | .ntSet _ data | .timeSelect _ data | .domainRoleWrite _ _ data
  | .pairRequest _ data | .detachRequest _ data | .custodyRelease _ data | .chipNumberWrite _ data
  | .manifestWrite _ data | .rankTableWrite _ data | .routeTableWrite _ data | .scrubStart _ data
  | .scrubAbort _ data | .dmaStart _ data | .dmaStop _ data | .clockModeWrite _ data | .freqChangeModeWrite _ data
  | .targetStepWrite _ data | .regionLight _ data | .stackActive _ data | .groupEnable _ data | .sleepRequest _ data
  | .failedMaskWrite _ data | .spareCore _ data | .txnBegin _ data | .txnCommit _ data | .txnRollback _ data
  | .jobStart _ data | .jobAbort _ data | .quenchRequested _ data | .loadStart _ data | .loadAbort _ data
  | .coldResetWrite _ data | .warmReset _ data | .jobReset _ data | .replayRelease _ data | .runStart _ data
  | .adoptStart _ data | .rollbackCommit _ data | .recordInstall _ data | .quoteNonce _ data | .testToken _ data
  | .testLock _ data | .logClear _ data | .portEnable _ data | .leakPeriodMs _ data | .dmaTimerEnable _ data
    => valueWf data
  | .uartConsoleCommand cmd => cmd.wf
  | .piece off data => decide (off < 2 ^ 32) && valueWf data
  | .nop _ unit _ rest => slotFree unit rest
  | .mma _ _ rest | .mclr _ _ rest | .rdout _ _ rest => slotFree .m rest
  | .fop _ _ rest | .fcmp _ _ rest | .iop _ _ rest | .icmp _ _ rest | .cvt _ _ rest | .quant _ _ rest
  | .dequant _ _ rest | .sfu _ _ rest | .rng _ _ rest | .wadd _ _ rest | .wcvt _ _ rest | .perm _ _ rest
  | .pop _ _ rest => slotFree .v rest
  | .ld _ _ rest | .st _ _ rest | .ldw _ _ rest | .ldws _ _ rest => slotFree .l rest
  | .aop _ _ rest | .loop _ _ rest | .jump _ _ rest | .halt _ _ rest | .send _ _ rest | .recv _ _ rest
  | .fld _ _ rest | .fst _ _ rest | .feng _ _ rest | .wait _ _ rest | .flags _ _ rest | .sread _ _ rest
  | .step _ _ rest => slotFree .c rest
  | .codewordReceive _ _ symbols => decide (symbols.length = 544)
  | .alignComplete _ _ _ credits => decide (credits.length = 14)
  | .sync m | .followUp m | .pdelayReq m | .pdelayResp m | .pdelayRespFollowUp m | .announce m => m.wf
  | .reqRead _ m | .reqWrite _ m | .reqEngineItem _ m => msgWf [1, 2] m
  | .rspReadData _ m | .rspWriteDone _ m | .rspEngineDone _ m => msgWf [3, 4, 5] m
  | .svcRead _ m | .svcWrite _ m => msgWf [5] m
  | .messageForward _ m => msgWf [1, 2, 3, 4, 5, 6, 7] m
  | .discovery _ m | .quench _ m | .offer m | .accept m | .complete m | .confirm m | .refuse m | .check m
  | .release m | .lost m => msgWf [6] m
  | .ceilingUpdate temps ageing => decide (temps.length = 16 ∧ ageing.length = 16)
  | .read _ f => f.wfAs 1
  | .write _ f => f.wfAs 2
  | .blockRead _ f | .blockWrite _ f => f.wfAs 3
  | .event _ f => f.wfAs 4
  | .beacon _ f => f.wfAs 5
  | .odWrite _ index sub data => decide (index < 65536 ∧ sub < 256) && valueWf data
  | .imageBlock _ offset total data | .fwInstall _ offset total data
    => decide (offset < 2 ^ 64 ∧ total < 2 ^ 32) && valueWf data
  | .quote _ offset length => decide (offset < 2 ^ 64 ∧ length < 2 ^ 32)

end Sys2Proof
end

