-- ==== Sys2Proof/Safety.lean ====
section
/-! DEFINITION. The terms claims about runs are stated in: when a core can issue, when a write of the object dictionary is
taken, and what every step keeps. -/

namespace Sys2Proof.Machine

/-! ## Memories -/

/-- The four memories are in canonical form: addresses rise, no entry is 0, what an unlisted address reads (log entry 2). -/
def State.memoryOk (s : State) : Bool := s.sram.wf && s.sramChk.wf && s.dram.wf && s.dramChk.wf

/-! ## Cores -/

/-- Core `c` may issue bundle `b` in this beat: its region issues, the core is mapped, has not issued and has not halted,
no stalled bundle of the region is still to issue, the bundle passes every check of R143 and no WAIT in it stalls (R131, R133, R143, R156). -/
def State.canIssue (s : State) (c : Nat) (b : BitVec 256) : Bool :=
  s.issuing (c / 64) && decide (c % 64 < (s.region (c / 64)).map.length) && !(s.core c).issued && !(s.core c).halted
    && decide ((s.region (c / 64)).stalls = []) && (match s.check c b with | .inr _ => true | .inl _ => false) && !s.stalls c b

/-- Core `c` may issue in this beat and the bundle fails the check of a code in a slot (R143). -/
def State.failsCheck (s : State) (c : Nat) (b : BitVec 256) (code slot : Nat) : Prop :=
  (s.issuing (c / 64) && decide (c % 64 < (s.region (c / 64)).map.length) && !(s.core c).issued && !(s.core c).halted
    && decide ((s.region (c / 64)).stalls = []) && !s.heldBack c b) = true ∧ s.check c b = .inl (code, slot)

/-- Whether a bundle's C slot makes a STEP (R140). -/
def State.steps (s : State) (c : Nat) (b : BitVec 256) : Bool := decide ((slotOf b .c).op = 13) && (s.ctx c b .c).isOn

/-- Lane `k` of a masked result: value `x` where the lane is on, not written where it is off (R134). -/
def LaneIs (mask val : Vec) (k : Nat) (on : Bool) (x : Nat) : Prop :=
  if on then lane mask k = 0xFFFFFFFF ∧ lane val k = BitVec.ofNat 32 x else lane mask k = 0

/-- The flags that the lanes which are on raise together. -/
def raisedBy (on : BitVec 64) (f : Nat → Nat × StFlags) : StFlags :=
  (List.range 64).foldl (fun a k => if on.getLsbD k then a ||| (f k).2 else a) 0

/-- Core `c`, which has issued bundle `b`, has a vector result of its V slot on the way, `lat` beats later, lane `k` being
`f k` where the lane is on; and the flags raised, unless the bundle's STEP drops them. -/
def State.lanesComing (s t : State) (c : Nat) (b : BitVec 256) (lat : Nat) (f : OpCtx → Nat → Nat × StFlags) : Prop :=
  let o := s.ctx c b .v
  let fl := raisedBy o.on (f o)
  (∃ m v, (⟨o.beat + lat, .vreg (o.x.f 53 49) m v⟩ : Pend) ∈ (t.core c).pend
      ∧ ∀ k < 64, LaneIs m v k (o.on.getLsbD k) (f o k).1)
    ∧ (fl ≠ 0 → s.steps c b = false → (⟨o.beat + lat, .flags fl⟩ : Pend) ∈ (t.core c).pend)

/-- The same for a result that a whole vector function gives. -/
def State.resultComing (s t : State) (c : Nat) (b : BitVec 256) (lat : Nat) (f : OpCtx → VOut) : Prop :=
  let o := s.ctx c b .v
  (⟨o.beat + lat, .vreg (o.x.f 53 49) (f o).mask (f o).val⟩ : Pend) ∈ (t.core c).pend
    ∧ ((f o).flags ≠ 0 → s.steps c b = false → (⟨o.beat + lat, .flags (f o).flags⟩ : Pend) ∈ (t.core c).pend)
    ∧ ((f o).wf ≠ 0 → s.steps c b = false → (⟨o.beat + lat, .wf (f o).wf⟩ : Pend) ∈ (t.core c).pend)

/-- The same for a predicate result: bit `k` is `f k` for each lane that is on, no other bit is written. -/
def State.bitsComing (s t : State) (c : Nat) (b : BitVec 256) (lat : Nat) (f : OpCtx → Nat → Bool) : Prop :=
  let o := s.ctx c b .v
  ∃ v : BitVec 64, (⟨o.beat + lat, .preg (o.x.f 51 49) o.on v⟩ : Pend) ∈ (t.core c).pend
    ∧ ∀ k < 64, o.on.getLsbD k = true → v.getLsbD k = f o k

/-- The core and the bundle of a command that is a core operation. -/
def asBundle : Instr → Option (CoreId × BitVec 256)
  | .nop c u w r => some (c, withSlot r u 0 w)
  | .mma c w r => some (c, withSlot r .m 1 w)
  | .mclr c w r => some (c, withSlot r .m 2 w)
  | .rdout c w r => some (c, withSlot r .m 3 w)
  | .fop c w r => some (c, withSlot r .v 1 w)
  | .fcmp c w r => some (c, withSlot r .v 2 w)
  | .iop c w r => some (c, withSlot r .v 3 w)
  | .icmp c w r => some (c, withSlot r .v 4 w)
  | .cvt c w r => some (c, withSlot r .v 5 w)
  | .quant c w r => some (c, withSlot r .v 6 w)
  | .dequant c w r => some (c, withSlot r .v 7 w)
  | .sfu c w r => some (c, withSlot r .v 8 w)
  | .rng c w r => some (c, withSlot r .v 9 w)
  | .wadd c w r => some (c, withSlot r .v 10 w)
  | .wcvt c w r => some (c, withSlot r .v 11 w)
  | .perm c w r => some (c, withSlot r .v 12 w)
  | .pop c w r => some (c, withSlot r .v 13 w)
  | .ld c w r => some (c, withSlot r .l 1 w)
  | .st c w r => some (c, withSlot r .l 2 w)
  | .ldw c w r => some (c, withSlot r .l 3 w)
  | .ldws c w r => some (c, withSlot r .l 4 w)
  | .aop c w r => some (c, withSlot r .c 1 w)
  | .loop c w r => some (c, withSlot r .c 2 w)
  | .jump c w r => some (c, withSlot r .c 3 w)
  | .halt c w r => some (c, withSlot r .c 4 w)
  | .send c w r => some (c, withSlot r .c 5 w)
  | .recv c w r => some (c, withSlot r .c 6 w)
  | .fld c w r => some (c, withSlot r .c 7 w)
  | .fst c w r => some (c, withSlot r .c 8 w)
  | .feng c w r => some (c, withSlot r .c 9 w)
  | .wait c w r => some (c, withSlot r .c 10 w)
  | .flags c w r => some (c, withSlot r .c 11 w)
  | .sread c w r => some (c, withSlot r .c 12 w)
  | .step c w r => some (c, withSlot r .c 13 w)
  | _ => none

/-- A message of this part to a chip, of the channel `c` (1 for a request, 3 for a reply), has a route with a port that may be offered
it (R317, R325, R328). -/
def State.reaches (s : State) (c chip : Nat) : Prop :=
  ∃ ports vc g, (∀ q : TxMsg, q.arr = none → q.msg.vc = c → mf q.msg 2 2 % 4096 = chip % 4096 →
    s.routeChoice q = some (ports, vc, g)) ∧ ∃ p ∈ ports, s.offers p vc = true

/-- A far request but for the mark of undefined data and the ranges noted for its work item. -/
def FarReq.unmarked (q : FarReq) : FarReq := { q with undef := false, item := [] }

/-- A far queue without the marks of its requests. -/
def FarQ.unmarked (f : FarQ) : FarQ := { f with entries := f.entries.map FarReq.unmarked }

/-- A core without the marks of its far requests. -/
def Core.unmarked (k : Core) : Core := { k with farq := k.farq.map fun f => (f.1, f.2.unmarked) }

/-- A work item but for the mark of undefined data. -/
def Item.unmarked (i : Item) : Item := { i with undef := false }

/-- A stack without the marks of its engines' items. -/
def Stack.unmarked (x : Stack) : Stack :=
  { x with queues := x.queues.map fun q => (q.1, q.2.map Item.unmarked), running := x.running.map fun i => (i.1, i.2.map Item.unmarked) }

/-! ## Commits -/

/-- No commit waits that a fault of this command could bring forward: none waits, or the part does not start for a join (R482, R540). -/
abbrev State.settles (s : State) : Prop := s.commitDue = false ∨ s.reg R.jobState ≠ 1 ∨ s.joinWait = none

/-! ## Slots of the fabric -/

/-- Nothing but ports moves in this slot, and next slot's frame is this one: no use, no message, flit or QUENCH waits for a way, no channel
and no push runs (R165), and no commit waits for a boundary that a fault could bring (R482). -/
def State.stillSlot (s : State) : Prop :=
  s.awake = true ∧ s.settles ∧ s.slot < 4088 ∧ s.uses = [] ∧ s.waiting = [] ∧ s.pushQueue = [] ∧ s.repairDue = false
    ∧ (∀ x ∈ s.chans, x.2.busy = false) ∧ (∀ q < 32, (s.port q).quenchTx = [])
    ∧ ∀ r < 16, (s.region r).spineIn = [] ∧ (∀ x ∈ (s.region r).bridgeIn, x.2 = []) ∧ ∀ k ∈ (s.region r).cores, ∀ x ∈ k.2.send, x.2 = []

/-- In such a slot of the running clause `c`, port `p` alone may have an entry (R169, R172). -/
def State.onlyPort (s : State) (c : Clause) (p : Nat) : Prop :=
  s.stillSlot ∧ s.runningClause = some c ∧ s.now + 8 ≤ s.claimed ∧ ∀ q < 32, q ≠ p → (s.entryNow c q).valid = false

/-- No local send of clause `c` is 8 slots ahead, so no flit is claimed in this slot (R176). -/
def State.noSendDue (s : State) (c : Clause) : Prop :=
  ∀ q < 32, let e := entryFields (c.entry q (s.slot + 8)); e.valid = true → e.kind ≠ 1

/-! ## Memory that an abort leaves undefined -/

/-- A byte that no running channel's descriptor writes: an abort of the channels leaves it as it is (R418). -/
def State.spared (s : State) (space a : Nat) : Prop :=
  ∀ c < 64, s.reg (R.dmaState c) = 2 → (s.chan c).busy = true →
    let d := descFields (s.chan c).desc
    d.dstRemote = false → (bits d.dst 51 48 = 0 ↔ space = 0) → a < bits d.dst 47 0 ∨ bits d.dst 47 0 + d.len ≤ a

/-! ## The object dictionary and the log -/

/-- A node may write, and the console in the scope of an authorised test access (R25, R572). -/
def State.mayWrite (s : State) (src : OdSrc) : Bool := decide (src ≠ .uart) || s.scoped 2

/-- A write of `data` to the entry of key `k` is taken as a direct write: the part is awake, no transaction is open, the write passes
the checks that every entry shares, and a write from the console is in the scope of an authorised test access (R25, R471 to R474, R477). -/
def State.takes (s : State) (src : OdSrc) (k : Nat) (data : List Byte) : Bool :=
  s.awake && s.mayWrite src && decide (s.reg R.txnOwner = 2) && (s.odCheck src (k / 65536) (k / 256 % 256) data).isLeft

/-- The state with the answer of an accepted write. -/
def State.ok (s : State) : State := { s with answer := 0, answerData := [] }

/-- The event log holds an entry of a code, unit and detail. -/
def State.logged (s : State) (code unit detail : Nat) : Prop :=
  ∃ e ∈ s.log, e.code = code ∧ e.unit = unit % 256 ∧ e.detail = BitVec.ofNat 64 detail

/-- The part runs a job, no quench record is held and no fault has been raised in its step (R163, R538). -/
def State.quiet (s : State) : Prop :=
  s.reg R.jobState = 2 ∧ s.qrec = none ∧ s.firstFault = false ∧ s.reg R.runState ≠ 2

/-! ## Messages -/

/-- Once the request `m` has its banks, no access that is outstanding touches what it reads or writes, none has touched it while it
waited, and it is no channel's write where a scrub with write-back runs (R72, R388, R396). -/
abbrev State.undisturbed (s : State) (port : Nat) (m : Msg) : Prop :=
  (s.bgTry (reqKey port m) (s.reqWords m)).1.reqLoses port m = false

/-- A reply to `m` is on its way out: queued on a port, or waiting for credits (R313, R328). -/
def State.replied (s t : State) (m : Msg) (status : Nat) (units : List (BitVec 512)) : Prop :=
  ∃ r : Msg, classOf r.vc = 3 ∧ r.hdr = rspHdr units.length (mf m 4 2) s.chip (0x80 + mf m 8 1) status (mf m 12 4)
    ∧ r.units = units ∧ ((∃ p q, q ∈ (t.port p).txq ∧ q.msg = r) ∨ (∃ q ∈ t.waiting, q.msg = r))

end Sys2Proof.Machine
end

