-- ==== Sys2Proof/Certificates/Slice0/Obligations.lean ====
section
/-! DEFINITION. The statements for the provers: what the spec's rules say the commands do. -/

section

open Sys2Proof Sys2Proof.Machine

/-! ## Core operations (04) -/

/-- R105 to R108, R112 to R117, R125, R134, R341: FOP, IOP, SFU, RNG and PERM write each lane that is on with the lane's
own result, 4, 2, 8, 6 and 2 beats later, and raise the lanes' flags. That a random element's index goes on modulo 2^34 past 2^34 is
the model's choice (log entry 65). -/
def Obligations.LaneOperations : Prop :=
  ∀ (core : CoreId) (w : BitVec 58) (rest : BitVec 256) (s : State),
    let c := core.val
    (s.canIssue c (withSlot rest .v 1 w) = true →
      ∃ t, exec (.fop core w rest) s = .next t ∧ s.lanesComing t c (withSlot rest .v 1 w) 4 fun o k =>
        fopLane o.fn o.rnd (ln o.va k) (ln o.vb k) (ln o.vc k)) ∧
    (s.canIssue c (withSlot rest .v 3 w) = true →
      ∃ t, exec (.iop core w rest) s = .next t ∧ s.lanesComing t c (withSlot rest .v 3 w) 2 fun o k =>
        (iopLane o.fn (ln o.va k) (ln o.vb k), 0)) ∧
    (s.canIssue c (withSlot rest .v 8 w) = true →
      ∃ t, exec (.sfu core w rest) s = .next t ∧ s.lanesComing t c (withSlot rest .v 8 w) 8 fun o k =>
        sfuLane o.fn (ln o.va k)) ∧
    (s.canIssue c (withSlot rest .v 9 w) = true →
      ∃ t, exec (.rng core w rest) s = .next t ∧ s.lanesComing t c (withSlot rest .v 9 w) 6 fun o k =>
        (randomLane o.fn (randomWord (leNat (s.blob R.jobSeed)) (s.core c).step.toNat (ln o.va 0)
          ((elemAt o.vb 64 0 % 2 ^ 34 + k) % 2 ^ 34)), 0)) ∧
    (s.canIssue c (withSlot rest .v 12 w) = true →
      ∃ t, exec (.perm core w rest) s = .next t ∧ s.lanesComing t c (withSlot rest .v 12 w) 2 fun o k =>
        (ln o.va (ln o.vb k % 64), 0))

/-- R107, R108, R125, R134, R341: FCMP, ICMP and POP write the predicate bit of each lane that is on, 2, 2 and 1 beats
later, and no other bit. -/
def Obligations.PredicateOperations : Prop :=
  ∀ (core : CoreId) (w : BitVec 58) (rest : BitVec 256) (s : State),
    let c := core.val
    (s.canIssue c (withSlot rest .v 2 w) = true →
      ∃ t, exec (.fcmp core w rest) s = .next t ∧ s.bitsComing t c (withSlot rest .v 2 w) 2 fun o k =>
        (fpCmp o.fn (ln o.va k) (ln o.vb k)).1) ∧
    (s.canIssue c (withSlot rest .v 4 w) = true →
      ∃ t, exec (.icmp core w rest) s = .next t ∧ s.bitsComing t c (withSlot rest .v 4 w) 2 fun o k =>
        icmpLane o.fn (ln o.va k) (ln o.vb k)) ∧
    (s.canIssue c (withSlot rest .v 13 w) = true →
      ∃ t, exec (.pop core w rest) s = .next t ∧ s.bitsComing t c (withSlot rest .v 13 w) 1 fun o k =>
        let a := ((s.core c).preg (o.x.f 46 44)).getLsbD k
        let b := ((s.core c).preg (o.x.f 41 39)).getLsbD k
        if o.fn = 0 then a && b else if o.fn = 1 then a || b else if o.fn = 2 then a != b else a && !b)

/-- R109 to R111, R100, R128, R129, R341: CVT, QUANT, DEQUANT, WADD and WCVT have their whole result on the way, 4, 5, 4, 2
and 4 beats later, with its flags. -/
def Obligations.ConversionOperations : Prop :=
  ∀ (core : CoreId) (w : BitVec 58) (rest : BitVec 256) (s : State),
    let c := core.val
    (s.canIssue c (withSlot rest .v 5 w) = true →
      ∃ t, exec (.cvt core w rest) s = .next t
        ∧ s.resultComing t c (withSlot rest .v 5 w) 4 fun o => cvtVec o.fn o.rnd o.on o.va) ∧
    (s.canIssue c (withSlot rest .v 6 w) = true →
      ∃ t, exec (.quant core w rest) s = .next t
        ∧ s.resultComing t c (withSlot rest .v 6 w) 5 fun o => quantVec (o.x.f 27 24) o.on o.va) ∧
    (s.canIssue c (withSlot rest .v 7 w) = true →
      ∃ t, exec (.dequant core w rest) s = .next t
        ∧ s.resultComing t c (withSlot rest .v 7 w) 4 fun o => dequantVec (o.x.f 27 24) o.on o.va) ∧
    (s.canIssue c (withSlot rest .v 10 w) = true →
      ∃ t, exec (.wadd core w rest) s = .next t
        ∧ s.resultComing t c (withSlot rest .v 10 w) 2 fun o => waddVec o.on o.va o.vb) ∧
    (s.canIssue c (withSlot rest .v 11 w) = true →
      ∃ t, exec (.wcvt core w rest) s = .next t
        ∧ s.resultComing t c (withSlot rest .v 11 w) 4 fun o =>
          wcvtVec (o.x.f 31 28) (o.x.f 27 24) o.rnd (sext 16 (o.x.f 23 8)) o.on o.va o.vc)

/-- R88 to R90, R95, R124, R126, R127: MMA adds each column's products to its accumulator at once, MCLR clears all of them,
and RDOUT has the rounded accumulators on the way to its register, 4 beats later; with their predicate off MMA and MCLR leave
the accumulators alone. -/
def Obligations.MatrixOperations : Prop :=
  ∀ (core : CoreId) (w : BitVec 58) (rest : BitVec 256) (s : State),
    let c := core.val
    (s.canIssue c (withSlot rest .m 1 w) = true →
      let o := s.ctx c (withSlot rest .m 1 w) .m
      ∃ t, exec (.mma core w rest) s = .next t ∧ ∀ j < 32,
        Tab.get {} (t.core c).acc j = if o.isOn
          then (Tab.get {} (s.core c).acc j : ExAcc).add (columnTerm ((s.core c).vreg (o.x.f 53 49)) ((s.core c).tileAt
            (o.x.f 48 48)) (o.x.f 47 44) (o.x.f 43 40) ((pairDepth (o.x.f 47 44) (o.x.f 43 40)).getD 0) j)
          else Tab.get {} (s.core c).acc j) ∧
    (s.canIssue c (withSlot rest .m 2 w) = true →
      ∃ t, exec (.mclr core w rest) s = .next t ∧ ∀ j < 32, Tab.get {} (t.core c).acc j =
        if (s.ctx c (withSlot rest .m 2 w) .m).isOn then ({} : ExAcc) else Tab.get {} (s.core c).acc j) ∧
    (s.canIssue c (withSlot rest .m 3 w) = true →
      let o := s.ctx c (withSlot rest .m 3 w) .m
      ∃ t, exec (.rdout core w rest) s = .next t ∧
        (o.isOn = true → ∃ v, (⟨o.beat + 4, .vreg (o.x.f 53 49) (BitVec.allOnes 2048) v⟩ : Pend) ∈ (t.core c).pend
          ∧ v = (readoutVec (s.core c).acc (o.x.f 48 47) (o.x.f 43 39) (rndOf (o.x.f 46 45)) (sext 16 (o.x.f 38 23))).1) ∧
        ∀ j < 32, Tab.get {} (t.core c).acc j =
          if o.isOn ∧ o.x.f 44 44 = 1 ∧ (o.x.f 48 47 ≠ 3 ∨ (o.x.f 43 39 ≤ j ∧ j < o.x.f 43 39 + 15)) then ({} : ExAcc)
          else Tab.get {} (s.core c).acc j)

/-- R66, R126, R144, R341: a load or store that its predicate lets access memory joins its region's bank accesses: LD, LDW and
LDWS at bank beat 7 with their register valid at 14, 15 and 15, ST at bank beat 9 with the bytes of the lanes that are on. One
that is off accesses nothing. -/
def Obligations.LoadsAndStores : Prop :=
  ∀ (core : CoreId) (w : BitVec 58) (rest : BitVec 256) (s : State),
    let c := core.val
    let bank (t : State) := (t.region (c / 64)).bank
    let joins (b : BitVec 256) (t : State) (due valid : Nat) (kind : SlotOp → BankKind) (data : SlotOp → Vec) : Prop :=
      let o := s.ctx c b .l
      if (s.core c).accesses o.x then
        ∃ a : BankAcc, bank t = bank s ++ [a] ∧ a.due = o.beat + due ∧ a.valid = o.beat + valid ∧ a.core = c
          ∧ a.kind = kind o.x ∧ a.off = c / 64 * 2 ^ 30 + (s.core c).localOff o.x ∧ a.size = o.x.accessSize
          ∧ a.data = data o.x ∧ a.pc = (s.core c).pc
          ∧ (kind o.x = .st → ∀ i < 256, a.mask.getLsbD i = (decide (i < o.x.accessSize) && o.on.getLsbD (i / 4)))
      else bank t = bank s
    (s.canIssue c (withSlot rest .l 1 w) = true →
      ∃ t, exec (.ld core w rest) s = .next t
        ∧ joins (withSlot rest .l 1 w) t 7 14 (fun x => .ld (x.f 53 49)) fun _ => 0) ∧
    (s.canIssue c (withSlot rest .l 2 w) = true →
      ∃ t, exec (.st core w rest) s = .next t
        ∧ joins (withSlot rest .l 2 w) t 9 9 (fun _ => .st) fun x => (s.core c).vreg (x.f 53 49)) ∧
    (s.canIssue c (withSlot rest .l 3 w) = true →
      ∃ t, exec (.ldw core w rest) s = .next t
        ∧ joins (withSlot rest .l 3 w) t 7 15 (fun x => .ldw (x.f 53 53) (x.f 52 49)) fun _ => 0) ∧
    (s.canIssue c (withSlot rest .l 4 w) = true →
      ∃ t, exec (.ldws core w rest) s = .next t
        ∧ joins (withSlot rest .l 4 w) t 7 15 (fun x => .ldws (x.f 53 53)) fun _ => 0)

/-- R133, R135, R136, R138, R139, R140, R341: AOP, FLAGS and SREAD have their value on the way to an address register, one beat
later; HALT halts the core; STEP advances its step counter, clears its flags and its tag counters and notes the restart point; with their
predicate off they have no result and change none of these. -/
def Obligations.ControlOperations : Prop :=
  ∀ (core : CoreId) (w : BitVec 58) (rest : BitVec 256) (s : State),
    let c := core.val
    let k := s.core c
    let areg (t : State) (o : OpCtx) (v : BitVec 64) : Prop :=
      if o.isOn = true then (⟨o.beat + 1, .areg (o.x.f 53 50) v⟩ : Pend) ∈ (t.core c).pend
      else ∀ x ∈ (t.core c).pend, ∀ r u, x.eff = .areg r u → x ∈ k.pend
    (s.canIssue c (withSlot rest .c 1 w) = true →
      let o := s.ctx c (withSlot rest .c 1 w) .c
      let a := k.areg (o.x.f 49 46)
      let x := if o.x.f 37 37 = 1 then BitVec.ofNat 64 (o.x.f 31 0) else k.areg (o.x.f 45 42)
      ∃ t, exec (.aop core w rest) s = .next t ∧ areg t o
        (if o.x.f 41 38 = 0 then a + x else if o.x.f 41 38 = 1 then a - x
         else if o.x.f 41 38 = 2 then a <<< (x.toNat % 64) else if o.x.f 41 38 = 3 then a >>> (x.toNat % 64)
         else if o.x.f 41 38 = 4 then a &&& x else if o.x.f 41 38 = 5 then a ||| x else x)) ∧
    (s.canIssue c (withSlot rest .c 4 w) = true →
      ∃ t, exec (.halt core w rest) s = .next t
        ∧ (t.core c).halted = (s.ctx c (withSlot rest .c 4 w) .c).isOn) ∧
    (s.canIssue c (withSlot rest .c 11 w) = true →
      let o := s.ctx c (withSlot rest .c 11 w) .c
      ∃ t, exec (.flags core w rest) s = .next t
        ∧ areg t o (BitVec.ofNat 64 (k.flags.toNat + 256 * k.wf.toNat))
        ∧ (t.core c).flags = (if o.isOn ∧ o.x.f 49 49 = 1 then 0 else k.flags)
        ∧ (t.core c).wf = (if o.isOn ∧ o.x.f 49 49 = 1 then 0 else k.wf)) ∧
    (s.canIssue c (withSlot rest .c 12 w) = true →
      let o := s.ctx c (withSlot rest .c 12 w) .c
      let n := o.x.f 49 46
      ∃ t, exec (.sread core w rest) s = .next t ∧ areg t o (BitVec.ofNat 64
        (if n = 0 then k.step.toNat else if n = 1 then (s.region (c / 64)).beat else if n = 2 then c
         else if n = 3 then s.ownRank else if n = 4 then (k.loops.head?.map Loop.idx).getD 0
         else if n = 5 then k.stallBeats else (s.region (c / 64)).clock - (s.region (c / 64)).clock0))) ∧
    (s.canIssue c (withSlot rest .c 13 w) = true →
      let o := s.ctx c (withSlot rest .c 13 w) .c
      ∃ t, exec (.step core w rest) s = .next t
        ∧ (t.core c).step = (if o.isOn then k.step + 1 else k.step)
        ∧ (o.isOn = true → (t.core c).flags = 0 ∧ (t.core c).wf = 0
            ∧ (∀ q < 4, (Tab.get {} (t.core c).farq q : FarQ).ctr = 0 ∧ (Tab.get {} (t.core c).farq q : FarQ).issued = 0)
            ∧ (t.core c).restartPc = (t.core c).pc ∧ (t.core c).restartLoops = (t.core c).loops)
        ∧ (o.isOn = false → (t.core c).flags = k.flags ∧ (t.core c).wf = k.wf ∧ (t.core c).farq = k.farq
            ∧ (t.core c).restartPc = k.restartPc ∧ (t.core c).restartLoops = k.restartLoops))

/-- R122, R131, R136: the next bundle where no open loop's body ends at this one: NOP and a LOOP with iterations fall
through, the LOOP opening its body; a LOOP without iterations skips it; JUMP goes to its target. That a body which a LOOP without
iterations skips may end with the body it stands in, whose iteration ends then, is the model's reading (DEDUCED, log entry 17). -/
def Obligations.SequencingOperations : Prop :=
  ∀ (core : CoreId) (w : BitVec 58) (rest : BitVec 256) (s : State),
    let c := core.val
    let k := s.core c
    let inBody (last : Nat) : Prop := ∀ l ∈ k.loops, l.start + l.len - 1 ≠ last
    (∀ u : Slot, s.canIssue c (withSlot rest u 0 w) = true → (slotOf (withSlot rest u 0 w) .c).op = 0 → inBody k.pc →
      ∃ t, exec (.nop core u w rest) s = .next t ∧ (t.core c).pc = k.pc + 1 ∧ (t.core c).loops = k.loops) ∧
    (s.canIssue c (withSlot rest .c 2 w) = true →
      let o := s.ctx c (withSlot rest .c 2 w) .c
      let n := o.x.f 53 38
      let len := o.x.f 37 24
      ∃ t, exec (.loop core w rest) s = .next t ∧
        (n ≠ 0 → inBody k.pc → (t.core c).pc = k.pc + 1 ∧ ∃ l, (t.core c).loops = l :: k.loops ∧ l.start = k.pc + 1
          ∧ l.len = len ∧ l.count = n ∧ l.idx = 0
          ∧ l.limit = (if o.x.f 23 20 = 0 then none else some (k.areg (o.x.f 23 20)).toNat) ∧ l.off = !o.isOn) ∧
        (n = 0 → inBody (k.pc + len) → (t.core c).pc = k.pc + 1 + len ∧ (t.core c).loops = k.loops) ∧
        (∀ l tl, n = 0 → k.loops = l :: tl → l.start + l.len - 1 = k.pc + len → l.idx + 1 < l.count →
          (t.core c).pc = l.start ∧ (t.core c).loops = { l with idx := l.idx + 1 } :: tl) ∧
        (∀ l tl, n = 0 → k.loops = l :: tl → l.start + l.len - 1 = k.pc + len → l.count ≤ l.idx + 1 →
          (∀ x ∈ tl.head?, x.start + x.len - 1 ≠ k.pc + len) → (t.core c).pc = k.pc + len + 1 ∧ (t.core c).loops = tl)) ∧
    (s.canIssue c (withSlot rest .c 3 w) = true → inBody k.pc →
      ∃ t, exec (.jump core w rest) s = .next t
        ∧ (t.core c).pc = (slotOf (withSlot rest .c 3 w) .c).f 53 41 ∧ (t.core c).loops = k.loops)

/-- R132, R136: a bundle that ends the body of the innermost open loop begins the body again while iterations are left, at a JUMP's
target where it is a JUMP, and closes the loop after the last, whatever the JUMP; then the body of the next loop ends too where it ends
at this bundle, and goes on at its own first bundle. Every core operation but LOOP, which fails its check in a body's last bundle. -/
def Obligations.LoopBodies : Prop :=
  ∀ (i : Instr) (core : CoreId) (b : BitVec 256) (s : State) (l : Loop) (rest : List Loop),
    asBundle i = some (core, b) → s.canIssue core.val b = true →
    let k := s.core core.val
    k.loops = l :: rest → l.start + l.len - 1 = k.pc →
    (slotOf b .c).op ≠ 2 ∧ ∃ t, exec i s = .next t ∧
      (l.idx + 1 < l.count → (t.core core.val).pc = (if (slotOf b .c).op = 3 then (slotOf b .c).f 53 41 else l.start)
        ∧ (t.core core.val).loops = { l with idx := l.idx + 1 } :: rest) ∧
      (l.count ≤ l.idx + 1 → (∀ x ∈ rest.head?, x.start + x.len - 1 ≠ k.pc) →
        (t.core core.val).pc = k.pc + 1 ∧ (t.core core.val).loops = rest) ∧
      (∀ y tl, l.count ≤ l.idx + 1 → rest = y :: tl → y.start + y.len - 1 = k.pc → y.idx + 1 < y.count →
        (t.core core.val).pc = y.start ∧ (t.core core.val).loops = { y with idx := y.idx + 1 } :: tl) ∧
      (∀ y tl, l.count ≤ l.idx + 1 → rest = y :: tl → y.start + y.len - 1 = k.pc → y.count ≤ y.idx + 1 →
        (∀ x ∈ tl.head?, x.start + x.len - 1 ≠ k.pc) → (t.core core.val).pc = k.pc + 1 ∧ (t.core core.val).loops = tl)

/-- R135, R145, R148: SEND puts a flit at the tail of its send stream, zeros where its predicate is off, to be taken from the
next beat on; RECV takes the head of its landing stream, and its register gets it 2 beats later where the predicate is on. -/
def Obligations.StreamOperations : Prop :=
  ∀ (core : CoreId) (w : BitVec 58) (rest : BitVec 256) (s : State),
    let c := core.val
    let k := s.core c
    (s.canIssue c (withSlot rest .c 5 w) = true →
      let o := s.ctx c (withSlot rest .c 5 w) .c
      ∃ t, exec (.send core w rest) s = .next t ∧ ∀ n < 8, Tab.get [] (t.core c).send n = Tab.get [] k.send n ++
        if n = o.x.f 48 46 then [{ payload := if o.isOn then k.vreg (o.x.f 53 49) else 0, ready := o.beat + 1 }] else []) ∧
    (s.canIssue c (withSlot rest .c 6 w) = true →
      let o := s.ctx c (withSlot rest .c 6 w) .c
      ∃ t f tl, exec (.recv core w rest) s = .next t ∧ Tab.get [] k.land (o.x.f 48 46) = f :: tl
        ∧ (∀ n < 8, Tab.get [] (t.core c).land n = if n = o.x.f 48 46 then tl else Tab.get [] k.land n)
        ∧ (o.isOn = true →
            (⟨o.beat + 2, .vreg (o.x.f 53 49) (BitVec.allOnes 2048) f.payload⟩ : Pend) ∈ (t.core c).pend))

/-- R149 to R151, R135, R155: FLD, FST and FENG take a queue entry under the queue's next tag, one without units or with the
predicate off complete at once; WAIT frees the entries it covers that are complete. -/
def Obligations.FarOperations : Prop :=
  ∀ (core : CoreId) (w : BitVec 58) (rest : BitVec 256) (s : State),
    let c := core.val
    let q (t : State) (n : Nat) : FarQ := Tab.get {} (t.core c).farq n
    let took (b : BitVec 256) (t : State) (kind : FarKind) : Prop :=
      let o := s.ctx c b .c
      let n := o.x.f 53 52
      ∃ r : FarReq, (q t n).entries.map FarReq.unmarked = (q s n).entries.map FarReq.unmarked ++ [r.unmarked]
        ∧ (q t n).entries.getLast? = some r
        ∧ r.kind = kind ∧ r.tag = (q s n).ctr ∧ (q t n).ctr = (q s n).ctr + 1 ∧ (q t n).issued = (q s n).issued + 1
        ∧ r.loc = c / 64 * 2 ^ 30 + ((s.core c).areg (o.x.f 51 48)).toNat % 2 ^ 30 ∧ r.far = (s.core c).areg (o.x.f 47 44)
        ∧ r.len = o.x.f 43 32 ∧ r.done = !(o.isOn && decide (o.x.f 43 32 ≠ 0))
    (s.canIssue c (withSlot rest .c 7 w) = true →
      ∃ t, exec (.fld core w rest) s = .next t ∧ took (withSlot rest .c 7 w) t .fld) ∧
    (s.canIssue c (withSlot rest .c 8 w) = true →
      ∃ t, exec (.fst core w rest) s = .next t ∧ took (withSlot rest .c 8 w) t .fst) ∧
    (s.canIssue c (withSlot rest .c 9 w) = true →
      ∃ t, exec (.feng core w rest) s = .next t ∧ took (withSlot rest .c 9 w) t .feng) ∧
    (s.canIssue c (withSlot rest .c 10 w) = true →
      let o := s.ctx c (withSlot rest .c 10 w) .c
      ∃ t, exec (.wait core w rest) s = .next t ∧ (q t (o.x.f 53 52)).ctr = (q s (o.x.f 53 52)).ctr ∧
        ∀ r, r ∈ (q t (o.x.f 53 52)).entries ↔ r ∈ (q s (o.x.f 53 52)).entries
          ∧ ¬ ((r.tag - BitVec.ofNat 16 (o.x.f 51 36)).toNat < o.x.f 35 29 ∧ r.done = true))

/-- R131, R140, R143: what the issue of any bundle leaves as it was: every register of its core (results are written when they
become valid), every other core but for the marks of R154, every other field of every region, and everything outside the
regions, memory included; a far request that overlaps a channel's transfer, an engine's item or a waiting request of another part marks what they
share (R72, R154, R396, R420).
Accumulators change only by the M slot, streams, queues and flags only by the C slot. -/
def Obligations.IssueFrame : Prop :=
  ∀ (i : Instr) (core : CoreId) (b : BitVec 256) (s : State),
    asBundle i = some (core, b) → s.canIssue core.val b = true →
    let c := core.val
    let op := (slotOf b .c).op
    ∃ t, exec i s = .next t ∧ { t with regions := s.regions, chans := s.chans, palaz := s.palaz, reqLost := s.reqLost } = s
      ∧ (∃ l, t.reqLost = s.reqLost ++ l ∧ ∀ k ∈ l, ∃ y ∈ s.bgDone, y.1 = k)
      ∧ (∀ ch, { t.chan ch with clash := (s.chan ch).clash } = s.chan ch)
      ∧ (∀ k, (t.stack k).unmarked = (s.stack k).unmarked) ∧ (op ∉ [7, 8, 9] → t.chans = s.chans ∧ t.palaz = s.palaz ∧ t.reqLost = s.reqLost)
      ∧ (t.core c).v = (s.core c).v ∧ (t.core c).a = (s.core c).a ∧ (t.core c).p = (s.core c).p
      ∧ (t.core c).tile = (s.core c).tile ∧ (t.core c).imem = (s.core c).imem ∧ (t.core c).windows = (s.core c).windows
      ∧ (t.core c).sendBind = (s.core c).sendBind ∧ (t.core c).landBind = (s.core c).landBind
      ∧ (t.core c).stallBeats = (s.core c).stallBeats ∧ (t.core c).issued = true
      ∧ ((slotOf b .m).op = 0 → (t.core c).acc = (s.core c).acc)
      ∧ (op ≠ 4 → (t.core c).halted = false)
      ∧ (op ≠ 11 → op ≠ 13 → (t.core c).flags = (s.core c).flags ∧ (t.core c).wf = (s.core c).wf)
      ∧ (op ≠ 13 → (t.core c).step = (s.core c).step ∧ (t.core c).restartPc = (s.core c).restartPc
          ∧ (t.core c).restartLoops = (s.core c).restartLoops)
      ∧ (op ≠ 5 → (t.core c).send = (s.core c).send)
      ∧ (op ≠ 6 → (t.core c).land = (s.core c).land)
      ∧ (op ∉ [7, 8, 9, 10, 13] → (t.core c).farq = (s.core c).farq)
      ∧ (∀ c' < 1024, c' ≠ c → (t.core c').unmarked = (s.core c').unmarked)
      ∧ ∀ r < 16, { t.region r with cores := (s.region r).cores, bank := (s.region r).bank } = s.region r
          ∧ (r ≠ c / 64 → (t.region r).bank = (s.region r).bank)

/-- R143, R161, R163, R164: a bundle that fails a check is not issued: its core keeps every register and its program counter,
its region ends issue with this beat, and in a running job the fault that is the step's first is the cause (in a replayed step a
second fault of the core may name the spare instead, R547). -/
def Obligations.FailedCheck : Prop :=
  ∀ (i : Instr) (core : CoreId) (b : BitVec 256) (s : State) (code slot : Nat),
    asBundle i = some (core, b) → s.failsCheck core.val b code slot → s.reg R.jobState = 2 → s.qrec = none →
    s.firstFault = false → s.reg R.runState ≠ 2 →
    let c := core.val
    ∃ t, exec i s = .next t
      ∧ t.reg R.lastFaultCause = code ∧ (s.replaying = none → t.reg R.lastCoreFault = code) ∧ t.reg R.lastFaultCore = c
      ∧ (t.region (c / 64)).stopping = true ∧ t.firstFault = true ∧ t.qrec.isSome = true
      ∧ (t.core c).pc = (s.core c).pc ∧ (t.core c).v = (s.core c).v ∧ (t.core c).a = (s.core c).a
      ∧ (t.core c).p = (s.core c).p ∧ (t.core c).acc = (s.core c).acc ∧ (t.core c).tile = (s.core c).tile
      ∧ (t.core c).pend = (s.core c).pend ∧ (t.region (c / 64)).bank = (s.region (c / 64)).bank

/-! ## Banks, far requests and bridges (02, 04) -/

/-- R65, R66, R72, R156, R379: a store alone in its bank beat, with no background access on its bytes, writes its enabled bytes with
their check bits and no other byte of any memory; in a held region, or one whose clock stands, no access is performed. -/
def Obligations.StoreBeat : Prop :=
  ∀ (r : RegionId) (s : State) (a : BankAcc) (later : List BankAcc),
    let x := s.region r.val
    (s.bankBeats r.val = false → exec (.bankBeat r) s = .next s) ∧
    (s.bankBeats r.val = true → x.bank = a :: later → a.kind = .st → a.due ≤ x.beat + x.drain → (∀ b ∈ later, x.beat + x.drain < b.due) →
    a.size ∈ [64, 128] → a.off % 64 = 0 → s.memoryOk = true →
    (∀ i ∈ a.words, s.bgTouches (a.off + 64 * i) (a.off + 64 * i + 64) = false
      ∧ s.anyClash [(0, a.off + 64 * i, a.off + 64 * i + 64, true)] = false) →
    ∃ t, exec (.bankBeat r) s = .next t
      ∧ (∀ addr, t.sram.read addr = if a.off ≤ addr ∧ addr < a.off + a.size ∧ a.mask.getLsbD (addr - a.off) = true
          then vbyte a.data (addr - a.off) else s.sram.read addr)
      ∧ (∀ addr, t.sramChk.read addr = if a.off ≤ addr ∧ addr < a.off + a.size ∧ a.mask.getLsbD (addr - a.off) = true
          then sramCheck (vbyte a.data (addr - a.off)) else s.sramChk.read addr)
      ∧ t.dram = s.dram ∧ t.dramChk = s.dramChk ∧ t.regs = s.regs
      ∧ (t.region r.val).bank = later ∧ t.memoryOk = true)

/-- R66, R126, R144, R380: a load alone in its bank beat, with no background write on its bytes, gives its register the bytes
that the SRAM decode answers, valid at the load's own beat; no memory changes. -/
def Obligations.LoadBeat : Prop :=
  ∀ (r : RegionId) (s : State) (a : BankAcc) (later : List BankAcc),
    let x := s.region r.val
    let byte (i : Nat) := sramDecode (s.sram.read (a.off + i)) (s.sramChk.read (a.off + i))
    let d : List Byte := (List.range a.size).map fun i => (byte i).1
    s.bankBeats r.val = true → x.bank = a :: later → a.kind ≠ .st → a.due ≤ x.beat + x.drain → (∀ b ∈ later, x.beat + x.drain < b.due) →
    a.core / 64 = r.val → a.size ∈ [64, 128, 256] → (∀ i < a.size, (byte i).2 = .clean) →
    (∀ i ∈ a.words, s.bgTouches (a.off + 64 * i) (a.off + 64 * i + 64) = false
      ∧ s.anyClash [(0, a.off + 64 * i, a.off + 64 * i + 64, false)] = false) →
    ∃ t e, exec (.bankBeat r) s = .next t ∧ (t.core a.core).pend = (s.core a.core).pend ++ [⟨a.valid, e⟩]
      ∧ (match a.kind with
          | .ld v => e = .vreg v (BitVec.allOnes 2048) (ofBytes 2048 d)
          | .ldw n part => e = .tileElems n part (ofBytes 2048 d)
          | .ldws n => e = .tileScales n (ofBytes 1024 d)
          | .st => False)
      ∧ t.sram = s.sram ∧ t.dram = s.dram ∧ t.regs = s.regs

/-- R68, R162: of two stores that use one bank in one beat the one of the higher physical core loses that word: it is not
written, and BANK_CONFLICT names that core; the other's word is written. -/
def Obligations.BankConflict : Prop :=
  ∀ (r : RegionId) (s : State) (a b : BankAcc),
    let x := s.region r.val
    s.bankBeats r.val = true → x.bank = [a, b] → a.kind = .st → b.kind = .st → a.due ≤ x.beat + x.drain → b.due ≤ x.beat + x.drain →
    a.size = 64 → b.size = 64 → a.mask = BitVec.allOnes 256 → b.mask = BitVec.allOnes 256 →
    a.off % 64 = 0 → b.off % 64 = 0 → a.off ≠ b.off → bankOf a.off = bankOf b.off → a.phys < b.phys →
    s.memoryOk = true →
    (∀ q ∈ [a, b], s.bgTouches q.off (q.off + 64) = false ∧ s.anyClash [(0, q.off, q.off + 64, true)] = false) →
    s.reg R.jobState = 2 → s.qrec = none → s.firstFault = false → s.reg R.runState ≠ 2 →
    ∃ t, exec (.bankBeat r) s = .next t ∧ (∀ i < 64, t.sram.read (a.off + i) = vbyte a.data i)
      ∧ (∀ i < 64, t.sram.read (b.off + i) = s.sram.read (b.off + i))
      ∧ t.reg R.lastFaultCause = 0x1002 ∧ (s.replaying = none → t.reg R.lastCoreFault = 0x1002) ∧ t.reg R.lastFaultCore = b.core
      ∧ (t.region r.val).stopping = true

/-- R69, R70, R433: the oldest of a tier's queued background writes whose bank no core has in this beat is performed, by its enabled
bytes, and one of its tier that waited for room takes its place; where core accesses have the bank of every queued write of the tier, and
in a short stop, nothing happens. That a write with a free bank passes an older one without is the model's choice (log entry 20). -/
def Obligations.BackgroundWrite : Prop :=
  ∀ (r : RegionId) (tier : Fin 4) (s : State) (x : BgAcc),
    let y := s.region r.val
    let moved := y.bgWaiting.find? fun z => z.off / 64 % 4 = tier.val
    (y.bg.find? (fun z => z.off / 64 % 4 = tier.val ∧ s.bankBusy r.val (bankOf z.off) = false) = some x → y.shortStopTo = none →
      s.memoryOk = true → s.settles →
      ∃ t, exec (.backgroundAccess r tier) s = .next t ∧ (t.region r.val).bg = y.bg.erase x ++ moved.toList
        ∧ (t.region r.val).bgWaiting = (match moved with | some z => y.bgWaiting.erase z | none => y.bgWaiting)
        ∧ (∀ addr, t.sram.read addr = if x.off ≤ addr ∧ addr < x.off + 64 ∧ x.mask.getLsbD (addr - x.off) = true
            then x.data.extractLsb' (8 * (addr - x.off)) 8 else s.sram.read addr)
        ∧ t.dram = s.dram ∧ t.regs = s.regs ∧ t.memoryOk = true) ∧
    (s.settles → y.shortStopTo ≠ none ∨ (∀ z ∈ y.bg, z.off / 64 % 4 = tier.val → s.bankBusy r.val (bankOf z.off) = true) →
      exec (.backgroundAccess r tier) s = .next s)

/-- R70, R149, R152, R153, R312: the scheduler takes the region's next request in rotation. While a word of SRAM that it reads or
writes at once has no free bank, nothing of it is sent; then one to the part's own memory is sent whole: an FENG joins its engine's queue
where that has room, and waits otherwise; one to a part that its route reaches sends its next message of at most 64 units under a new
identifier and holds a reply slot for it, where one is free. The sequence and the grain of the rotation, and that a request waits for each
of its words in its turn, are the model's choices (log entries 67 and 20). -/
def Obligations.FarDispatch : Prop :=
  ∀ (r : RegionId) (s : State) (i : Nat) (f : FarReq),
    ((List.range 256).map fun i => ((s.region r.val).farTurn + i) % 256).findSome? (fun i =>
      ((Tab.get {} (s.core (64 * r.val + i / 4)).farq (i % 4) : FarQ).next).map fun f => (i, f)) = some (i, f) →
    let c := 64 * r.val + i / 4
    let key := [2, c, i % 4, f.tag.toNat, f.sent]
    (f.words ≠ [] → (∀ x ∈ s.bgDone, x.1 ≠ key) → (∃ w ∈ f.words, s.bgReady w = false) →
      ∃ t, exec (.farDispatch r) s = .next t ∧ (t.core c).farq = (s.core c).farq ∧ t.slots = s.slots ∧ t.palaz = s.palaz
        ∧ t.sram = s.sram ∧ t.dram = s.dram ∧ t.regs = s.regs
        ∧ ∃ x ∈ t.bgDone, x.1 = key ∧ ∀ w, w ∈ x.2 ↔ w ∈ f.words ∧ s.bgReady w = true) ∧
    (((Tab.get {} (s.core c).farq (i % 4) : FarQ).entries.map FarReq.tag).Nodup → f.chip < 4096 → (∀ w ∈ f.words, s.bgReady w = true) →
    ∃ t, exec (.farDispatch r) s = .next t
      ∧ (f.own = true → f.kind ≠ .feng → ∃ g, t.farReq c (i % 4) f.tag = some g ∧ g.sent = f.len)
      ∧ (f.own = true → f.kind = .feng → bits f.far.toNat 51 48 = 1 → f.undef = false →
          (s.readSram f.loc 64).2.1 = none →
          let k := bits f.far.toNat 47 0 / stackSize
          let it : Item := { bytes := ofBytes 512 (s.readSram f.loc 64).1, src := .core c (i % 4) f.tag }
          let e := homeEngine it.bytes
          let queue := Tab.get [] (s.stack k).queues e
          (queue.length < 16 → (Tab.get [] (t.stack k).queues e).map Item.unmarked = queue.map Item.unmarked ++ [it]
            ∧ ∃ g, t.farReq c (i % 4) f.tag = some g ∧ g.sent = f.len ∧ g.outstanding = 1) ∧
          (16 ≤ queue.length → t.palaz = s.palaz ∧ t.farReq c (i % 4) f.tag = some f))
      ∧ (f.own = false → s.slotsUsed < 1024 → s.reaches 1 f.chip →
          (f.kind ≠ .fld → (s.readSram (f.loc + 64 * f.sent) (64 * min 64 (f.len - f.sent))).2.1 = none) →
          (∃ g, t.farReq c (i % 4) f.tag = some g ∧ g.sent = f.sent + min 64 (f.len - f.sent)
            ∧ g.outstanding = f.outstanding + 1) ∧
          ∃ x, t.slots = s.slots.filter s.slotLive ++ [x] ∧ x.chip = f.chip ∧ x.core = c ∧ x.q = i % 4 ∧ x.tag = f.tag
            ∧ x.kind = (match f.kind with | .fld => 0 | .fst => 1 | .feng => 2)
            ∧ x.units = min 64 (f.len - f.sent) ∧ x.loc = f.loc + 64 * f.sent ∧ t.nextIdent = s.nextIdent + 1)
      ∧ (f.own = false → 1024 ≤ s.slotsUsed → t.slots = s.slots))

/-- R152: a request whose messages are all sent and answered, and whose data is all written, completes; no other request of
any core changes. -/
def Obligations.FarRequestCompletes : Prop :=
  ∀ (core : CoreId) (q : Fin 4) (tag : BitVec 16) (s : State) (r : FarReq),
    s.farReq core.val q.val tag = some r → r.done = false → r.stuck = false → r.len ≤ r.sent → r.outstanding = 0 →
    (r.kind = .fld → s.bgTouches r.loc (r.loc + 64 * r.len) = false) →
    ∃ t g, exec (.farRequestComplete core q tag) s = .next t ∧ t.farReq core.val q.val tag = some g
      ∧ g = { r with done := true } ∧ (∀ c < 1024, c ≠ core.val → t.core c = s.core c)

/-- R156, R157: a stall ends once every request its WAIT covers is complete. Where nothing else holds the region, the stalled
core issues its bundle in that beat; where something does, the bundle waits for that. -/
def Obligations.HoldEnds : Prop :=
  ∀ (r : RegionId) (s : State) (x : Stall),
    (s.region r.val).stalls = [x] → x.core / 64 = r.val → (∀ q < 16, q ≠ r.val → ∀ y ∈ (s.region q).stalls, y.ended = false) →
    (∀ q ∈ (Tab.get {} (s.core x.core).farq x.q : FarQ).entries, q.done = true ∨ x.count ≤ (q.tag - x.tag).toNat) →
    let free := s.modRegion r.val fun y => { y with stalls := [] }
    (free.canIssue x.core x.bundle = true →
      ∃ t, exec (.holdEnd r) s = .next t ∧ (t.region r.val).stalls = [] ∧ (t.core x.core).issued = true
        ∧ { t with regions := s.regions, chans := s.chans, palaz := s.palaz, reqLost := s.reqLost } = s) ∧
    (free.issuing r.val = false →
      exec (.holdEnd r) s = .next (s.modRegion r.val fun y => { y with stalls := [{ x with ended := true }] }))

/-- R159, R161: a stall longer than wait_timeout_beats stops its region and raises WAIT_TIMEOUT once, the step's cause in a running
job where it is the first fault. -/
def Obligations.WaitTimesOut : Prop :=
  ∀ (r : RegionId) (s : State) (x : Stall),
    (s.region r.val).stalls = [x] → x.ended = false → x.core / 64 = r.val → s.reg R.waitTimeoutBeats < x.beats →
    (x.timedOut = false → s.reg R.jobState = 2 → s.qrec = none → s.firstFault = false → s.reg R.runState ≠ 2 →
      ∃ t, exec (.waitTimeout r) s = .next t ∧ (t.region r.val).stopped = true ∧ t.reg R.lastFaultCause = 0x1008
        ∧ t.reg R.lastFaultCore = x.core ∧ (t.region r.val).stalls = [{ x with timedOut := true }]) ∧
    (x.timedOut = true → exec (.waitTimeout r) s = .next s)

/-- R73, R76, R145: the head of a send stream bound to a neighbour region enters the bridge of 16 entries, where the bridge has taken no
flit in this beat, and may be read from the sender's beat plus 6 on in native mode and at once in legacy mode; it lands then while
its landing stream has room, and waits in the bridge otherwise. -/
def Obligations.NeighbourBridge : Prop :=
  ∀ (core : CoreId) (stream : Fin 8) (s : State) (f : SFlit) (tl : List SFlit),
    let c := core.val
    let r := c / 64
    let bind := (Tab.get 0 (s.core c).sendBind stream.val).toNat
    let q := neighbour r (bits bind 2 0)
    let to' := 64 * q + bits bind 12 3 % 64
    let queue := Tab.get [] (s.region q).bridgeIn r
    let l := Tab.get [] (s.core to').land (bits bind 15 13)
    let ready := if s.reg R.clockMode = 0 then (s.region r).beat + 6 else 0
    let b : BFlit := { core := to', stream := bits bind 15 13, payload := f.payload, ready := ready }
    2 ≤ bits bind 2 0 → bits bind 2 0 ≤ 5 → q ∈ neighboursOf r → bits bind 12 3 = to' →
    Tab.get [] (s.core c).send stream.val = f :: tl → f.ready ≤ (s.region r).beat →
    (q ∉ (s.region r).sent → queue.length < 16 →
      (∀ x ∈ queue.head?, (s.region q).beat < x.ready ∨ 8 ≤ (Tab.get [] (s.core x.core).land x.stream).length) →
      ∃ t, exec (.neighbourBridgeTransfer core stream) s = .next t ∧ Tab.get [] (t.core c).send stream.val = tl
        ∧ (t.region r).sent = q :: (s.region r).sent
        ∧ (if queue = [] ∧ ready ≤ (s.region q).beat ∧ l.length < 8 then
            Tab.get [] (t.core to').land (bits bind 15 13) = l ++ [{ payload := f.payload, ready := ready }]
              ∧ Tab.get [] (t.region q).bridgeIn r = []
          else Tab.get [] (t.core to').land (bits bind 15 13) = l ∧ Tab.get [] (t.region q).bridgeIn r = queue ++ [b])
        ∧ t.regs = s.regs ∧ t.sram = s.sram ∧ t.dram = s.dram) ∧
    (q ∈ (s.region r).sent ∨ 16 ≤ queue.length →
      ∃ t, exec (.neighbourBridgeTransfer core stream) s = .next t
        ∧ Tab.get [] (t.core c).send stream.val = f :: tl ∧ t.regs = s.regs)

/-- R75, R146, R177: the head of a send stream bound to the spine bridge enters it while the bridge holds fewer than 64 flits and
has taken fewer than 4 in the slot; one that its send deadline has already missed leaves its stream and is dropped. -/
def Obligations.SpineBridge : Prop :=
  ∀ (core : CoreId) (stream : Fin 8) (s : State) (f : SFlit) (tl : List SFlit),
    let c := core.val
    let x := s.region (c / 64)
    let late := Tab.get 0 s.lateDebt (8 * c + stream.val)
    bits (Tab.get 0 (s.core c).sendBind stream.val).toNat 2 0 = 1 →
    x.bridgeOut.length < 64 → x.spineCtr < 4 → Tab.get [] (s.core c).send stream.val = f :: tl → f.ready ≤ x.beat →
    ∃ t, exec (.spineBridgeEntry core stream) s = .next t ∧ Tab.get [] (t.core c).send stream.val = tl
      ∧ (t.region (c / 64)).spineCtr = x.spineCtr + 1
      ∧ (if late = 0 then ∃ b, (t.region (c / 64)).bridgeOut = x.bridgeOut ++ [b] ∧ b.core = c ∧ b.stream = stream.val
            ∧ b.payload = f.payload
         else (t.region (c / 64)).bridgeOut = x.bridgeOut ∧ Tab.get 0 t.lateDebt (8 * c + stream.val) = late - 1)
      ∧ t.regs = s.regs ∧ t.sram = s.sram ∧ t.dram = s.dram

/-- Log entry 1 (DESIGN CHOICE): with no command waiting, no pipeline, job or scrub running, a step is one clock beat: the clock
beat count of every region whose clock runs rises by one, and nothing else changes. -/
def Obligations.IdleBeat : Prop :=
  ∀ s : State, s.pending = [] → s.scrub = none → s.inJob = false →
    (∀ r < 16, (s.region r).running = false ∧ (s.region r).busy = false ∧ (s.region r).frameHeld = false
      ∧ (s.region r).stalls = [] ∧ (s.region r).bg = []) →
    ∃ t, step s = .next t ∧ { t with regions := s.regions } = s
      ∧ ∀ r < 16, t.region r = { s.region r with
          clock := (s.region r).clock + if (s.region r).clocked then 1 else 0 }

/-! ## Supply, governor, resets and the test port (01, 14, 16) -/

/-- R29, R31, R34, R509: with both blades in range, input power arriving is a power-on reset into Banked: class K entries keep
their values, every other entry but the live measurements takes its default, and no log or image is left. Below 30 V the always-on domain
stops and the part is Cold; the input switch opens when current would flow back. That REFCLK is there with the input power, and that the
memories and the regions list nothing then, where the spec leaves their contents undefined, is the model's choice (log entries 2, 3 and
47). -/
def Obligations.PowerComesAndGoes : Prop :=
  ∀ s : State,
    (∀ a b, s.power = .cold → 40000 ≤ a → 40000 ≤ b → (s.shutdownTo = none ∨ a ≤ 59500 ∧ b ≤ 59500) →
      ∃ t, exec (.inputPowerArrival a b) s = .next t ∧ t.power = .banked ∧ t.boot = .none ∧ t.inputSwitch = true
        ∧ t.refclk = true ∧ t.reg R.bladeAMv = a ∧ t.reg R.bladeBMv = b ∧ t.reg R.bladePresent = 3
        ∧ (∀ k, regPer k = .k → t.reg k = s.reg k)
        ∧ (∀ k, regPer k ≠ .k → liveReg k = false → t.reg k = t.dflt k)
        ∧ t.sram = [] ∧ t.dram = [] ∧ t.regions = [] ∧ t.log = [] ∧ t.image = none ∧ t.pending = s.pending) ∧
    (∀ a b, a < 30000 → b < 30000 → s.power ≠ .cold →
      ∃ t, exec (.alwaysOnDomainStop a b) s = .next t ∧ t.power = .cold ∧ t.sram = [] ∧ t.dram = [] ∧ t.regions = []
        ∧ (∀ k, regPer k = .k → t.reg k = s.reg k) ∧ t.bankA = s.bankA ∧ t.bankB = s.bankB) ∧
    exec .inputSwitchReverseOpen s = .next { s with inputSwitch := false }

/-- R19, R23, R29, R30, R40, R44: each input out of its range makes a forced shutdown: to Banked on undervoltage, to Cold with the
input switch open on overvoltage and overcurrent, to Kindled on a lost blade, a lost REFCLK and a sensor at its shutdown
temperature. ALERT_N goes low, the cause is kept, a job under way ends with it; in Kindled a REFCLK loss and an overtemperature make no
fall. That undervoltage in Banked stops a boot under way and logs its cause is the model's choice (log entry 64), and so is that memory
which has lost its power lists nothing, where the spec leaves its contents undefined (log entry 2). -/
def Obligations.ForcedShutdowns : Prop :=
  ∀ s : State,
    let dark (r : Host.Outcome State Fault Refusal) (code : Nat) : Prop :=
      ∃ t, r = .next t ∧ t.power = .kindled ∧ t.litList = [] ∧ t.stacksOn = [] ∧ t.groupsOn = 0 ∧ t.alertLow = true
        ∧ t.reg R.lastShutdownCause = code
        ∧ (s.reg R.jobState = 1 ∨ s.reg R.jobState = 2 ∨ s.reg R.jobState = 3 →
            t.reg R.jobState = 4 ∧ t.endPending = some code)
    let high : Prop := s.power = .lit ∨ s.power = .full
    (∀ a b, a < 40000 → b < 40000 → s.power ≠ .cold →
      ∃ t, exec (.inputUndervoltage a b) s = .next t ∧ t.power = .banked ∧ t.boot = .none ∧ t.alertLow = true
        ∧ t.reg R.lastShutdownCause = 0x5001 ∧ t.sram = [] ∧ t.dram = [] ∧ t.regions = [] ∧ t.palaz = [] ∧ t.reg R.jobState = 0
        ∧ (s.reg R.jobState = 1 ∨ s.reg R.jobState = 2 ∨ s.reg R.jobState = 3 →
            t.reg R.endCause = 0x5001 ∧ t.endPending = none ∧ t.logged 0x7045 0xFF (jobDetail 0x5001 0xFFFF 0xFFFFFFFF))) ∧
    (∀ a b, (60500 < a ∨ 60500 < b) → s.power ≠ .cold →
      ∃ t, exec (.inputOvervoltage a b) s = .next t ∧ t.power = .cold ∧ t.inputSwitch = false
        ∧ t.shutdownTo = some 0x5002 ∧ t.sram = [] ∧ t.dram = [] ∧ t.reg R.jobState = 0) ∧
    (∀ ma, 70000 < ma → s.power ≠ .cold →
      ∃ t, exec (.inputOvercurrent ma) s = .next t ∧ t.power = .cold ∧ t.inputSwitch = false
        ∧ t.shutdownTo = some 0x5003 ∧ t.sram = [] ∧ t.dram = [] ∧ t.reg R.jobState = 0) ∧
    (∀ (blade : Fin 2) (mv : Nat), mv < 37000 → high →
      40000 ≤ (if blade = 0 then s.bladeB else s.bladeA) → dark (exec (.bladeLoss blade mv) s) 0x5004) ∧
    (high → dark (exec .refclkLoss s) 0x5005) ∧
    (s.power = .kindled → ∃ t, exec .refclkLoss s = .next t ∧ t.power = .kindled ∧ t.refclk = false ∧ t.alertLow = true
      ∧ t.reg R.lastShutdownCause = 0x5005 ∧ t.reg R.exemptFalls = s.reg R.exemptFalls) ∧
    (∀ (x : Sensor) (c : Int),
      (match x with | .region _ => 115 | .stack _ => 105 | .optics _ => 85 | .mgmt => 115) ≤ c →
      (high → dark (exec (.overtempShutdown x c) s) 0x5007) ∧
      (s.power = .kindled → ∃ t, exec (.overtempShutdown x c) s = .next t ∧ t.power = .kindled ∧ t.alertLow = true
        ∧ t.reg R.lastShutdownCause = 0x5007 ∧ t.reg R.exemptFalls = s.reg R.exemptFalls))

/-- R36, R38, R40, R521, R578: a governor sample with a region lit and no shortfall moves the hold level by at most the slew limit,
towards the job's level in a job, and ballast makes up the load to the hold level as far as the lit regions reach. In a short stop it does
not rise to fill the dip: that it then stays at most where it was is the model's reading (M6, log entry 67). -/
def Obligations.GovernorHolds : Prop :=
  ∀ (load : Nat) (s : State), s.power ≠ .cold → s.litList ≠ [] → s.reg R.ballastEnable = 1 → s.settles →
    let short := ∃ r ∈ s.litList, (s.region r).shortStopTo ≠ none
    (¬ short → s.nextH load ≤ load + s.ballastCap) →
    ∃ t, exec (.governorSample load) s = .next t ∧ t.load = load ∧ t.us = s.us + 1
      ∧ t.h ≤ s.h + s.reg R.slewLimitWPerMs ∧ s.h ≤ t.h + s.reg R.slewLimitWPerMs
      ∧ (¬ short → t.ballast = t.h - load ∧ t.h ≤ load + 150000 * s.litList.length)
      ∧ (short → t.ballast ≤ s.ballast ∧ t.reg R.exemptFalls = s.reg R.exemptFalls)
      ∧ (∀ l, s.jobLevel = some l → (s.h ≤ l → s.h ≤ t.h ∧ t.h ≤ l) ∧ (l ≤ s.h → t.h ≤ s.h ∧ l ≤ t.h))

/-- R30, R37, R57, R447, R450, R451, R578: the unit that waits first is added when no other was added in the window and the hold level
is a step above the load, or has reached the level of a ramp: a region is lit and in reset, a stack active, a port group on, none of
them without both blades, REFCLK and a grade; a stack that an access wakes leaves self-refresh and stays inactive. -/
def Obligations.UnitAdmitted : Prop :=
  ∀ (u : PowerUnit) (rest : List PowerUnit) (s : State), s.admitting = u :: rest → s.awake = true → s.windowUsed = 0 → s.settles →
    (s.litList = [] ∨ s.load + (match u with | .region _ => 25000 | .stack _ | .access _ => 15000 | .group _ => 20000) ≤ s.h
      ∨ (∃ l, s.jobLevel = some l ∧ l ≤ s.h) ∧ (s.reg R.jobState = 1 ∨ s.reg R.runState = 1)) →
    (s.canLight = true ∨ u.isAccess = true) →
    ∃ t, exec .unitAdmission s = .next t ∧ (t.windowUsed = 1 ↔ s.litList = [])
      ∧ (match u with
        | .region r => (t.region r).lit = true ∧ (t.region r).inReset = true ∧ t.admitting = rest
            ∧ ∀ q, q ≠ r → t.region q = s.region q
        | .stack k => (t.stack k).awake = true ∧ t.admitting = rest ∧ ∀ q, q ≠ k → t.stack q = s.stack q
        | .group g => t.groupsOn = setBit s.groupsOn g true
        | .access k => (t.stack k).wakePending = true ∧ (t.stack k).awake = (s.stack k).awake ∧ t.admitting = rest
            ∧ ∀ q, q ≠ k → t.stack q = s.stack q)
      ∧ t.h = s.h ∧ t.sram = s.sram ∧ t.dram = s.dram

/-- R42, R534, R541, R543, R547: in a quiet running job a load beyond the envelope quenches: the record names the step of frame
n − 2, Q three frames after the one its QUENCH first leaves in, which is the next frame where this one has no slot left, and P
replay_delay_frames later; no step is repeated beyond the limit. -/
def Obligations.EnvelopeQuenches : Prop :=
  ∀ (load : Nat) (s : State), s.quiet → s.h + max 25000 (s.h / 50) < load → s.replaying = none → 0 < s.reg R.replayLimit →
    s.jobFrame0 + 2 ≤ s.frame → 2 < s.stepHist.length → (s.slot < 4080 ∨ s.slot = 4096 ∧ s.mgmtPorts none ≠ []) →
    let n := if s.slot < 4080 then s.frame else s.frame + 1
    ∃ t q, exec (.envelopeExceeded load) s = .next t ∧ t.qrec = some q ∧ some q.s = s.stepHist[2]? ∧ q.a = 0
      ∧ q.q = n + 3 ∧ q.p = n + 3 + s.reg R.replayDelayFrames ∧ q.cause = 0x5006 ∧ q.isEnd = false
      ∧ t.reg R.lastFaultCause = 0x5006 ∧ t.reg R.quenchFrame = n + 3 ∧ t.reg R.jobState = 2
      ∧ t.load = load ∧ t.sram = s.sram ∧ t.dram = s.dram ∧ t.regions = s.regions

/-- R47: a sensor of R44 at its warning point logs its event once with its unit and temperature, and again only after it has been
5 °C below; ALERT_N and the job stay as they are. -/
def Obligations.TemperatureWarnings : Prop :=
  ∀ (x : Sensor) (c : Int) (s : State), s.kindled = true →
    let row : Int × Nat × Nat := match x with
      | .region r => (100, 0x5009, r.val) | .stack k => (90, 0x500A, k.val) | .optics e => (70, 0x500B, e.val)
      | .mgmt => (100, 0x500C, 0xFF)
    ∃ t, exec (.tempWarn x c) s = .next t ∧ t.alertLow = s.alertLow
      ∧ (row.1 ≤ c → x ∉ s.warned → x ∈ t.warned ∧ t.logged row.2.1 row.2.2 (twos 32 c))
      ∧ (row.1 ≤ c → x ∈ s.warned → t.log = s.log ∧ t.warned = s.warned)
      ∧ (c ≤ row.1 - 5 → t.log = s.log ∧ x ∉ t.warned ∧ ∀ y, y ≠ x → (y ∈ t.warned ↔ y ∈ s.warned))
      ∧ (row.1 - 5 < c → c < row.1 → t.log = s.log ∧ t.warned = s.warned)
      ∧ t.qrec = s.qrec ∧ t.reg R.jobState = s.reg R.jobState

/-- R20, R21, R468: in Banked with REFCLK and no reset a wake starts the boot and changes nothing else; a low shorter than its
time, a shorter pattern, and a wake out of Banked or with RESET_N low change nothing. -/
def Obligations.WakeAndRelease : Prop :=
  ∀ s : State,
    (s.power = .banked → s.boot = .none → s.refclk = true → s.resetLow = false →
      (∀ ns, 10000 ≤ ns → exec (.wake ns) s = .next { s with boot := .running s.bootCause }) ∧
      ∀ port n, 8 ≤ n → exec (.wakePattern port n) s = .next { s with boot := .running s.bootCause }) ∧
    (s.power ≠ .banked ∨ s.resetLow = true → (∀ ns, exec (.wake ns) s = .next s) ∧ ∀ port n, exec (.wakePattern port n) s = .next s) ∧
    (∀ ns, ns < 10000 → exec (.wake ns) s = .next s) ∧ (∀ port n, n < 8 → exec (.wakePattern port n) s = .next s) ∧
    (∀ c, s.boot = .held c →
      exec .resetRelease s = .next (if s.resetInBanked then { s with resetLow := false, boot := .none, bootCause := c }
        else { s with resetLow := false, boot := .running c }))

/-- R21, R511, R514, R516, R517: a low on RESET_N of 1 µs or more, a watchdog expiry and a write of cold_reset are cold resets: the class K
entries and the memories stay, but for the bytes a running DMA descriptor was to write (R418) and the image area; the V entries that show no
live reading take their defaults, the cores are cleared, an open transaction is dropped; the counter rises, test access is locked, every
port is off and ALERT_N is released; the boot that follows is held, or runs, for the cause. Which V entries show live readings is the
model's reading (DEDUCED, log entry 64). A shorter low is ignored: for 800 to 999 ns that is the model's choice (log entry 47), and so is
that the reset which a write of cold_reset asks for takes effect with the write (log entry 62). -/
def Obligations.ColdResets : Prop :=
  ∀ s : State,
    let cold (t : State) (b : Boot) : Prop :=
      t.boot = b ∧ (∀ k, regPer k = .k → t.reg k = s.reg k) ∧ t.reg R.coldResets = (s.reg R.coldResets + 1) % 2 ^ 32
        ∧ t.reg R.testAccess = 0 ∧ t.alertLow = false ∧ t.image = none
        ∧ (∀ a, s.spared 0 a → t.sram.read a = s.sram.read a ∧ t.sramChk.read a = s.sramChk.read a)
        ∧ (∀ a < 0xD7D0000000, s.spared 1 a → t.dram.read a = s.dram.read a) ∧ (∀ p < 32, t.reg (R.linkState p) = 0)
        ∧ t.power = s.power ∧ t.bankA = s.bankA ∧ t.bankB = s.bankB ∧ (∀ c < 1024, t.core c = {})
        ∧ (∀ k, regPer k = .v → liveReg k = false → k ≠ R.jobState → (∀ c < 64, k ≠ R.dmaStatus c) → t.reg k = s.dflt k)
        ∧ t.reg R.jobState = (if s.reg R.jobState = 0 then 0 else 4)
        ∧ (s.reg R.txnOwner ≠ 2 → t.staged = [] ∧ t.commitDue = false)
    (∀ ns, 1000 ≤ ns → s.power ≠ .cold →
      ∃ t, exec (.coldReset ns) s = .next t ∧ t.resetLow = true ∧ cold t (.held 1)) ∧
    (∀ ns, ns < 1000 → exec (.coldReset ns) s = .next s) ∧
    (s.awake = true → ∃ t, exec .watchdogExpiry s = .next t ∧ cold t (.running 3)) ∧
    (∀ src data, s.takes src (regKey 0x2500 1) data = true →
      ∃ t, exec (.coldResetWrite src data) s = .next t ∧ t.answer = 0 ∧ cold t (.running 2))

/-- R509, R567, R568, R570: at the end of the boot time the part is Kindled on the first bank that verifies, boot_bank first, and
its measurement log begins with the boot ROM and the firmware; with no bank it stays stopped, and out of Banked without REFCLK it
stays in Banked (R19). That the digest is taken over the whole record and that the power state stays where no bank verifies is the model's
choice (log entry 60). -/
def Obligations.BootCompletes : Prop :=
  ∀ (cause ms : Nat) (s : State), s.boot = .running cause →
    (s.power = .banked → s.refclk = false → exec (.bootComplete ms) s = .next { s with boot := .none, bootCause := cause }) ∧
    ((s.power = .banked → s.refclk = true) → ∃ t, exec (.bootComplete ms) s = .next t ∧
      match s.rebuildRollback.chooseBank.1 with
      | some b => t.power = .kindled ∧ t.boot = .none ∧ t.reg R.runningBank = b ∧ t.reg R.bootTimeMs = ms % 2 ^ 32
          ∧ t.reg R.firmwareVersion = field (s.bank b) 8 4 ∧ (cause ≠ 255 → t.reg R.resetCause = cause)
          ∧ ∃ l, t.measLog = (toLE 2 0 ++ toLE 2 1 ++ toLE 8 0 ++ zeros 4 ++ Config.romDigest.toList)
              :: (toLE 2 1 ++ toLE 2 2 ++ toLE 8 (field (s.bank b) 8 8) ++ zeros 4 ++ sha384 (s.bank b)) :: l
      | none => t.boot = .stopped ∧ t.power = s.power ∧ t.sram = s.sram ∧ t.dram = s.dram)

/-- R26 to R28: a test access port instruction selects its register in every state but Cold; without an authorisation in its scope it
selects BYPASS, except AUTH_MAILBOX, and EXTEST does so in a job as well. The authorisation stays. What the boundary cells and a block
of the locked range capture is free (log entry 9). -/
def Obligations.TestPort : Prop :=
  ∀ s : State, s.power ≠ .cold →
    exec .testLogicReset s = .next { s with tap := .bypass } ∧
    exec .authMailbox s = .next { s with tap := .mailbox } ∧
    (∀ op : Byte, op ∉ [0x02, 0x06, 0x20] → (op < 0x40 ∨ 0x80 ≤ op) → exec (.bypass op) s = .next { s with tap := .bypass }) ∧
    (s.scoped 0 = true →
      (∃ cells, exec .samplePreload s
        = .next { s with freeCtr := s.freeCtr + 1, tap := .boundary false, boundary := cells }) ∧
      (∀ op : Fin 64, ∃ d, exec (.testAccessInstruction op) s
        = .next { s with freeCtr := s.freeCtr + 1, tap := .test op.val, testBlock := d }) ∧
      (s.reg R.jobState = 0 → ∃ cells, exec .extest s
        = .next { s with freeCtr := s.freeCtr + 1, tap := .boundary true, boundary := cells }) ∧
      (s.reg R.jobState ≠ 0 → exec .extest s = .next { s with tap := .bypass })) ∧
    (s.reg R.testAccess = 0 → exec .samplePreload s = .next { s with tap := .bypass }
      ∧ exec .extest s = .next { s with tap := .bypass }
      ∧ ∀ op : Fin 64, exec (.testAccessInstruction op) s = .next { s with tap := .bypass })

/-- R572, R573: with AUTH_MAILBOX selected the mailbox serves its commands: CHALLENGE answers 32 bytes that it keeps, PIECE keeps a
piece, SUBMIT grants the token's scope exactly where the token holds, and takes the pieces, STATUS tells the status before, LOCK
ends the authorisation. A response fills the 4,096 bits of the register, zeros behind what it holds. That a SUBMIT without a byte answers
status 1 and takes no piece is the model's choice (log entry 67). -/
def Obligations.Mailbox : Prop :=
  ∀ s : State, s.tap = .mailbox → (s.awake = true ∨ s.boot = .stopped) →
    let answer (cmd status : Nat) (d : List Byte) : List Byte :=
      toLE 1 cmd ++ toLE 1 status ++ zeros 2 ++ toLE 2 d.length ++ zeros 2 ++ d ++ zeros (504 - d.length)
    (∃ c, c.length = 32 ∧ exec .challenge s = .next { s with
        freeCtr := s.freeCtr + 1, challenge := some c, mailStatus := 0, mailResponse := answer 1 0 c }) ∧
    (∀ (off : Nat) (d : List Byte), off < 16384 → 1 ≤ d.length → d.length ≤ 504 →
      exec (.piece off d) s = .next { s with token := Tab.set s.token off d, mailStatus := 0, mailResponse := answer 2 0 [] }) ∧
    exec (.submit 0) s = .next { s with mailStatus := 1, mailResponse := answer 3 1 [] } ∧
    (∀ len, 0 < len → len ≤ 16384 →
      let v := s.tokenReason (tokenBytes s.token len)
      ∃ t, exec (.submit len) s = .next t ∧ t.token = [] ∧ t.mailStatus = v ∧ t.mailResponse = answer 3 v []
        ∧ (if v = 0 then t.reg R.testAccess = 1 ∧ t.challenge = none
            ∧ t.reg R.testScope = field (slice (tokenBytes s.token len) 32 (field (tokenBytes s.token len) 16 8)) 40 4
          else t.reg R.testAccess = s.reg R.testAccess ∧ t.challenge = s.challenge
            ∧ t.logged 0x8005 0xFF (field (tokenBytes s.token len) 4 2 + 65536 * (v % 256)))) ∧
    exec .status s = .next { s with mailResponse := answer 4 s.mailStatus [] } ∧
    exec .lock s = .next { (s.setReg R.testAccess 0).setReg R.testScope 0 with mailStatus := 0, mailResponse := answer 5 0 [] }

/-- R24, R25, R485: a received character joins the buffer of 256, or is discarded and counted; a console command reads an entry, a
log entry, or writes one where test access covers it, and its answer goes out as a line. The layout of that line and the emptying of the
receive buffer by a command are the model's choice (log entry 8). -/
def Obligations.ServiceUart : Prop :=
  ∀ s : State,
    (s.kindled = true → s.boot = .none → ∀ ch, exec (.uartRxCharacter ch) s = .next
      (if s.uartRx.length < 256 then { s with uartRx := s.uartRx ++ [ch] }
       else s.setReg R.uartRxDiscards ((s.reg R.uartRxDiscards + 1) % 2 ^ 32))) ∧
    (s.awake = true → s.reg R.uartConsoleEnable = 1 →
      (∀ n e, s.log.find? (fun x => x.seq.toNat == n) = some e →
        exec (.uartConsoleCommand (.log n)) s = .next { s with
          uartRx := [], answer := 0, answerData := e.bytes
          uartTx := s.uartTx ++ [toLE 2 0 ++ e.bytes] }) ∧
      (∀ index sub e, odFind index sub = some e → lockedRange index = false → e.acc ≠ .wo →
        regKey index sub ∉ [R.testChallenge, R.tsPop] →
        ∃ t, exec (.uartConsoleCommand (.read index sub)) s = .next t ∧ t.answer = 0
          ∧ t.answerData = ({ s with uartRx := [] } : State).odBytes e ∧ t.uartTx = s.uartTx ++ [toLE 2 0 ++ t.answerData]
          ∧ t.regs = s.regs ∧ t.blobs = s.blobs) ∧
      (∀ index sub d, s.reg R.testAccess = 0 →
        ∃ t, exec (.uartConsoleCommand (.write index sub d)) s = .next t ∧ t.answer = 0x0501 ∧ t.regs = s.regs
          ∧ t.blobs = s.blobs ∧ t.uartTx = s.uartTx ++ [toLE 2 0x0501]))

/-! ## The object dictionary (13) -/

/-- R471, R472, R474, R476 to R478: a write from a console without test access, while the other node owns the transaction, to no entry,
that its access forbids, whose value has the wrong length or is out of range, or which the open transaction cannot stage is answered with
the code of its first failed check and changes nothing. Which entries are written by BLOCK alone, so that a WRITE of one answers 0x0302,
is the model's reading of R475 (DEDUCED, log entry 55). -/
def Obligations.WriteRefused : Prop :=
  ∀ (src : OdSrc) (index sub : Nat) (data : List Byte) (s : State), s.awake = true →
    let own := s.reg R.txnOwner
    let answers (code : Nat) : Prop :=
      exec (.odWrite src index sub data) s = .next { s with answer := code, answerData := [] }
    (s.mayWrite src = false → answers 0x0501) ∧
    (s.mayWrite src = true → own ≠ 2 → own ≠ srcNode src → answers 0x0701) ∧
    (s.mayWrite src = true → own = 2 ∨ own = srcNode src →
      (blockOnly index sub = true → answers 0x0302) ∧
      (lockedRange index = true → src ≠ .uart → s.scoped 1 = false → answers 0x0501) ∧
      (blockOnly index sub = false → lockedRange index = false →
        (odFind index sub = none → answers (if (odFind index 0).isSome then 0x0102 else 0x0101)) ∧
        ∀ e, odFind index sub = some e →
          (e.acc = .ro → answers 0x0201) ∧
          (e.acc ≠ .ro → own ≠ 2 → regKey index sub = R.txnBegin → answers 0x0701) ∧
          (e.acc = .wo → own ≠ 2 → index ≠ 0xA000 → answers 0x0703) ∧
          (e.acc = .rwj → s.reg R.jobState ≠ 0 → answers 0x0401) ∧
          (e.acc ≠ .ro → (e.acc = .rwj → s.reg R.jobState = 0) → own = 2 ∨ e.acc ≠ .wo → e.ty ≠ .blob →
            (data.length ≠ e.size → answers 0x0302) ∧
            (data.length = e.size → e.ty = .nat → ((leNat data : Int) < e.lo ∨ e.hi < (leNat data : Int)) →
              answers 0x0301) ∧
            (data.length = e.size → e.ty = .int →
              (sext (8 * e.size) (leNat data) < e.lo ∨ e.hi < sext (8 * e.size) (leNat data)) → answers 0x0301)) ∧
          (e.acc ≠ .ro → (e.acc = .rwj → s.reg R.jobState = 0) → own = 2 ∨ e.acc ≠ .wo → e.ty = .blob → data = [] →
            regKey index sub ∉ [R.manifest, R.rankTable, R.routeTable, R.jobSeed, R.adoptDigest, R.quoteNonce] →
            regKey index sub / 256 ≠ R.failedMask 0 / 256 → answers 0x0305) ∧
          (own ≠ 2 → e.acc = .rw ∨ e.acc = .rwj ∧ s.reg R.jobState = 0 → index ≠ 0xA000 → valueStatus e data = 0 →
            (256 ≤ s.staged.length ∧ ∀ x ∈ s.staged, x.1 ≠ index * 256 + sub) ∨ 131072 < data.length → answers 0x0602)))

/-- R23, R320, R383, R471, R507, R571, R572: a taken write of an entry without an effect of its own stores the value; ALERT_CLEAR
releases ALERT_N, LOG_CLEAR empties the log, TEST_LOCK ends the authorisation, QUOTE_NONCE keeps the nonce, LEAK_PERIOD_MS sets
the selected counter's period; a manifest that R320 accepts is kept, without rank and route table, and UP ports train anew, an empty one
erases the entry; a rank table needs a manifest (R308); a route table within the derived one is kept; a chip number is kept where a
loaded manifest has it (R334). -/
def Obligations.WriteTaken : Prop :=
  ∀ (src : OdSrc) (data : List Byte) (s : State),
    (∀ index sub e, odFind index sub = some e → blockOnly index sub = false → lockedRange index = false →
      s.takes src (regKey index sub) data = true →
      (∀ w ∈ writers0 ++ writers1 ++ writers2, w.1 ≠ regKey index sub) →
      regKey index sub ∉ [R.txnBegin, R.txnCommit, R.txnRollback] → sub < 256 →
      exec (.odWrite src index sub data) s = .next (s.storeEntry e data).ok) ∧
    (s.takes src (regKey 0x2103 1) data = true → exec (.alertClear src data) s = .next { s with alertLow := false }.ok) ∧
    (s.takes src R.logClear data = true → exec (.logClear src data) s = .next ({ s with log := [] }.setReg R.logCount 0).ok) ∧
    (s.takes src R.testLock data = true → exec (.testLock src data) s = .next { (s.setReg R.testAccess 0).setReg R.testScope 0 with
      tap := if s.tap = TapReg.mailbox then TapReg.mailbox else .bypass }.ok) ∧
    (s.takes src R.quoteNonce data = true → exec (.quoteNonce src data) s = .next { s with nonce := some data }.ok) ∧
    (s.takes src (R.leakPeriodMs 0) data = true →
      exec (.leakPeriodMs src data) s = .next (s.setReg (R.leakPeriodMs (s.reg R.counterSelect)) (leNat data)).ok) ∧
    (s.takes src R.rankTable data = true → exec (.rankTableWrite src data) s = .next
      (if s.manifest = [] then { s with answer := 0x0402, answerData := [] }
       else if data = [] ∨ s.ranksStatus data = 0 then (s.setBlob R.rankTable data).ok
       else { s with answer := s.ranksStatus data, answerData := [] })) ∧
    (s.takes src R.routeTable data = true → (∀ c < 4096, routeStatus (field data (2 * c) 2) (derivedRoute s.manifest s.chip c) = 0) →
      exec (.routeTableWrite src data) s = .next (s.setBlob R.routeTable data).ok) ∧
    (s.takes src R.manifest [] = true → (∀ p < 32, s.reg (R.linkState p) ≠ 7) → s.reg R.custodyGiven = 0 →
      exec (.manifestWrite src []) s = .next (((s.setBlob R.manifest []).setBlob R.rankTable []).setBlob R.routeTable []).ok) ∧
    (s.takes src R.manifest data = true → (data = [] ∨ manifestStatus data s.chip = 0) →
      ∃ t, exec (.manifestWrite src data) s = .next t ∧ t.answer = 0 ∧ t.blob R.manifest = data ∧ t.blob R.rankTable = []
        ∧ t.blob R.routeTable = [] ∧ t.sram = s.sram ∧ t.dram = s.dram
        ∧ ∀ p < 32, s.reg (R.linkState p) = 7 → bit (s.reg R.portEnable) p = true → t.reg (R.linkState p) = 2) ∧
    (s.takes src R.chipNumber data = true → (s.manifest = [] ∨ (recOf s.manifest (leNat data)).isSome = true) →
      (∃ t, exec (.chipNumberWrite src data) s = .next t ∧ t.answer = 0 ∧ t.reg R.chipNumber = leNat data
        ∧ t.sram = s.sram ∧ t.dram = s.dram) ∧
      ((∀ p < 32, s.reg (R.linkState p) ≠ 7) → s.reg R.custodyGiven = 0 →
        exec (.chipNumberWrite src data) s = .next (s.setReg R.chipNumber (leNat data)).ok))

/-- R477 to R482 (R480 whole): TXN_BEGIN makes the writing node the owner; a write of the owner is staged and changes no entry; TXN_COMMIT
between jobs applies what is staged and ends the transaction, in a job it waits, unanswered, and a FRAME_BOUNDARY or the job's end applies
and answers it; TXN_ROLLBACK and TXN_TIMEOUT end it with nothing applied. -/
def Obligations.Transactions : Prop :=
  ∀ (src : OdSrc) (data : List Byte) (s : State), s.awake = true → src ≠ .uart →
    (data = [1] → s.reg R.txnOwner = 2 → exec (.txnBegin src data) s = .next (s.setReg R.txnOwner (srcNode src)).ok) ∧
    (data = [1] → s.reg R.txnOwner = 2 →
      exec (.txnCommit src data) s = .next { s with answer := 0x0702, answerData := [] } ∧
      exec (.txnRollback src data) s = .next { s with answer := 0x0702, answerData := [] }) ∧
    (s.reg R.txnOwner = srcNode src →
      (∀ index sub e, odFind index sub = some e → blockOnly index sub = false → lockedRange index = false → index ≠ 0xA000 →
        (e.acc = .rw ∨ e.acc = .rwj ∧ s.reg R.jobState = 0) → valueStatus e data = 0 → s.staged = [] → data.length ≤ 131072 →
        exec (.odWrite src index sub data) s
          = .next { s.setReg R.txnStaged 1 with staged := [(index * 256 + sub, data)] }.ok) ∧
      (data = [1] → ∃ t, exec (.txnRollback src data) s = .next t ∧ t.staged = [] ∧ t.reg R.txnOwner = 2 ∧ t.reg R.txnStaged = 0
        ∧ t.commitDue = false ∧ t.answer = 0 ∧ t.regs = ((s.setReg R.txnOwner 2).setReg R.txnStaged 0).regs ∧ t.blobs = s.blobs
        ∧ t.sram = s.sram ∧ t.dram = s.dram) ∧
      (data = [1] → s.reg R.jobState ≠ 0 → exec (.txnCommit src data) s = .next { s with commitDue := true }) ∧
      (s.reg R.jobState = 4 → s.commitDue = true → s.commitReply = [] → ∀ v, s.staged = [(R.bootBank / 256, v)] → (v = [0] ∨ v = [1]) →
        let applied (t : State) : Prop := t.answer = 0 ∧ t.reg R.bootBank = leNat v ∧ t.reg R.txnOwner = 2 ∧ t.reg R.txnStaged = 0
          ∧ t.reg R.txnLastError = 0 ∧ t.staged = [] ∧ t.commitDue = false
        (s.spineOn = true → ∃ t, exec .frameBoundary s = .next t ∧ applied t) ∧
        (s.endPending.isSome = true → s.remove = [] → s.h ≤ s.load → s.reg R.governorState = 0 →
          ∃ t, exec .jobEnded s = .next t ∧ applied t)) ∧
      (data = [1] → s.reg R.jobState = 0 → ∀ v, s.staged = [(R.bootBank / 256, v)] → (v = [0] ∨ v = [1]) →
        exec (.txnCommit src data) s = .next { ((((s.setReg R.bootBank (leNat v)).setReg R.txnLastError 0).setReg R.txnLastEntry
          0xFFFFFFFF).setReg R.txnOwner 2).setReg R.txnStaged 0 with staged := [], commitDue := false }.ok)) ∧
    (s.reg R.txnOwner ≠ 2 → s.commitDue = false → s.commitReply = [] →
      ∃ t, exec .txnTimeout s = .next t ∧ t.staged = [] ∧ t.reg R.txnOwner = 2 ∧ t.reg R.txnStaged = 0
        ∧ t.logged 0x7046 0xFF noDetail ∧ t.answer = s.answer)

/-- R60, R426, R428, R432, R446 to R448, R450 to R453: with no region lit and no image CLOCK_MODE_WRITE sets the mode; the frequency entries
are stored; REGION_LIGHT, STACK_ACTIVE and GROUP_ENABLE make the units asked for wait for admission in their order, before the stacks that
an access wakes; SLEEP_REQUEST takes an empty part to Banked; FAILED_MASK_WRITE marks enabled cores while 64 usable ones are left. That a
stack which an access wakes waits behind those is the model's choice (log entry 22), as are the codes of log entries 55 and 64 where the
rules name none. -/
def Obligations.PowerEntries : Prop :=
  ∀ (src : OdSrc) (data : List Byte) (s : State),
    let v := leNat data
    (s.takes src (regKey 0x2400 1) data = true → s.litList = [] → s.image = none →
      exec (.clockModeWrite src data) s = .next (s.setReg R.clockMode v).ok) ∧
    (s.litList = [] →
      (s.takes src (regKey 0x2400 2) data = true → (v = 1 → s.litOrAsked.length ≤ 4) →
        exec (.freqChangeModeWrite src data) s = .next (s.setReg R.freqChangeMode v).ok) ∧
      (s.takes src (regKey 0x2401 2) data = true →
        exec (.targetStepWrite src data) s = .next (s.setReg (R.targetStep (s.reg R.clockRegionSelect)) v).ok) ∧
      (s.takes src (regKey 0x2402 2) data = true → s.canLight = true → s.stacksOn = [] → s.groupsOn = 0 →
        s.reg R.stackActive = 0 → s.reg R.groupEnable = 0 → s.resetOwed = [] → (s.reg R.freqChangeMode = 1 → (bitsSet v 16).length ≤ 4) →
        exec (.regionLight src data) s
          = .next { s.setReg R.regionLight v with
              admitting := (bitsSet v 16).map PowerUnit.region ++ s.admitting.filter PowerUnit.isAccess, remove := [] }.ok) ∧
      (s.stacksOn = [] → s.groupsOn = 0 → s.reg R.regionLight = 0 → s.canLight = true → s.resetOwed = [] →
        (s.takes src (regKey 0x2402 3) data = true → s.reg R.groupEnable = 0 → exec (.stackActive src data) s
          = .next { s.setReg R.stackActive v with
              admitting := (bitsSet v 12).map PowerUnit.stack ++ s.admitting.filter PowerUnit.isAccess, remove := [] }.ok) ∧
        (s.takes src (regKey 0x2402 4) data = true → s.reg R.stackActive = 0 → exec (.groupEnable src data) s
          = .next { s.setReg R.groupEnable v with
              admitting := (bitsSet v 8).map PowerUnit.group ++ s.admitting.filter PowerUnit.isAccess, remove := [] }.ok)) ∧
      (s.takes src (regKey 0x2402 5) data = true → s.stacksOn = [] → s.groupsOn = 0 → s.reg R.jobState = 0 →
        s.reg R.custodyHeld < 2 →
        ∃ t, exec (.sleepRequest src data) s = .next t ∧ t.power = .banked ∧ t.answer = 0 ∧ t.sram = [] ∧ t.dram = []
          ∧ t.regions = [] ∧ t.reg R.testAccess = 0 ∧ ∀ k, regPer k = .k → t.reg k = s.reg k)) ∧
    (s.takes src (regKey 0x2201 4) data = true →
      let r := s.reg R.regionSelect
      (∀ p < 72, bit v p = true → bit (s.goodMask r) p = true) →
      64 ≤ ((List.range 72).filter fun p => bit (s.goodMask r) p && !bit v p).length →
      exec (.failedMaskWrite src data) s = .next (s.setBlob (R.failedMask r) data).ok)

/-! ## Jobs and images (13, 15) -/

/-- R489 to R494, R534, R535, R545, R552, R555, R559: JOB_START that passes every check makes the part STARTING with its cores at
their start values; JOB_ABORT ends a STARTING job at once, and a running or quenched one by a QUENCH that ends it; QUENCH_REQUESTED
quenches a quiet job; REPLAY_RELEASE gives the record its frame; SPARE_CORE replaces a core by the lowest spare; RUN_START and
ADOPT_START begin what they name; JOB_ENDED makes the part IDLE with its end cause. -/
def Obligations.JobControl : Prop :=
  ∀ (src : OdSrc) (data : List Byte) (s : State),
    let three (q : QRec) : Prop :=
      (s.slot < 4080 → q.q = s.frame + 3) ∧ (s.slot = 4096 → s.mgmtPorts none ≠ [] → q.q = s.frame + 4)
    (∀ i, s.takes src R.jobStart data = true → s.image = some i → s.reg R.jobState = 0 → s.reg R.loadState = 2 →
      s.canLight = true → s.reg R.runState ≠ 1 → s.reg R.runState ≠ 2 → s.startRefusal i = none →
      s.startLead ≤ (s.reg R.startFrame : Int) - s.frame →
      ∃ t, exec (.jobStart src data) s = .next t ∧ t.answer = 0 ∧ t.reg R.jobState = 1 ∧ t.reg R.regionLight = i.regions
        ∧ t.reg R.stackActive = 0xFFF ∧ t.reg R.fabricStepCounter = s.reg R.firstStep ∧ t.seqPos = 0 ∧ t.qrec = none
        ∧ t.epoch = 0 ∧ t.formerLight = s.reg R.regionLight ∧ (s.reg R.joinStep = 0xFFFFFFFFFFFFFFFF ↔ t.joinWait = none)
        ∧ (∀ c ∈ s.jobCores, (t.core c).pc = 0 ∧ (t.core c).v = [] ∧ (t.core c).a = [] ∧ (t.core c).loops = []
            ∧ (t.core c).step = BitVec.ofNat 64 (s.reg R.firstStep) ∧ (t.core c).halted = false)
        ∧ t.sram = s.sram ∧ t.dram = s.dram) ∧
    (s.takes src R.jobAbort data = true →
      (s.reg R.jobState = 1 →
        ∃ t, exec (.jobAbort src data) s = .next t ∧ t.answer = 0 ∧ t.reg R.jobState = 4 ∧ t.endPending = some 2
          ∧ t.reg R.regionLight = s.formerLight) ∧
      (s.reg R.jobState = 2 → s.qrec = none →
        ∃ t q, exec (.jobAbort src data) s = .next t ∧ t.answer = 0 ∧ t.qrec = some q ∧ q.isEnd = true ∧ three q
          ∧ t.reg R.jobState = 2) ∧
      (∀ q, s.reg R.jobState = 3 → s.qrec = some q →
        ∃ t u, exec (.jobAbort src data) s = .next t ∧ t.answer = 0 ∧ t.qrec = some u ∧ u.isEnd = true ∧ u.s = q.s ∧ u.a = q.a
          ∧ three u ∧ t.reg R.jobState = 3)) ∧
    (s.takes src R.quenchRequest data = true → s.quiet → s.replaying = none → 0 < s.reg R.replayLimit →
      ∃ t q, exec (.quenchRequested src data) s = .next t ∧ t.answer = 0 ∧ t.qrec = some q ∧ q.cause = 0x7049
        ∧ q.s = s.replayStepNow ∧ three q ∧ q.isEnd = false) ∧
    (∀ q, s.takes src R.replayRelease data = true → s.reg R.jobState = 3 → s.qrec = some q →
      (leNat data = 0xFFFFFFFFFFFF ∨ s.frame + 64 ≤ leNat data) →
      ∃ t u, exec (.replayRelease src data) s = .next t ∧ t.answer = 0 ∧ t.qrec = some u
        ∧ u.p = (if q.p = 0xFFFFFFFFFFFF then leNat data else max q.p (leNat data)) ∧ u.s = q.s
        ∧ u.a = q.a ∧ u.cause = q.cause) ∧
    (s.takes src R.spareCore data = true → s.reg R.jobState = 3 →
      (∀ q, (s.region (leNat data / 64)).spares = [] → s.reg R.runState ≠ 2 → s.qrec = some q →
        ∃ t u, exec (.spareCore src data) s = .next t ∧ t.answer = 0 ∧ t.qrec = some u ∧ u.p = max q.p 0xFFFFFFFFFFFF
          ∧ u.s = q.s ∧ t.reg R.lastCoreFault = 0x1081 ∧ t.reg R.lastFaultCore = leNat data) ∧
      ∀ new rest, (s.region (leNat data / 64)).spares = new :: rest →
      ∃ t, exec (.spareCore src data) s = .next t ∧ t.answer = 0 ∧ (t.region (leNat data / 64)).spares = rest
        ∧ (t.region (leNat data / 64)).map = (s.region (leNat data / 64)).map.set (leNat data % 64) new
        ∧ t.reg R.sparesUsedJob = (s.reg R.sparesUsedJob + 1) % 65536) ∧
    (∀ i c, s.takes src R.runStart data = true → s.image = some i → (s.reg R.jobState = 0 ∨ s.reg R.jobState = 3) →
      s.runBusy = false → s.followedLocked = true → (i.setOf (s.reg R.runSet))[s.reg R.runSlot]? = some c →
      c.ports.all s.verifiedUp = true → (s.reg R.jobState = 0 → s.canLight = true ∧ s.fifthRegion i = false
        ∧ (s.reg R.groupEnable &&& i.portGroups) = i.portGroups) → s.reg R.runCount ≠ 0 →
      s.frame + 64 + i.copyFrames (s.reg R.runSet) + s.rampFrames (c.envelope * 1000) ≤ s.reg R.runFrame →
      ∃ t u, exec (.runStart src data) s = .next t ∧ t.answer = 0 ∧ t.reg R.runState = 1 ∧ t.run = some u
        ∧ u.set = s.reg R.runSet ∧ u.slot = s.reg R.runSlot ∧ u.count = s.reg R.runCount ∧ u.frame = s.reg R.runFrame
        ∧ t.reg R.regionLight = (if s.reg R.jobState = 0 then i.regions else s.reg R.regionLight)
        ∧ t.reg R.jobState = s.reg R.jobState) ∧
    (s.takes src R.adoptStart data = true → s.reg R.jobState = 0 → s.image ≠ none →
      (∀ p ∈ [28, 29, 30, 31], s.reg (R.linkState p) = 7 ∧ s.reg (R.portMode p) = 1
        ∧ field (s.blob (R.peerIdentity p)) 0 2 = s.twin) →
      exec (.adoptStart src data) s = .next { s with adopt := true }.ok) ∧
    (∀ c, s.awake = true → s.reg R.jobState = 4 → s.endPending = some c → s.remove = [] → s.h ≤ s.load → s.reg R.governorState = 0 →
      s.commitDue = false → s.warmDue = false →
      ∃ t, exec .jobEnded s = .next t ∧ t.reg R.jobState = 0 ∧ t.reg R.endCause = c ∧ t.endPending = none
        ∧ t.logged 0x7045 0xFF (jobDetail c 0xFFFF 0xFFFFFFFF))

/-- R361, R475, R496 to R498, R514, R515, R517: LOAD_START unloads the image and opens a load of the announced length; an IMAGE_BLOCK
that joins on before the header is whole is kept; LOAD_ABORT unloads; JOB_RESET and WARM_RESET clear the cores and the image, the
warm reset the ports' links and the V entries as well, but for those of network time, the Glazin links, grade_state (DEDUCED, log entry
64) and live readings (DEDUCED, log entry 64), and count and log what they did. Memory stays but for the bytes that a running DMA
descriptor was to write, which an abort leaves undefined (R418). -/
def Obligations.LoadsAndResets : Prop :=
  ∀ (src : OdSrc) (data : List Byte) (s : State),
    (s.takes src R.imageLength data = true → s.reg R.jobState = 0 → s.reg R.loadState ≠ 1 →
      ∃ t, exec (.loadStart src data) s = .next t ∧ t.answer = 0 ∧ t.image = none ∧ t.loading = some { len := leNat data, got := [] }
        ∧ t.reg R.loadState = 1 ∧ t.reg R.bytesReceived = 0 ∧ t.half0 = [] ∧ t.half1 = [] ∧ t.sram = s.sram) ∧
    (∀ l off, s.awake = true → s.mayWrite src = true → s.reg R.txnOwner = 2 → s.loading = some l → data ≠ [] →
      (off = 0 ∨ off = l.got.length) → (if off = 0 then 0 else l.got.length) + data.length < 128 → 128 ≤ l.len →
      ∃ t u, exec (.imageBlock src off l.len data) s = .next t ∧ t.answer = 0 ∧ t.loading = some u ∧ u.len = l.len
        ∧ u.got = (if off = 0 then [] else l.got) ++ data ∧ t.reg R.bytesReceived = u.got.length
        ∧ t.sram = s.sram ∧ t.dram = s.dram) ∧
    (s.takes src R.loadAbort data = true → s.reg R.loadState = 1 →
      ∃ t, exec (.loadAbort src data) s = .next t ∧ t.answer = 0 ∧ t.loading = none ∧ t.image = none ∧ t.reg R.loadState = 0
        ∧ t.reg R.custodyGiven = 0) ∧
    (s.takes src (regKey 0x2500 3) data = true → s.reg R.jobState = 0 → s.reg R.loadState ≠ 1 →
      ∃ t, exec (.jobReset src data) s = .next t ∧ t.answer = 0 ∧ t.image = none ∧ (∀ c < 1024, t.core c = {})
        ∧ t.reg R.regionLight = 0 ∧ t.reg R.resetCause = 5 ∧ t.logged 0x7062 0xFF noDetail ∧ (∀ p, t.reg (R.linkState p) = s.reg (R.linkState p))
        ∧ t.frame = s.frame ∧ ∀ a, s.spared 0 a → t.sram.read a = s.sram.read a ∧ t.sramChk.read a = s.sramChk.read a) ∧
    (s.takes src (regKey 0x2500 2) data = true →
      ∃ t, exec (.warmReset src data) s = .next t ∧ t.answer = 0 ∧ t.image = none ∧ (∀ c < 1024, t.core c = {})
        ∧ t.reg R.resetCause = 4 ∧ t.reg R.warmResets = (s.reg R.warmResets + 1) % 2 ^ 32 ∧ t.slots = [] ∧ t.scrub = none
        ∧ (∀ p < 32, t.reg (R.linkState p) = if bit (s.reg R.portEnable) p then 2 else 0)
        ∧ (s.reg R.jobState ≠ 0 → t.reg R.jobState = 4 ∧ t.endPending = some 0x7061)
        ∧ t.frame = s.frame ∧ (∀ a, s.spared 0 a → t.sram.read a = s.sram.read a ∧ t.sramChk.read a = s.sramChk.read a)
        ∧ (∀ k, regPer k = .k → k ≠ R.lostNoticeChip → t.reg k = s.reg k)
        ∧ (s.reg R.jobState = 0 → s.litList = [] → s.stacksOn = [] → t.logged 0x7061 0xFF noDetail)
        ∧ (∀ k, regPer k = .v → liveReg k = false → timeReg k = false → glazinReg k = false → k ≠ R.gradeState → k ≠ R.jobState →
            (∀ i < 64, k ≠ R.dmaStatus i ∧ k ≠ R.linkState i ∧ k ≠ R.width i) → t.reg k = s.dflt k))

/-! ## Security (16) -/

/-- R565 to R569, R571, R572: the first block of a firmware record empties the bank that does not run, the last one installs the record
where it verifies; RECORD_INSTALL keeps a grade or a configuration record exactly where it verifies; ROLLBACK_COMMIT raises the
firmware minimum to the running bank's version; TEST_TOKEN grants the token's scope exactly where it holds; TEST_CHALLENGE draws a
new challenge of 32 bytes; QUOTE at offset 0 makes a new quote of the nonce, and reads on in it beyond; TS_POP reads and removes the
oldest timestamp. That the keys, the challenge and the signatures made are free values, what a measurement hashes, and the answers to a
record whose type or configuration slot is out of range are the model's choices (log entries 12, 60, 67). -/
def Obligations.SecurityEntries : Prop :=
  ∀ (src : OdSrc) (data : List Byte) (s : State), s.awake = true →
    let kept (t : State) : Option Assembly := t.partialOf (R.fwInstall / 65536) (R.fwInstall / 256 % 256)
    (∀ total, s.mayWrite src = true → s.reg R.txnOwner = 2 → s.reg R.jobState = 0 → data ≠ [] → data.length < total →
      ∃ t, exec (.fwInstall src 0 total data) s = .next t ∧ t.answer = 0 ∧ t.reg R.fwInstallState = 1
        ∧ t.bank (1 - s.reg R.runningBank) = [] ∧ t.bank (s.reg R.runningBank) = s.bank (s.reg R.runningBank)
        ∧ kept t = some { index := R.fwInstall / 65536, sub := R.fwInstall / 256 % 256, total := total, got := data }) ∧
    (∀ (a : Assembly) (total : Nat), s.mayWrite src = true → s.reg R.txnOwner = 2 → s.reg R.jobState = 0 → kept s = some a →
      a.got ≠ [] → data ≠ [] → a.got.length + data.length = a.total → a.total ≤ 2 ^ 24 →
      let v := verifyRec (a.got ++ data) 1 (s.minFor 1)
      ∃ t, exec (.fwInstall src a.got.length total data) s = .next t ∧ t.answer = (if v = 0 then 0 else 0x0502)
        ∧ t.reg R.fwInstallState = (if v = 0 then 2 else 3) ∧ kept t = none
        ∧ t.bank (1 - s.reg R.runningBank) = (if v = 0 then a.got ++ data else [])) ∧
    (s.takes src R.recordInstall data = true → s.reg R.jobState = 0 → field data 4 2 = 3 →
      let v := verifyConfig data (s.minFor 3)
      let slot := field data 32 1
      ∃ t, exec (.recordInstall src data) s = .next t ∧ if v = 0 ∧ slot < 8 then t.answer = 0 ∧ Tab.get [] t.config slot = data
        else t.config = s.config ∧ if 8 ≤ slot then t.answer = 0x0301 else t.answer = 0x0502 ∧ t.logged 0x8002 0xFF (3 + 65536 * (v % 256))) ∧
    (s.takes src R.recordInstall data = true → s.reg R.jobState = 0 → field data 4 2 ≠ 3 →
      let v := verifyRec data 2 (s.minFor 2)
      ∃ t, exec (.recordInstall src data) s = .next t ∧ t.answer = (if v = 0 then 0 else 0x0502)
        ∧ t.gradeRec = (if v = 0 then data else s.gradeRec) ∧ (v ≠ 0 → t.logged 0x8002 0xFF (field data 4 2 + 65536 * (v % 256)))) ∧
    (s.takes src R.rollbackCommit data = true →
      ∃ t, exec (.rollbackCommit src data) s = .next t ∧ t.answer = 0 ∧ t.bankA = s.bankA ∧ t.bankB = s.bankB
        ∧ (t.rollback0 = s.rollback0 ∨ t.rollback1 = s.rollback1)
        ∧ ∃ l, (t.rollback0 = l ∨ t.rollback1 = l) ∧ rollbackOk l = true
          ∧ field l 8 8 = max (field (s.bank (s.reg R.runningBank)) 8 8) (s.minFor 1)) ∧
    (s.takes src R.testToken data = true → tokenReserved data = true →
      ∃ t, exec (.testToken src data) s = .next t ∧ t.answer = 0x0301 ∧ t.challenge = s.challenge ∧ t.reg R.testAccess = s.reg R.testAccess
        ∧ t.logged 0x8005 0xFF (field data 4 2 + 65536)) ∧
    (s.takes src R.testToken data = true → tokenReserved data = false →
      let v := s.tokenReason data
      ∃ t, exec (.testToken src data) s = .next t ∧ t.answer = (if v = 0 then 0 else 0x0502)
        ∧ (if v = 0 then t.reg R.testAccess = 1 ∧ t.challenge = none
            ∧ t.reg R.testScope = field (slice data 32 (field data 16 8)) 40 4
          else t.reg R.testAccess = s.reg R.testAccess ∧ t.challenge = s.challenge ∧ t.logged 0x8005 0xFF (field data 4 2 + 65536 * (v % 256)))) ∧
    (∃ c, c.length = 32 ∧ exec (.testChallenge src) s
      = .next { s with freeCtr := s.freeCtr + 1, challenge := some c, answer := 0, answerData := c }) ∧
    (∀ n len, s.nonce = some n → n.length = 32 → 0 < len → len ≤ 192 →
      ∃ t, exec (.quote src 0 len) s = .next t ∧ t.answer = 0 ∧ t.answerData = slice t.quoteBytes 0 len
        ∧ slice t.quoteBytes 0 32 = toLE 4 0x52434548 ++ toLE 2 7 ++ toLE 2 1 ++ zeros 8 ++ toLE 8 160 ++ zeros 8
        ∧ slice t.quoteBytes 40 32 = n ∧ t.regs = s.regs) ∧
    (∀ n off len, s.nonce = some n → 0 < off → 0 < len → len ≤ 8192 → off + len ≤ s.quoteBytes.length →
      exec (.quote src off len) s = .next { s with answer := 0, answerData := slice s.quoteBytes off len }) ∧
    (∀ off len, s.nonce = none → 0 < len → len ≤ 8192 →
      exec (.quote src off len) s = .next { s with answer := 0x0402, answerData := [] }) ∧
    ∃ e, odFind (R.tsPop / 65536) (R.tsPop / 256 % 256) = some e
      ∧ exec (.tsPop src) s = .next { s with tsq := s.tsq.tail, answer := 0, answerData := s.odBytes e }

/-! ## Stack memory and DMA (10, 11) -/

/-- R391 to R396: an idle engine takes the oldest item of its queue, or of the longest queue where its own is empty; an item of its op,
with well-formed fields, aligned inside its stack and outside the reserved areas, runs: FILL writes its pattern, COPY and GATHER and
SCATTER move the words they name, SCRUB counts, PACK_KV and UNPACK_KV and CRC64 give their outputs. The result's 64 bytes are written, the
engine is idle again, and the far request that brought the item has no message outstanding, or the REQ is answered. An item with an illegal
field, or a result outside its stack, writes nothing but the result; the core's request gets ENGINE_ITEM_FAILED, which a job quenches for,
and the REQ the status of R393. Which of several statuses an item ends with, and what an output that does not fit leaves, are the model's
choices (log entries 31, 32). -/
def Obligations.EngineItems : Prop :=
  ∀ (k : StackId) (e : EngineId) (s : State), s.settles → s.memoryOk = true →
    let x := s.stack k.val
    let queue (j : Nat) : List Item := Tab.get [] x.queues j
    let answered (t : State) (i : Item) (status : Nat) : Prop := match i.src with
      | .none => True
      | .core c q tag => (∀ r, s.farReq c q tag = some r → t.farReq c q tag = some { r with outstanding := 0 })
          ∧ (status ≠ 0 → s.quiet → t.reg R.lastFaultCause = 0x4004
              ∧ t.logged 0x4004 k.val (s.globalAddr 1 ((itemFields i.bytes).result % 2 ^ 48)))
      | .remote chip ident _ => chip ≠ s.chip → s.reaches 3 chip →
          ∃ q : TxMsg, ((∃ p, q ∈ (t.port p).txq) ∨ q ∈ t.waiting) ∧ classOf q.msg.vc = 3 ∧ q.msg.units = []
            ∧ q.msg.hdr = rspHdr 0 (chip % 65536) s.chip 0x83 (if status = 0 then 0 else if status = 2 then 2 else 4) ident.toNat
    (∀ it rest j, Tab.get none x.running e.val = none → j < 32 → queue j = it :: rest →
      (j = e.val ∨ queue e.val = [] ∧ (∀ i < 32, (queue i).length ≤ (queue j).length) ∧ ∀ i < j, (queue i).length < (queue j).length) →
      let w := itemFields it.bytes
      (1 ≤ w.op → w.op ≤ 8 →
        ∃ t, exec (.stackEngineTake k e) s = .next t ∧ Tab.get none (t.stack k.val).running e.val = some it
          ∧ Tab.get [] (t.stack k.val).queues j = rest ∧ t.dram = s.dram ∧ t.regs = s.regs ∧ t.regions = s.regions) ∧
      (w.op = 0 ∨ 8 < w.op →
        ∃ t, exec (.stackEngineTake k e) s = .next t ∧ Tab.get none (t.stack k.val).running e.val = none
          ∧ Tab.get [] (t.stack k.val).queues j = rest ∧ answered t it 5
          ∧ (if inStack k.val w.result 64 = true then t.dram.readN w.result 64 = zeros 48 ++ [5] ++ zeros 15 else t.dram = s.dram))) ∧
    (∀ i : Item, Tab.get none x.running e.val = some i →
      let w := itemFields i.bytes
      let run : Res := match w.op with
        | 1 => exec (.gather k e) s | 2 => exec (.scatter k e) s | 3 => exec (.fill k e) s | 4 => exec (.copy k e) s
        | 5 => exec (.scrub k e) s | 6 => exec (.packKv k e) s | 7 => exec (.unpackKv k e) s | _ => exec (.crc64 k e) s
      let fails (status : Nat) : Prop := ∃ t, run = .next t ∧ Tab.get (some i) (t.stack k.val).running e.val = none
        ∧ answered t i status ∧ t.sram = s.sram ∧ t.memoryOk = true
        ∧ (∀ a, a < w.result ∨ w.result + 64 ≤ a → t.dram.read a = s.dram.read a)
        ∧ (if inStack k.val w.result 64 = true then t.dram.readN w.result 64 = zeros 48 ++ [BitVec.ofNat 8 status] ++ zeros 15
           else t.dram = s.dram)
      1 ≤ w.op → w.op ≤ 8 →
      (w.illegal = true → fails 5) ∧ (w.illegal = false → inStack k.val w.result 64 = false → fails 1)) ∧
    (∀ i : Item, Tab.get none x.running e.val = some i →
      (match i.src with
        | .core c q tag => ∀ r, s.farReq c q tag = some r → r.undef = false
        | _ => i.undef = false) →
      let w := itemFields i.bytes
      let done (c : Instr) (out : List Byte) : Prop :=
        ∃ t, exec c s = .next t ∧ Tab.get (some i) (t.stack k.val).running e.val = none
          ∧ t.dram.readN w.result 64 = out ++ zeros (64 - out.length)
          ∧ t.dramChk.readN (w.result / 8) 8 = rsCheckBytes (out ++ zeros (64 - out.length))
          ∧ t.sram = s.sram ∧ t.memoryOk = true ∧ answered t i 0
      let clean (off n : Nat) : Prop := ∀ j < n,
        (rsWord (s.dram.readN (off + 64 * j) 64) (s.dramChk.readN ((off + 64 * j) / 8) 8)).2.2 = false
      let data (off n : Nat) : List Byte := (s.readWords 1 off n).1
      let apart (a n b m : Nat) : Prop := a + 64 * n ≤ b ∨ b + 64 * m ≤ a
      w.illegal = false → inStack k.val w.result 64 = true → 0 < w.count →
      (w.op = 3 → inStack k.val w.dst (64 * w.count) = true → apart w.dst w.count w.result 1 → done (.fill k e) [] ∧
        ∃ t, exec (.fill k e) s = .next t
          ∧ ∀ a, w.dst ≤ a → a < w.dst + 64 * w.count → t.dram.read a = BitVec.ofNat 8 (w.aux / 256 ^ ((a - w.dst) % 8))) ∧
      (w.op = 4 → inStack k.val w.src (64 * w.count) = true → inStack k.val w.dst (64 * w.count) = true →
        apart w.src w.count w.dst w.count → apart w.dst w.count w.result 1 → clean w.src w.count → done (.copy k e) [] ∧
        ∃ t, exec (.copy k e) s = .next t ∧ t.dram.readN w.dst (64 * w.count) = data w.src w.count) ∧
      (w.op = 1 ∨ w.op = 2 → ∀ idx, inStack k.val w.aux (64 * ceilDiv w.count 16) = true → clean w.aux (ceilDiv w.count 16) →
        idx = ((List.range w.count).map fun j => field (data w.aux (ceilDiv w.count 16)) (4 * j) 4) → idx.Nodup →
        inStack k.val (if w.op = 1 then w.dst else w.src) (w.count * (64 * w.unit)) = true →
        (∀ j ∈ idx, inStack k.val ((if w.op = 1 then w.src else w.dst) + j * (64 * w.unit)) (64 * w.unit) = true
          ∧ apart ((if w.op = 1 then w.src else w.dst) + j * (64 * w.unit)) w.unit
              (if w.op = 1 then w.dst else w.src) (w.count * w.unit)
          ∧ apart ((if w.op = 1 then w.src else w.dst) + j * (64 * w.unit)) w.unit w.result 1
          ∧ (w.op = 1 → clean (w.src + j * (64 * w.unit)) w.unit)) →
        apart (if w.op = 1 then w.dst else w.src) (w.count * w.unit) w.result 1 →
        (w.op = 2 → clean w.src (w.count * w.unit)) →
        done (if w.op = 1 then .gather k e else .scatter k e) [] ∧
        ∃ t, exec (if w.op = 1 then .gather k e else .scatter k e) s = .next t ∧ ∀ j < w.count,
          (w.op = 1 → t.dram.readN (w.dst + j * (64 * w.unit)) (64 * w.unit) = data (w.src + idx.getD j 0 * (64 * w.unit)) w.unit) ∧
          (w.op = 2 → t.dram.readN (w.dst + idx.getD j 0 * (64 * w.unit)) (64 * w.unit) = data (w.src + j * (64 * w.unit)) w.unit)) ∧
      (w.op = 5 → inStack k.val w.src (64 * w.count) = true → w.flags = 0 → clean w.src w.count →
        ∃ x, done (.scrub k e) (toLE 8 w.count ++ toLE 8 x ++ zeros 32)) ∧
      (w.op = 6 → inStack k.val w.src (64 * w.count) = true → inStack k.val w.dst (64 * w.unit) = true → clean w.src w.count →
        (packKv w.aux (data w.src w.count)).1.length ≤ 64 * w.unit → apart w.dst w.unit w.result 1 →
        done (.packKv k e) (toLE 8 (packKv w.aux (data w.src w.count)).2) ∧
        ∃ t, exec (.packKv k e) s = .next t
          ∧ t.dram.readN w.dst (packKv w.aux (data w.src w.count)).1.length = (packKv w.aux (data w.src w.count)).1) ∧
      (w.op = 7 → ∀ o, inStack k.val w.src (64 * w.count) = true → inStack k.val w.dst (64 * w.unit) = true →
        clean w.src w.count → unpackKv (data w.src w.count) = some o → o.length ≤ 64 * w.unit → apart w.dst w.unit w.result 1 →
        done (.unpackKv k e) (toLE 8 o.length) ∧
        ∃ t, exec (.unpackKv k e) s = .next t ∧ t.dram.readN w.dst o.length = o) ∧
      (w.op = 8 → inStack k.val w.src (64 * w.count) = true → clean w.src w.count →
        done (.crc64 k e) (bytesOf 8 (crc64Of (data w.src w.count)))))

/-- R383, R386 to R390, R397, R447, R551: SCRUB_START opens a scrub of an aligned range whose units are on, SCRUB_ABORT marks it, and
SCRUB_DONE writes the summary and its event; LEAK_TICK lowers a level by one; a stack an access woke goes back to self-refresh 1 ms after
its last access; a repaired weight word is written with its check bits once its bank is free, and a repair that times out holds the
record. That SCRUB_DONE names the start of its range is the model's choice (log entry 33), and so is that a stack is noted as used at the
sample in which an access is made (log entry 22). -/
def Obligations.ScrubsAndRepairs : Prop :=
  ∀ (src : OdSrc) (data : List Byte) (s : State),
    (s.takes src R.scrubStart data = true → s.scrub = none → s.reg R.scrubLength ≠ 0 → s.reg R.scrubOffset % 64 = 0 →
      s.reg R.scrubLength % 64 = 0 → s.reg R.scrubOffset + s.reg R.scrubLength ≤ spaceSize (s.reg R.scrubSpace) →
      s.rangeAwake (s.reg R.scrubSpace) (s.reg R.scrubOffset) (s.reg R.scrubLength) = true → s.reg R.jobState = 0 →
      let begun : State := { s.setReg R.scrubState 1 with
        scrub := some { space := s.reg R.scrubSpace, start := s.reg R.scrubOffset, off := s.reg R.scrubOffset,
                        len := s.reg R.scrubLength, wb := decide (s.reg R.scrubWriteBack = 1), aborted := false } }
      ∃ t, exec (.scrubStart src data) s = .next t ∧ { t with chans := s.chans, reqLost := s.reqLost } = begun.ok
        ∧ (∀ c, { t.chan c with clash := (s.chan c).clash } = s.chan c)
        ∧ (∃ l, t.reqLost = s.reqLost ++ l ∧ ∀ k ∈ l, ∃ y ∈ s.bgDone, y.1 = k)
        ∧ (s.reg R.scrubWriteBack ≠ 1 → t = begun.ok)) ∧
    (∀ x, s.takes src R.scrubAbort data = true → s.scrub = some x →
      exec (.scrubAbort src data) s = .next { s with scrub := some { x with aborted := true } }.ok) ∧
    (∀ x, s.scrub = some x → x.aborted = true →
      ∃ t, exec .scrubDone s = .next t ∧ t.scrub = none ∧ t.reg R.scrubState = 3 ∧ t.blob R.scrubSummary = x.sum.bytes 6
        ∧ t.logged 0x4005 (memUnit x.space x.start) (s.globalAddr x.space x.start) ∧ t.sram = s.sram ∧ t.dram = s.dram) ∧
    (∀ x, s.scrub = some x → x.aborted = false → x.len = 0 →
      ∃ t, exec .scrubDone s = .next t ∧ t.scrub = none ∧ t.reg R.scrubState = 2 ∧ t.blob R.scrubSummary = x.sum.bytes 0
        ∧ t.logged 0x4005 (memUnit x.space x.start) (s.globalAddr x.space x.start) ∧ t.sram = s.sram ∧ t.dram = s.dram) ∧
    (∀ c : Fin 28, s.reg (R.leakPeriodMs c.val) ≠ 0 →
      exec (.leakTick c) s = .next (s.setReg (R.ceLevel c.val) (s.reg (R.ceLevel c.val) - 1))) ∧
    (∀ c : Fin 28, s.reg (R.leakPeriodMs c.val) = 0 → exec (.leakTick c) s = .next s) ∧
    (∀ k : StackId,
      let recent := ∃ u, (s.stack k.val).lastUse = some u ∧ s.us < u + 1000
      (recent → exec (.stackSelfRefreshEntry k) s = .next s) ∧
      (¬ recent → ∃ t, exec (.stackSelfRefreshEntry k) s = .next t ∧ (t.stack k.val).wakePending = false
        ∧ (t.stack k.val).awake = (s.stack k.val).awake ∧ { t with palaz := s.palaz } = s
        ∧ ∀ q, q ≠ k.val → t.stack q = s.stack q)) ∧
    (∀ (r : RegionId) (d : BitVec 512) (w : Nat), s.repair = some w → w / 2 ^ 30 = r.val → s.memoryOk = true →
      ∃ t, exec (.weightRepaired r d) s = .next t ∧ (s.repairWait = [] → t.repair = none) ∧ t.logged 0x7075 r.val (s.globalAddr 0 w)
        ∧ t.memoryOk = true
        ∧ (s.bgReady w = true →
            (∀ a, t.sram.read a = if w ≤ a ∧ a < w + 64 then d.extractLsb' (8 * (a - w)) 8 else s.sram.read a)
            ∧ ∀ i < 64, t.sramChk.read (w + i) = sramCheck (t.sram.read (w + i)))
        ∧ (s.bgReady w = false → t.sram = s.sram
            ∧ ∃ x ∈ (t.region r.val).bg ++ (t.region r.val).bgWaiting, x.off = w ∧ x.data = d ∧ x.mask = BitVec.allOnes 64)) ∧
    (∀ w q, s.repair = some w → s.reg R.jobState = 3 → s.qrec = some q →
      ∃ t u, exec .weightRepairTimeout s = .next t ∧ t.qrec = some u ∧ u.p = max q.p 0xFFFFFFFFFFFF ∧ u.s = q.s ∧ u.a = q.a
        ∧ (s.repairWait = [] → t.repair = none ∧ ∀ x ∈ t.slots, x.kind ≠ 5) ∧ t.sram = s.sram)

/-- R70, R304, R399 to R401, R404, R405, R407, R410 to R417, R419, R421: DMA_START runs or arms an idle channel, DMA_STOP takes an armed one
back and stops a running one, whose events of the stop's slot do not count; the timers fire in their slots and run the channels they
trigger; a channel fetches its descriptor, moves up to 4 KiB of a local segment in its turn once the banks they need are free, and ends it
with the last of them; a segment that waited too long for an answer fails; the channel goes on to the next descriptor, and ends its chain
with the last, with a stop, or with a failed segment. That an access waits for all its banks, that the beat of R419 is the slot, and the
grain of a turn and that a segment's command takes its channel's own turn are the model's choices (log entries 20, 16, 35). -/
def Obligations.DmaChannels : Prop :=
  ∀ (src : OdSrc) (data : List Byte) (s : State), s.settles →
    (∀ c, c = s.reg R.channelSelect →
      (s.takes src (R.dmaStart 0) data = true → c < 64 → s.reg (R.dmaState c) = 0 → s.reg (R.dmaDescCount c) ≠ 0 →
        ∃ t, exec (.dmaStart src data) s = .next t ∧ t.answer = 0 ∧ (t.chan c).addr = s.reg (R.dmaHead c)
          ∧ (t.chan c).busy = false ∧ t.reg (R.descDone c) = 0
          ∧ t.reg (R.dmaState c) = (if s.reg (R.dmaTrigger c) = 0 then 2 else 1)
          ∧ (t.chan c).credit = decide (s.reg (R.dmaTrigger c) = 0)) ∧
      (s.takes src (R.dmaStop 0) data = true → c < 64 → s.reg (R.dmaState c) = 1 →
        ∃ t, exec (.dmaStop src data) s = .next t ∧ t.answer = 0 ∧ t.reg (R.dmaState c) = 0 ∧ t.reg (R.dmaStatus c) = 3) ∧
      (s.takes src (R.dmaStop 0) data = true → c < 64 → s.reg (R.dmaState c) = 2 → (s.chan c).busy = true →
        let now := s.frame * 4096 + s.slot
        ∃ t, exec (.dmaStop src data) s = .next t ∧ t.answer = 0 ∧ t.reg (R.dmaState c) = 2
          ∧ (∃ a n, t.chan c = { s.chan c with stopReq := true, stopAt := some now, evAt := a, evCount := n })
          ∧ t.reg (R.eventsIgnored c) = s.reg (R.eventsIgnored c) - if (s.chan c).evAt = some now then (s.chan c).evCount else 0)) ∧
    (∀ i, i = s.reg R.timerSelect →
      s.takes src (R.timerEnable 0) data = true → i < 16 → leNat data = 1 →
      ∃ t, exec (.dmaTimerEnable src data) s = .next t ∧ t.answer = 0 ∧ t.reg (R.timerEnable i) = 1
        ∧ t.reg (R.timerFires i) = 0
        ∧ Tab.get none t.timerNext i = some (s.reg (R.timerStartFrame i) * 4096 + s.reg (R.timerStartSlot i))) ∧
    (∀ (i : Fin 16) (n : Nat), Tab.get none s.timerNext i.val = some n → s.reg (R.timerEnable i.val) = 1 →
      n ≤ s.frame * 4096 + s.slot →
      ∃ t, exec (.dmaTimerFire i) s = .next t ∧ t.reg (R.timerFires i.val) = (s.reg (R.timerFires i.val) + 1) % 2 ^ 32
        ∧ (s.reg (R.timerPeriod i.val) = 0 → Tab.get (some n) t.timerNext i.val = none)
        ∧ (∀ c < 64, s.reg (R.dmaTrigger c) = 1 → s.reg (R.dmaTriggerSource c) = i.val → s.reg (R.dmaState c) = 1 →
            s.reg (R.dmaDescCount c) ≠ 0 → t.reg (R.dmaState c) = 2)
        ∧ t.sram = s.sram ∧ t.dram = s.dram) ∧
    (∀ (ch : ChanId) (l : List Byte) (t0 : State), s.reg (R.dmaState ch.val) = 2 → (s.chan ch.val).busy = false →
      (s.chan ch.val).credit = true → descAddr (s.chan ch.val).addr = true →
      let words := sramWords (bits (s.chan ch.val).addr 51 48) (bits (s.chan ch.val).addr 47 0) 48
      (∀ w ∈ words, s.bgReady w = true) → (s.bgTry [5, ch.val] words).1.readRange (s.chan ch.val).addr 48 = (l, [], t0) →
      let here := s.globalAddr (bits (s.chan ch.val).addr 51 48) (bits (s.chan ch.val).addr 47 0)
      (t0.setReg (R.currentDesc ch.val) here).descInvalid (descFields (ofBytes 512 l)) = false →
      (descFields (ofBytes 512 l)).len ≠ 0 →
      ∃ t, exec (.descriptorFetch ch) s = .next t ∧ t.reg (R.currentDesc ch.val) = here
        ∧ (t.chan ch.val).busy = true ∧ (t.chan ch.val).desc = ofBytes 512 l ∧ (t.chan ch.val).segDone = []
        ∧ (t.chan ch.val).sent = 0 ∧ (t.chan ch.val).flagged = false
        ∧ t.sram = s.sram ∧ t.dram = s.dram) ∧
    (∀ (ch : ChanId) (seg : Fin 64),
      let x := s.chan ch.val
      let d := descFields x.desc
      x.busy = true → seg.val < d.segs → (∀ y ∈ x.segDone, y.1 ≠ seg.val) →
      let o := (d.segRange seg.val).1
      let n := (d.segRange seg.val).2
      let local' : Prop := d.dstRemote = false ∧ d.srcRemote = false
      let at' := bits d.dst 47 0 + x.sent
      let from' := bits (d.src + x.sent) 47 0
      let k := min (4096 - (d.dst + x.sent) % 64) (o + n - x.sent)
      (local' → o + n ≤ x.sent →
        ∃ t, exec (.dmaSegmentDone ch seg 0) s = .next t
          ∧ Tab.get 0xFF (t.chan ch.val).segDone seg.val = Tab.get 0 x.segBad seg.val ∧ { t with chans := s.chans } = s) ∧
      (local' → o ≤ x.sent → x.sent < o + n → s.dmaNext ≠ some ch.val → exec (.dmaSegmentDone ch seg 0) s = .next s) ∧
      (local' → o ≤ x.sent → x.sent < o + n → s.dmaNext = some ch.val →
        (bits d.dst 51 48 = 0 → x.clash = [] → s.memoryOk = true →
          Tab.get 0 x.segBad seg.val = 0 → from' + k ≤ 2 ^ 48 → (∀ w ∈ d.words x.sent k, s.bgReady w = true) →
          (d.fill = false → bits (d.src + x.sent) 51 48 = 0
            ∧ ∀ j < k, (sramDecode (s.sram.read (from' + j)) (s.sramChk.read (from' + j))).2 = .clean) →
          ∃ t, exec (.dmaSegmentDone ch seg 0) s = .next t
            ∧ (t.chan ch.val).sent = x.sent + k ∧ t.dmaTurn = (ch.val + 1) % 64
            ∧ (if x.sent + k = o + n then Tab.get 0xFF (t.chan ch.val).segDone seg.val = 0
               else (t.chan ch.val).segDone = x.segDone)
            ∧ (∀ j < k, t.sram.read (at' + j)
                = if d.fill then BitVec.ofNat 8 (d.pattern / 256 ^ ((d.dst + x.sent + j) % 8)) else s.sram.read (from' + j))
            ∧ (∀ a, a < at' ∨ at' + k ≤ a → t.sram.read a = s.sram.read a)
            ∧ t.dram = s.dram ∧ t.memoryOk = true) ∧
        ((∀ y ∈ s.bgDone, y.1 ≠ [3, ch.val]) → (∃ w ∈ d.words x.sent k, s.bgReady w = false) →
          ∃ t, exec (.dmaSegmentDone ch seg 0) s = .next t ∧ { t with bgDone := s.bgDone, dmaTurn := s.dmaTurn } = s
            ∧ ∃ y ∈ t.bgDone, y.1 = [3, ch.val])) ∧
      (d.srcRemote = false → d.dstRemote = true → o + n ≤ x.sent → Tab.get 0 x.segOut seg.val = 0 →
        ∃ t, exec (.dmaSegmentDone ch seg 0) s = .next t
          ∧ Tab.get 0xFF (t.chan ch.val).segDone seg.val = Tab.get 0 x.segBad seg.val ∧ { t with chans := s.chans } = s) ∧
      (Tab.get 0 x.segOut seg.val ≠ 0 → Tab.get 0 x.segBad seg.val = 0 →
        ∃ t, exec (.dmaRemoteTimeout ch seg) s = .next t ∧ Tab.get 1 (t.chan ch.val).segOut seg.val = 0
          ∧ (∀ y, y ∈ t.slots ↔ y ∈ s.slots ∧ ¬ ((y.kind = 3 ∨ y.kind = 4 ∨ y.kind = 7) ∧ y.core = ch.val ∧ y.q = seg.val))
          ∧ (d.srcRemote = false → t.regs = s.regs ∧ t.sram = s.sram)
          ∧ (d.srcRemote = false ∨ (∀ w ∈ d.words o n, s.bgReady w = true) →
              Tab.get 0 (t.chan ch.val).segDone seg.val = 5)
          ∧ (d.srcRemote = true → (∃ w ∈ d.words o n, s.bgReady w = false) → (∀ y ∈ s.bgDone, y.1 ≠ [4, ch.val, seg.val]) →
              (t.chan ch.val).segDone = x.segDone ∧ Tab.get 0 (t.chan ch.val).segBad seg.val = 5 ∧ t.sram = s.sram
                ∧ t.dram = s.dram))) ∧
    (∀ ch : ChanId,
      let x := s.chan ch.val
      let d := descFields x.desc
      x.busy = true → d.segs ≤ x.segDone.length → s.reg (R.dmaState ch.val) = 2 →
      (∀ w ∈ sramWords (bits x.addr 51 48) (bits x.addr 47 0 + 48) 16, s.bgReady w = true) →
      ((∀ y ∈ x.segDone, y.2 = 0) → (d.last = true ∨ x.stopReq = true) →
        ∃ t, exec (.descriptorComplete ch) s = .next t ∧ t.reg (R.dmaState ch.val) = 0
          ∧ t.reg (R.dmaStatus ch.val) = (if x.stopReq then 3 else 0)
          ∧ t.reg (R.descDone ch.val) = (s.reg (R.descDone ch.val) + 1) % 2 ^ 32) ∧
      ((∀ y ∈ x.segDone, y.2 = 0) → d.last = false → x.stopReq = false → s.reg (R.dmaPaced ch.val) = 0 →
        (s.reg (R.dmaDescCount ch.val) = 0xFFFFFFFF ∨ x.ran + 1 < s.reg (R.dmaDescCount ch.val)) →
        ∃ t, exec (.descriptorComplete ch) s = .next t ∧ t.reg (R.dmaState ch.val) = 2 ∧ (t.chan ch.val).addr = d.next
          ∧ (t.chan ch.val).busy = false ∧ (t.chan ch.val).credit = true ∧ (t.chan ch.val).ran = x.ran + 1) ∧
      ((∃ y ∈ x.segDone, y.2 ≠ 0) →
        ∃ t, exec (.descriptorComplete ch) s = .next t ∧ t.reg (R.dmaState ch.val) = 0
          ∧ t.reg (R.dmaStatus ch.val) = (if ∃ y ∈ x.segDone, y.2 = 0 then 1 else 2)
          ∧ ∃ r, t.logged 0x6001 ch.val (dmaDetail r (s.globalAddr (bits x.addr 51 48) (bits x.addr 47 0)))))

/-! ## Clocks (12) -/

/-- R427, R428, R430 to R437, R440, R451: monitors set the ceilings; where changes are short stops (by the mode, or in the automatic mode
with at most four regions lit) a region that must change stops short and resumes at its frequency, or switches to its locked shadow PLL at
beat K, which moves by 256 where one has not locked; a PLL that unlocks stops its region; one that locks takes a new region out of reset; a
droop is counted; a held frame resumes once every region has come. The events that a frequency change and an unlock log, and when K is
chosen, are the model's choice where the rules name none (log entries 33, 56). -/
def Obligations.RegionClocks : Prop :=
  ∀ (r : RegionId) (s : State),
    (∀ temps ageing, s.kindled = true → s.settles →
      ∃ t, exec (.ceilingUpdate temps ageing) s = .next t ∧ ∀ q < 16,
        let g := max (s.reg (R.ageingGuardKhz q)) (ceilDiv (ageing.getD q 0) 12500 * 12500)
        let x := temps.getD q (s.region q).temp
        t.reg (R.ageingGuardKhz q) = g
          ∧ t.reg (R.ceilingKhz q)
            = min ((if x ≤ 94 then 1150 else if x ≤ 100 then 1150 - 25 * (x - 94).toNat else 800) * 1000) (1150000 - g) / 12500 * 12500
          ∧ (t.region q).temp = x) ∧
    ((s.region r.val).lit = true → (s.region r.val).inReset = false → (s.region r.val).shortStopTo = none →
      (s.reg R.freqChangeMode = 1 ∨ (s.reg R.freqChangeMode = 0 ∧ s.litList.length ≤ 4)) →
      s.reg (R.freqKhz r.val) ≠ s.wantKhz r.val →
      exec (.shortStop r) s = .next (s.modRegion r.val fun x => { x with shortStopTo := some (s.wantKhz r.val) })) ∧
    (∀ f, (s.region r.val).shortStopTo = some f →
      ∃ t, exec (.shortStopResume r) s = .next t ∧ (t.region r.val).shortStopTo = none ∧ t.reg (R.freqKhz r.val) = f
        ∧ (s.reg (R.freqKhz r.val) ≠ f → t.reg R.freqChanges = (s.reg R.freqChanges + 1) % 2 ^ 32 ∧ t.logged 0x5024 r.val f)) ∧
    (∀ f, (s.region r.val).shadowTo = some f →
      exec (.shadowPllLock r true) s = .next (s.modRegion r.val fun x => { x with shadowLocked := true }) ∧
      exec (.shadowPllLock r false) s = .next { s with kClock := s.kClock.map (· + 256) }) ∧
    (∀ k f, s.kClock = some k → s.native = true → (s.region r.val).shadowTo = some f → k ≤ (s.region r.val).clock →
      (∀ q < 16, q ≠ r.val → (s.region q).shadowTo = none) →
      ((s.region r.val).shadowLocked = false → exec .synchronisedSwitch s = .next { s with kClock := some (k + 256) }) ∧
      ((s.region r.val).shadowLocked = true → s.reg R.freqChangeMode = 1 →
        ∃ t, exec .synchronisedSwitch s = .next t ∧ t.reg (R.freqKhz r.val) = f ∧ (t.region r.val).shadowTo = none
          ∧ t.kClock = none)) ∧
    ((s.region r.val).lit = true → (s.region r.val).inReset = false → s.quiet →
      ∃ t, exec (.pllUnlock r) s = .next t ∧ (t.region r.val).shortStopTo = some (s.wantKhz r.val)
        ∧ t.reg R.lastFaultCause = 0x5022 ∧ t.logged 0x5022 r.val 0) ∧
    ((s.region r.val).lit = true → (s.region r.val).inReset = true →
      exec (.pllLock r) s = .next ((s.modRegion r.val fun x => { x with inReset := false }).setReg (R.freqKhz r.val) (s.wantKhz r.val))) ∧
    ((s.region r.val).clocked = true → ∀ n, exec (.droopStretch r n) s
      = .next (if s.reg R.jobState = 0 then s.setReg (R.droopEvents r.val) ((s.reg (R.droopEvents r.val) + 1) % 2 ^ 32)
          else (s.setReg (R.droopEvents r.val) ((s.reg (R.droopEvents r.val) + 1) % 2 ^ 32)).setReg (R.stretchedBeatsJob r.val)
            ((s.reg (R.stretchedBeatsJob r.val) + n) % 2 ^ 64))) ∧
    ((∀ q < 16, (s.region q).lit = true → (s.region q).running = true →
        (s.region q).frameHeld = true ∧ (s.region q).framesStarted ≤ s.frameIndex) →
      ∃ t, exec .frameHoldResume s = .next t ∧ ∀ q < 16, t.region q =
        if (s.region q).lit ∧ (s.region q).running then
          { s.region q with frameHeld := false, skewed := [], framesStarted := (s.region q).framesStarted + 1 }
        else s.region q)

/-! ## The scheduled fabric (05) -/

/-- R201 to R207, R215, R272, R274, R440, R492, R493, R538, R546, R555: a frame boundary with no image loaded only begins the next frame.
In a running job it counts the frame of the clause; after the clause's last frame it marks the step where the RUN bears a mark, each core
having issued its STEP, and takes the next entries: a RUN, the body of a REPEAT and its end, a PRELOAD, a SWAP, each in order or with an
earlier copy still running, or END, which ends the job, as the step limit does. The job's first frame starts the regions, or raises
START_LATE; at its quench boundary the part is QUENCHED, or its job ends; at frame P it runs the step again, or quenches anew; a recovery
run begins, goes on and ends. A clause copy that completes fills its half; a wrap of NT32 is counted. That a boundary comes whatever the
slot count, and that each wrap waits as one event, are the model's choices (log entries 7, 51); so are the bound of the walk over entries
without a frame (42), which no clause here reaches, and that a replay which a recovery run holds up is not ready (43). -/
def Obligations.FrameBoundaries : Prop :=
  ∀ s : State, s.awake = true →
    let n := (s.frame + 1) % 2 ^ 48
    let nt := (s.reg R.frameEpochNs + n * 5632) % 2 ^ 32
    let calm : Prop := s.reg R.slewRemaining = 0 ∧ s.switchTo = none ∧ s.stepPending = none ∧ s.native = true ∧ s.commitDue = false
      ∧ (∀ d < 2, s.reg (R.role d) = 1 → s.reg R.frameReference = d)
      ∧ ∀ p < 32, (s.reg (R.linkState p) = 5 → s.reg (R.width p) ≠ 1) ∧ (s.reg (R.linkState p) = 6 → (s.port p).switchAt = none)
    let boundary (P : State → Prop) : Prop := ∃ t, exec .frameBoundary s = .next t ∧ t.frame = n ∧ t.slot = 0 ∧ t.sram = s.sram ∧ P t
    let forever := 0xFFFFFFFF
    (calm → s.image = none → exec .frameBoundary s = .next { s with
      frame := n, slot := 0, subSlot := 0, nt32 := BitVec.ofNat 32 nt, ntFrac := 0, latched := BitVec.ofNat 32 nt
      wrapDue := s.wrapDue + if nt < s.nt32.toNat then 1 else 0 }) ∧
    (∀ i, calm → s.image = some i → i.legacy = false → s.reg R.runState = 0 → s.run = none → (∀ p < 32, s.halfWidth p = false) →
      s.reg R.activeHalf < 2 → s.halfSet.length = 2 → s.reg R.variantPorts = 0 →
      let entry (p : Nat) := i.seq.getD p 0
      let outside (l : List (Nat × Nat × Nat)) (p : Nat) : Prop := ∀ x ∈ l.head?, x.2.1 ≠ p
      let takes (t : State) (p : Nat) : Prop := t.seqPos = p + 1 ∧ t.reg R.sequencePosition = p ∧ t.reg R.frameInClause = 0
        ∧ t.reg R.activeClause = seqSlot (entry p) ∧ t.runMark = seqMark (entry p) ∧ t.sched = true ∧ t.reg R.jobState = 2
        ∧ ∀ c, (t.half (t.reg R.activeHalf))[seqSlot (entry p)]? = some c → t.runLeft = c.frames
      (s.reg R.jobState = 2 → s.qrec = none → s.sched = true →
        (1 < s.runLeft → s.reg R.activeClause < 8 → boundary fun t => t.runLeft = s.runLeft - 1 ∧ t.seqPos = s.seqPos ∧ t.sched = true
          ∧ t.reg R.frameInClause = s.reg R.frameInClause + 1 ∧ t.frameIndex = s.frameIndex + 1 ∧ t.reg R.jobState = 2
          ∧ t.reg R.activeClause = seqSlot (entry (s.reg R.sequencePosition))) ∧
        (s.runLeft = 1 → s.runMark = false →
          (outside s.reps s.seqPos →
            (seqOp (entry s.seqPos) = 1 → boundary fun t => takes t s.seqPos ∧ t.reps = s.reps) ∧
            (seqOp (entry s.seqPos) = 5 → s.reg R.ballastEnable = 1 → boundary fun t => t.reg R.jobState = 4 ∧ t.endPending = some 0
              ∧ t.sched = false ∧ t.uses = [] ∧ ∀ r < 16, (t.region r).running = false) ∧
            (seqOp (entry s.seqPos) = 2 →
              let lo := s.seqPos + 1
              let hi := lo + seqArg (entry s.seqPos)
              let k := seqCount (entry s.seqPos)
              (k = 0 → outside s.reps hi → seqOp (entry hi) = 1 → boundary fun t => takes t hi ∧ t.reps = s.reps) ∧
              (k ≠ 0 → lo < hi → seqOp (entry lo) = 1 →
                boundary fun t => takes t lo ∧ t.reps = (lo, hi, if k = forever then k else k - 1) :: s.reps)) ∧
            (outside s.reps (s.seqPos + 1) →
              (seqOp (entry s.seqPos) = 3 → seqOp (entry (s.seqPos + 1)) = 1 →
                (s.copy = none → boundary fun t => takes t (s.seqPos + 1) ∧ t.reg R.preloadState = 1
                  ∧ t.copy = some { set := seqArg (entry s.seqPos), half := 1 - s.reg R.activeHalf }) ∧
                (s.copy ≠ none → s.firstFault = false → boundary fun t => takes t (s.seqPos + 1) ∧ t.copy = s.copy
                  ∧ t.reg R.lastFaultCause = 0x7002 ∧ t.qrec.isSome = true)) ∧
              (seqOp (entry s.seqPos) = 4 →
                (s.copy = none → seqOp (entry (s.seqPos + 1)) = 1 → boundary fun t => takes t (s.seqPos + 1)
                  ∧ t.reg R.activeHalf = 1 - s.reg R.activeHalf ∧ t.reg R.preloadState = 0) ∧
                (s.copy ≠ none → s.firstFault = false → boundary fun t => t.reg R.activeHalf = s.reg R.activeHalf
                  ∧ t.sched = false ∧ t.copy = s.copy ∧ t.reg R.lastFaultCause = 0x7002 ∧ t.qrec.isSome = true)))) ∧
          (∀ lo hi k tl, s.reps = (lo, hi, k) :: tl → s.seqPos = hi → lo < hi →
            (k ≠ 0 → seqOp (entry lo) = 1 →
              boundary fun t => takes t lo ∧ t.reps = (lo, hi, if k = forever then k else k - 1) :: tl) ∧
            (k = 0 → outside tl hi → seqOp (entry hi) = 1 → boundary fun t => takes t hi ∧ t.reps = tl))) ∧
        (s.runLeft = 1 → s.runMark = true → outside s.reps s.seqPos → seqOp (entry s.seqPos) = 1 → s.uses = [] →
          (∀ p < 32, (s.port p).landing = []) → s.firstFault = false → s.replaying = none →
          let m := (s.reg R.fabricStepCounter + 1) % 2 ^ 64
          let limit : Prop := s.reg R.stepLimit ≠ 0 ∧ m = (s.reg R.firstStep + s.reg R.stepLimit) % 2 ^ 64
          let agree : Prop := ∀ c ∈ s.jobCores, (s.core c).halted = true ∨ (s.core c).step = BitVec.ofNat 64 m
          (agree → ¬ limit → boundary fun t => takes t s.seqPos ∧ t.reg R.fabricStepCounter = m ∧ t.qrec = none
            ∧ ∃ r : Restart, t.restarts = (r :: s.restarts).take 8 ∧ r.step = BitVec.ofNat 64 m ∧ r.pos = s.seqPos ∧ r.reps = s.reps
              ∧ r.active = s.reg R.activeHalf ∧ r.sets = s.wantedSets
              ∧ r.cores = s.jobCores.map fun c => (c, (s.core c).restartPc, (s.core c).restartLoops)) ∧
          (agree → limit → s.reg R.ballastEnable = 1 → boundary fun t => t.reg R.jobState = 4 ∧ t.endPending = some 1 ∧ t.sched = false) ∧
          (¬ agree → ¬ limit → boundary fun t => t.reg R.fabricStepCounter = m ∧ t.reg R.lastFaultCause = 0x7001
            ∧ t.qrec.isSome = true))) ∧
      (s.reg R.jobState = 1 → s.joinWait = none → s.reg R.startFrame ≤ n → s.qrec = none →
        (s.reg R.jobHoldW * 1000 ≤ s.h → s.rampAbandoned = false → s.slowRegion = none → s.halfSet.getD 0 0xFFFF = 0 →
          s.reg R.activeHalf = 0 → s.seqPos = 0 → s.reps = [] → seqOp (entry 0) = 1 →
          boundary fun t => takes t 0 ∧ t.jobFrame0 = n ∧ t.frameIndex = 0 ∧ t.restarts.length = 1
            ∧ ∀ r < 16, bit i.regions r = true → (s.region r).lit = true → (t.region r).running = true ∧ (t.region r).beat = 0) ∧
        (s.h < s.reg R.jobHoldW * 1000 ∨ s.rampAbandoned = true → boundary fun t => t.reg R.jobState = 2
          ∧ t.reg R.lastFaultCause = 0x7040 ∧ t.qrec.isSome = true)) ∧
      (∀ q, s.reg R.jobState = 2 → s.qrec = some q → q.stop ≤ n → s.runMark = false → s.reg R.ballastEnable = 1 →
        (q.isEnd = false → boundary fun t => t.reg R.jobState = 3 ∧ t.epoch = s.epoch + 1 ∧ t.sched = false ∧ t.uses = []
          ∧ t.qrec = some { q with stop := n } ∧ ∀ r < 16, (t.region r).running = false) ∧
        (q.isEnd = true → boundary fun t => t.reg R.jobState = 4 ∧ t.endPending = some q.cause ∧ t.qrec = none ∧ t.sched = false)) ∧
      (∀ q r, s.reg R.jobState = 3 → s.qrec = some q → q.isEnd = false → q.p ≤ n → s.restartOf q.s = some r →
        (s.ready r = true → s.copy = none → outside r.reps r.pos → seqOp (entry r.pos) = 1 → r.active < 2 →
          boundary fun t => takes t r.pos ∧ t.qrec = none ∧ t.reg R.fabricStepCounter = q.s.toNat ∧ t.reg R.activeHalf = r.active
            ∧ t.frameIndex = r.frame ∧ t.reg R.replaysJob = (s.reg R.replaysJob + 1) % 2 ^ 32 ∧ t.logged 0x7070 0xFF noDetail
            ∧ t.replaying = some (q.s, q.a)
            ∧ ∀ c ∈ s.jobCores, (t.core c).step = q.s ∧ (t.core c).v = [] ∧ (t.core c).a = []
              ∧ ∀ x, (r.cores.find? fun y => y.1 = c) = some x → (t.core c).pc = x.2.1 ∧ (t.core c).loops = x.2.2) ∧
        (s.ready r = false → q.a + 1 < s.reg R.replayLimit → boundary fun t => t.reg R.jobState = 3 ∧ t.logged 0x7076 0xFF noDetail
          ∧ ∃ u, t.qrec = some u ∧ u.s = q.s ∧ u.a = q.a + 1 ∧ u.cause = q.cause))) ∧
    (∀ i r, calm → s.image = some i → s.reg R.jobState = 0 → s.run = some r → (∀ p < 32, s.halfWidth p = false) →
      s.reg R.activeHalf < 2 →
      (s.reg R.runState = 1 → r.frame ≤ n →
        (s.runReady i r = true → (∃ c, (s.half (1 - s.reg R.activeHalf))[r.slot]? = some c) → boundary fun t => t.reg R.runState = 2
          ∧ t.reg R.activeHalf = 1 - s.reg R.activeHalf ∧ t.reg R.activeClause = r.slot ∧ t.sched = true
          ∧ t.reg R.fabricStepCounter = s.reg R.fabricStepCounter ∧ t.reg R.jobState = 0
          ∧ (∀ c, (s.half (1 - s.reg R.activeHalf))[r.slot]? = some c → t.run = some { r with left := r.count * c.frames })
          ∧ ∀ c ∈ s.jobCores, (t.core c).pc = r.entry ∧ (t.core c).step = BitVec.ofNat 64 (s.reg R.firstStep) ∧ (t.core c).loops = []) ∧
        (s.runReady i r = false → boundary fun t => t.reg R.runState = 4 ∧ t.run = none ∧ t.reg R.jobState = 0)) ∧
      (s.reg R.runState = 2 →
        (s.runFailed = false → 1 < r.left → boundary fun t => t.reg R.runState = 2 ∧ t.run = some { r with left := r.left - 1 }
          ∧ t.reg R.fabricStepCounter = s.reg R.fabricStepCounter) ∧
        (s.runFailed = true ∨ r.left ≤ 1 → boundary fun t => t.run = none ∧ t.sched = false ∧ t.reg R.jobState = 0
          ∧ (∀ q < 16, (t.region q).running = false)
          ∧ (if s.runFailed = true then t.reg R.runState = 4 else t.reg R.runState = 3 ∧ t.logged 0x7077 0xFF noDetail)))) ∧
    (∀ c i, s.copy = some c → s.image = some i → s.reg R.jobState = 2 → s.reg R.runState = 0 → c.half < 2 → s.halfSet.length = 2 →
      ∃ t, exec .clauseCopyComplete s = .next t ∧ t.copy = none ∧ t.half c.half = i.setOf c.set
        ∧ t.half (1 - c.half) = s.half (1 - c.half) ∧ t.halfSet = s.halfSet.set c.half c.set
        ∧ t.reg R.preloadState = if c.half = 1 - s.reg R.activeHalf then 2 else 0) ∧
    (0 < s.wrapDue → exec .wrapEvent s
      = .next ({ s with wrapDue := s.wrapDue - 1 }.setReg R.wrapCount ((s.reg R.wrapCount + 1) % 2 ^ 32)))

/-- R165, R173, R176 to R178, R181 to R185, R189, R191, R226, R227: a slot takes 1.375 ns of network time; in its slot a local send goes out
of the spine bridge, a forward goes out of its landing buffer and a landing enters the spine bridge, or waits as a pending use where its
flit is not there; a local send that has its flit 8 slots ahead takes it, one that has not raises SLOT_LATE; a slack slot, or one outside a
clause, sends a flit of the replay buffer again, else starts a message of the credit classes; a slack slot carries a port's pending forward
with its entry's slot and the late flag; a landing whose flit is there and whose turn has come enters the spine bridge and frees its flit; a
landed flit reaches its stream; a use past its deadline raises DEADLINE_MISS once. How ticks make the slots of a frame, that a slot outside
a clause is slack, when a miss repeats and what the SLOT_LATE record names are the model's choices (log entries 7, 26, 37, 67). -/
def Obligations.FabricSlots : Prop :=
  ∀ s : State,
    (s.awake = true → s.slot < 4096 → s.settles →
      let slotEnd := s.nt32.toNat * 65536 + s.ntFrac.toNat + (90112 - s.subSlot)
      ∃ t, exec .slotTick s = .next t ∧ t.slot = s.slot + 1 ∧ t.frame = s.frame ∧ t.subSlot = 0
        ∧ t.nt32.toNat * 65536 + t.ntFrac.toNat = slotEnd % 2 ^ 48
        ∧ t.wrapDue = s.wrapDue + if 2 ^ 48 ≤ slotEnd then 1 else 0) ∧
    (∀ (port : PortId) (c : Clause), s.onlyPort c port.val → s.noSendDue c → (s.entryNow c port.val).valid = true →
      let p := port.val
      let x := s.port p
      let e := s.entryNow c p
      let k := mapEntry c.sendMap e.number
      let l := mapEntry c.landMap e.number
      let m := useOf s.now e.hold (s.reg (R.readyOffsetAssumed e.input))
      let use : FUse := { slot := s.now, input := e.input, txSlot := m.1, frameLo := m.2, ports := e.outs
                          land := if bit e.mask 32 then some l else none, deadline := s.now + c.deadline, clause := c.number, late := false }
      let sent (t : State) (v : Vec) (period : Bool) : Prop :=
        flitPayload (t.port p).wire = v ∧ flitType (t.port p).wire = 1 ∧ fh (t.port p).wire 45 34 = s.slot
          ∧ fh (t.port p).wire 49 46 = s.frame % 16 ∧ fh (t.port p).wire 7 7 = period.toNat ∧ fh (t.port p).wire 70 70 = 0
          ∧ crcOk (t.port p).wire = true ∧ (t.port p).seqTx = x.seqTx + 1
          ∧ (t.port p).replay.map (·.seq) = x.replay.map (·.seq) ++ [x.seqTx]
      let free : Prop := e.outs = [p] ∧ s.canSend p = true ∧ s.carriesSched p = true ∧ x.outstanding < 512
      (∀ f, e.kind = 1 → free → (s.region (k.1 / 64)).bridgeOut = [f] → f.core = k.1 → f.stream = k.2 → f.claim = some s.now →
        ∃ t, exec .slotTick s = .next t ∧ sent t f.payload e.period ∧ (t.region (k.1 / 64)).bridgeOut = []) ∧
      (∀ g, e.kind = 2 → free → bit e.mask 32 = false → (s.port e.input).landing = [g] → g.txSlot = m.1 → g.frameLo = m.2 →
        g.ready ≤ s.now →
        ∃ t, exec .slotTick s = .next t ∧ sent t g.payload g.period ∧ t.uses = [] ∧ (t.port e.input).landing = []) ∧
      (∀ g, e.kind = 3 → e.outs = [] → bit e.mask 32 = true → (s.port e.input).landing = [g] → g.txSlot = m.1 → g.frameLo = m.2 →
        g.ready ≤ s.now →
        ∃ t, exec .slotTick s = .next t ∧ t.uses = [] ∧ (t.port e.input).landing = []
          ∧ (t.region (l.1 / 64)).spineIn = [{ core := l.1, stream := l.2, payload := g.payload, ready := s.now + 4 }]) ∧
      ((e.kind = 2 ∧ e.outs.head? = some p ∨ e.kind = 3) → s.flitFor use = none →
        ∃ t, exec .slotTick s = .next t ∧ t.uses = [{ use with pended := true }] ∧ t.reg R.pendingUses = (s.reg R.pendingUses + 1) % 2 ^ 32)) ∧
    (∀ (port : PortId) (c : Clause), s.onlyPort c port.val → (s.entryNow c port.val).valid = false → s.claimed = s.now + 8 →
      (∀ q < 32, q ≠ port.val → let e := entryFields (c.entry q (s.slot + 8)); e.valid = true → e.kind ≠ 1) →
      let e := entryFields (c.entry port.val (s.slot + 8))
      let k := mapEntry c.sendMap e.number
      let r := k.1 / 64
      e.valid = true → e.kind = 1 → e.outs.head? = some port.val →
      (∀ f, s.openFlit k.1 k.2 = some f → f.ready ≤ s.now →
        ∃ t, exec .slotTick s = .next t ∧ { f with claim := some (s.now + 8) } ∈ (t.region r).bridgeOut ∧ t.lateDebt = s.lateDebt
          ∧ t.reg R.lastFaultCause = s.reg R.lastFaultCause) ∧
      (s.openFlit k.1 k.2 = none → s.quiet →
        ∃ t, exec .slotTick s = .next t ∧ t.reg R.lastFaultCause = 0x1003
          ∧ t.logged 0x1003 r (coreDetail k.1 (72 * r + (s.region r).map.getD (k.1 % 64) 0) 3 (s.core k.1).pc (s.region r).beat)
          ∧ Tab.get 0 t.lateDebt (8 * k.1 + k.2) = Tab.get 0 s.lateDebt (8 * k.1 + k.2) + 1
          ∧ (if s.issuing r = true then (t.region r).stopping = true else (t.region r).stopped = true))) ∧
    (∀ port : PortId, s.stillSlot →
      let p := port.val
      let x := s.port p
      (s.runningClause = none ∨ ∃ c, s.onlyPort c p ∧ s.noSendDue c ∧ (s.entryNow c p).valid = true ∧ (s.entryNow c p).kind = 4) →
      s.canSend p = true → (∀ q < 32, q ≠ p → s.reg (R.linkState q) ≠ 7) →
      (∀ n e, x.resend = some n → (x.replay.find? fun y => y.seq = n) = some e → fh e.flit 19 8 = n.toNat →
        ∃ t, exec .slotTick s = .next t ∧ flitPayload (t.port p).wire = flitPayload e.flit ∧ fh (t.port p).wire 19 8 = n.toNat
          ∧ fh (t.port p).wire 45 34 = fh e.flit 45 34 ∧ fh (t.port p).wire 70 70 = 1 ∧ crcOk (t.port p).wire = true
          ∧ (t.port p).seqTx = x.seqTx ∧ t.reg R.slackReplays = (s.reg R.slackReplays + 1) % 2 ^ 32) ∧
      (∀ q, x.continOf = none → s.opDue p = false → s.nextMsg p = some q → x.outstanding < 512 →
        ∃ t, exec .slotTick s = .next t ∧ flitType (t.port p).wire = 2 ∧ fh (t.port p).wire 6 4 = q.msg.vc
          ∧ flitPayload (t.port p).wire = (msgFlits q.msg).headD 0 ∧ crcOk (t.port p).wire = true
          ∧ (t.port p).contin = (msgFlits q.msg).tail ∧ (t.port p).seqTx = x.seqTx + 1 ∧ (∀ y ∈ (t.port p).txq, y.stamp ≠ q.stamp)
          ∧ Tab.get 0 (t.port p).used (2 * (q.msg.vc - 1)) = Tab.get 0 x.used (2 * (q.msg.vc - 1)) + 1
          ∧ Tab.get 0 (t.port p).used (2 * (q.msg.vc - 1) + 1)
              = Tab.get 0 x.used (2 * (q.msg.vc - 1) + 1) + BitVec.ofNat 16 q.msg.units.length)) ∧
    (∀ (port : PortId) (c : Clause) (u : FUse) (f : Landed), s.awake = true → s.sched = true → s.runningClause = some c →
      (s.entryNow c port.val).valid = true → (s.entryNow c port.val).kind = 4 → s.canSend port.val = true →
      s.carriesSched port.val = true →
      (s.port port.val).resend = none → (s.port port.val).outstanding < 512 → s.pendingFor port.val = some (u, f) →
      s.uses = [u] → u.ports = [port.val] → u.land = none →
      ∃ t, exec (.pendingForward port) s = .next t ∧ t.uses = [] ∧ flitPayload (t.port port.val).wire = f.payload
        ∧ flitType (t.port port.val).wire = 1 ∧ fh (t.port port.val).wire 45 34 = u.slot % 4096
        ∧ fh (t.port port.val).wire 49 46 = u.slot / 4096 % 16 ∧ fh (t.port port.val).wire 70 70 = 1
        ∧ crcOk (t.port port.val).wire = true ∧ (t.port port.val).seqTx = (s.port port.val).seqTx + 1
        ∧ (t.port port.val).replay.map (·.seq) = (s.port port.val).replay.map (·.seq) ++ [(s.port port.val).seqTx]
        ∧ t.sram = s.sram ∧ t.dram = s.dram) ∧
    (∀ (port : PortId) (u : FUse) (core st : Nat) (f : Landed), s.uses = [u] → u.input = port.val → u.ports = [] →
      u.land = some (core, st) → s.flitFor u = some f → s.bridgeRoom (core / 64) = true →
      ∃ t, exec (.pendingLanding port) s = .next t ∧ t.uses = []
        ∧ (t.region (core / 64)).spineIn = (s.region (core / 64)).spineIn
            ++ [{ core := core, stream := st, payload := f.payload, ready := s.frame * 4096 + s.slot + 4 }]
        ∧ (∀ x ∈ (t.port port.val).landing, ¬ (x.txSlot = u.txSlot ∧ x.frameLo = u.frameLo)) ∧ t.sram = s.sram) ∧
    (∀ (r : RegionId) (f : BFlit), (s.region r.val).spineIn = [f] → f.core / 64 = r.val → f.ready ≤ s.frame * 4096 + s.slot →
      (Tab.get [] (s.core f.core).land f.stream).length < 8 →
      ∃ t, exec (.landingStreamArrival r) s = .next t ∧ (t.region r.val).spineIn = []
        ∧ Tab.get [] (t.core f.core).land f.stream
          = Tab.get [] (s.core f.core).land f.stream ++ [{ payload := f.payload, ready := (s.region r.val).beat }]
        ∧ { t with regions := s.regions } = s) ∧
    (∀ u, s.uses = [u] → u.deadline < s.frame * 4096 + s.slot → u.late = false → s.quiet →
      ∃ t, exec .deadlineMiss s = .next t ∧ t.uses = [{ u with late := true }]
        ∧ t.reg R.deadlineMisses = (s.reg R.deadlineMisses + 1) % 2 ^ 32 ∧ t.reg R.lastFaultCause = 0x2010
        ∧ t.logged 0x2010 (u.ports.head?.getD u.input) (u.slot % 4096 + u.clause % 65536 * 4096))

/-! ## The link (06) -/

/-- R221, R223 to R225, R227, R228, R230, R233 to R236, R238, R241, R246, R250, R256, R257, R262: what a port in UP does with what arrives:
a damaged flit, or one of unknown type, is counted and a gap requested; the next scheduled flit in order lands, and one ahead of it lands
too, is marked and requests a gap, where one of the credit classes is left for the replay; a flit accepted before is dropped as a duplicate;
one far ahead is a sequence error; the first flit of a message opens it in its class buffer, or completes it where it has no more than three
units, and its continuation completes it; one without a credit or a class is a credit violation; an idle flit returns every credit that
advances; a width request at full width is answered for the frame two on, or stands against the follower's own; a retrain request retrains
and keeps the landing buffer; a codeword's corrected symbols are counted, one beyond correction destroys its flits, and one without the
header's constant is nothing (the model's choice, log entry 27); a replay timeout, 1,455 slots after its timer started, goes back to the
flit after the last acknowledged one, and the eighth in a row retrains. -/
def Obligations.LinkReception : Prop :=
  ∀ (port : PortId) (f : BitVec 2176) (s : State), s.reg (R.linkState port.val) = 7 → s.commitDue = false →
    let x := s.port port.val
    let seq := BitVec.ofNat 12 (fh f 19 8)
    let d := (seq - x.rxE).toNat
    let m := firstMsg f
    let n := mf m 0 1
    let room : Prop := m.vc ≠ 0 ∧ Tab.get 0 x.own (2 * (m.vc - 1)) ≠ 0 ∧ n ≤ 64 ∧ Tab.get 0 x.rxHdr m.vc < hdrBuffer m.vc
      ∧ Tab.get 0 x.rxData m.vc + n ≤ dataBuffer m.vc
    let plain : Prop := crcOk f = true ∧ fh f 33 32 = 0 ∧ fh f 68 66 = 0 ∧ s.inBadWord port.val f = false
    (crcOk f = false ∨ 5 < flitType f → ∃ t, exec (.flitReceive port f) s = .next t ∧ t.port port.val = { x with gap := true }
      ∧ t.reg (R.crcErrors port.val) = (s.reg (R.crcErrors port.val) + 1) % 2 ^ 32 ∧ ∀ q, q ≠ port.val → t.port q = s.port q) ∧
    (plain → flitType f = 1 → d < 512 → x.rxMap.contains seq = false → (d = 0 → x.rxMap = []) → s.sched = true →
      s.carriesSched port.val = true → s.quenched (fh f 49 46) = false → x.landing.length < 256 →
      ∃ t e, exec (.flitReceive port f) s = .next t ∧ (t.port port.val).landing = x.landing ++ [e]
        ∧ e.payload = flitPayload f ∧ e.txSlot = fh f 45 34 ∧ e.frameLo = fh f 49 46 ∧ e.ready = s.frame * 4096 + s.slot
        ∧ (t.port port.val).rxE = (if d = 0 then x.rxE + 1 else x.rxE) ∧ (t.port port.val).gap = decide (d ≠ 0)
        ∧ (t.port port.val).rxMap = (if d = 0 then [] else seq :: x.rxMap) ∧ t.sram = s.sram) ∧
    (plain → 1 ≤ flitType f → flitType f ≤ 3 → (2048 ≤ d ∨ (d < 512 ∧ x.rxMap.contains seq = true)) →
      ∃ t, exec (.flitReceive port f) s = .next t ∧ t.port port.val = { x with gap := x.gap || decide (0 < d ∧ d < 512) }
        ∧ t.reg (R.duplicatesDropped port.val) = (s.reg (R.duplicatesDropped port.val) + 1) % 2 ^ 32) ∧
    (plain → 1 ≤ flitType f → flitType f ≤ 3 → 512 ≤ d → d < 2048 →
      ∃ t, exec (.flitReceive port f) s = .next t ∧ t.reg (R.linkState port.val) = 2 ∧ (t.port port.val).replay = []
        ∧ t.logged 0x2022 port.val (s.slot % 4096 + s.clauseNumber % 65536 * 4096)) ∧
    (plain → flitType f = 2 ∨ flitType f = 3 → 0 < d → d < 512 → x.rxMap.contains seq = false →
      ∃ t, exec (.flitReceive port f) s = .next t ∧ t.port port.val = { x with gap := true } ∧ t.mgmtQueue = s.mgmtQueue) ∧
    (plain → flitType f = 2 → isQuenchMsg m = false → d = 0 → x.rxMap = [] →
      let whole : Msg := { m with units := payloadUnits (flitPayload f) 64 n }
      (room → n ≤ 3 → m.vc ≤ 5 →
        ∃ t, exec (.flitReceive port f) s = .next t ∧ (t.port port.val).held = x.held ++ [(s.msgStamp, whole)]
          ∧ (t.port port.val).rxMsg = none ∧ (t.port port.val).rxE = x.rxE + 1 ∧ (t.port port.val).gap = false
          ∧ Tab.get 0 (t.port port.val).rxHdr m.vc = Tab.get 0 x.rxHdr m.vc + 1
          ∧ Tab.get 0 (t.port port.val).rxData m.vc = Tab.get 0 x.rxData m.vc + n) ∧
      (room → n ≤ 3 → m.vc = 6 → (∀ y ∈ x.held, y.1 ≠ s.msgStamp) →
        ∃ t, exec (.flitReceive port f) s = .next t ∧ (t.port port.val).held = x.held ∧ (t.port port.val).rxE = x.rxE + 1
          ∧ (if mf m 8 1 < 1 ∨ 3 < mf m 8 1 then t.mgmtQueue = s.mgmtQueue
             else if s.mgmtHeld < 256 then t.mgmtQueue = s.mgmtQueue ++ [(s.msgStamp, whole)]
             else t.mgmtQueue = s.mgmtQueue ∧ t.reg R.mgmtDiscards = (s.reg R.mgmtDiscards + 1) % 2 ^ 32)) ∧
      (room → 3 < n → m.vc ≤ 6 →
        ∃ t, exec (.flitReceive port f) s = .next t
          ∧ (t.port port.val).rxMsg = some { msg := { m with units := payloadUnits (flitPayload f) 64 3 }, left := n - 3 }
          ∧ (t.port port.val).held = x.held ∧ (t.port port.val).rxE = x.rxE + 1) ∧
      (¬ room → ∃ t, exec (.flitReceive port f) s = .next t ∧ t.reg (R.linkState port.val) = 2
        ∧ t.logged 0x2023 port.val (s.slot % 4096 + s.clauseNumber % 65536 * 4096))) ∧
    (∀ r, plain → flitType f = 3 → d = 0 → x.rxMap = [] → x.rxMsg = some r → fh f 6 4 ≠ 0 →
      Tab.get 0 x.own (2 * (fh f 6 4 - 1)) ≠ 0 →
      let msg : Msg := { r.msg with units := r.msg.units ++ payloadUnits (flitPayload f) 0 (min r.left 4) }
      (4 < r.left → ∃ t, exec (.flitReceive port f) s = .next t
        ∧ (t.port port.val).rxMsg = some { msg := msg, left := r.left - 4 } ∧ (t.port port.val).held = x.held) ∧
      (r.left ≤ 4 → r.msg.vc ≤ 5 → ∃ t, exec (.flitReceive port f) s = .next t ∧ (t.port port.val).rxMsg = none
        ∧ (t.port port.val).held = x.held ++ [(s.msgStamp, msg)])) ∧
    (plain → flitType f = 0 →
      ∃ t, exec (.idleControlFlit port f) s = .next t ∧ (∀ i < 14,
          let g := (flitPayload f).extractLsb' (16 * i) 16
          let old := Tab.get 0 x.grantIn i
          Tab.get 0 (t.port port.val).grantIn i = if 1 ≤ (g - old).toNat ∧ (g - old).toNat ≤ 32767 then g else old)
        ∧ (let d := (BitVec.ofNat 12 (fh f 19 8) - x.rxE).toNat
           (t.port port.val).gap = if 1 ≤ d ∧ d ≤ 512 then true else x.gap)
        ∧ (t.port port.val).rxE = x.rxE ∧ t.regs = s.regs) ∧
    (∀ half : Nat, plain → flitType f = 5 → vbyte (flitPayload f) 0 = 1 → (vbyte (flitPayload f) 1).toNat = half → half < 2 →
      s.reg (R.width port.val) = 4 → x.pendRetrain = false → x.lanesFailed = 0 → x.linkOp = none → x.switchAt = none →
      ∃ t, exec (.widthReq port f) s = .next t ∧ t.port port.val = { x with switchAt := some (s.frame + 2, half) }
        ∧ t.regs = s.regs) ∧
    (∀ half mine : Nat, plain → flitType f = 5 → vbyte (flitPayload f) 0 = 1 → (vbyte (flitPayload f) 1).toNat = half → half < 2 →
      s.reg (R.width port.val) = 4 → x.pendRetrain = false → x.linkOp = some (1, mine) → mine ≠ half → x.switchAt = none →
      (s.leads port.val = true → exec (.widthReq port f) s = .next s) ∧
      (s.leads port.val = false → (if half = 0 then bits x.lanesFailed.toNat 3 0 else bits x.lanesFailed.toNat 7 4) = 0 →
        ∃ t, exec (.widthReq port f) s = .next t
          ∧ t.port port.val = { x with switchAt := some (s.frame + 2, half), linkOp := none })) ∧
    (plain → flitType f = 5 → vbyte (flitPayload f) 0 = 2 →
      ∃ t, exec (.retrainReq port f) s = .next t ∧ t.reg (R.linkState port.val) = 2 ∧ (t.port port.val).replay = []
        ∧ (s.reg R.jobState = 0 → (t.port port.val).landing = x.landing)
        ∧ (t.port port.val).held = [] ∧ t.reg (R.trainAttempts port.val) = (s.reg (R.trainAttempts port.val) + 1) % 2 ^ 32) ∧
    (∀ (index : Nat) (sy : List (BitVec 10)), sy.length = 544 →
      ∃ t, exec (.codewordReceive port index sy) s = .next t ∧ match rs544Decode (sy.map (·.toNat)) with
        | some (c, pos) => if (codewordHeader c).2.2.2 ≠ 0xB then t = s else
            t.reg (R.fecUncorrectable port.val) = s.reg (R.fecUncorrectable port.val) ∧ (pos ≠ [] → t.reg (R.fecCorrectedSymbols port.val)
                = (s.reg (R.fecCorrectedSymbols port.val) + pos.length) % 2 ^ 64)
        | none => (t.port port.val).gap = true
            ∧ t.reg (R.fecUncorrectable port.val) = (s.reg (R.fecUncorrectable port.val) + 1) % 2 ^ 64
            ∧ ∃ b w, (x.rxSwitch = false → w = s.rxWidth port.val)
                ∧ (t.port port.val).destroyed = x.destroyed ++ (codewordSlots w index).map fun k => (k, b)) ∧
    (∀ a, x.replay ≠ [] → x.timer = some a → a + 1455 ≤ s.frame * 4096 + s.slot → 7 ≤ x.expiries →
      ∃ t, exec (.replayTimeout port) s = .next t ∧ t.reg (R.linkState port.val) = 2 ∧ (t.port port.val).replay = []
        ∧ t.logged 0x2021 port.val (s.slot % 4096 + s.clauseNumber % 65536 * 4096)) ∧
    (∀ a, x.replay ≠ [] → x.timer = some a → a + 1455 ≤ s.frame * 4096 + s.slot → x.outstanding ≠ 0 → x.expiries < 7 →
      ∃ t, exec (.replayTimeout port) s = .next t ∧ (t.port port.val).resend = some (x.ackPt + 1)
        ∧ (t.port port.val).expiries = x.expiries + 1 ∧ (t.port port.val).replay = x.replay
        ∧ t.reg (R.replayTimeouts port.val) = (s.reg (R.replayTimeouts port.val) + 1) % 2 ^ 32
        ∧ t.logged 0x2028 port.val (s.slot % 4096 + s.clauseNumber % 65536 * 4096))

/-- R179, R217, R224, R225, R245, R253 to R255, R257, R259 to R263, R270: a port trains from DOWN by SEEK, LOCK, IDENT, RATE and ALIGN to
UP, each step on its own event; in RATE it goes to full width at a frame boundary, and one that its lanes give a half takes that half in
ALIGN after a frame at full width; a flit that comes damaged, or of no known type, from IDENT on is counted; a timeout takes it down; a
failed lane of a full-width port asks for the good half, and the port takes that width at the agreed frame, its receive direction at the
codeword after; one whose other half has failed, a failed lane of a half width, a half width that has not decoded a frame after the switch,
a port reset and a newly enabled port train anew. That a port which would narrow onto a failed lane retrains is the model's choice (log
entry 25). -/
def Obligations.LinkTraining : Prop :=
  ∀ (port : PortId) (s : State), s.settles →
    let p := port.val
    let x := s.port p
    let st := s.reg (R.linkState p)
    (st = 1 → ∃ t, exec (.backoffExpiry port) s = .next t ∧ t.reg (R.linkState p) = 2 ∧ (t.port p).dark = false
      ∧ t.reg (R.trainAttempts p) = (s.reg (R.trainAttempts p) + 1) % 2 ^ 32) ∧
    (st = 2 → exec (.signalDetect port) s = .next (s.setReg (R.linkState p) 3)) ∧
    (st = 3 → ∀ lanes, exec (.lockComplete port lanes false) s
      = .next ((s.setPort p { x with lanes := lanes, idRun := 0, peerSeen := false }).setReg (R.linkState p) 4)) ∧
    (st = 4 → ∀ b : BitVec 512, s.blob (R.peerIdentity p) = bytesOf 64 b → x.idRun = 2 → x.peerSeen = true →
      s.manifest = [] → field (bytesOf 64 b) 5 1 = s.reg R.linkProtocolVersion / 256 →
      ∃ t, exec (.identityBlockReceive port b) s = .next t ∧ t.reg (R.portMode p) = 2 ∧ t.reg (R.heldReason p) = 0
        ∧ (if bit s.groupsOn (p / 4) then t.reg (R.linkState p) = 5 ∧ t.reg (R.width p) = s.reg (R.width p)
           else t.reg (R.linkState p) = 6 ∧ t.reg (R.width p) = 1
             ∧ t.reg (R.lanesGood p) = x.lanes.toNat &&& field (bytesOf 64 b) 3 1 &&& 0x11)) ∧
    (st = 5 → s.reg (R.width p) = 4 → ∀ rx tx : Byte,
      let g := (rx &&& tx).toNat
      let half : Option Nat := if g % 16 = 15 then some 0 else if g / 16 = 15 then some 1 else none
      exec (.rateComplete port rx tx) s = .next (if half = none then s else
        ((s.setReg (R.lanesGood p) g).modPort p fun y =>
          { y with rxWidth := 0, switchAt := if g = 0xFF then none else half.map fun h => (s.frame + 2, h) }).setReg (R.linkState p) 6)) ∧
    (s.awake = true → s.image = none → s.commitDue = false →
      (st = 5 → s.reg (R.width p) = 1 →
        ∃ t, exec .frameBoundary s = .next t ∧ t.reg (R.width p) = 4 ∧ t.reg (R.linkState p) = 5) ∧
      (∀ f h, st = 6 → x.switchAt = some (f, h) → f ≤ (s.frame + 1) % 2 ^ 48 →
        ∃ t, exec .frameBoundary s = .next t ∧ t.reg (R.width p) = 2 + h ∧ (t.port p).switchAt = none ∧ t.reg (R.linkState p) = 6)) ∧
    (st = 6 → ∀ (flight : Nat) (ph : Fin 16) (cr : List (BitVec 16)), s.reg (R.width p) ≠ 1 → x.switchAt = none → flight < 65535 →
      ∃ t, exec (.alignComplete port flight ph cr) s = .next t ∧ t.reg (R.linkState p) = 7 ∧ (t.port p).seqTx = 0
        ∧ (t.port p).rxE = 0 ∧ (t.port p).replay = [] ∧ (∀ i < 14, Tab.get 0 (t.port p).grantIn i = cr.getD i 0)
        ∧ t.reg (R.readyOffsetMeasured p) = max 1 (flight + if ph = 0 then 0 else 1) ∧ t.reg (R.phaseMeasured p) = ph.val) ∧
    (∀ f, 4 ≤ st → st ≤ 6 → s.commitDue = false → crcOk f = false ∨ 5 < flitType f →
      exec (.flitReceive port f) s = .next (s.setReg (R.crcErrors p) ((s.reg (R.crcErrors p) + 1) % 2 ^ 32))) ∧
    (3 ≤ st → st ≤ 6 → ∃ t, exec (.trainTimeout port) s = .next t ∧ t.reg (R.linkState p) = 1 ∧ (t.port p).dark = true
      ∧ t.logged 0x2029 p (0xFFFF * 4096)) ∧
    (∀ lane : Fin 8, st = 7 → s.reg (R.width p) = 4 → x.lanesFailed = 0 → x.switchAt = none → x.pendRetrain = false →
      ∃ t, exec (.laneFailed port lane) s = .next t ∧ t.reg (R.linkState p) = 7
        ∧ (t.port p).linkOp = some (1, if lane.val < 4 then 1 else 0) ∧ (t.port p).switchAt = none
        ∧ t.reg (R.lanesGood p) = setBit (s.reg (R.lanesGood p)) lane.val false
        ∧ t.logged 0x2027 p (s.slot % 4096 + s.clauseNumber % 65536 * 4096)) ∧
    (∀ lane : Fin 8, st = 7 →
      (s.reg (R.width p) = 4 ∧ (∃ j < 8, j / 4 ≠ lane.val / 4 ∧ bit x.lanesFailed.toNat j = true))
        ∨ s.reg (R.width p) = 2 + lane.val / 4 →
      ∃ t, exec (.laneFailed port lane) s = .next t ∧ t.reg (R.linkState p) = 2 ∧ (t.port p).replay = []) ∧
    (∀ f h, st = 7 → x.switchAt = some (f, h) → f ≤ s.frame → s.slot = 0 → s.reg (R.width p) ≠ 0 → h < 2 →
      (x.lanesFailed &&& (if h = 0 then 0x0F else 0xF0) = 0 →
        ∃ t, exec (.widthSwitch port) s = .next t ∧ t.reg (R.width p) = 2 + h ∧ (t.port p).switchAt = none
          ∧ (t.port p).linkOp = none ∧ (t.port p).switched = some s.now ∧ t.rxWidth p = s.rxWidth p
          ∧ (if s.clauseUses p then s.quiet → t.reg R.lastFaultCause = 0x2013 else t.log = s.log)) ∧
      (x.lanesFailed &&& (if h = 0 then 0x0F else 0xF0) ≠ 0 →
        ∃ t, exec (.widthSwitch port) s = .next t ∧ t.reg (R.linkState p) = 2 ∧ (t.port p).switchAt = none)) ∧
    (∀ a, st = 7 → (s.reg (R.width p) = 2 ∨ s.reg (R.width p) = 3) → x.switched = some a →
      (a + 4096 ≤ s.now →
        ∃ t, exec (.widthDecodeTimeout port) s = .next t ∧ t.reg (R.linkState p) = 2 ∧ (t.port p).replay = []) ∧
      (s.now < a + 4096 → exec (.widthDecodeTimeout port) s = .next s)) ∧
    (∀ src data, s.takes src (regKey 0x3000 4) data = true → leNat data = p → s.seqUses p = false →
      bit (s.reg R.portEnable) p = true →
      ∃ t, exec (.portReset src data) s = .next t ∧ t.answer = 0
        ∧ (if s.admitting.contains (.group (p / 4)) then t.reg (R.linkState p) = st ∧ p ∈ t.resetOwed
           else t.reg (R.linkState p) = 2 ∧ (t.port p).replay = [])) ∧
    (∀ src data, s.takes src R.portEnable data = true →
      ∃ t, exec (.portEnable src data) s = .next t ∧ t.answer = 0 ∧ t.reg R.portEnable = leNat data
        ∧ t.reg (R.linkState p) = (if bit (s.reg R.portEnable) p = bit (leNat data) p then st
            else if bit (leNat data) p then 2 else 0))

/-! ## Network time (07) -/

/-- R280 to R283, R287, R289: on a port that carries TIME, a Sync on its domain's slave port waits for its Follow_Up, which gives
the domain its offset; an Announce gives the grandmaster; a Pdelay_Req is answered at once; a Pdelay answer that belongs to the port's
exchange is kept, and the fourth whole exchange in a row gives the path delay. A message that came as a flit is taken from the TIME
sink with the receiver's own time and mark (R278); a delayed one is counted and not used, one of another version is discarded. The byte
offsets are those of IEEE 1588 (PRESUMED, log entry 53); how a command and a message in the sink belong together, what a domain keeps
of a measured offset and which identifiers are stamped are the model's choices (log entries 28, 52, 54). -/
def Obligations.TimeMessages : Prop :=
  ∀ (m : TimeMsg) (s : State), s.carriesTime m.port.val = true → s.settles →
    let p := m.port.val
    let rx := (s.heldTime m).rx
    let s' : State := { s with timeIn := s.timeIn.eraseP (isHeldTime m) }
    let d := ptpDomain m.bytes
    let used : Prop := ptpVersion m.bytes = 2 ∧ (s.heldTime m).delayed = false
    let slave : Prop := used ∧ d ≤ 1 ∧ s.reg (R.role d) = 2 ∧ s.reg (R.slavePort d) = p
    let exec' (ty : Nat) : Res := match ty with
      | 0 => exec (.sync m) s | 2 => exec (.pdelayReq m) s | 3 => exec (.pdelayResp m) s | 8 => exec (.followUp m) s
      | 10 => exec (.pdelayRespFollowUp m) s | _ => exec (.announce m) s
    (∀ ty ∈ [0, 2, 3, 8, 10, 11], (ptpVersion m.bytes ≠ 2 ∨ 1 < d) →
      exec' ty = .next (s'.setReg R.ptpDiscards ((s.reg R.ptpDiscards + 1) % 2 ^ 32))) ∧
    (∀ ty ∈ [0, 2, 3, 8, 10], ptpType m.bytes = ty → ptpVersion m.bytes = 2 → d ≤ 1 → (s.heldTime m).delayed = true →
      exec' ty = .next (s'.setReg (R.delayedDiscards p) ((s.reg (R.delayedDiscards p) + 1) % 2 ^ 32))) ∧
    (slave → ptpType m.bytes = 0 →
      exec (.sync m) s = .next (s'.setDom d { s.dom d with
        pendSync := some (ptpSeq m.bytes, stampOf rx % 2 ^ 48, ptpCorrection m.bytes), sinceSync := 0 })) ∧
    (slave → ptpType m.bytes = 8 → ∀ rx0 corr, (s.dom d).pendSync = some (ptpSeq m.bytes, rx0, corr) →
      let rx1 := (((rx0 : Int) + (s.dom d).sinceSync) % (2 ^ 48 : Int)).toNat
      (stampOf rx + 2 ^ 48 - rx1) % 2 ^ 48 ≤ s.syncInterval d → s.reg (R.pathDelay p) ≠ 0 →
      ∃ t, exec (.followUp m) s = .next t ∧ (t.dom d).pendSync = none
        ∧ (s.reg (R.domainState d) = 1 → (s.dom d).good < 15 → t.reg (R.domainState d) = 1)
        ∧ t.reg (R.domainOffset d) = twos 64 (ptpTime m.bytes + corr + ptpCorrection m.bytes + s.reg (R.pathDelay p)
          - (s.extendTime rx1 - (s.dom d).sinceSync))) ∧
    (slave → ptpType m.bytes = 11 →
      ∃ t, exec (.announce m) s = .next t ∧ t.blob (R.gmIdentity d) = slice m.bytes 53 8
        ∧ (t.dom d).announce = m.bytes.take 64 ∧ t.regs = s.regs) ∧
    (used → d ≤ 1 → ptpType m.bytes = 2 →
      ∃ t q, exec (.pdelayReq m) s = .next t ∧ (t.port p).txq = (s.port p).txq ++ [q] ∧ q.msg.vc = 7
        ∧ (t.port p).pdelayFrom = ptpSource m.bytes ++ slice m.bytes 30 2 ∧ (t.port p).pdelayCorr = ptpCorrection m.bytes
        ∧ (let b := bytesOf 64 (q.msg.units.headD 0)
           ptpType b = 3 ∧ ptpSeq b = ptpSeq m.bytes ∧ ptpCorrection b = -(s.extendTime (stampOf rx) % 65536)
             ∧ ptpTime b = (s.extendTime (stampOf rx)).toNat / 65536 * 65536 % (2 ^ 48 * 10 ^ 9 * 65536))) ∧
    (used → d ≤ 1 → ptpType m.bytes = 3 →
      ∃ t, exec (.pdelayResp m) s = .next t ∧ if s.answersPdelay m = true then
          (t.port p).pdelayT4 = some (stampOf rx % 2 ^ 48)
            ∧ (t.port p).pdelayT2 = some ((ptpTime m.bytes - ptpCorrection m.bytes) % (2 ^ 48 : Int)).toNat
        else t = s') ∧
    (used → d ≤ 1 → ptpType m.bytes = 10 → ∀ t1 t2 t4, (s.port p).pdelayT1 = some t1 → (s.port p).pdelayT2 = some t2 →
      (s.port p).pdelayT4 = some t4 → (s.port p).pdelayRuns = 3 →
      ∃ t, exec (.pdelayRespFollowUp m) s = .next t ∧ if s.answersPdelay m = true then
          (t.port p).pdelayRuns = 4 ∧ (t.port p).pdelayT1 = none ∧ (t.port p).pdelayOpen = false
            ∧ t.reg (R.pathDelay p) = (pathDelayOf t1 t2 ((ptpTime m.bytes + ptpCorrection m.bytes) % (2 ^ 48 : Int)).toNat t4
              (s.sreg (R.delayAsymmetryPs p) 32 * 65536 / 1000)).toNat
        else t = s')

/-- R276, R282 to R288, R290, R294, R295, R297: a LOCKED domain sends Sync and Announce on its master ports, every port that carries
TIME begins a delay exchange, a transmit timestamp joins the queue of 16 or is counted; a slave without its master is LOST; holdover
beyond its limit is a fault of the job; a slew ends; NT_SET steps the time between jobs, TIME_SELECT switches to a domain that may be
followed, and a role write sets the domain's state. What a step leaves within a slot, what is taken off a domain's offset when network
time moves and how the kind of an identifier is kept are the model's choices (log entries 51, 52, 54). -/
def Obligations.TimeKeeping : Prop :=
  ∀ (d : Fin 2) (s : State),
    (s.reg (R.role d.val) ≠ 0 → s.reg (R.domainState d.val) = 2 →
      (∃ t, exec (.syncTransmit d) s = .next t ∧ (t.dom d.val).seqSync = (s.dom d.val).seqSync + 1
        ∧ ∀ p ∈ s.masters d.val, ∃ q, (t.port p).txq = (s.port p).txq ++ [q] ∧ q.msg.vc = 7
          ∧ ptpType (bytesOf 64 (q.msg.units.headD 0)) = 0 ∧ ptpDomain (bytesOf 64 (q.msg.units.headD 0)) = d.val
          ∧ ptpSeq (bytesOf 64 (q.msg.units.headD 0)) = (s.dom d.val).seqSync) ∧
      ∃ t, exec (.announceTransmit d) s = .next t ∧ (t.dom d.val).seqAnnounce = (s.dom d.val).seqAnnounce + 1
        ∧ ∀ p ∈ s.masters d.val, ∃ q, (t.port p).txq = (s.port p).txq ++ [q] ∧ q.msg.vc = 7
          ∧ ptpType (bytesOf 64 (q.msg.units.headD 0)) = 11) ∧
    (∃ t, exec .pdelayReqTransmit s = .next t ∧ ∀ p < 32, s.carriesTime p = true →
      (t.port p).pdelaySeq = (s.port p).pdelaySeq + 1 ∧ (t.port p).pdelayT1 = none
        ∧ (t.port p).pdelayRuns = (if (s.port p).pdelayOpen then 0 else (s.port p).pdelayRuns) ∧ (t.port p).pdelayOpen = true
        ∧ ∃ q, (t.port p).txq = (s.port p).txq ++ [q] ∧ ptpType (bytesOf 64 (q.msg.units.headD 0)) = 2) ∧
    (∀ (port : PortId) (ident : BitVec 12) (x : Nat), s.tsq.length < 16 →
      ((s.port port.val).stamps.find? (fun y => y.1 = ident) = some (ident, x)
        ∨ (∀ y ∈ (s.port port.val).stamps, y.1 ≠ ident) ∧ x = s.nt32.toNat * 65536 + s.ntFrac.toNat) →
      ∃ t, exec (.transmitTimestamp port ident d) s = .next t ∧ t.tsq = s.tsq ++ [BitVec.ofNat 128
        (x / 65536 + x % 65536 / 1024 * 1024 * 2 ^ 32 + ident.toNat * 2 ^ 48 + port.val * 2 ^ 60
          + (if ident.toNat / 1024 = 0 then d.val else 0) * 2 ^ 65)]) ∧
    (∀ (port : PortId) (ident : BitVec 12), 16 ≤ s.tsq.length →
      ∃ t, exec (.transmitTimestamp port ident d) s = .next t ∧ t.tsq = s.tsq
        ∧ t.reg R.tsOverflows = (s.reg R.tsOverflows + 1) % 2 ^ 32
        ∧ (s.tsLoggedFrame ≠ some s.frame → t.logged 0x3007 d.val (twos 64 (s.domOffset d.val)))) ∧
    (s.reg (R.role d.val) = 2 → (s.reg (R.domainState d.val) = 1 ∨ s.reg (R.domainState d.val) = 2) →
      ∃ t, exec (.masterLost d) s = .next t ∧ t.reg (R.domainState d.val) = 3
        ∧ t.logged 0x3002 d.val (twos 64 (s.domOffset d.val))) ∧
    (s.holdover = true → s.quiet →
      ∃ t, exec .timeLost s = .next t ∧ t.reg R.lastFaultCause = 0x3006
        ∧ t.logged 0x3006 s.lastDom (twos 64 (s.domOffset s.lastDom))) ∧
    (let x := s.sreg R.slewRemaining 64
     let most := if x < 0 then 73834 else 73805
     (x.natAbs ≤ most → ∃ t, exec .slewComplete s = .next t ∧ t.reg R.slewRemaining = 0
        ∧ ∀ e < 2, s.reg (R.role e) ≠ 1 → t.domOffset e = s.domOffset e - x) ∧
     (most < x.natAbs → exec .slewComplete s = .next s)) ∧
    (∀ src data, s.takes src R.ntSet data = true → s.reg R.jobState = 0 → s.reg R.frameEpochNs ≤ leNat data →
      ∃ t, exec (.ntSet src data) s = .next t ∧ t.answer = 0 ∧ t.nt32 = BitVec.ofNat 32 (leNat data) ∧ t.ntFrac = 0
        ∧ t.frame = (leNat data - s.reg R.frameEpochNs) / 5632 % 2 ^ 48
        ∧ t.slot = (leNat data - s.reg R.frameEpochNs) % 5632 * 65536 / 90112
        ∧ t.subSlot = (leNat data - s.reg R.frameEpochNs) % 5632 * 65536 % 90112
        ∧ (∀ e < 2, s.reg (R.role e) = 1 → t.reg (R.domainOffset e) = 0) ∧ t.logged 0x3008 0 0) ∧
    (∀ src data, s.takes src R.timeSelect data = true → leNat data = d.val → s.reg R.frameReference ≠ d.val →
      s.switchable d.val = true →
      exec (.timeSelect src data) s = .next { s.setReg R.timeSelect d.val with switchTo := some d.val }.ok) ∧
    (∀ src data, s.takes src (R.role d.val) data = true → leNat data = 2 → s.reg (R.role d.val) = 0 →
      bit (s.reg (R.masterPorts d.val)) (s.reg (R.slavePort d.val)) = false → s.reg R.frameReference ≠ d.val →
      s.switchTo = none →
      ∃ t, exec (.domainRoleWrite src d data) s = .next t ∧ t.answer = 0 ∧ t.reg (R.role d.val) = 2
        ∧ t.reg (R.domainState d.val) = 1 ∧ (t.dom d.val).good = 0 ∧ t.reg R.frameReference = s.reg R.frameReference)

/-! ## Messages between parts (06, 08, 13) -/

/-- R70, R312 to R315, R382, R391, R395, R396, R405, R408, R539: a request of the epoch inside a window of the export map is served and
answered: a read with the words, a write with its words in memory, an engine item joins its engine's queue; the custody area serves the twin
alone; one outside is denied; one for whose words a bank or its tier's queue is not free waits (R70; that each word waits by itself is the
model's choice, log entry 20), and where another access that is outstanding touches its bytes its data is undefined (R72, R388, R396). A
reply frees its slot and brings its far request one message nearer to its end. -/
def Obligations.RemoteRequests : Prop :=
  ∀ (port : PortId) (m : Msg) (s : State), mf m 2 2 = s.chip → m.period = false → (∀ x ∈ (s.port port.val).held, x.2 ≠ m) →
    s.memoryOk = true →
    let off := bits (mf m 16 8) 47 0
    let space := bits (mf m 16 8) 51 48
    let n := mf m 24 1
    let afar : Prop := mf m 4 2 ≠ s.chip
    let sent (t : State) (status : Nat) (u : List (BitVec 512)) : Prop := afar → s.reaches 3 (mf m 4 2) → s.replied t m status u
    let asked : Prop := (m.vc = 1 ∨ m.vc = 2) ∧ bits (mf m 12 4) 31 30 = s.epoch.toNat ∧ malformedReq m = false
    let req : Prop := asked ∧ ∀ w ∈ sramWords space off (64 * n), s.bgReady w = true
    let apart : Prop := s.undisturbed port.val m
    let waits (r : Res) : Prop := ∃ t, r = .next t ∧ (∃ y ∈ t.bgDone, y.1 = [1, port.val, m.hdr.toNat])
      ∧ { t with bgDone := s.bgDone, reqLost := s.reqLost, chans := s.chans, palaz := s.palaz, regions := s.regions } = s
      ∧ (if s.anyClash (hdrSpans m.hdr.toNat) = true then [1, port.val, m.hdr.toNat] ∈ t.reqLost
         else t = { s with bgDone := t.bgDone })
    ((∃ w ∈ sramWords space off (64 * n), s.bgReady w = false) → (∀ y ∈ s.bgDone, y.1 ≠ [1, port.val, m.hdr.toNat]) →
      inWindows s.exports space off (64 * n) (decide (mf m 8 1 = 2)) = true → malformedReq m = false →
      (asked → mf m 8 1 = 1 → waits (exec (.reqRead port m) s)) ∧
      (asked → mf m 8 1 = 2 → waits (exec (.reqWrite port m) s)) ∧
      (m.vc = 5 → mf m 8 1 = 1 → waits (exec (.svcRead port m) s)) ∧
      (m.vc = 5 → mf m 8 1 = 2 → waits (exec (.svcWrite port m) s))) ∧
    (req → mf m 8 1 = 1 → space = 0 → inWindows s.exports 0 off (64 * n) false = true →
      (∀ i < 64 * n, (sramDecode (s.sram.read (off + i)) (s.sramChk.read (off + i))).2 = .clean) →
      ∃ t u, exec (.reqRead port m) s = .next t ∧ (afar → t.sram = s.sram ∧ t.dram = s.dram) ∧ u.length = n
        ∧ (apart → ∀ i < 64 * n, (u.getD (i / 64) 0).extractLsb' (8 * (i % 64)) 8 = s.sram.read (off + i)) ∧ sent t 0 u) ∧
    (asked → mf m 8 1 = 1 → inWindows s.exports space off (64 * n) false = false →
      ∃ t, exec (.reqRead port m) s = .next t ∧ t.reg R.remoteDenied = (s.reg R.remoteDenied + 1) % 2 ^ 32
        ∧ t.reg R.remoteDeniedLast = mf m 4 2 ∧ t.logged 0x2031 port.val (fabDetail s.slot s.clauseNumber)
        ∧ (afar → t.sram = s.sram ∧ t.dram = s.dram) ∧ sent t 1 []) ∧
    (req → mf m 8 1 = 2 → space = 0 → inWindows s.exports 0 off (64 * n) true = true → afar →
      ∃ t, exec (.reqWrite port m) s = .next t ∧ (∀ a, a < off ∨ off + 64 * n ≤ a → t.sram.read a = s.sram.read a)
        ∧ (apart → ∀ a, off ≤ a → a < off + 64 * n →
            t.sram.read a = (m.units.getD ((a - off) / 64) 0).extractLsb' (8 * ((a - off) % 64)) 8)
        ∧ t.dram = s.dram ∧ t.memoryOk = true ∧ sent t 0 []) ∧
    (req → mf m 8 1 = 3 → space = 1 → inWindows s.exports 1 off 64 true = true →
      let sp := s.itemSpans (m.units.headD 0)
      let it : Item := { bytes := m.units.headD 0, src := .remote (mf m 4 2) (BitVec.ofNat 32 (mf m 12 4)) m.vc, spans := sp,
                         undef := s.anyClash sp }
      let e := homeEngine it.bytes
      (Tab.get [] (s.stack (off / stackSize)).queues e).length < 16 →
      ∃ t, exec (.reqEngineItem port m) s = .next t ∧ (Tab.get [] (t.stack (off / stackSize)).queues e).map Item.unmarked
          = (Tab.get [] (s.stack (off / stackSize)).queues e).map Item.unmarked ++ [it.unmarked]
        ∧ (s.anyClash sp = false → Tab.get [] (t.stack (off / stackSize)).queues e
          = Tab.get [] (s.stack (off / stackSize)).queues e ++ [it])
        ∧ (Tab.get [] (t.stack (off / stackSize)).queues e).getLast? = some it ∧ t.dram = s.dram ∧ t.sram = s.sram) ∧
    (m.vc = 5 → malformedReq m = false → mf m 8 1 = 1 → space = 3 → off + 64 * n ≤ 0x30000 →
      ∃ t, exec (.svcRead port m) s = .next t ∧ (afar → t.sram = s.sram ∧ t.dram = s.dram)
        ∧ sent t 0 ((List.range n).map fun i => ofBytes 512 (s.aperture (off + 64 * i)))) ∧
    (m.vc = 5 → malformedReq m = false → mf m 8 1 = 2 → space = 1 → off + 64 * n ≤ 0x400000000 → afar →
      (mf m 4 2 = s.twin ∧ s.twin ≠ 0xFFFF ∧ s.reg R.jobState = 0 ∧ s.reg R.custodyHeld = 1 →
        ∃ t, exec (.svcWrite port m) s = .next t ∧ t.sram = s.sram ∧ t.memoryOk = true ∧ sent t 0 []
          ∧ (∀ a, a < off ∨ off + 64 * n ≤ a → t.dram.read a = s.dram.read a)
          ∧ (apart → ∀ a, off ≤ a → a < off + 64 * n →
              t.dram.read a = (m.units.getD ((a - off) / 64) 0).extractLsb' (8 * ((a - off) % 64)) 8)) ∧
      (mf m 4 2 ≠ s.twin → ∃ t, exec (.svcWrite port m) s = .next t ∧ t.dram = s.dram ∧ t.sram = s.sram ∧ sent t 1 [])) ∧
    (∀ (x : ReplySlot) (k : Fin 3), (m.vc = 3 ∨ m.vc = 4) → s.slots = [x] → x.answered = false → x.kind = k.val →
      mf m 8 1 = 0x81 + k.val → x.ident = BitVec.ofNat 32 (mf m 12 4) → x.chip = mf m 4 2 → bits (mf m 12 4) 31 30 = s.epoch.toNat → mf m 9 1 = 0 →
      ∀ g, s.farReq x.core x.q x.tag = some g →
      ∃ t, exec (match k with | 0 => .rspReadData port m | 1 => .rspWriteDone port m | 2 => .rspEngineDone port m) s = .next t
        ∧ t.slots = (if k = 0 then [{ x with answered := true }] else []) ∧ ∃ h, t.farReq x.core x.q x.tag = some h ∧ h.outstanding = g.outstanding - 1 ∧ h.sent = g.sent
          ∧ h.done = g.done ∧ t.dram = s.dram)

/-- R329, R330, R333, R486 to R488, R536, R540, R544: a message for another part goes on by its route, or is dropped and counted; a
CUSTODY message for other coordinates goes on with one hop more; a MGMT message of an op outside the list is discarded; a discovery
is reported once and flooded onwards; the part sends its own while it has no manifest; a QUENCH of another part is taken as the
record of a quiet job, once; a record that has waited too long is held for the control node. How a command and a queued message belong
together and the detail of RECOVERY_HELD are the model's choices (log entries 28, 33). -/
def Obligations.ManagementMessages : Prop :=
  ∀ (port : PortId) (m : Msg) (s : State),
    ((m.vc = 1 ∨ m.vc = 3) → mf m 2 2 ≠ s.chip → m.period = false → (∀ x ∈ (s.port port.val).held, x.2 ≠ m) →
      (bit (s.route (mf m 2 2 % 4096)) 8 = false → m.vc = 3 →
        ∃ t, exec (.messageForward port m) s = .next t ∧ t.reg R.routeDrops = (s.reg R.routeDrops + 1) % 2 ^ 32
          ∧ t.reg R.routeDropLast = mf m 2 2 % 4096 ∧ t.sram = s.sram) ∧
      (∀ p vc g, (∀ q : TxMsg, q.msg = m → q.arr = some port.val → s.routeChoice q = some ([p], vc, g)) → s.offers p vc = true →
        s.creditsFor p { m with vc := vc } = true →
        ∃ t q, exec (.messageForward port m) s = .next t ∧ (t.port p).txq = (s.port p).txq ++ [q]
          ∧ q.msg = { m with vc := vc } ∧ t.sram = s.sram ∧ t.dram = s.dram)) ∧
    (∀ r o, m.vc = 6 → mf m 8 1 = 3 → mf m 2 2 ≠ 0xFFFF → mf m 2 2 ≠ s.coords → mf m 9 1 < 127 → s.manifest ≠ [] →
      ((manifestRecs s.manifest).find? fun r => r.coord = mf m 2 2) = some r → (routeDir s.manifest s.chip r.chip).isSome = true →
      s.mgmtPort r.chip = some o → (∀ x ∈ s.mgmtQueue, x.2 ≠ m) →
      ∃ t q, exec (.messageForward port m) s = .next t ∧ (t.port o).txq = (s.port o).txq ++ [q] ∧ q.msg = hopOn m
        ∧ q.stamp = s.msgStamp ∧ q.arr = some port.val ∧ t.mgmtQueue = s.mgmtQueue) ∧
    (m.vc = 6 → (mf m 8 1 < 1 ∨ 3 < mf m 8 1) →
      exec (.messageForward port m) s = .next { s with mgmtQueue := s.mgmtQueue.eraseP fun x => x.2 == m }) ∧
    (m.vc = 6 → mf m 8 1 = 1 → mf m 2 2 = 0xFFFF → s.awake = true → mf m 9 1 < 127 →
      ∃ t, exec (.discovery port m) s = .next t ∧
        let known (u : State) : Bool := u.knowsFlood (BitVec.ofNat 64 (mf m 16 8)) (BitVec.ofNat 32 (mf m 12 4))
        if known s = true then t.reports = s.reports ∧ t.ports = s.ports
        else m ∈ t.reports ∧ known t = true ∧ t.reg R.floodsForwarded
          = (s.reg R.floodsForwarded + min 1 (s.mgmtPorts (some port.val)).length) % 2 ^ 32) ∧
    (s.awake = true → s.manifest = [] → ∃ t, exec .discoveryTransmit s = .next t ∧ t.floodSeq = s.floodSeq + 1
      ∧ (∃ x ∈ t.reports, x.units = s.discoveryUnits ∧ mf x 8 1 = 1) ∧ ∀ p < 32, s.reg (R.linkState p) = 7 → ∃ q, (t.port p).txq = (s.port p).txq ++ [q] ∧ q.msg.units.length = 32) ∧
    (isQuenchMsg m = true → s.awake = true → s.reg R.jobState = 2 → s.qrec = none → s.frame < mf m 28 6 →
      ∃ t, exec (.quench port m) s = .next t ∧
        if s.knowsFlood (BitVec.ofNat 64 (mf m 16 8)) (BitVec.ofNat 32 (mf m 12 4)) = true then t = s
        else ∃ q, t.qrec = some q ∧ q.s = BitVec.ofNat 64 (mf m 40 8) ∧ q.a = mf m 48 1 ∧ q.q = mf m 28 6 ∧ q.p = mf m 34 6
          ∧ q.cause = mf m 26 2 ∧ t.reg R.jobState = 2) ∧
    (∀ q, s.reg R.jobState = 3 → s.qrec = some q → q.p < 0xFFFFFFFFFFFF → s.readyFor q = false →
      s.reg R.recoveryWaitMs * 1000000 < (s.frame - q.q) * 5632 →
      ∃ t u, exec .recoveryHeld s = .next t ∧ t.qrec = some u ∧ u.p = 0xFFFFFFFFFFFF ∧ u.s = q.s ∧ u.a = q.a
        ∧ t.logged 0x7073 0xFF noDetail)

/-! ## Twin pairing (13) -/

/-- R500 to R505, R559: PAIR_REQUEST offers the weight image; an OFFER of the twin is accepted and its copy received; COMPLETE and
CHECK compare the copy's digest; CONFIRM makes the pairing, or ends a detachment; REFUSE, LOST, RELEASE and the timeout end it, and a
holder that waits past the timeout drops the copy and refuses with reason 5; a job refuses an OFFER; an adoption compares the digest
of its ranges. Which part a message's coordinates name, and what an OFFER of zero lengths is answered, are the model's choices (log
entry 57). -/
def Obligations.TwinPairing : Prop :=
  ∀ (m : Msg) (src : OdSrc) (data : List Byte) (s : State),
    let mine (op : Nat) : Prop := s.awake = true ∧ m.vc = 6 ∧ mf m 8 1 = 3 ∧ mf m 24 1 = op ∧ mf m 2 2 = s.coords
      ∧ s.fromTwin m = true ∧ s.mgmtTurn m = true
    (∀ i, s.takes src R.pairRequest data = true → s.image = some i → s.reg R.jobState = 0 → s.twin ≠ 0xFFFF → s.groupSeven = true →
      i.weights.length ≤ 252 →
      ∃ t, exec (.pairRequest src data) s = .next t ∧ t.answer = 0 ∧ t.reg R.custodyGiven = 1 ∧ t.pair = .offered
        ∧ t.offerDigest = (s.hashRanges i.weights).1 ∧ t.sram = s.sram) ∧
    (s.takes src R.detachRequest data = true → s.reg R.jobState = 0 → s.reg R.custodyGiven ≠ 1 →
      ∃ t, exec (.detachRequest src data) s = .next t ∧ t.answer = 0 ∧ t.pair = .checking ∧ t.detaching = true) ∧
    (s.takes src R.custodyRelease data = true → s.reg R.jobState = 0 → s.reg R.custodyHeld ≠ 0 →
      ∃ t, exec (.custodyRelease src data) s = .next t ∧ t.answer = 0 ∧ t.reg R.custodyHeld = 0
        ∧ t.reg R.heldSource = 0xFFFF ∧ t.heldRanges = []) ∧
    (mine 1 → s.reg R.jobState = 0 → offerRanges m ≠ [] → (∀ r ∈ offerRanges m, r.2 ≠ 0) →
      ∃ t, exec (.offer m) s = .next t ∧ t.reg R.custodyHeld = 1 ∧ t.reg R.heldSource = s.twin ∧ t.heldRanges = offerRanges m
        ∧ t.wantDigest = (bytesOf 64 (m.units.headD 0)).take 48) ∧
    (mine 1 → s.reg R.jobState ≠ 0 → ∃ t, exec (.offer m) s = .next t ∧ t.reg R.custodyHeld = s.reg R.custodyHeld
      ∧ t.heldRanges = s.heldRanges ∧ ∀ p, s.mgmtPort s.twin = some p →
        ∃ q, (t.port p).txq = (s.port p).txq ++ [q] ∧ mf q.msg 24 1 = 5 ∧ mf q.msg 25 1 = 1) ∧
    (mine 2 → s.image ≠ none → s.pair = .offered →
      ∃ t, exec (.accept m) s = .next t ∧ t.pair = .pushing) ∧
    (s.pair = .pushing → s.pushLeft = 0 → s.pushQueue = [] → ∃ t, exec .custodyPushDone s = .next t ∧ t.pair = .completed) ∧
    (mine 3 → s.reg R.custodyHeld = 1 →
      ∃ t, exec (.complete m) s = .next t ∧ (if s.hashCopy.1 = s.wantDigest then
          t.reg R.custodyHeld = 2 ∧ t.blob R.heldDigest = s.wantDigest
        else t.reg R.custodyHeld = 0 ∧ t.heldRanges = [])) ∧
    (mine 4 →
      (s.pair = .completed → ∃ t, exec (.confirm m) s = .next t ∧ t.reg R.custodyGiven = 2 ∧ t.blob R.givenDigest = s.offerDigest
        ∧ t.pair = .idle ∧ t.logged 0x7043 0xFF noDetail) ∧
      (s.pair = .checking → ∃ t, exec (.confirm m) s = .next t ∧ t.reg R.custodyGiven = 0 ∧ t.reg R.custodyHeld = 0
        ∧ t.pair = .idle ∧ t.logged 0x7047 0xFF noDetail)) ∧
    (mine 5 → s.pair ≠ .idle → s.detaching = false →
      ∃ t, exec (.refuse m) s = .next t ∧ t.pair = .idle ∧ t.reg R.custodyGiven = 3
        ∧ t.logged 0x7044 0xFF (0xFFFFFFFF + mf m 25 1 * 2 ^ 32)) ∧
    (mine 6 → 2 ≤ s.reg R.custodyHeld →
      ∃ t, exec (.check m) s = .next t ∧ t.reg R.custodyHeld
        = if s.hashCopy.1 = s.blob R.heldDigest then 3 else s.reg R.custodyHeld) ∧
    (mine 7 → ∃ t, exec (.release m) s = .next t ∧ t.reg R.custodyGiven = 0 ∧ t.pair = .idle
      ∧ (s.reg R.custodyHeld = 1 → t.reg R.custodyHeld = 0)) ∧
    (mine 8 → ∃ t, exec (.lost m) s = .next t ∧ t.reg R.custodyGiven = 0 ∧ t.pair = .idle
      ∧ t.reg R.custodyHeld = s.reg R.custodyHeld) ∧
    (s.pair ≠ .idle → s.detaching = false → ∃ t, exec .custodyTimeout s = .next t ∧ t.pair = .idle ∧ t.reg R.custodyGiven = 3
      ∧ t.logged 0x7044 0xFF (0xFFFFFFFF + 5 * 2 ^ 32)) ∧
    (s.pair = .idle → s.reg R.custodyHeld = 1 → ∃ t, exec .custodyTimeout s = .next t ∧ t.reg R.custodyHeld = 0 ∧ t.heldRanges = []
      ∧ ∀ p, (recOf s.manifest (s.reg R.heldSource)).isSome = true → s.mgmtPort (s.reg R.heldSource) = some p →
        ∃ q, (t.port p).txq = (s.port p).txq ++ [q] ∧ mf q.msg 24 1 = 5 ∧ mf q.msg 25 1 = 5) ∧
    (∀ i, s.image = some i → s.adopt = true →
      let rs := (adoptList (s.blob R.adoptRanges)).mergeSort fun x y => decide (x.1 ≤ y.1)
      ∃ t, exec .custodyAdopted s = .next t ∧ t.adopt = false ∧ if (s.hashRanges rs).1 = s.blob R.adoptDigest then
          t.reg R.custodyGiven = 2 ∧ t.image = some { i with weights := rs } ∧ t.logged 0x7078 0xFF noDetail
        else t.reg R.custodyGiven = 3 ∧ t.image = some i ∧ t.blob R.givenDigest = zeros 48)

/-! ## Glazin (13) -/

/-- R460, R462 to R467, R469, R475, R506: a frame that is damaged, of another EtherType, version or opcode, or addressed to any position and
any chip is discarded; a request for this part with a new or a late sequence number is served once, kept and answered on its port, READ and
BLOCK with the entry's bytes, WRITE by the same checks as OD_WRITE and BLOCK by those of its entry; a stored one is answered again and not
executed, any other is stale; one for another chip at this position is a mismatch; other requests, responses and events go on to the other
port, or are discarded where it is down; a beacon gives the part its position and goes on; what a link that comes up was owed is sent, and
a link that goes down is logged. That a request of a node other than 0 and 1 is discarded, that a wrong length answers 0x0302 through the
window and what a beacon towards a link that is down does are the model's readings (DEDUCED, log entry 23). -/
def Obligations.GlazinFrames : Prop :=
  ∀ (port : GPort) (f : GFrame) (s : State), s.awake = true →
    let other : GPort := if port = .a then .b else .a
    let own := BitVec.ofNat 8 (s.reg R.chainPosition)
    let discards (r : Res) : Prop := r = .next (s.setReg R.framesDiscarded ((s.reg R.framesDiscarded + 1) % 2 ^ 32))
    let asks : List (Byte × Res × GFrame) := [(1, exec (.read port f) s, f), (2, exec (.write port f) s, f),
      (3, exec (.blockRead port f) s, { f with flags := f.flags &&& 0xFD }), (3, exec (.blockWrite port f) s, { f with flags := f.flags ||| 2 })]
    let sound : Prop := f.fcsOk = true ∧ f.etherType = 0x88B5 ∧ f.version = 1 ∧ 1 ≤ f.opcode.toNat ∧ f.opcode.toNat ≤ 5
    let w : Window := Tab.get {} s.windows f.node.toNat
    let here : Prop := f.position = 0xFF ∨ f.position = own
    let this : Prop := f.chip = 0xFFFF ∨ f.chip.toNat = s.chip
    let any : Prop := f.position = 0xFF ∧ f.chip = 0xFFFF
    let request : Prop := sound ∧ f.flags.getLsbD 0 = false
    let mine : Prop := request ∧ here ∧ this ∧ ¬ any ∧ (f.node = 0 ∨ f.node = 1)
    let ahead (h : BitVec 16) : Bool := decide (1 ≤ (f.sequence - h).toNat ∧ (f.sequence - h).toNat ≤ 32767)
    let new : Prop := mine ∧ (w.high = none ∨ ∃ h, w.high = some h ∧ (ahead h = true ∨ ((h - f.sequence).toNat < 64
      ∧ (∀ x ∈ w.kept, x.1 ≠ f.sequence) ∧ ∀ x ∈ s.commitReply, ¬ (x.2.node = f.node ∧ x.2.sequence = f.sequence))))
    let high : BitVec 16 := match w.high with | none => f.sequence | some h => if ahead h then f.sequence else h
    let noted : Window := { high := some high, kept := w.kept.filter fun x => decide ((high - x.1).toNat < 64) }
    let ix := f.index.toNat
    let sub := f.sub.toNat
    let answers (g : GOut) (op : Byte) (status : Nat) (d : List Byte) : Prop :=
      g.port = port ∧ g.opcode = op ∧ g.f.status = BitVec.ofNat 16 status ∧ g.f.data = d ∧ g.f.length = d.length ∧ g.f.sequence = f.sequence
        ∧ g.f.node = f.node ∧ g.f.index = f.index ∧ g.f.sub = f.sub ∧ g.f.flags.getLsbD 0 = true ∧ g.f.position = own
        ∧ g.f.chip = BitVec.ofNat 16 s.chip
    let replies (t : State) (op : Byte) (status : Nat) (d : List Byte) : Prop :=
      ∃ g, t.gtx = s.gtx ++ [g] ∧ answers g op status d ∧ (Tab.get {} t.windows f.node.toNat : Window).high = some high
        ∧ (f.sequence, g) ∈ (Tab.get {} t.windows f.node.toNat : Window).kept
    (¬ sound → (∀ r ∈ asks, discards r.2.1) ∧ discards (exec (.event port f) s) ∧ discards (exec (.beacon port f) s)) ∧
    (request → any ∨ (here ∧ this ∧ f.node ≠ 0 ∧ f.node ≠ 1) → ∀ r ∈ asks, discards r.2.1) ∧
    (request → f.position = own → f.position ≠ 0xFF → ¬ this → ∀ r ∈ asks,
      ∃ g, r.2.1 = .next { s with gtx := s.gtx ++ [g] } ∧ answers g r.1 0x0103 []) ∧
    (sound → f.flags.getLsbD 0 = true ∨ (¬ here ∨ f.position = 0xFF ∧ ¬ this) → ∀ r ∈ asks,
      (s.gUp other = true → r.2.1 = .next { s with gtx := s.gtx ++ [{ port := other, opcode := r.1, f := r.2.2 }] }) ∧
      (s.gUp other = false → discards r.2.1)) ∧
    (∀ h, mine → w.high = some h → ahead h = false → ∀ r ∈ asks,
      (64 ≤ (h - f.sequence).toNat → ∃ g, r.2.1 = .next { s with gtx := s.gtx ++ [g] } ∧ answers g r.1 0x0104 []) ∧
      (∀ x, (h - f.sequence).toNat < 64 → (w.kept.find? fun y => y.1 == f.sequence) = some x →
        r.2.1 = .next { s.setReg R.duplicatesAnswered ((s.reg R.duplicatesAnswered + 1) % 2 ^ 32) with
          gtx := s.gtx ++ [{ x.2 with port := port }] })) ∧
    (new → f.data = [] → f.length = 0 → ∀ e, odFind ix sub = some e → lockedRange ix = false → e.acc ≠ .wo →
      regKey ix sub ∉ [R.testChallenge, R.tsPop, R.quote] → (s.odBytes e).length ≤ 8192 →
      ∃ t, exec (.read port f) s = .next t ∧ replies t 1 0 (s.odBytes e) ∧ t.regs = s.regs) ∧
    (new → f.data.length ≠ f.length ∨ f.data ≠ [] → ∃ t, exec (.read port f) s = .next t ∧ replies t 1 0x0302 [] ∧ t.regs = s.regs) ∧
    (new → s.reg R.txnOwner = 2 → f.data.length = f.length → f.length ≤ 8192 → lockedRange ix = false → blockOnly ix sub = false →
      odFind ix sub = none →
      ∃ t, exec (.write port f) s = .next t ∧ t.regs = s.regs ∧ replies t 2 (if (odFind ix 0).isSome then 0x0102 else 0x0101) []) ∧
    (new → f.data = [1] → f.length = 1 → regKey ix sub = regKey 0x2103 1 → s.reg R.txnOwner = 2 →
      ∃ t, exec (.write port f) s = .next t ∧ t.alertLow = false ∧ replies t 2 0 []) ∧
    (new → f.data.length = f.length → f.length ≤ 8192 → regKey ix sub ∉ [R.txnCommit, regKey 0x2500 1, regKey 0x2500 2] →
      ∀ u, exec (.odWrite (if f.node = 1 then .node1 else .node0) ix sub f.data)
          { s with windows := Tab.set s.windows f.node.toNat noted } = .next u → u.awake = true →
        ∃ g, exec (.write port f) s = .next { u with
            gtx := u.gtx ++ [g]
            windows := Tab.set u.windows f.node.toNat ((Tab.get {} u.windows f.node.toNat : Window).keep f.sequence g) }
          ∧ g.port = port ∧ g.opcode = 2 ∧ g.f.status = BitVec.ofNat 16 u.answer ∧ g.f.data = [] ∧ g.f.sequence = f.sequence) ∧
    (new → f.data = [] → 1 ≤ f.length → f.length ≤ 8192 → ∀ e, odFind ix sub = some e → lockedRange ix = false → e.acc ≠ .wo →
      regKey ix sub ∉ [R.testChallenge, R.tsPop, R.quote] →
      ∃ t, exec (.blockRead port f) s = .next t ∧ t.regs = s.regs ∧ if f.offset + f.length ≤ (s.odBytes e).length
        then replies t 3 0 (((s.odBytes e).drop f.offset).take f.length) else replies t 3 0x0302 []) ∧
    (∀ l, new → f.data ≠ [] → f.data.length = f.length → regKey ix sub = R.imageStream → s.reg R.txnOwner = 2 →
      s.loading = some l → f.offset = 0 → f.total = l.len → f.length < 128 → 128 ≤ l.len →
      ∃ t u, exec (.blockWrite port f) s = .next t ∧ replies t 3 0 [] ∧ t.loading = some u ∧ u.got = f.data
        ∧ t.reg R.bytesReceived = f.length) ∧
    (sound → (s.gUp other = true → exec (.event port f) s = .next { s with gtx := s.gtx ++ [{ port := other, opcode := 4, f := f }] }) ∧
      (s.gUp other = false → discards (exec (.event port f) s))) ∧
    (sound →
      let p := f.position.toNat
      let n := f.chainLength.toNat
      let on : Bool := decide ((port = .a ∧ p + 1 < n) ∨ (port = .b ∧ 1 ≤ p))
      let next : GFrame := { f with position := if port = .a then f.position + 1 else f.position - 1 }
      (n ≤ p → discards (exec (.beacon port f) s)) ∧
      (p < n → ∃ t, exec (.beacon port f) s = .next t ∧ t.reg R.chainPosition = p ∧ t.reg R.chainLength = n
        ∧ (s.reg R.chainPosition ≠ p → t.reg R.positionChanges = (s.reg R.positionChanges + 1) % 2 ^ 32 ∧ t.logged 0x704A 0xFF noDetail)
        ∧ (s.reg R.chainPosition = p →
            t.gtx = if on && s.gUp other then s.gtx ++ [{ port := other, opcode := 5, f := next }] else s.gtx)
        ∧ (on = true → s.gUp other = false → f.flags.getLsbD 2 = true →
            Tab.get none t.heldBeacon (gIdx other) = some next ∧ t.wakeTx = s.wakeTx ++ [other]))) ∧
    exec (.beaconHoldExpiry port) s
      = .next { s with heldBeacon := Tab.set s.heldBeacon (if port = .a then 0 else 1) none } ∧
    (Tab.get none s.heldBeacon (gIdx port) = none →
      exec (.glazinLinkUp port) s = .next (s.setReg (if port = .a then R.portAUp else R.portBUp) 1)) ∧
    (∀ b, Tab.get none s.heldBeacon (gIdx port) = some b →
      ∃ t, exec (.glazinLinkUp port) s = .next t ∧ t.gUp port = true ∧ t.gtx = s.gtx ++ [{ port := port, opcode := 5, f := b }]
        ∧ Tab.get none t.heldBeacon (gIdx port) = none) ∧
    (s.gUp port = false → exec (.glazinPortDown port) s = .next s) ∧
    (s.gUp port = true → ∃ t, exec (.glazinPortDown port) s = .next t ∧ t.gUp port = false ∧ t.logged 0x7048 0xFF noDetail)

/-! ## The whole part -/

/-- Log entry 1: a step with a command waiting runs the command at the front of the queue on the state with the rest of the queue. -/
def Obligations.StepRunsFrontCommand : Prop :=
  ∀ (c : Instr) (rest : List Instr) (s : State), s.pending = c :: rest → step s = exec c { s with pending := rest }

/-- R516 to R518 and log entries 2 and 3: after the power-on reset nothing is written in any memory, which reads 0 with valid check bits, every
register but the blade readings has its default, the part is in Banked with no job, no link up and no command waiting. -/
def Obligations.ResetState : Prop :=
  State.reset.pending = [] ∧ State.reset.memoryOk = true ∧ State.reset.power = .banked ∧ State.reset.boot = .none
    ∧ (∀ a, State.reset.sram.read a = 0 ∧ State.reset.dram.read a = 0
        ∧ sramDecode (State.reset.sram.read a) (State.reset.sramChk.read a) = (0, .clean))
    ∧ (∀ k, k ∉ [R.bladeAMv, R.bladeBMv, R.bladePresent] → State.reset.reg k = regDefault k)
    ∧ (∀ c < 1024, State.reset.core c = {}) ∧ (∀ p < 32, State.reset.reg (R.linkState p) = 0)
    ∧ State.reset.reg R.jobState = 0 ∧ State.reset.reg R.endCause = 0xFFFF ∧ State.reset.reg R.txnOwner = 2

/-- R373 to R376, R379, R380: a byte's stored check bits, with at most one bit of the thirteen changed, decode to the byte; with two
changed the byte is uncorrectable. A 64-byte stack word with at most one symbol of a codeword changed decodes to the word. -/
def Obligations.CheckCodes : Prop :=
  (∀ d : Byte, sramDecode d (sramCheck d) = (d, .clean)) ∧
  (∀ (d : Byte) (i : Fin 13),
    let w : BitVec 13 := (d.setWidth 13 ||| (sramCheck d).setWidth 13 <<< 8) ^^^ (1 <<< i.val)
    sramDecode (w.setWidth 8) ((w >>> 8).setWidth 8) = (d, .fixed)) ∧
  (∀ (d : Byte) (i j : Fin 13), i ≠ j →
    let w : BitVec 13 := (d.setWidth 13 ||| (sramCheck d).setWidth 13 <<< 8) ^^^ (1 <<< i.val) ^^^ (1 <<< j.val)
    (sramDecode (w.setWidth 8) ((w >>> 8).setWidth 8)).2 = .bad) ∧
  (∀ d : List Byte, d.length = 64 → rsWord d (rsCheckBytes d) = (d, 0, false)) ∧
  (∀ (d : List Byte) (i : Fin 64) (x : Byte), d.length = 64 → x ≠ 0 →
    (rsWord (d.set i.val (d.getD i.val 0 ^^^ x)) (rsCheckBytes d)).1 = d
      ∧ (rsWord (d.set i.val (d.getD i.val 0 ^^^ x)) (rsCheckBytes d)).2.2 = false)

/-- An invariant that every step keeps: the memories stay in their canonical form, whose unlisted bytes read 0 with valid check bits. Each
step takes exactly the command at the front of the queue, and answers a next state from every state. The form, what an unlisted byte
reads and the queue are the model's choices (log entries 1, 2). -/
def Obligations.StepKeepsMemories : Prop :=
  ∀ s : State, s.memoryOk = true → ∃ t, step s = .next t ∧ t.memoryOk = true ∧ t.pending = s.pending.tail

end
end

