-- ==== Sys2Proof/Laws/State.lean ====
section
/-! SUPPORT. The state's stores: reading after writing, and what each update leaves alone, one lemma for each field. -/

namespace Sys2Proof.Machine

/-! ## Tables -/

@[simp] theorem tab_get_set {α : Type} (d : α) (t : Tab α) (k : Nat) (v : α) (j : Nat) :
    Tab.get d (Tab.set t k v) j = if j = k then v else Tab.get d t j := by
  induction t with
  | nil => simp [Tab.set, Tab.get, eq_comm (a := k)]
  | cons x t ih =>
    obtain ⟨i, w⟩ := x
    simp only [Tab.set]
    split
    · next h => subst h; by_cases h : j = i <;> simp [Tab.get, h, eq_comm]
    · next h =>
      split
      · by_cases hj : j = k
        · simp [Tab.get, hj]
        · simp [Tab.get, hj, Ne.symm hj]
      · simp only [Tab.get, ih]
        by_cases hj : j = k
        · subst hj; simp [h]
        · simp [hj]

@[simp] theorem tab_get_nil {α : Type} (d : α) (k : Nat) : Tab.get d ([] : Tab α) k = d := rfl

/-! ## Stores -/

theorem dflt_setReg (s : State) (k v j : Nat) : (s.setReg k v).dflt j = s.dflt j := rfl

@[simp] theorem reg_setReg (s : State) (k v j : Nat) : (s.setReg k v).reg j = if j = k then v else s.reg j := by
  simp [State.reg, State.setReg, State.dflt, State.cfgValue]

@[simp] theorem blob_setReg (s : State) (k v j : Nat) : (s.setReg k v).blob j = s.blob j := rfl

@[simp] theorem blob_setBlob (s : State) (k : Nat) (l : List Byte) (j : Nat) :
    (s.setBlob k l).blob j = if j = k then l else s.blob j := by
  simp [State.blob, State.setBlob, State.cfgValue]

@[simp] theorem reg_setBlob (s : State) (k : Nat) (l : List Byte) (j : Nat) : (s.setBlob k l).reg j = s.reg j := rfl

@[simp] theorem region_setRegion (s : State) (r : Nat) (x : Region) (q : Nat) :
    (s.setRegion r x).region q = if q = r then x else s.region q := by
  simp [State.region, State.setRegion]

@[simp] theorem port_setPort (s : State) (p : Nat) (x : Port) (q : Nat) :
    (s.setPort p x).port q = if q = p then x else s.port q := by
  simp [State.port, State.setPort]

@[simp] theorem stack_setStack (s : State) (k : Nat) (x : Stack) (q : Nat) :
    (s.setStack k x).stack q = if q = k then x else s.stack q := by
  simp [State.stack, State.setStack]

@[simp] theorem chan_setChan (s : State) (c : Nat) (x : Chan) (q : Nat) :
    (s.setChan c x).chan q = if q = c then x else s.chan q := by
  simp [State.chan, State.setChan]

@[simp] theorem dom_setDom (s : State) (d : Nat) (x : Dom) (q : Nat) :
    (s.setDom d x).dom q = if q = d then x else s.dom q := by
  simp [State.dom, State.setDom]

theorem modRegion_eq (s : State) (r : Nat) (f : Region → Region) : s.modRegion r f = s.setRegion r (f (s.region r)) := rfl

theorem modPort_eq (s : State) (p : Nat) (f : Port → Port) : s.modPort p f = s.setPort p (f (s.port p)) := rfl

theorem modStack_eq (s : State) (k : Nat) (f : Stack → Stack) : s.modStack k f = s.setStack k (f (s.stack k)) := rfl

theorem modChan_eq (s : State) (c : Nat) (f : Chan → Chan) : s.modChan c f = s.setChan c (f (s.chan c)) := rfl

theorem modCore_eq (s : State) (c : Nat) (f : Core → Core) : s.modCore c f = s.setCore c (f (s.core c)) := rfl

theorem region_setCore (s : State) (c : Nat) (k : Core) (q : Nat) :
    (s.setCore c k).region q
      = if q = c / 64 then { s.region q with cores := Tab.set (s.region q).cores (c % 64) k } else s.region q := by
  by_cases h : q = c / 64 <;> simp [State.setCore, State.modRegion, h]

theorem core_setCore (s : State) (c : Nat) (k : Core) (c' : Nat) :
    (s.setCore c k).core c' = if c' = c then k else s.core c' := by
  unfold State.core
  rw [region_setCore]
  by_cases h : c' = c
  · subst h; simp
  · by_cases hr : c' / 64 = c / 64
    · have : c' % 64 ≠ c % 64 := by omega
      simp [hr, this, h]
    · simp [hr, h]

theorem region_modRegion (s : State) (r : Nat) (f : Region → Region) (q : Nat) :
    (s.modRegion r f).region q = if q = r then f (s.region q) else s.region q := by
  by_cases h : q = r <;> simp [State.modRegion, h]

theorem core_modCore (s : State) (c : Nat) (f : Core → Core) (c' : Nat) :
    (s.modCore c f).core c' = if c' = c then f (s.core c') else s.core c' := by
  by_cases h : c' = c <;> simp [modCore_eq, core_setCore, h]

/-! ## What `setReg` leaves alone -/

@[simp] theorem pending_setReg (s : State) (k v : Nat) : (s.setReg k v).pending = s.pending := rfl
@[simp] theorem blobs_setReg (s : State) (k v : Nat) : (s.setReg k v).blobs = s.blobs := rfl
@[simp] theorem freeCtr_setReg (s : State) (k v : Nat) : (s.setReg k v).freeCtr = s.freeCtr := rfl
@[simp] theorem answer_setReg (s : State) (k v : Nat) : (s.setReg k v).answer = s.answer := rfl
@[simp] theorem answerData_setReg (s : State) (k v : Nat) : (s.setReg k v).answerData = s.answerData := rfl
@[simp] theorem power_setReg (s : State) (k v : Nat) : (s.setReg k v).power = s.power := rfl
@[simp] theorem boot_setReg (s : State) (k v : Nat) : (s.setReg k v).boot = s.boot := rfl
@[simp] theorem inputSwitch_setReg (s : State) (k v : Nat) : (s.setReg k v).inputSwitch = s.inputSwitch := rfl
@[simp] theorem bladeA_setReg (s : State) (k v : Nat) : (s.setReg k v).bladeA = s.bladeA := rfl
@[simp] theorem bladeB_setReg (s : State) (k v : Nat) : (s.setReg k v).bladeB = s.bladeB := rfl
@[simp] theorem mvSumA_setReg (s : State) (k v : Nat) : (s.setReg k v).mvSumA = s.mvSumA := rfl
@[simp] theorem mvSumB_setReg (s : State) (k v : Nat) : (s.setReg k v).mvSumB = s.mvSumB := rfl
@[simp] theorem maSum_setReg (s : State) (k v : Nat) : (s.setReg k v).maSum = s.maSum := rfl
@[simp] theorem msSamples_setReg (s : State) (k v : Nat) : (s.setReg k v).msSamples = s.msSamples := rfl
@[simp] theorem refclk_setReg (s : State) (k v : Nat) : (s.setReg k v).refclk = s.refclk := rfl
@[simp] theorem alertLow_setReg (s : State) (k v : Nat) : (s.setReg k v).alertLow = s.alertLow := rfl
@[simp] theorem resetLow_setReg (s : State) (k v : Nat) : (s.setReg k v).resetLow = s.resetLow := rfl
@[simp] theorem resetInBanked_setReg (s : State) (k v : Nat) : (s.setReg k v).resetInBanked = s.resetInBanked := rfl
@[simp] theorem bootCause_setReg (s : State) (k v : Nat) : (s.setReg k v).bootCause = s.bootCause := rfl
@[simp] theorem shutdownTo_setReg (s : State) (k v : Nat) : (s.setReg k v).shutdownTo = s.shutdownTo := rfl
@[simp] theorem h_setReg (s : State) (k v : Nat) : (s.setReg k v).h = s.h := rfl
@[simp] theorem load_setReg (s : State) (k v : Nat) : (s.setReg k v).load = s.load := rfl
@[simp] theorem ballast_setReg (s : State) (k v : Nat) : (s.setReg k v).ballast = s.ballast := rfl
@[simp] theorem admitting_setReg (s : State) (k v : Nat) : (s.setReg k v).admitting = s.admitting := rfl
@[simp] theorem remove_setReg (s : State) (k v : Nat) : (s.setReg k v).remove = s.remove := rfl
@[simp] theorem litOrder_setReg (s : State) (k v : Nat) : (s.setReg k v).litOrder = s.litOrder := rfl
@[simp] theorem windowUsed_setReg (s : State) (k v : Nat) : (s.setReg k v).windowUsed = s.windowUsed := rfl
@[simp] theorem winSum_setReg (s : State) (k v : Nat) : (s.setReg k v).winSum = s.winSum := rfl
@[simp] theorem loadSum_setReg (s : State) (k v : Nat) : (s.setReg k v).loadSum = s.loadSum := rfl
@[simp] theorem rampAbandoned_setReg (s : State) (k v : Nat) : (s.setReg k v).rampAbandoned = s.rampAbandoned := rfl
@[simp] theorem groupsOn_setReg (s : State) (k v : Nat) : (s.setReg k v).groupsOn = s.groupsOn := rfl
@[simp] theorem warmDue_setReg (s : State) (k v : Nat) : (s.setReg k v).warmDue = s.warmDue := rfl
@[simp] theorem runFailed_setReg (s : State) (k v : Nat) : (s.setReg k v).runFailed = s.runFailed := rfl
@[simp] theorem warned_setReg (s : State) (k v : Nat) : (s.setReg k v).warned = s.warned := rfl
@[simp] theorem uartRx_setReg (s : State) (k v : Nat) : (s.setReg k v).uartRx = s.uartRx := rfl
@[simp] theorem uartTx_setReg (s : State) (k v : Nat) : (s.setReg k v).uartTx = s.uartTx := rfl
@[simp] theorem wakeTx_setReg (s : State) (k v : Nat) : (s.setReg k v).wakeTx = s.wakeTx := rfl
@[simp] theorem tap_setReg (s : State) (k v : Nat) : (s.setReg k v).tap = s.tap := rfl
@[simp] theorem boundary_setReg (s : State) (k v : Nat) : (s.setReg k v).boundary = s.boundary := rfl
@[simp] theorem testBlock_setReg (s : State) (k v : Nat) : (s.setReg k v).testBlock = s.testBlock := rfl
@[simp] theorem sram_setReg (s : State) (k v : Nat) : (s.setReg k v).sram = s.sram := rfl
@[simp] theorem sramChk_setReg (s : State) (k v : Nat) : (s.setReg k v).sramChk = s.sramChk := rfl
@[simp] theorem dram_setReg (s : State) (k v : Nat) : (s.setReg k v).dram = s.dram := rfl
@[simp] theorem dramChk_setReg (s : State) (k v : Nat) : (s.setReg k v).dramChk = s.dramChk := rfl
@[simp] theorem regions_setReg (s : State) (k v : Nat) : (s.setReg k v).regions = s.regions := rfl
@[simp] theorem slots_setReg (s : State) (k v : Nat) : (s.setReg k v).slots = s.slots := rfl
@[simp] theorem nextIdent_setReg (s : State) (k v : Nat) : (s.setReg k v).nextIdent = s.nextIdent := rfl
@[simp] theorem restarts_setReg (s : State) (k v : Nat) : (s.setReg k v).restarts = s.restarts := rfl
@[simp] theorem kClock_setReg (s : State) (k v : Nat) : (s.setReg k v).kClock = s.kClock := rfl
@[simp] theorem ports_setReg (s : State) (k v : Nat) : (s.setReg k v).ports = s.ports := rfl
@[simp] theorem frame_setReg (s : State) (k v : Nat) : (s.setReg k v).frame = s.frame := rfl
@[simp] theorem slot_setReg (s : State) (k v : Nat) : (s.setReg k v).slot = s.slot := rfl
@[simp] theorem nt32_setReg (s : State) (k v : Nat) : (s.setReg k v).nt32 = s.nt32 := rfl
@[simp] theorem ntFrac_setReg (s : State) (k v : Nat) : (s.setReg k v).ntFrac = s.ntFrac := rfl
@[simp] theorem latched_setReg (s : State) (k v : Nat) : (s.setReg k v).latched = s.latched := rfl
@[simp] theorem wrapDue_setReg (s : State) (k v : Nat) : (s.setReg k v).wrapDue = s.wrapDue := rfl
@[simp] theorem subSlot_setReg (s : State) (k v : Nat) : (s.setReg k v).subSlot = s.subSlot := rfl
@[simp] theorem timeIn_setReg (s : State) (k v : Nat) : (s.setReg k v).timeIn = s.timeIn := rfl
@[simp] theorem half0_setReg (s : State) (k v : Nat) : (s.setReg k v).half0 = s.half0 := rfl
@[simp] theorem half1_setReg (s : State) (k v : Nat) : (s.setReg k v).half1 = s.half1 := rfl
@[simp] theorem halfSet_setReg (s : State) (k v : Nat) : (s.setReg k v).halfSet = s.halfSet := rfl
@[simp] theorem copy_setReg (s : State) (k v : Nat) : (s.setReg k v).copy = s.copy := rfl
@[simp] theorem seqPos_setReg (s : State) (k v : Nat) : (s.setReg k v).seqPos = s.seqPos := rfl
@[simp] theorem reps_setReg (s : State) (k v : Nat) : (s.setReg k v).reps = s.reps := rfl
@[simp] theorem runLeft_setReg (s : State) (k v : Nat) : (s.setReg k v).runLeft = s.runLeft := rfl
@[simp] theorem runMark_setReg (s : State) (k v : Nat) : (s.setReg k v).runMark = s.runMark := rfl
@[simp] theorem sched_setReg (s : State) (k v : Nat) : (s.setReg k v).sched = s.sched := rfl
@[simp] theorem uses_setReg (s : State) (k v : Nat) : (s.setReg k v).uses = s.uses := rfl
@[simp] theorem claimed_setReg (s : State) (k v : Nat) : (s.setReg k v).claimed = s.claimed := rfl
@[simp] theorem stepHist_setReg (s : State) (k v : Nat) : (s.setReg k v).stepHist = s.stepHist := rfl
@[simp] theorem jobFrame0_setReg (s : State) (k v : Nat) : (s.setReg k v).jobFrame0 = s.jobFrame0 := rfl
@[simp] theorem schedFrom_setReg (s : State) (k v : Nat) : (s.setReg k v).schedFrom = s.schedFrom := rfl
@[simp] theorem frameIndex_setReg (s : State) (k v : Nat) : (s.setReg k v).frameIndex = s.frameIndex := rfl
@[simp] theorem doms_setReg (s : State) (k v : Nat) : (s.setReg k v).doms = s.doms := rfl
@[simp] theorem tsq_setReg (s : State) (k v : Nat) : (s.setReg k v).tsq = s.tsq := rfl
@[simp] theorem tsLoggedFrame_setReg (s : State) (k v : Nat) : (s.setReg k v).tsLoggedFrame = s.tsLoggedFrame := rfl
@[simp] theorem switchTo_setReg (s : State) (k v : Nat) : (s.setReg k v).switchTo = s.switchTo := rfl
@[simp] theorem stepPending_setReg (s : State) (k v : Nat) : (s.setReg k v).stepPending = s.stepPending := rfl
@[simp] theorem holdover_setReg (s : State) (k v : Nat) : (s.setReg k v).holdover = s.holdover := rfl
@[simp] theorem lastDom_setReg (s : State) (k v : Nat) : (s.setReg k v).lastDom = s.lastDom := rfl
@[simp] theorem image_setReg (s : State) (k v : Nat) : (s.setReg k v).image = s.image := rfl
@[simp] theorem loading_setReg (s : State) (k v : Nat) : (s.setReg k v).loading = s.loading := rfl
@[simp] theorem epoch_setReg (s : State) (k v : Nat) : (s.setReg k v).epoch = s.epoch := rfl
@[simp] theorem qrec_setReg (s : State) (k v : Nat) : (s.setReg k v).qrec = s.qrec := rfl
@[simp] theorem firstFault_setReg (s : State) (k v : Nat) : (s.setReg k v).firstFault = s.firstFault := rfl
@[simp] theorem faultHist_setReg (s : State) (k v : Nat) : (s.setReg k v).faultHist = s.faultHist := rfl
@[simp] theorem replaying_setReg (s : State) (k v : Nat) : (s.setReg k v).replaying = s.replaying := rfl
@[simp] theorem joinWait_setReg (s : State) (k v : Nat) : (s.setReg k v).joinWait = s.joinWait := rfl
@[simp] theorem formerLight_setReg (s : State) (k v : Nat) : (s.setReg k v).formerLight = s.formerLight := rfl
@[simp] theorem formerStacks_setReg (s : State) (k v : Nat) : (s.setReg k v).formerStacks = s.formerStacks := rfl
@[simp] theorem run_setReg (s : State) (k v : Nat) : (s.setReg k v).run = s.run := rfl
@[simp] theorem adopt_setReg (s : State) (k v : Nat) : (s.setReg k v).adopt = s.adopt := rfl
@[simp] theorem repair_setReg (s : State) (k v : Nat) : (s.setReg k v).repair = s.repair := rfl
@[simp] theorem repaired_setReg (s : State) (k v : Nat) : (s.setReg k v).repaired = s.repaired := rfl
@[simp] theorem repairWait_setReg (s : State) (k v : Nat) : (s.setReg k v).repairWait = s.repairWait := rfl
@[simp] theorem endPending_setReg (s : State) (k v : Nat) : (s.setReg k v).endPending = s.endPending := rfl
@[simp] theorem jobIssued_setReg (s : State) (k v : Nat) : (s.setReg k v).jobIssued = s.jobIssued := rfl
@[simp] theorem quenchOut_setReg (s : State) (k v : Nat) : (s.setReg k v).quenchOut = s.quenchOut := rfl
@[simp] theorem pair_setReg (s : State) (k v : Nat) : (s.setReg k v).pair = s.pair := rfl
@[simp] theorem detaching_setReg (s : State) (k v : Nat) : (s.setReg k v).detaching = s.detaching := rfl
@[simp] theorem heldRanges_setReg (s : State) (k v : Nat) : (s.setReg k v).heldRanges = s.heldRanges := rfl
@[simp] theorem pushLeft_setReg (s : State) (k v : Nat) : (s.setReg k v).pushLeft = s.pushLeft := rfl
@[simp] theorem offerDigest_setReg (s : State) (k v : Nat) : (s.setReg k v).offerDigest = s.offerDigest := rfl
@[simp] theorem wantDigest_setReg (s : State) (k v : Nat) : (s.setReg k v).wantDigest = s.wantDigest := rfl
@[simp] theorem confirmedSerial_setReg (s : State) (k v : Nat) : (s.setReg k v).confirmedSerial = s.confirmedSerial := rfl
@[simp] theorem floodSeq_setReg (s : State) (k v : Nat) : (s.setReg k v).floodSeq = s.floodSeq := rfl
@[simp] theorem floodsSeen_setReg (s : State) (k v : Nat) : (s.setReg k v).floodsSeen = s.floodsSeen := rfl
@[simp] theorem pushQueue_setReg (s : State) (k v : Nat) : (s.setReg k v).pushQueue = s.pushQueue := rfl
@[simp] theorem repairDue_setReg (s : State) (k v : Nat) : (s.setReg k v).repairDue = s.repairDue := rfl
@[simp] theorem mgmtQueue_setReg (s : State) (k v : Nat) : (s.setReg k v).mgmtQueue = s.mgmtQueue := rfl
@[simp] theorem quenchAt_setReg (s : State) (k v : Nat) : (s.setReg k v).quenchAt = s.quenchAt := rfl
@[simp] theorem reports_setReg (s : State) (k v : Nat) : (s.setReg k v).reports = s.reports := rfl
@[simp] theorem msgStamp_setReg (s : State) (k v : Nat) : (s.setReg k v).msgStamp = s.msgStamp := rfl
@[simp] theorem waiting_setReg (s : State) (k v : Nat) : (s.setReg k v).waiting = s.waiting := rfl
@[simp] theorem routeLast_setReg (s : State) (k v : Nat) : (s.setReg k v).routeLast = s.routeLast := rfl
@[simp] theorem lateDebt_setReg (s : State) (k v : Nat) : (s.setReg k v).lateDebt = s.lateDebt := rfl
@[simp] theorem dropLogged_setReg (s : State) (k v : Nat) : (s.setReg k v).dropLogged = s.dropLogged := rfl
@[simp] theorem windows_setReg (s : State) (k v : Nat) : (s.setReg k v).windows = s.windows := rfl
@[simp] theorem gtx_setReg (s : State) (k v : Nat) : (s.setReg k v).gtx = s.gtx := rfl
@[simp] theorem heldBeacon_setReg (s : State) (k v : Nat) : (s.setReg k v).heldBeacon = s.heldBeacon := rfl
@[simp] theorem assembly_setReg (s : State) (k v : Nat) : (s.setReg k v).assembly = s.assembly := rfl
@[simp] theorem staged_setReg (s : State) (k v : Nat) : (s.setReg k v).staged = s.staged := rfl
@[simp] theorem commitDue_setReg (s : State) (k v : Nat) : (s.setReg k v).commitDue = s.commitDue := rfl
@[simp] theorem commitReply_setReg (s : State) (k v : Nat) : (s.setReg k v).commitReply = s.commitReply := rfl
@[simp] theorem log_setReg (s : State) (k v : Nat) : (s.setReg k v).log = s.log := rfl
@[simp] theorem eventsSent_setReg (s : State) (k v : Nat) : (s.setReg k v).eventsSent = s.eventsSent := rfl
@[simp] theorem us_setReg (s : State) (k v : Nat) : (s.setReg k v).us = s.us := rfl
@[simp] theorem palaz_setReg (s : State) (k v : Nat) : (s.setReg k v).palaz = s.palaz := rfl
@[simp] theorem rateEvent_setReg (s : State) (k v : Nat) : (s.setReg k v).rateEvent = s.rateEvent := rfl
@[simp] theorem scrub_setReg (s : State) (k v : Nat) : (s.setReg k v).scrub = s.scrub := rfl
@[simp] theorem chans_setReg (s : State) (k v : Nat) : (s.setReg k v).chans = s.chans := rfl
@[simp] theorem dmaOverflowFrame_setReg (s : State) (k v : Nat) : (s.setReg k v).dmaOverflowFrame = s.dmaOverflowFrame := rfl
@[simp] theorem timerNext_setReg (s : State) (k v : Nat) : (s.setReg k v).timerNext = s.timerNext := rfl
@[simp] theorem dmaTurn_setReg (s : State) (k v : Nat) : (s.setReg k v).dmaTurn = s.dmaTurn := rfl
@[simp] theorem bgDone_setReg (s : State) (k v : Nat) : (s.setReg k v).bgDone = s.bgDone := rfl
@[simp] theorem reqLost_setReg (s : State) (k v : Nat) : (s.setReg k v).reqLost = s.reqLost := rfl
@[simp] theorem resetOwed_setReg (s : State) (k v : Nat) : (s.setReg k v).resetOwed = s.resetOwed := rfl
@[simp] theorem lostLogged_setReg (s : State) (k v : Nat) : (s.setReg k v).lostLogged = s.lostLogged := rfl
@[simp] theorem ntMoved_setReg (s : State) (k v : Nat) : (s.setReg k v).ntMoved = s.ntMoved := rfl
@[simp] theorem heldRate_setReg (s : State) (k v : Nat) : (s.setReg k v).heldRate = s.heldRate := rfl
@[simp] theorem bankA_setReg (s : State) (k v : Nat) : (s.setReg k v).bankA = s.bankA := rfl
@[simp] theorem bankB_setReg (s : State) (k v : Nat) : (s.setReg k v).bankB = s.bankB := rfl
@[simp] theorem rollback0_setReg (s : State) (k v : Nat) : (s.setReg k v).rollback0 = s.rollback0 := rfl
@[simp] theorem rollback1_setReg (s : State) (k v : Nat) : (s.setReg k v).rollback1 = s.rollback1 := rfl
@[simp] theorem gradeRec_setReg (s : State) (k v : Nat) : (s.setReg k v).gradeRec = s.gradeRec := rfl
@[simp] theorem certificate_setReg (s : State) (k v : Nat) : (s.setReg k v).certificate = s.certificate := rfl
@[simp] theorem config_setReg (s : State) (k v : Nat) : (s.setReg k v).config = s.config := rfl
@[simp] theorem cfg_setReg (s : State) (k v : Nat) : (s.setReg k v).cfg = s.cfg := rfl
@[simp] theorem measLog_setReg (s : State) (k v : Nat) : (s.setReg k v).measLog = s.measLog := rfl
@[simp] theorem measCount_setReg (s : State) (k v : Nat) : (s.setReg k v).measCount = s.measCount := rfl
@[simp] theorem challenge_setReg (s : State) (k v : Nat) : (s.setReg k v).challenge = s.challenge := rfl
@[simp] theorem token_setReg (s : State) (k v : Nat) : (s.setReg k v).token = s.token := rfl
@[simp] theorem mailStatus_setReg (s : State) (k v : Nat) : (s.setReg k v).mailStatus = s.mailStatus := rfl
@[simp] theorem mailResponse_setReg (s : State) (k v : Nat) : (s.setReg k v).mailResponse = s.mailResponse := rfl
@[simp] theorem nonce_setReg (s : State) (k v : Nat) : (s.setReg k v).nonce = s.nonce := rfl
@[simp] theorem quoteBytes_setReg (s : State) (k v : Nat) : (s.setReg k v).quoteBytes = s.quoteBytes := rfl
@[simp] theorem opticsTemp_setReg (s : State) (k v : Nat) : (s.setReg k v).opticsTemp = s.opticsTemp := rfl
@[simp] theorem mgmtTemp_setReg (s : State) (k v : Nat) : (s.setReg k v).mgmtTemp = s.mgmtTemp := rfl
@[simp] theorem puf_setReg (s : State) (k v : Nat) : (s.setReg k v).puf = s.puf := rfl
@[simp] theorem idlePeaks_setReg (s : State) (k v : Nat) : (s.setReg k v).idlePeaks = s.idlePeaks := rfl

@[simp] theorem region_setReg (s : State) (k v : Nat) (q : Nat) : (s.setReg k v).region q = s.region q := rfl
@[simp] theorem core_setReg (s : State) (k v : Nat) (q : Nat) : (s.setReg k v).core q = s.core q := rfl
@[simp] theorem port_setReg (s : State) (k v : Nat) (q : Nat) : (s.setReg k v).port q = s.port q := rfl
@[simp] theorem stack_setReg (s : State) (k v : Nat) (q : Nat) : (s.setReg k v).stack q = s.stack q := rfl
@[simp] theorem chan_setReg (s : State) (k v : Nat) (q : Nat) : (s.setReg k v).chan q = s.chan q := rfl
@[simp] theorem dom_setReg (s : State) (k v : Nat) (q : Nat) : (s.setReg k v).dom q = s.dom q := rfl

/-! ## What `setBlob` leaves alone -/

@[simp] theorem pending_setBlob (s : State) (k : Nat) (l : List Byte) : (s.setBlob k l).pending = s.pending := rfl
@[simp] theorem regs_setBlob (s : State) (k : Nat) (l : List Byte) : (s.setBlob k l).regs = s.regs := rfl
@[simp] theorem freeCtr_setBlob (s : State) (k : Nat) (l : List Byte) : (s.setBlob k l).freeCtr = s.freeCtr := rfl
@[simp] theorem answer_setBlob (s : State) (k : Nat) (l : List Byte) : (s.setBlob k l).answer = s.answer := rfl
@[simp] theorem answerData_setBlob (s : State) (k : Nat) (l : List Byte) : (s.setBlob k l).answerData = s.answerData := rfl
@[simp] theorem power_setBlob (s : State) (k : Nat) (l : List Byte) : (s.setBlob k l).power = s.power := rfl
@[simp] theorem boot_setBlob (s : State) (k : Nat) (l : List Byte) : (s.setBlob k l).boot = s.boot := rfl
@[simp] theorem inputSwitch_setBlob (s : State) (k : Nat) (l : List Byte) : (s.setBlob k l).inputSwitch = s.inputSwitch := rfl
@[simp] theorem bladeA_setBlob (s : State) (k : Nat) (l : List Byte) : (s.setBlob k l).bladeA = s.bladeA := rfl
@[simp] theorem bladeB_setBlob (s : State) (k : Nat) (l : List Byte) : (s.setBlob k l).bladeB = s.bladeB := rfl
@[simp] theorem mvSumA_setBlob (s : State) (k : Nat) (l : List Byte) : (s.setBlob k l).mvSumA = s.mvSumA := rfl
@[simp] theorem mvSumB_setBlob (s : State) (k : Nat) (l : List Byte) : (s.setBlob k l).mvSumB = s.mvSumB := rfl
@[simp] theorem maSum_setBlob (s : State) (k : Nat) (l : List Byte) : (s.setBlob k l).maSum = s.maSum := rfl
@[simp] theorem msSamples_setBlob (s : State) (k : Nat) (l : List Byte) : (s.setBlob k l).msSamples = s.msSamples := rfl
@[simp] theorem refclk_setBlob (s : State) (k : Nat) (l : List Byte) : (s.setBlob k l).refclk = s.refclk := rfl
@[simp] theorem alertLow_setBlob (s : State) (k : Nat) (l : List Byte) : (s.setBlob k l).alertLow = s.alertLow := rfl
@[simp] theorem resetLow_setBlob (s : State) (k : Nat) (l : List Byte) : (s.setBlob k l).resetLow = s.resetLow := rfl
@[simp] theorem resetInBanked_setBlob (s : State) (k : Nat) (l : List Byte) : (s.setBlob k l).resetInBanked = s.resetInBanked := rfl
@[simp] theorem bootCause_setBlob (s : State) (k : Nat) (l : List Byte) : (s.setBlob k l).bootCause = s.bootCause := rfl
@[simp] theorem shutdownTo_setBlob (s : State) (k : Nat) (l : List Byte) : (s.setBlob k l).shutdownTo = s.shutdownTo := rfl
@[simp] theorem h_setBlob (s : State) (k : Nat) (l : List Byte) : (s.setBlob k l).h = s.h := rfl
@[simp] theorem load_setBlob (s : State) (k : Nat) (l : List Byte) : (s.setBlob k l).load = s.load := rfl
@[simp] theorem ballast_setBlob (s : State) (k : Nat) (l : List Byte) : (s.setBlob k l).ballast = s.ballast := rfl
@[simp] theorem admitting_setBlob (s : State) (k : Nat) (l : List Byte) : (s.setBlob k l).admitting = s.admitting := rfl
@[simp] theorem remove_setBlob (s : State) (k : Nat) (l : List Byte) : (s.setBlob k l).remove = s.remove := rfl
@[simp] theorem litOrder_setBlob (s : State) (k : Nat) (l : List Byte) : (s.setBlob k l).litOrder = s.litOrder := rfl
@[simp] theorem windowUsed_setBlob (s : State) (k : Nat) (l : List Byte) : (s.setBlob k l).windowUsed = s.windowUsed := rfl
@[simp] theorem winSum_setBlob (s : State) (k : Nat) (l : List Byte) : (s.setBlob k l).winSum = s.winSum := rfl
@[simp] theorem loadSum_setBlob (s : State) (k : Nat) (l : List Byte) : (s.setBlob k l).loadSum = s.loadSum := rfl
@[simp] theorem rampAbandoned_setBlob (s : State) (k : Nat) (l : List Byte) : (s.setBlob k l).rampAbandoned = s.rampAbandoned := rfl
@[simp] theorem groupsOn_setBlob (s : State) (k : Nat) (l : List Byte) : (s.setBlob k l).groupsOn = s.groupsOn := rfl
@[simp] theorem warmDue_setBlob (s : State) (k : Nat) (l : List Byte) : (s.setBlob k l).warmDue = s.warmDue := rfl
@[simp] theorem runFailed_setBlob (s : State) (k : Nat) (l : List Byte) : (s.setBlob k l).runFailed = s.runFailed := rfl
@[simp] theorem warned_setBlob (s : State) (k : Nat) (l : List Byte) : (s.setBlob k l).warned = s.warned := rfl
@[simp] theorem uartRx_setBlob (s : State) (k : Nat) (l : List Byte) : (s.setBlob k l).uartRx = s.uartRx := rfl
@[simp] theorem uartTx_setBlob (s : State) (k : Nat) (l : List Byte) : (s.setBlob k l).uartTx = s.uartTx := rfl
@[simp] theorem wakeTx_setBlob (s : State) (k : Nat) (l : List Byte) : (s.setBlob k l).wakeTx = s.wakeTx := rfl
@[simp] theorem tap_setBlob (s : State) (k : Nat) (l : List Byte) : (s.setBlob k l).tap = s.tap := rfl
@[simp] theorem boundary_setBlob (s : State) (k : Nat) (l : List Byte) : (s.setBlob k l).boundary = s.boundary := rfl
@[simp] theorem testBlock_setBlob (s : State) (k : Nat) (l : List Byte) : (s.setBlob k l).testBlock = s.testBlock := rfl
@[simp] theorem sram_setBlob (s : State) (k : Nat) (l : List Byte) : (s.setBlob k l).sram = s.sram := rfl
@[simp] theorem sramChk_setBlob (s : State) (k : Nat) (l : List Byte) : (s.setBlob k l).sramChk = s.sramChk := rfl
@[simp] theorem dram_setBlob (s : State) (k : Nat) (l : List Byte) : (s.setBlob k l).dram = s.dram := rfl
@[simp] theorem dramChk_setBlob (s : State) (k : Nat) (l : List Byte) : (s.setBlob k l).dramChk = s.dramChk := rfl
@[simp] theorem regions_setBlob (s : State) (k : Nat) (l : List Byte) : (s.setBlob k l).regions = s.regions := rfl
@[simp] theorem slots_setBlob (s : State) (k : Nat) (l : List Byte) : (s.setBlob k l).slots = s.slots := rfl
@[simp] theorem nextIdent_setBlob (s : State) (k : Nat) (l : List Byte) : (s.setBlob k l).nextIdent = s.nextIdent := rfl
@[simp] theorem restarts_setBlob (s : State) (k : Nat) (l : List Byte) : (s.setBlob k l).restarts = s.restarts := rfl
@[simp] theorem kClock_setBlob (s : State) (k : Nat) (l : List Byte) : (s.setBlob k l).kClock = s.kClock := rfl
@[simp] theorem ports_setBlob (s : State) (k : Nat) (l : List Byte) : (s.setBlob k l).ports = s.ports := rfl
@[simp] theorem frame_setBlob (s : State) (k : Nat) (l : List Byte) : (s.setBlob k l).frame = s.frame := rfl
@[simp] theorem slot_setBlob (s : State) (k : Nat) (l : List Byte) : (s.setBlob k l).slot = s.slot := rfl
@[simp] theorem nt32_setBlob (s : State) (k : Nat) (l : List Byte) : (s.setBlob k l).nt32 = s.nt32 := rfl
@[simp] theorem ntFrac_setBlob (s : State) (k : Nat) (l : List Byte) : (s.setBlob k l).ntFrac = s.ntFrac := rfl
@[simp] theorem latched_setBlob (s : State) (k : Nat) (l : List Byte) : (s.setBlob k l).latched = s.latched := rfl
@[simp] theorem wrapDue_setBlob (s : State) (k : Nat) (l : List Byte) : (s.setBlob k l).wrapDue = s.wrapDue := rfl
@[simp] theorem subSlot_setBlob (s : State) (k : Nat) (l : List Byte) : (s.setBlob k l).subSlot = s.subSlot := rfl
@[simp] theorem timeIn_setBlob (s : State) (k : Nat) (l : List Byte) : (s.setBlob k l).timeIn = s.timeIn := rfl
@[simp] theorem half0_setBlob (s : State) (k : Nat) (l : List Byte) : (s.setBlob k l).half0 = s.half0 := rfl
@[simp] theorem half1_setBlob (s : State) (k : Nat) (l : List Byte) : (s.setBlob k l).half1 = s.half1 := rfl
@[simp] theorem halfSet_setBlob (s : State) (k : Nat) (l : List Byte) : (s.setBlob k l).halfSet = s.halfSet := rfl
@[simp] theorem copy_setBlob (s : State) (k : Nat) (l : List Byte) : (s.setBlob k l).copy = s.copy := rfl
@[simp] theorem seqPos_setBlob (s : State) (k : Nat) (l : List Byte) : (s.setBlob k l).seqPos = s.seqPos := rfl
@[simp] theorem reps_setBlob (s : State) (k : Nat) (l : List Byte) : (s.setBlob k l).reps = s.reps := rfl
@[simp] theorem runLeft_setBlob (s : State) (k : Nat) (l : List Byte) : (s.setBlob k l).runLeft = s.runLeft := rfl
@[simp] theorem runMark_setBlob (s : State) (k : Nat) (l : List Byte) : (s.setBlob k l).runMark = s.runMark := rfl
@[simp] theorem sched_setBlob (s : State) (k : Nat) (l : List Byte) : (s.setBlob k l).sched = s.sched := rfl
@[simp] theorem uses_setBlob (s : State) (k : Nat) (l : List Byte) : (s.setBlob k l).uses = s.uses := rfl
@[simp] theorem claimed_setBlob (s : State) (k : Nat) (l : List Byte) : (s.setBlob k l).claimed = s.claimed := rfl
@[simp] theorem stepHist_setBlob (s : State) (k : Nat) (l : List Byte) : (s.setBlob k l).stepHist = s.stepHist := rfl
@[simp] theorem jobFrame0_setBlob (s : State) (k : Nat) (l : List Byte) : (s.setBlob k l).jobFrame0 = s.jobFrame0 := rfl
@[simp] theorem schedFrom_setBlob (s : State) (k : Nat) (l : List Byte) : (s.setBlob k l).schedFrom = s.schedFrom := rfl
@[simp] theorem frameIndex_setBlob (s : State) (k : Nat) (l : List Byte) : (s.setBlob k l).frameIndex = s.frameIndex := rfl
@[simp] theorem doms_setBlob (s : State) (k : Nat) (l : List Byte) : (s.setBlob k l).doms = s.doms := rfl
@[simp] theorem tsq_setBlob (s : State) (k : Nat) (l : List Byte) : (s.setBlob k l).tsq = s.tsq := rfl
@[simp] theorem tsLoggedFrame_setBlob (s : State) (k : Nat) (l : List Byte) : (s.setBlob k l).tsLoggedFrame = s.tsLoggedFrame := rfl
@[simp] theorem switchTo_setBlob (s : State) (k : Nat) (l : List Byte) : (s.setBlob k l).switchTo = s.switchTo := rfl
@[simp] theorem stepPending_setBlob (s : State) (k : Nat) (l : List Byte) : (s.setBlob k l).stepPending = s.stepPending := rfl
@[simp] theorem holdover_setBlob (s : State) (k : Nat) (l : List Byte) : (s.setBlob k l).holdover = s.holdover := rfl
@[simp] theorem lastDom_setBlob (s : State) (k : Nat) (l : List Byte) : (s.setBlob k l).lastDom = s.lastDom := rfl
@[simp] theorem image_setBlob (s : State) (k : Nat) (l : List Byte) : (s.setBlob k l).image = s.image := rfl
@[simp] theorem loading_setBlob (s : State) (k : Nat) (l : List Byte) : (s.setBlob k l).loading = s.loading := rfl
@[simp] theorem epoch_setBlob (s : State) (k : Nat) (l : List Byte) : (s.setBlob k l).epoch = s.epoch := rfl
@[simp] theorem qrec_setBlob (s : State) (k : Nat) (l : List Byte) : (s.setBlob k l).qrec = s.qrec := rfl
@[simp] theorem firstFault_setBlob (s : State) (k : Nat) (l : List Byte) : (s.setBlob k l).firstFault = s.firstFault := rfl
@[simp] theorem faultHist_setBlob (s : State) (k : Nat) (l : List Byte) : (s.setBlob k l).faultHist = s.faultHist := rfl
@[simp] theorem replaying_setBlob (s : State) (k : Nat) (l : List Byte) : (s.setBlob k l).replaying = s.replaying := rfl
@[simp] theorem joinWait_setBlob (s : State) (k : Nat) (l : List Byte) : (s.setBlob k l).joinWait = s.joinWait := rfl
@[simp] theorem formerLight_setBlob (s : State) (k : Nat) (l : List Byte) : (s.setBlob k l).formerLight = s.formerLight := rfl
@[simp] theorem formerStacks_setBlob (s : State) (k : Nat) (l : List Byte) : (s.setBlob k l).formerStacks = s.formerStacks := rfl
@[simp] theorem run_setBlob (s : State) (k : Nat) (l : List Byte) : (s.setBlob k l).run = s.run := rfl
@[simp] theorem adopt_setBlob (s : State) (k : Nat) (l : List Byte) : (s.setBlob k l).adopt = s.adopt := rfl
@[simp] theorem repair_setBlob (s : State) (k : Nat) (l : List Byte) : (s.setBlob k l).repair = s.repair := rfl
@[simp] theorem repaired_setBlob (s : State) (k : Nat) (l : List Byte) : (s.setBlob k l).repaired = s.repaired := rfl
@[simp] theorem repairWait_setBlob (s : State) (k : Nat) (l : List Byte) : (s.setBlob k l).repairWait = s.repairWait := rfl
@[simp] theorem endPending_setBlob (s : State) (k : Nat) (l : List Byte) : (s.setBlob k l).endPending = s.endPending := rfl
@[simp] theorem jobIssued_setBlob (s : State) (k : Nat) (l : List Byte) : (s.setBlob k l).jobIssued = s.jobIssued := rfl
@[simp] theorem quenchOut_setBlob (s : State) (k : Nat) (l : List Byte) : (s.setBlob k l).quenchOut = s.quenchOut := rfl
@[simp] theorem pair_setBlob (s : State) (k : Nat) (l : List Byte) : (s.setBlob k l).pair = s.pair := rfl
@[simp] theorem detaching_setBlob (s : State) (k : Nat) (l : List Byte) : (s.setBlob k l).detaching = s.detaching := rfl
@[simp] theorem heldRanges_setBlob (s : State) (k : Nat) (l : List Byte) : (s.setBlob k l).heldRanges = s.heldRanges := rfl
@[simp] theorem pushLeft_setBlob (s : State) (k : Nat) (l : List Byte) : (s.setBlob k l).pushLeft = s.pushLeft := rfl
@[simp] theorem offerDigest_setBlob (s : State) (k : Nat) (l : List Byte) : (s.setBlob k l).offerDigest = s.offerDigest := rfl
@[simp] theorem wantDigest_setBlob (s : State) (k : Nat) (l : List Byte) : (s.setBlob k l).wantDigest = s.wantDigest := rfl
@[simp] theorem confirmedSerial_setBlob (s : State) (k : Nat) (l : List Byte) : (s.setBlob k l).confirmedSerial = s.confirmedSerial := rfl
@[simp] theorem floodSeq_setBlob (s : State) (k : Nat) (l : List Byte) : (s.setBlob k l).floodSeq = s.floodSeq := rfl
@[simp] theorem floodsSeen_setBlob (s : State) (k : Nat) (l : List Byte) : (s.setBlob k l).floodsSeen = s.floodsSeen := rfl
@[simp] theorem pushQueue_setBlob (s : State) (k : Nat) (l : List Byte) : (s.setBlob k l).pushQueue = s.pushQueue := rfl
@[simp] theorem repairDue_setBlob (s : State) (k : Nat) (l : List Byte) : (s.setBlob k l).repairDue = s.repairDue := rfl
@[simp] theorem mgmtQueue_setBlob (s : State) (k : Nat) (l : List Byte) : (s.setBlob k l).mgmtQueue = s.mgmtQueue := rfl
@[simp] theorem quenchAt_setBlob (s : State) (k : Nat) (l : List Byte) : (s.setBlob k l).quenchAt = s.quenchAt := rfl
@[simp] theorem reports_setBlob (s : State) (k : Nat) (l : List Byte) : (s.setBlob k l).reports = s.reports := rfl
@[simp] theorem msgStamp_setBlob (s : State) (k : Nat) (l : List Byte) : (s.setBlob k l).msgStamp = s.msgStamp := rfl
@[simp] theorem waiting_setBlob (s : State) (k : Nat) (l : List Byte) : (s.setBlob k l).waiting = s.waiting := rfl
@[simp] theorem routeLast_setBlob (s : State) (k : Nat) (l : List Byte) : (s.setBlob k l).routeLast = s.routeLast := rfl
@[simp] theorem lateDebt_setBlob (s : State) (k : Nat) (l : List Byte) : (s.setBlob k l).lateDebt = s.lateDebt := rfl
@[simp] theorem dropLogged_setBlob (s : State) (k : Nat) (l : List Byte) : (s.setBlob k l).dropLogged = s.dropLogged := rfl
@[simp] theorem windows_setBlob (s : State) (k : Nat) (l : List Byte) : (s.setBlob k l).windows = s.windows := rfl
@[simp] theorem gtx_setBlob (s : State) (k : Nat) (l : List Byte) : (s.setBlob k l).gtx = s.gtx := rfl
@[simp] theorem heldBeacon_setBlob (s : State) (k : Nat) (l : List Byte) : (s.setBlob k l).heldBeacon = s.heldBeacon := rfl
@[simp] theorem assembly_setBlob (s : State) (k : Nat) (l : List Byte) : (s.setBlob k l).assembly = s.assembly := rfl
@[simp] theorem staged_setBlob (s : State) (k : Nat) (l : List Byte) : (s.setBlob k l).staged = s.staged := rfl
@[simp] theorem commitDue_setBlob (s : State) (k : Nat) (l : List Byte) : (s.setBlob k l).commitDue = s.commitDue := rfl
@[simp] theorem commitReply_setBlob (s : State) (k : Nat) (l : List Byte) : (s.setBlob k l).commitReply = s.commitReply := rfl
@[simp] theorem log_setBlob (s : State) (k : Nat) (l : List Byte) : (s.setBlob k l).log = s.log := rfl
@[simp] theorem eventsSent_setBlob (s : State) (k : Nat) (l : List Byte) : (s.setBlob k l).eventsSent = s.eventsSent := rfl
@[simp] theorem us_setBlob (s : State) (k : Nat) (l : List Byte) : (s.setBlob k l).us = s.us := rfl
@[simp] theorem palaz_setBlob (s : State) (k : Nat) (l : List Byte) : (s.setBlob k l).palaz = s.palaz := rfl
@[simp] theorem rateEvent_setBlob (s : State) (k : Nat) (l : List Byte) : (s.setBlob k l).rateEvent = s.rateEvent := rfl
@[simp] theorem scrub_setBlob (s : State) (k : Nat) (l : List Byte) : (s.setBlob k l).scrub = s.scrub := rfl
@[simp] theorem chans_setBlob (s : State) (k : Nat) (l : List Byte) : (s.setBlob k l).chans = s.chans := rfl
@[simp] theorem dmaOverflowFrame_setBlob (s : State) (k : Nat) (l : List Byte) : (s.setBlob k l).dmaOverflowFrame = s.dmaOverflowFrame := rfl
@[simp] theorem timerNext_setBlob (s : State) (k : Nat) (l : List Byte) : (s.setBlob k l).timerNext = s.timerNext := rfl
@[simp] theorem dmaTurn_setBlob (s : State) (k : Nat) (l : List Byte) : (s.setBlob k l).dmaTurn = s.dmaTurn := rfl
@[simp] theorem bgDone_setBlob (s : State) (k : Nat) (l : List Byte) : (s.setBlob k l).bgDone = s.bgDone := rfl
@[simp] theorem reqLost_setBlob (s : State) (k : Nat) (l : List Byte) : (s.setBlob k l).reqLost = s.reqLost := rfl
@[simp] theorem resetOwed_setBlob (s : State) (k : Nat) (l : List Byte) : (s.setBlob k l).resetOwed = s.resetOwed := rfl
@[simp] theorem lostLogged_setBlob (s : State) (k : Nat) (l : List Byte) : (s.setBlob k l).lostLogged = s.lostLogged := rfl
@[simp] theorem ntMoved_setBlob (s : State) (k : Nat) (l : List Byte) : (s.setBlob k l).ntMoved = s.ntMoved := rfl
@[simp] theorem heldRate_setBlob (s : State) (k : Nat) (l : List Byte) : (s.setBlob k l).heldRate = s.heldRate := rfl
@[simp] theorem bankA_setBlob (s : State) (k : Nat) (l : List Byte) : (s.setBlob k l).bankA = s.bankA := rfl
@[simp] theorem bankB_setBlob (s : State) (k : Nat) (l : List Byte) : (s.setBlob k l).bankB = s.bankB := rfl
@[simp] theorem rollback0_setBlob (s : State) (k : Nat) (l : List Byte) : (s.setBlob k l).rollback0 = s.rollback0 := rfl
@[simp] theorem rollback1_setBlob (s : State) (k : Nat) (l : List Byte) : (s.setBlob k l).rollback1 = s.rollback1 := rfl
@[simp] theorem gradeRec_setBlob (s : State) (k : Nat) (l : List Byte) : (s.setBlob k l).gradeRec = s.gradeRec := rfl
@[simp] theorem certificate_setBlob (s : State) (k : Nat) (l : List Byte) : (s.setBlob k l).certificate = s.certificate := rfl
@[simp] theorem config_setBlob (s : State) (k : Nat) (l : List Byte) : (s.setBlob k l).config = s.config := rfl
@[simp] theorem cfg_setBlob (s : State) (k : Nat) (l : List Byte) : (s.setBlob k l).cfg = s.cfg := rfl
@[simp] theorem measLog_setBlob (s : State) (k : Nat) (l : List Byte) : (s.setBlob k l).measLog = s.measLog := rfl
@[simp] theorem measCount_setBlob (s : State) (k : Nat) (l : List Byte) : (s.setBlob k l).measCount = s.measCount := rfl
@[simp] theorem challenge_setBlob (s : State) (k : Nat) (l : List Byte) : (s.setBlob k l).challenge = s.challenge := rfl
@[simp] theorem token_setBlob (s : State) (k : Nat) (l : List Byte) : (s.setBlob k l).token = s.token := rfl
@[simp] theorem mailStatus_setBlob (s : State) (k : Nat) (l : List Byte) : (s.setBlob k l).mailStatus = s.mailStatus := rfl
@[simp] theorem mailResponse_setBlob (s : State) (k : Nat) (l : List Byte) : (s.setBlob k l).mailResponse = s.mailResponse := rfl
@[simp] theorem nonce_setBlob (s : State) (k : Nat) (l : List Byte) : (s.setBlob k l).nonce = s.nonce := rfl
@[simp] theorem quoteBytes_setBlob (s : State) (k : Nat) (l : List Byte) : (s.setBlob k l).quoteBytes = s.quoteBytes := rfl
@[simp] theorem opticsTemp_setBlob (s : State) (k : Nat) (l : List Byte) : (s.setBlob k l).opticsTemp = s.opticsTemp := rfl
@[simp] theorem mgmtTemp_setBlob (s : State) (k : Nat) (l : List Byte) : (s.setBlob k l).mgmtTemp = s.mgmtTemp := rfl
@[simp] theorem puf_setBlob (s : State) (k : Nat) (l : List Byte) : (s.setBlob k l).puf = s.puf := rfl
@[simp] theorem idlePeaks_setBlob (s : State) (k : Nat) (l : List Byte) : (s.setBlob k l).idlePeaks = s.idlePeaks := rfl

@[simp] theorem region_setBlob (s : State) (k : Nat) (l : List Byte) (q : Nat) : (s.setBlob k l).region q = s.region q := rfl
@[simp] theorem core_setBlob (s : State) (k : Nat) (l : List Byte) (q : Nat) : (s.setBlob k l).core q = s.core q := rfl
@[simp] theorem port_setBlob (s : State) (k : Nat) (l : List Byte) (q : Nat) : (s.setBlob k l).port q = s.port q := rfl
@[simp] theorem stack_setBlob (s : State) (k : Nat) (l : List Byte) (q : Nat) : (s.setBlob k l).stack q = s.stack q := rfl
@[simp] theorem chan_setBlob (s : State) (k : Nat) (l : List Byte) (q : Nat) : (s.setBlob k l).chan q = s.chan q := rfl
@[simp] theorem dom_setBlob (s : State) (k : Nat) (l : List Byte) (q : Nat) : (s.setBlob k l).dom q = s.dom q := rfl

/-! ## What `setRegion` leaves alone -/

@[simp] theorem pending_setRegion (s : State) (r : Nat) (x : Region) : (s.setRegion r x).pending = s.pending := rfl
@[simp] theorem regs_setRegion (s : State) (r : Nat) (x : Region) : (s.setRegion r x).regs = s.regs := rfl
@[simp] theorem blobs_setRegion (s : State) (r : Nat) (x : Region) : (s.setRegion r x).blobs = s.blobs := rfl
@[simp] theorem freeCtr_setRegion (s : State) (r : Nat) (x : Region) : (s.setRegion r x).freeCtr = s.freeCtr := rfl
@[simp] theorem answer_setRegion (s : State) (r : Nat) (x : Region) : (s.setRegion r x).answer = s.answer := rfl
@[simp] theorem answerData_setRegion (s : State) (r : Nat) (x : Region) : (s.setRegion r x).answerData = s.answerData := rfl
@[simp] theorem power_setRegion (s : State) (r : Nat) (x : Region) : (s.setRegion r x).power = s.power := rfl
@[simp] theorem boot_setRegion (s : State) (r : Nat) (x : Region) : (s.setRegion r x).boot = s.boot := rfl
@[simp] theorem inputSwitch_setRegion (s : State) (r : Nat) (x : Region) : (s.setRegion r x).inputSwitch = s.inputSwitch := rfl
@[simp] theorem bladeA_setRegion (s : State) (r : Nat) (x : Region) : (s.setRegion r x).bladeA = s.bladeA := rfl
@[simp] theorem bladeB_setRegion (s : State) (r : Nat) (x : Region) : (s.setRegion r x).bladeB = s.bladeB := rfl
@[simp] theorem mvSumA_setRegion (s : State) (r : Nat) (x : Region) : (s.setRegion r x).mvSumA = s.mvSumA := rfl
@[simp] theorem mvSumB_setRegion (s : State) (r : Nat) (x : Region) : (s.setRegion r x).mvSumB = s.mvSumB := rfl
@[simp] theorem maSum_setRegion (s : State) (r : Nat) (x : Region) : (s.setRegion r x).maSum = s.maSum := rfl
@[simp] theorem msSamples_setRegion (s : State) (r : Nat) (x : Region) : (s.setRegion r x).msSamples = s.msSamples := rfl
@[simp] theorem refclk_setRegion (s : State) (r : Nat) (x : Region) : (s.setRegion r x).refclk = s.refclk := rfl
@[simp] theorem alertLow_setRegion (s : State) (r : Nat) (x : Region) : (s.setRegion r x).alertLow = s.alertLow := rfl
@[simp] theorem resetLow_setRegion (s : State) (r : Nat) (x : Region) : (s.setRegion r x).resetLow = s.resetLow := rfl
@[simp] theorem resetInBanked_setRegion (s : State) (r : Nat) (x : Region) : (s.setRegion r x).resetInBanked = s.resetInBanked := rfl
@[simp] theorem bootCause_setRegion (s : State) (r : Nat) (x : Region) : (s.setRegion r x).bootCause = s.bootCause := rfl
@[simp] theorem shutdownTo_setRegion (s : State) (r : Nat) (x : Region) : (s.setRegion r x).shutdownTo = s.shutdownTo := rfl
@[simp] theorem h_setRegion (s : State) (r : Nat) (x : Region) : (s.setRegion r x).h = s.h := rfl
@[simp] theorem load_setRegion (s : State) (r : Nat) (x : Region) : (s.setRegion r x).load = s.load := rfl
@[simp] theorem ballast_setRegion (s : State) (r : Nat) (x : Region) : (s.setRegion r x).ballast = s.ballast := rfl
@[simp] theorem admitting_setRegion (s : State) (r : Nat) (x : Region) : (s.setRegion r x).admitting = s.admitting := rfl
@[simp] theorem remove_setRegion (s : State) (r : Nat) (x : Region) : (s.setRegion r x).remove = s.remove := rfl
@[simp] theorem litOrder_setRegion (s : State) (r : Nat) (x : Region) : (s.setRegion r x).litOrder = s.litOrder := rfl
@[simp] theorem windowUsed_setRegion (s : State) (r : Nat) (x : Region) : (s.setRegion r x).windowUsed = s.windowUsed := rfl
@[simp] theorem winSum_setRegion (s : State) (r : Nat) (x : Region) : (s.setRegion r x).winSum = s.winSum := rfl
@[simp] theorem loadSum_setRegion (s : State) (r : Nat) (x : Region) : (s.setRegion r x).loadSum = s.loadSum := rfl
@[simp] theorem rampAbandoned_setRegion (s : State) (r : Nat) (x : Region) : (s.setRegion r x).rampAbandoned = s.rampAbandoned := rfl
@[simp] theorem groupsOn_setRegion (s : State) (r : Nat) (x : Region) : (s.setRegion r x).groupsOn = s.groupsOn := rfl
@[simp] theorem warmDue_setRegion (s : State) (r : Nat) (x : Region) : (s.setRegion r x).warmDue = s.warmDue := rfl
@[simp] theorem runFailed_setRegion (s : State) (r : Nat) (x : Region) : (s.setRegion r x).runFailed = s.runFailed := rfl
@[simp] theorem warned_setRegion (s : State) (r : Nat) (x : Region) : (s.setRegion r x).warned = s.warned := rfl
@[simp] theorem uartRx_setRegion (s : State) (r : Nat) (x : Region) : (s.setRegion r x).uartRx = s.uartRx := rfl
@[simp] theorem uartTx_setRegion (s : State) (r : Nat) (x : Region) : (s.setRegion r x).uartTx = s.uartTx := rfl
@[simp] theorem wakeTx_setRegion (s : State) (r : Nat) (x : Region) : (s.setRegion r x).wakeTx = s.wakeTx := rfl
@[simp] theorem tap_setRegion (s : State) (r : Nat) (x : Region) : (s.setRegion r x).tap = s.tap := rfl
@[simp] theorem boundary_setRegion (s : State) (r : Nat) (x : Region) : (s.setRegion r x).boundary = s.boundary := rfl
@[simp] theorem testBlock_setRegion (s : State) (r : Nat) (x : Region) : (s.setRegion r x).testBlock = s.testBlock := rfl
@[simp] theorem sram_setRegion (s : State) (r : Nat) (x : Region) : (s.setRegion r x).sram = s.sram := rfl
@[simp] theorem sramChk_setRegion (s : State) (r : Nat) (x : Region) : (s.setRegion r x).sramChk = s.sramChk := rfl
@[simp] theorem dram_setRegion (s : State) (r : Nat) (x : Region) : (s.setRegion r x).dram = s.dram := rfl
@[simp] theorem dramChk_setRegion (s : State) (r : Nat) (x : Region) : (s.setRegion r x).dramChk = s.dramChk := rfl
@[simp] theorem slots_setRegion (s : State) (r : Nat) (x : Region) : (s.setRegion r x).slots = s.slots := rfl
@[simp] theorem nextIdent_setRegion (s : State) (r : Nat) (x : Region) : (s.setRegion r x).nextIdent = s.nextIdent := rfl
@[simp] theorem restarts_setRegion (s : State) (r : Nat) (x : Region) : (s.setRegion r x).restarts = s.restarts := rfl
@[simp] theorem kClock_setRegion (s : State) (r : Nat) (x : Region) : (s.setRegion r x).kClock = s.kClock := rfl
@[simp] theorem ports_setRegion (s : State) (r : Nat) (x : Region) : (s.setRegion r x).ports = s.ports := rfl
@[simp] theorem frame_setRegion (s : State) (r : Nat) (x : Region) : (s.setRegion r x).frame = s.frame := rfl
@[simp] theorem slot_setRegion (s : State) (r : Nat) (x : Region) : (s.setRegion r x).slot = s.slot := rfl
@[simp] theorem nt32_setRegion (s : State) (r : Nat) (x : Region) : (s.setRegion r x).nt32 = s.nt32 := rfl
@[simp] theorem ntFrac_setRegion (s : State) (r : Nat) (x : Region) : (s.setRegion r x).ntFrac = s.ntFrac := rfl
@[simp] theorem latched_setRegion (s : State) (r : Nat) (x : Region) : (s.setRegion r x).latched = s.latched := rfl
@[simp] theorem wrapDue_setRegion (s : State) (r : Nat) (x : Region) : (s.setRegion r x).wrapDue = s.wrapDue := rfl
@[simp] theorem subSlot_setRegion (s : State) (r : Nat) (x : Region) : (s.setRegion r x).subSlot = s.subSlot := rfl
@[simp] theorem timeIn_setRegion (s : State) (r : Nat) (x : Region) : (s.setRegion r x).timeIn = s.timeIn := rfl
@[simp] theorem half0_setRegion (s : State) (r : Nat) (x : Region) : (s.setRegion r x).half0 = s.half0 := rfl
@[simp] theorem half1_setRegion (s : State) (r : Nat) (x : Region) : (s.setRegion r x).half1 = s.half1 := rfl
@[simp] theorem halfSet_setRegion (s : State) (r : Nat) (x : Region) : (s.setRegion r x).halfSet = s.halfSet := rfl
@[simp] theorem copy_setRegion (s : State) (r : Nat) (x : Region) : (s.setRegion r x).copy = s.copy := rfl
@[simp] theorem seqPos_setRegion (s : State) (r : Nat) (x : Region) : (s.setRegion r x).seqPos = s.seqPos := rfl
@[simp] theorem reps_setRegion (s : State) (r : Nat) (x : Region) : (s.setRegion r x).reps = s.reps := rfl
@[simp] theorem runLeft_setRegion (s : State) (r : Nat) (x : Region) : (s.setRegion r x).runLeft = s.runLeft := rfl
@[simp] theorem runMark_setRegion (s : State) (r : Nat) (x : Region) : (s.setRegion r x).runMark = s.runMark := rfl
@[simp] theorem sched_setRegion (s : State) (r : Nat) (x : Region) : (s.setRegion r x).sched = s.sched := rfl
@[simp] theorem uses_setRegion (s : State) (r : Nat) (x : Region) : (s.setRegion r x).uses = s.uses := rfl
@[simp] theorem claimed_setRegion (s : State) (r : Nat) (x : Region) : (s.setRegion r x).claimed = s.claimed := rfl
@[simp] theorem stepHist_setRegion (s : State) (r : Nat) (x : Region) : (s.setRegion r x).stepHist = s.stepHist := rfl
@[simp] theorem jobFrame0_setRegion (s : State) (r : Nat) (x : Region) : (s.setRegion r x).jobFrame0 = s.jobFrame0 := rfl
@[simp] theorem schedFrom_setRegion (s : State) (r : Nat) (x : Region) : (s.setRegion r x).schedFrom = s.schedFrom := rfl
@[simp] theorem frameIndex_setRegion (s : State) (r : Nat) (x : Region) : (s.setRegion r x).frameIndex = s.frameIndex := rfl
@[simp] theorem doms_setRegion (s : State) (r : Nat) (x : Region) : (s.setRegion r x).doms = s.doms := rfl
@[simp] theorem tsq_setRegion (s : State) (r : Nat) (x : Region) : (s.setRegion r x).tsq = s.tsq := rfl
@[simp] theorem tsLoggedFrame_setRegion (s : State) (r : Nat) (x : Region) : (s.setRegion r x).tsLoggedFrame = s.tsLoggedFrame := rfl
@[simp] theorem switchTo_setRegion (s : State) (r : Nat) (x : Region) : (s.setRegion r x).switchTo = s.switchTo := rfl
@[simp] theorem stepPending_setRegion (s : State) (r : Nat) (x : Region) : (s.setRegion r x).stepPending = s.stepPending := rfl
@[simp] theorem holdover_setRegion (s : State) (r : Nat) (x : Region) : (s.setRegion r x).holdover = s.holdover := rfl
@[simp] theorem lastDom_setRegion (s : State) (r : Nat) (x : Region) : (s.setRegion r x).lastDom = s.lastDom := rfl
@[simp] theorem image_setRegion (s : State) (r : Nat) (x : Region) : (s.setRegion r x).image = s.image := rfl
@[simp] theorem loading_setRegion (s : State) (r : Nat) (x : Region) : (s.setRegion r x).loading = s.loading := rfl
@[simp] theorem epoch_setRegion (s : State) (r : Nat) (x : Region) : (s.setRegion r x).epoch = s.epoch := rfl
@[simp] theorem qrec_setRegion (s : State) (r : Nat) (x : Region) : (s.setRegion r x).qrec = s.qrec := rfl
@[simp] theorem firstFault_setRegion (s : State) (r : Nat) (x : Region) : (s.setRegion r x).firstFault = s.firstFault := rfl
@[simp] theorem faultHist_setRegion (s : State) (r : Nat) (x : Region) : (s.setRegion r x).faultHist = s.faultHist := rfl
@[simp] theorem replaying_setRegion (s : State) (r : Nat) (x : Region) : (s.setRegion r x).replaying = s.replaying := rfl
@[simp] theorem joinWait_setRegion (s : State) (r : Nat) (x : Region) : (s.setRegion r x).joinWait = s.joinWait := rfl
@[simp] theorem formerLight_setRegion (s : State) (r : Nat) (x : Region) : (s.setRegion r x).formerLight = s.formerLight := rfl
@[simp] theorem formerStacks_setRegion (s : State) (r : Nat) (x : Region) : (s.setRegion r x).formerStacks = s.formerStacks := rfl
@[simp] theorem run_setRegion (s : State) (r : Nat) (x : Region) : (s.setRegion r x).run = s.run := rfl
@[simp] theorem adopt_setRegion (s : State) (r : Nat) (x : Region) : (s.setRegion r x).adopt = s.adopt := rfl
@[simp] theorem repair_setRegion (s : State) (r : Nat) (x : Region) : (s.setRegion r x).repair = s.repair := rfl
@[simp] theorem repaired_setRegion (s : State) (r : Nat) (x : Region) : (s.setRegion r x).repaired = s.repaired := rfl
@[simp] theorem repairWait_setRegion (s : State) (r : Nat) (x : Region) : (s.setRegion r x).repairWait = s.repairWait := rfl
@[simp] theorem endPending_setRegion (s : State) (r : Nat) (x : Region) : (s.setRegion r x).endPending = s.endPending := rfl
@[simp] theorem jobIssued_setRegion (s : State) (r : Nat) (x : Region) : (s.setRegion r x).jobIssued = s.jobIssued := rfl
@[simp] theorem quenchOut_setRegion (s : State) (r : Nat) (x : Region) : (s.setRegion r x).quenchOut = s.quenchOut := rfl
@[simp] theorem pair_setRegion (s : State) (r : Nat) (x : Region) : (s.setRegion r x).pair = s.pair := rfl
@[simp] theorem detaching_setRegion (s : State) (r : Nat) (x : Region) : (s.setRegion r x).detaching = s.detaching := rfl
@[simp] theorem heldRanges_setRegion (s : State) (r : Nat) (x : Region) : (s.setRegion r x).heldRanges = s.heldRanges := rfl
@[simp] theorem pushLeft_setRegion (s : State) (r : Nat) (x : Region) : (s.setRegion r x).pushLeft = s.pushLeft := rfl
@[simp] theorem offerDigest_setRegion (s : State) (r : Nat) (x : Region) : (s.setRegion r x).offerDigest = s.offerDigest := rfl
@[simp] theorem wantDigest_setRegion (s : State) (r : Nat) (x : Region) : (s.setRegion r x).wantDigest = s.wantDigest := rfl
@[simp] theorem confirmedSerial_setRegion (s : State) (r : Nat) (x : Region) : (s.setRegion r x).confirmedSerial = s.confirmedSerial := rfl
@[simp] theorem floodSeq_setRegion (s : State) (r : Nat) (x : Region) : (s.setRegion r x).floodSeq = s.floodSeq := rfl
@[simp] theorem floodsSeen_setRegion (s : State) (r : Nat) (x : Region) : (s.setRegion r x).floodsSeen = s.floodsSeen := rfl
@[simp] theorem pushQueue_setRegion (s : State) (r : Nat) (x : Region) : (s.setRegion r x).pushQueue = s.pushQueue := rfl
@[simp] theorem repairDue_setRegion (s : State) (r : Nat) (x : Region) : (s.setRegion r x).repairDue = s.repairDue := rfl
@[simp] theorem mgmtQueue_setRegion (s : State) (r : Nat) (x : Region) : (s.setRegion r x).mgmtQueue = s.mgmtQueue := rfl
@[simp] theorem quenchAt_setRegion (s : State) (r : Nat) (x : Region) : (s.setRegion r x).quenchAt = s.quenchAt := rfl
@[simp] theorem reports_setRegion (s : State) (r : Nat) (x : Region) : (s.setRegion r x).reports = s.reports := rfl
@[simp] theorem msgStamp_setRegion (s : State) (r : Nat) (x : Region) : (s.setRegion r x).msgStamp = s.msgStamp := rfl
@[simp] theorem waiting_setRegion (s : State) (r : Nat) (x : Region) : (s.setRegion r x).waiting = s.waiting := rfl
@[simp] theorem routeLast_setRegion (s : State) (r : Nat) (x : Region) : (s.setRegion r x).routeLast = s.routeLast := rfl
@[simp] theorem lateDebt_setRegion (s : State) (r : Nat) (x : Region) : (s.setRegion r x).lateDebt = s.lateDebt := rfl
@[simp] theorem dropLogged_setRegion (s : State) (r : Nat) (x : Region) : (s.setRegion r x).dropLogged = s.dropLogged := rfl
@[simp] theorem windows_setRegion (s : State) (r : Nat) (x : Region) : (s.setRegion r x).windows = s.windows := rfl
@[simp] theorem gtx_setRegion (s : State) (r : Nat) (x : Region) : (s.setRegion r x).gtx = s.gtx := rfl
@[simp] theorem heldBeacon_setRegion (s : State) (r : Nat) (x : Region) : (s.setRegion r x).heldBeacon = s.heldBeacon := rfl
@[simp] theorem assembly_setRegion (s : State) (r : Nat) (x : Region) : (s.setRegion r x).assembly = s.assembly := rfl
@[simp] theorem staged_setRegion (s : State) (r : Nat) (x : Region) : (s.setRegion r x).staged = s.staged := rfl
@[simp] theorem commitDue_setRegion (s : State) (r : Nat) (x : Region) : (s.setRegion r x).commitDue = s.commitDue := rfl
@[simp] theorem commitReply_setRegion (s : State) (r : Nat) (x : Region) : (s.setRegion r x).commitReply = s.commitReply := rfl
@[simp] theorem log_setRegion (s : State) (r : Nat) (x : Region) : (s.setRegion r x).log = s.log := rfl
@[simp] theorem eventsSent_setRegion (s : State) (r : Nat) (x : Region) : (s.setRegion r x).eventsSent = s.eventsSent := rfl
@[simp] theorem us_setRegion (s : State) (r : Nat) (x : Region) : (s.setRegion r x).us = s.us := rfl
@[simp] theorem palaz_setRegion (s : State) (r : Nat) (x : Region) : (s.setRegion r x).palaz = s.palaz := rfl
@[simp] theorem rateEvent_setRegion (s : State) (r : Nat) (x : Region) : (s.setRegion r x).rateEvent = s.rateEvent := rfl
@[simp] theorem scrub_setRegion (s : State) (r : Nat) (x : Region) : (s.setRegion r x).scrub = s.scrub := rfl
@[simp] theorem chans_setRegion (s : State) (r : Nat) (x : Region) : (s.setRegion r x).chans = s.chans := rfl
@[simp] theorem dmaOverflowFrame_setRegion (s : State) (r : Nat) (x : Region) : (s.setRegion r x).dmaOverflowFrame = s.dmaOverflowFrame := rfl
@[simp] theorem timerNext_setRegion (s : State) (r : Nat) (x : Region) : (s.setRegion r x).timerNext = s.timerNext := rfl
@[simp] theorem dmaTurn_setRegion (s : State) (r : Nat) (x : Region) : (s.setRegion r x).dmaTurn = s.dmaTurn := rfl
@[simp] theorem bgDone_setRegion (s : State) (r : Nat) (x : Region) : (s.setRegion r x).bgDone = s.bgDone := rfl
@[simp] theorem reqLost_setRegion (s : State) (r : Nat) (x : Region) : (s.setRegion r x).reqLost = s.reqLost := rfl
@[simp] theorem resetOwed_setRegion (s : State) (r : Nat) (x : Region) : (s.setRegion r x).resetOwed = s.resetOwed := rfl
@[simp] theorem lostLogged_setRegion (s : State) (r : Nat) (x : Region) : (s.setRegion r x).lostLogged = s.lostLogged := rfl
@[simp] theorem ntMoved_setRegion (s : State) (r : Nat) (x : Region) : (s.setRegion r x).ntMoved = s.ntMoved := rfl
@[simp] theorem heldRate_setRegion (s : State) (r : Nat) (x : Region) : (s.setRegion r x).heldRate = s.heldRate := rfl
@[simp] theorem bankA_setRegion (s : State) (r : Nat) (x : Region) : (s.setRegion r x).bankA = s.bankA := rfl
@[simp] theorem bankB_setRegion (s : State) (r : Nat) (x : Region) : (s.setRegion r x).bankB = s.bankB := rfl
@[simp] theorem rollback0_setRegion (s : State) (r : Nat) (x : Region) : (s.setRegion r x).rollback0 = s.rollback0 := rfl
@[simp] theorem rollback1_setRegion (s : State) (r : Nat) (x : Region) : (s.setRegion r x).rollback1 = s.rollback1 := rfl
@[simp] theorem gradeRec_setRegion (s : State) (r : Nat) (x : Region) : (s.setRegion r x).gradeRec = s.gradeRec := rfl
@[simp] theorem certificate_setRegion (s : State) (r : Nat) (x : Region) : (s.setRegion r x).certificate = s.certificate := rfl
@[simp] theorem config_setRegion (s : State) (r : Nat) (x : Region) : (s.setRegion r x).config = s.config := rfl
@[simp] theorem cfg_setRegion (s : State) (r : Nat) (x : Region) : (s.setRegion r x).cfg = s.cfg := rfl
@[simp] theorem measLog_setRegion (s : State) (r : Nat) (x : Region) : (s.setRegion r x).measLog = s.measLog := rfl
@[simp] theorem measCount_setRegion (s : State) (r : Nat) (x : Region) : (s.setRegion r x).measCount = s.measCount := rfl
@[simp] theorem challenge_setRegion (s : State) (r : Nat) (x : Region) : (s.setRegion r x).challenge = s.challenge := rfl
@[simp] theorem token_setRegion (s : State) (r : Nat) (x : Region) : (s.setRegion r x).token = s.token := rfl
@[simp] theorem mailStatus_setRegion (s : State) (r : Nat) (x : Region) : (s.setRegion r x).mailStatus = s.mailStatus := rfl
@[simp] theorem mailResponse_setRegion (s : State) (r : Nat) (x : Region) : (s.setRegion r x).mailResponse = s.mailResponse := rfl
@[simp] theorem nonce_setRegion (s : State) (r : Nat) (x : Region) : (s.setRegion r x).nonce = s.nonce := rfl
@[simp] theorem quoteBytes_setRegion (s : State) (r : Nat) (x : Region) : (s.setRegion r x).quoteBytes = s.quoteBytes := rfl
@[simp] theorem opticsTemp_setRegion (s : State) (r : Nat) (x : Region) : (s.setRegion r x).opticsTemp = s.opticsTemp := rfl
@[simp] theorem mgmtTemp_setRegion (s : State) (r : Nat) (x : Region) : (s.setRegion r x).mgmtTemp = s.mgmtTemp := rfl
@[simp] theorem puf_setRegion (s : State) (r : Nat) (x : Region) : (s.setRegion r x).puf = s.puf := rfl
@[simp] theorem idlePeaks_setRegion (s : State) (r : Nat) (x : Region) : (s.setRegion r x).idlePeaks = s.idlePeaks := rfl

@[simp] theorem reg_setRegion (s : State) (r : Nat) (x : Region) (j : Nat) : (s.setRegion r x).reg j = s.reg j := rfl
@[simp] theorem blob_setRegion (s : State) (r : Nat) (x : Region) (j : Nat) : (s.setRegion r x).blob j = s.blob j := rfl
@[simp] theorem port_setRegion (s : State) (r : Nat) (x : Region) (q : Nat) : (s.setRegion r x).port q = s.port q := rfl
@[simp] theorem stack_setRegion (s : State) (r : Nat) (x : Region) (q : Nat) : (s.setRegion r x).stack q = s.stack q := rfl
@[simp] theorem chan_setRegion (s : State) (r : Nat) (x : Region) (q : Nat) : (s.setRegion r x).chan q = s.chan q := rfl
@[simp] theorem dom_setRegion (s : State) (r : Nat) (x : Region) (q : Nat) : (s.setRegion r x).dom q = s.dom q := rfl

/-! ## What `setPort` leaves alone -/

@[simp] theorem pending_setPort (s : State) (p : Nat) (x : Port) : (s.setPort p x).pending = s.pending := rfl
@[simp] theorem regs_setPort (s : State) (p : Nat) (x : Port) : (s.setPort p x).regs = s.regs := rfl
@[simp] theorem blobs_setPort (s : State) (p : Nat) (x : Port) : (s.setPort p x).blobs = s.blobs := rfl
@[simp] theorem freeCtr_setPort (s : State) (p : Nat) (x : Port) : (s.setPort p x).freeCtr = s.freeCtr := rfl
@[simp] theorem answer_setPort (s : State) (p : Nat) (x : Port) : (s.setPort p x).answer = s.answer := rfl
@[simp] theorem answerData_setPort (s : State) (p : Nat) (x : Port) : (s.setPort p x).answerData = s.answerData := rfl
@[simp] theorem power_setPort (s : State) (p : Nat) (x : Port) : (s.setPort p x).power = s.power := rfl
@[simp] theorem boot_setPort (s : State) (p : Nat) (x : Port) : (s.setPort p x).boot = s.boot := rfl
@[simp] theorem inputSwitch_setPort (s : State) (p : Nat) (x : Port) : (s.setPort p x).inputSwitch = s.inputSwitch := rfl
@[simp] theorem bladeA_setPort (s : State) (p : Nat) (x : Port) : (s.setPort p x).bladeA = s.bladeA := rfl
@[simp] theorem bladeB_setPort (s : State) (p : Nat) (x : Port) : (s.setPort p x).bladeB = s.bladeB := rfl
@[simp] theorem mvSumA_setPort (s : State) (p : Nat) (x : Port) : (s.setPort p x).mvSumA = s.mvSumA := rfl
@[simp] theorem mvSumB_setPort (s : State) (p : Nat) (x : Port) : (s.setPort p x).mvSumB = s.mvSumB := rfl
@[simp] theorem maSum_setPort (s : State) (p : Nat) (x : Port) : (s.setPort p x).maSum = s.maSum := rfl
@[simp] theorem msSamples_setPort (s : State) (p : Nat) (x : Port) : (s.setPort p x).msSamples = s.msSamples := rfl
@[simp] theorem refclk_setPort (s : State) (p : Nat) (x : Port) : (s.setPort p x).refclk = s.refclk := rfl
@[simp] theorem alertLow_setPort (s : State) (p : Nat) (x : Port) : (s.setPort p x).alertLow = s.alertLow := rfl
@[simp] theorem resetLow_setPort (s : State) (p : Nat) (x : Port) : (s.setPort p x).resetLow = s.resetLow := rfl
@[simp] theorem resetInBanked_setPort (s : State) (p : Nat) (x : Port) : (s.setPort p x).resetInBanked = s.resetInBanked := rfl
@[simp] theorem bootCause_setPort (s : State) (p : Nat) (x : Port) : (s.setPort p x).bootCause = s.bootCause := rfl
@[simp] theorem shutdownTo_setPort (s : State) (p : Nat) (x : Port) : (s.setPort p x).shutdownTo = s.shutdownTo := rfl
@[simp] theorem h_setPort (s : State) (p : Nat) (x : Port) : (s.setPort p x).h = s.h := rfl
@[simp] theorem load_setPort (s : State) (p : Nat) (x : Port) : (s.setPort p x).load = s.load := rfl
@[simp] theorem ballast_setPort (s : State) (p : Nat) (x : Port) : (s.setPort p x).ballast = s.ballast := rfl
@[simp] theorem admitting_setPort (s : State) (p : Nat) (x : Port) : (s.setPort p x).admitting = s.admitting := rfl
@[simp] theorem remove_setPort (s : State) (p : Nat) (x : Port) : (s.setPort p x).remove = s.remove := rfl
@[simp] theorem litOrder_setPort (s : State) (p : Nat) (x : Port) : (s.setPort p x).litOrder = s.litOrder := rfl
@[simp] theorem windowUsed_setPort (s : State) (p : Nat) (x : Port) : (s.setPort p x).windowUsed = s.windowUsed := rfl
@[simp] theorem winSum_setPort (s : State) (p : Nat) (x : Port) : (s.setPort p x).winSum = s.winSum := rfl
@[simp] theorem loadSum_setPort (s : State) (p : Nat) (x : Port) : (s.setPort p x).loadSum = s.loadSum := rfl
@[simp] theorem rampAbandoned_setPort (s : State) (p : Nat) (x : Port) : (s.setPort p x).rampAbandoned = s.rampAbandoned := rfl
@[simp] theorem groupsOn_setPort (s : State) (p : Nat) (x : Port) : (s.setPort p x).groupsOn = s.groupsOn := rfl
@[simp] theorem warmDue_setPort (s : State) (p : Nat) (x : Port) : (s.setPort p x).warmDue = s.warmDue := rfl
@[simp] theorem runFailed_setPort (s : State) (p : Nat) (x : Port) : (s.setPort p x).runFailed = s.runFailed := rfl
@[simp] theorem warned_setPort (s : State) (p : Nat) (x : Port) : (s.setPort p x).warned = s.warned := rfl
@[simp] theorem uartRx_setPort (s : State) (p : Nat) (x : Port) : (s.setPort p x).uartRx = s.uartRx := rfl
@[simp] theorem uartTx_setPort (s : State) (p : Nat) (x : Port) : (s.setPort p x).uartTx = s.uartTx := rfl
@[simp] theorem wakeTx_setPort (s : State) (p : Nat) (x : Port) : (s.setPort p x).wakeTx = s.wakeTx := rfl
@[simp] theorem tap_setPort (s : State) (p : Nat) (x : Port) : (s.setPort p x).tap = s.tap := rfl
@[simp] theorem boundary_setPort (s : State) (p : Nat) (x : Port) : (s.setPort p x).boundary = s.boundary := rfl
@[simp] theorem testBlock_setPort (s : State) (p : Nat) (x : Port) : (s.setPort p x).testBlock = s.testBlock := rfl
@[simp] theorem sram_setPort (s : State) (p : Nat) (x : Port) : (s.setPort p x).sram = s.sram := rfl
@[simp] theorem sramChk_setPort (s : State) (p : Nat) (x : Port) : (s.setPort p x).sramChk = s.sramChk := rfl
@[simp] theorem dram_setPort (s : State) (p : Nat) (x : Port) : (s.setPort p x).dram = s.dram := rfl
@[simp] theorem dramChk_setPort (s : State) (p : Nat) (x : Port) : (s.setPort p x).dramChk = s.dramChk := rfl
@[simp] theorem regions_setPort (s : State) (p : Nat) (x : Port) : (s.setPort p x).regions = s.regions := rfl
@[simp] theorem slots_setPort (s : State) (p : Nat) (x : Port) : (s.setPort p x).slots = s.slots := rfl
@[simp] theorem nextIdent_setPort (s : State) (p : Nat) (x : Port) : (s.setPort p x).nextIdent = s.nextIdent := rfl
@[simp] theorem restarts_setPort (s : State) (p : Nat) (x : Port) : (s.setPort p x).restarts = s.restarts := rfl
@[simp] theorem kClock_setPort (s : State) (p : Nat) (x : Port) : (s.setPort p x).kClock = s.kClock := rfl
@[simp] theorem frame_setPort (s : State) (p : Nat) (x : Port) : (s.setPort p x).frame = s.frame := rfl
@[simp] theorem slot_setPort (s : State) (p : Nat) (x : Port) : (s.setPort p x).slot = s.slot := rfl
@[simp] theorem nt32_setPort (s : State) (p : Nat) (x : Port) : (s.setPort p x).nt32 = s.nt32 := rfl
@[simp] theorem ntFrac_setPort (s : State) (p : Nat) (x : Port) : (s.setPort p x).ntFrac = s.ntFrac := rfl
@[simp] theorem latched_setPort (s : State) (p : Nat) (x : Port) : (s.setPort p x).latched = s.latched := rfl
@[simp] theorem wrapDue_setPort (s : State) (p : Nat) (x : Port) : (s.setPort p x).wrapDue = s.wrapDue := rfl
@[simp] theorem subSlot_setPort (s : State) (p : Nat) (x : Port) : (s.setPort p x).subSlot = s.subSlot := rfl
@[simp] theorem timeIn_setPort (s : State) (p : Nat) (x : Port) : (s.setPort p x).timeIn = s.timeIn := rfl
@[simp] theorem half0_setPort (s : State) (p : Nat) (x : Port) : (s.setPort p x).half0 = s.half0 := rfl
@[simp] theorem half1_setPort (s : State) (p : Nat) (x : Port) : (s.setPort p x).half1 = s.half1 := rfl
@[simp] theorem halfSet_setPort (s : State) (p : Nat) (x : Port) : (s.setPort p x).halfSet = s.halfSet := rfl
@[simp] theorem copy_setPort (s : State) (p : Nat) (x : Port) : (s.setPort p x).copy = s.copy := rfl
@[simp] theorem seqPos_setPort (s : State) (p : Nat) (x : Port) : (s.setPort p x).seqPos = s.seqPos := rfl
@[simp] theorem reps_setPort (s : State) (p : Nat) (x : Port) : (s.setPort p x).reps = s.reps := rfl
@[simp] theorem runLeft_setPort (s : State) (p : Nat) (x : Port) : (s.setPort p x).runLeft = s.runLeft := rfl
@[simp] theorem runMark_setPort (s : State) (p : Nat) (x : Port) : (s.setPort p x).runMark = s.runMark := rfl
@[simp] theorem sched_setPort (s : State) (p : Nat) (x : Port) : (s.setPort p x).sched = s.sched := rfl
@[simp] theorem uses_setPort (s : State) (p : Nat) (x : Port) : (s.setPort p x).uses = s.uses := rfl
@[simp] theorem claimed_setPort (s : State) (p : Nat) (x : Port) : (s.setPort p x).claimed = s.claimed := rfl
@[simp] theorem stepHist_setPort (s : State) (p : Nat) (x : Port) : (s.setPort p x).stepHist = s.stepHist := rfl
@[simp] theorem jobFrame0_setPort (s : State) (p : Nat) (x : Port) : (s.setPort p x).jobFrame0 = s.jobFrame0 := rfl
@[simp] theorem schedFrom_setPort (s : State) (p : Nat) (x : Port) : (s.setPort p x).schedFrom = s.schedFrom := rfl
@[simp] theorem frameIndex_setPort (s : State) (p : Nat) (x : Port) : (s.setPort p x).frameIndex = s.frameIndex := rfl
@[simp] theorem doms_setPort (s : State) (p : Nat) (x : Port) : (s.setPort p x).doms = s.doms := rfl
@[simp] theorem tsq_setPort (s : State) (p : Nat) (x : Port) : (s.setPort p x).tsq = s.tsq := rfl
@[simp] theorem tsLoggedFrame_setPort (s : State) (p : Nat) (x : Port) : (s.setPort p x).tsLoggedFrame = s.tsLoggedFrame := rfl
@[simp] theorem switchTo_setPort (s : State) (p : Nat) (x : Port) : (s.setPort p x).switchTo = s.switchTo := rfl
@[simp] theorem stepPending_setPort (s : State) (p : Nat) (x : Port) : (s.setPort p x).stepPending = s.stepPending := rfl
@[simp] theorem holdover_setPort (s : State) (p : Nat) (x : Port) : (s.setPort p x).holdover = s.holdover := rfl
@[simp] theorem lastDom_setPort (s : State) (p : Nat) (x : Port) : (s.setPort p x).lastDom = s.lastDom := rfl
@[simp] theorem image_setPort (s : State) (p : Nat) (x : Port) : (s.setPort p x).image = s.image := rfl
@[simp] theorem loading_setPort (s : State) (p : Nat) (x : Port) : (s.setPort p x).loading = s.loading := rfl
@[simp] theorem epoch_setPort (s : State) (p : Nat) (x : Port) : (s.setPort p x).epoch = s.epoch := rfl
@[simp] theorem qrec_setPort (s : State) (p : Nat) (x : Port) : (s.setPort p x).qrec = s.qrec := rfl
@[simp] theorem firstFault_setPort (s : State) (p : Nat) (x : Port) : (s.setPort p x).firstFault = s.firstFault := rfl
@[simp] theorem faultHist_setPort (s : State) (p : Nat) (x : Port) : (s.setPort p x).faultHist = s.faultHist := rfl
@[simp] theorem replaying_setPort (s : State) (p : Nat) (x : Port) : (s.setPort p x).replaying = s.replaying := rfl
@[simp] theorem joinWait_setPort (s : State) (p : Nat) (x : Port) : (s.setPort p x).joinWait = s.joinWait := rfl
@[simp] theorem formerLight_setPort (s : State) (p : Nat) (x : Port) : (s.setPort p x).formerLight = s.formerLight := rfl
@[simp] theorem formerStacks_setPort (s : State) (p : Nat) (x : Port) : (s.setPort p x).formerStacks = s.formerStacks := rfl
@[simp] theorem run_setPort (s : State) (p : Nat) (x : Port) : (s.setPort p x).run = s.run := rfl
@[simp] theorem adopt_setPort (s : State) (p : Nat) (x : Port) : (s.setPort p x).adopt = s.adopt := rfl
@[simp] theorem repair_setPort (s : State) (p : Nat) (x : Port) : (s.setPort p x).repair = s.repair := rfl
@[simp] theorem repaired_setPort (s : State) (p : Nat) (x : Port) : (s.setPort p x).repaired = s.repaired := rfl
@[simp] theorem repairWait_setPort (s : State) (p : Nat) (x : Port) : (s.setPort p x).repairWait = s.repairWait := rfl
@[simp] theorem endPending_setPort (s : State) (p : Nat) (x : Port) : (s.setPort p x).endPending = s.endPending := rfl
@[simp] theorem jobIssued_setPort (s : State) (p : Nat) (x : Port) : (s.setPort p x).jobIssued = s.jobIssued := rfl
@[simp] theorem quenchOut_setPort (s : State) (p : Nat) (x : Port) : (s.setPort p x).quenchOut = s.quenchOut := rfl
@[simp] theorem pair_setPort (s : State) (p : Nat) (x : Port) : (s.setPort p x).pair = s.pair := rfl
@[simp] theorem detaching_setPort (s : State) (p : Nat) (x : Port) : (s.setPort p x).detaching = s.detaching := rfl
@[simp] theorem heldRanges_setPort (s : State) (p : Nat) (x : Port) : (s.setPort p x).heldRanges = s.heldRanges := rfl
@[simp] theorem pushLeft_setPort (s : State) (p : Nat) (x : Port) : (s.setPort p x).pushLeft = s.pushLeft := rfl
@[simp] theorem offerDigest_setPort (s : State) (p : Nat) (x : Port) : (s.setPort p x).offerDigest = s.offerDigest := rfl
@[simp] theorem wantDigest_setPort (s : State) (p : Nat) (x : Port) : (s.setPort p x).wantDigest = s.wantDigest := rfl
@[simp] theorem confirmedSerial_setPort (s : State) (p : Nat) (x : Port) : (s.setPort p x).confirmedSerial = s.confirmedSerial := rfl
@[simp] theorem floodSeq_setPort (s : State) (p : Nat) (x : Port) : (s.setPort p x).floodSeq = s.floodSeq := rfl
@[simp] theorem floodsSeen_setPort (s : State) (p : Nat) (x : Port) : (s.setPort p x).floodsSeen = s.floodsSeen := rfl
@[simp] theorem pushQueue_setPort (s : State) (p : Nat) (x : Port) : (s.setPort p x).pushQueue = s.pushQueue := rfl
@[simp] theorem repairDue_setPort (s : State) (p : Nat) (x : Port) : (s.setPort p x).repairDue = s.repairDue := rfl
@[simp] theorem mgmtQueue_setPort (s : State) (p : Nat) (x : Port) : (s.setPort p x).mgmtQueue = s.mgmtQueue := rfl
@[simp] theorem quenchAt_setPort (s : State) (p : Nat) (x : Port) : (s.setPort p x).quenchAt = s.quenchAt := rfl
@[simp] theorem reports_setPort (s : State) (p : Nat) (x : Port) : (s.setPort p x).reports = s.reports := rfl
@[simp] theorem msgStamp_setPort (s : State) (p : Nat) (x : Port) : (s.setPort p x).msgStamp = s.msgStamp := rfl
@[simp] theorem waiting_setPort (s : State) (p : Nat) (x : Port) : (s.setPort p x).waiting = s.waiting := rfl
@[simp] theorem routeLast_setPort (s : State) (p : Nat) (x : Port) : (s.setPort p x).routeLast = s.routeLast := rfl
@[simp] theorem lateDebt_setPort (s : State) (p : Nat) (x : Port) : (s.setPort p x).lateDebt = s.lateDebt := rfl
@[simp] theorem dropLogged_setPort (s : State) (p : Nat) (x : Port) : (s.setPort p x).dropLogged = s.dropLogged := rfl
@[simp] theorem windows_setPort (s : State) (p : Nat) (x : Port) : (s.setPort p x).windows = s.windows := rfl
@[simp] theorem gtx_setPort (s : State) (p : Nat) (x : Port) : (s.setPort p x).gtx = s.gtx := rfl
@[simp] theorem heldBeacon_setPort (s : State) (p : Nat) (x : Port) : (s.setPort p x).heldBeacon = s.heldBeacon := rfl
@[simp] theorem assembly_setPort (s : State) (p : Nat) (x : Port) : (s.setPort p x).assembly = s.assembly := rfl
@[simp] theorem staged_setPort (s : State) (p : Nat) (x : Port) : (s.setPort p x).staged = s.staged := rfl
@[simp] theorem commitDue_setPort (s : State) (p : Nat) (x : Port) : (s.setPort p x).commitDue = s.commitDue := rfl
@[simp] theorem commitReply_setPort (s : State) (p : Nat) (x : Port) : (s.setPort p x).commitReply = s.commitReply := rfl
@[simp] theorem log_setPort (s : State) (p : Nat) (x : Port) : (s.setPort p x).log = s.log := rfl
@[simp] theorem eventsSent_setPort (s : State) (p : Nat) (x : Port) : (s.setPort p x).eventsSent = s.eventsSent := rfl
@[simp] theorem us_setPort (s : State) (p : Nat) (x : Port) : (s.setPort p x).us = s.us := rfl
@[simp] theorem palaz_setPort (s : State) (p : Nat) (x : Port) : (s.setPort p x).palaz = s.palaz := rfl
@[simp] theorem rateEvent_setPort (s : State) (p : Nat) (x : Port) : (s.setPort p x).rateEvent = s.rateEvent := rfl
@[simp] theorem scrub_setPort (s : State) (p : Nat) (x : Port) : (s.setPort p x).scrub = s.scrub := rfl
@[simp] theorem chans_setPort (s : State) (p : Nat) (x : Port) : (s.setPort p x).chans = s.chans := rfl
@[simp] theorem dmaOverflowFrame_setPort (s : State) (p : Nat) (x : Port) : (s.setPort p x).dmaOverflowFrame = s.dmaOverflowFrame := rfl
@[simp] theorem timerNext_setPort (s : State) (p : Nat) (x : Port) : (s.setPort p x).timerNext = s.timerNext := rfl
@[simp] theorem dmaTurn_setPort (s : State) (p : Nat) (x : Port) : (s.setPort p x).dmaTurn = s.dmaTurn := rfl
@[simp] theorem bgDone_setPort (s : State) (p : Nat) (x : Port) : (s.setPort p x).bgDone = s.bgDone := rfl
@[simp] theorem reqLost_setPort (s : State) (p : Nat) (x : Port) : (s.setPort p x).reqLost = s.reqLost := rfl
@[simp] theorem resetOwed_setPort (s : State) (p : Nat) (x : Port) : (s.setPort p x).resetOwed = s.resetOwed := rfl
@[simp] theorem lostLogged_setPort (s : State) (p : Nat) (x : Port) : (s.setPort p x).lostLogged = s.lostLogged := rfl
@[simp] theorem ntMoved_setPort (s : State) (p : Nat) (x : Port) : (s.setPort p x).ntMoved = s.ntMoved := rfl
@[simp] theorem heldRate_setPort (s : State) (p : Nat) (x : Port) : (s.setPort p x).heldRate = s.heldRate := rfl
@[simp] theorem bankA_setPort (s : State) (p : Nat) (x : Port) : (s.setPort p x).bankA = s.bankA := rfl
@[simp] theorem bankB_setPort (s : State) (p : Nat) (x : Port) : (s.setPort p x).bankB = s.bankB := rfl
@[simp] theorem rollback0_setPort (s : State) (p : Nat) (x : Port) : (s.setPort p x).rollback0 = s.rollback0 := rfl
@[simp] theorem rollback1_setPort (s : State) (p : Nat) (x : Port) : (s.setPort p x).rollback1 = s.rollback1 := rfl
@[simp] theorem gradeRec_setPort (s : State) (p : Nat) (x : Port) : (s.setPort p x).gradeRec = s.gradeRec := rfl
@[simp] theorem certificate_setPort (s : State) (p : Nat) (x : Port) : (s.setPort p x).certificate = s.certificate := rfl
@[simp] theorem config_setPort (s : State) (p : Nat) (x : Port) : (s.setPort p x).config = s.config := rfl
@[simp] theorem cfg_setPort (s : State) (p : Nat) (x : Port) : (s.setPort p x).cfg = s.cfg := rfl
@[simp] theorem measLog_setPort (s : State) (p : Nat) (x : Port) : (s.setPort p x).measLog = s.measLog := rfl
@[simp] theorem measCount_setPort (s : State) (p : Nat) (x : Port) : (s.setPort p x).measCount = s.measCount := rfl
@[simp] theorem challenge_setPort (s : State) (p : Nat) (x : Port) : (s.setPort p x).challenge = s.challenge := rfl
@[simp] theorem token_setPort (s : State) (p : Nat) (x : Port) : (s.setPort p x).token = s.token := rfl
@[simp] theorem mailStatus_setPort (s : State) (p : Nat) (x : Port) : (s.setPort p x).mailStatus = s.mailStatus := rfl
@[simp] theorem mailResponse_setPort (s : State) (p : Nat) (x : Port) : (s.setPort p x).mailResponse = s.mailResponse := rfl
@[simp] theorem nonce_setPort (s : State) (p : Nat) (x : Port) : (s.setPort p x).nonce = s.nonce := rfl
@[simp] theorem quoteBytes_setPort (s : State) (p : Nat) (x : Port) : (s.setPort p x).quoteBytes = s.quoteBytes := rfl
@[simp] theorem opticsTemp_setPort (s : State) (p : Nat) (x : Port) : (s.setPort p x).opticsTemp = s.opticsTemp := rfl
@[simp] theorem mgmtTemp_setPort (s : State) (p : Nat) (x : Port) : (s.setPort p x).mgmtTemp = s.mgmtTemp := rfl
@[simp] theorem puf_setPort (s : State) (p : Nat) (x : Port) : (s.setPort p x).puf = s.puf := rfl
@[simp] theorem idlePeaks_setPort (s : State) (p : Nat) (x : Port) : (s.setPort p x).idlePeaks = s.idlePeaks := rfl

@[simp] theorem reg_setPort (s : State) (p : Nat) (x : Port) (j : Nat) : (s.setPort p x).reg j = s.reg j := rfl
@[simp] theorem blob_setPort (s : State) (p : Nat) (x : Port) (j : Nat) : (s.setPort p x).blob j = s.blob j := rfl
@[simp] theorem region_setPort (s : State) (p : Nat) (x : Port) (q : Nat) : (s.setPort p x).region q = s.region q := rfl
@[simp] theorem core_setPort (s : State) (p : Nat) (x : Port) (q : Nat) : (s.setPort p x).core q = s.core q := rfl
@[simp] theorem stack_setPort (s : State) (p : Nat) (x : Port) (q : Nat) : (s.setPort p x).stack q = s.stack q := rfl
@[simp] theorem chan_setPort (s : State) (p : Nat) (x : Port) (q : Nat) : (s.setPort p x).chan q = s.chan q := rfl
@[simp] theorem dom_setPort (s : State) (p : Nat) (x : Port) (q : Nat) : (s.setPort p x).dom q = s.dom q := rfl

/-! ## What `setStack` leaves alone -/

@[simp] theorem pending_setStack (s : State) (k : Nat) (x : Stack) : (s.setStack k x).pending = s.pending := rfl
@[simp] theorem regs_setStack (s : State) (k : Nat) (x : Stack) : (s.setStack k x).regs = s.regs := rfl
@[simp] theorem blobs_setStack (s : State) (k : Nat) (x : Stack) : (s.setStack k x).blobs = s.blobs := rfl
@[simp] theorem freeCtr_setStack (s : State) (k : Nat) (x : Stack) : (s.setStack k x).freeCtr = s.freeCtr := rfl
@[simp] theorem answer_setStack (s : State) (k : Nat) (x : Stack) : (s.setStack k x).answer = s.answer := rfl
@[simp] theorem answerData_setStack (s : State) (k : Nat) (x : Stack) : (s.setStack k x).answerData = s.answerData := rfl
@[simp] theorem power_setStack (s : State) (k : Nat) (x : Stack) : (s.setStack k x).power = s.power := rfl
@[simp] theorem boot_setStack (s : State) (k : Nat) (x : Stack) : (s.setStack k x).boot = s.boot := rfl
@[simp] theorem inputSwitch_setStack (s : State) (k : Nat) (x : Stack) : (s.setStack k x).inputSwitch = s.inputSwitch := rfl
@[simp] theorem bladeA_setStack (s : State) (k : Nat) (x : Stack) : (s.setStack k x).bladeA = s.bladeA := rfl
@[simp] theorem bladeB_setStack (s : State) (k : Nat) (x : Stack) : (s.setStack k x).bladeB = s.bladeB := rfl
@[simp] theorem mvSumA_setStack (s : State) (k : Nat) (x : Stack) : (s.setStack k x).mvSumA = s.mvSumA := rfl
@[simp] theorem mvSumB_setStack (s : State) (k : Nat) (x : Stack) : (s.setStack k x).mvSumB = s.mvSumB := rfl
@[simp] theorem maSum_setStack (s : State) (k : Nat) (x : Stack) : (s.setStack k x).maSum = s.maSum := rfl
@[simp] theorem msSamples_setStack (s : State) (k : Nat) (x : Stack) : (s.setStack k x).msSamples = s.msSamples := rfl
@[simp] theorem refclk_setStack (s : State) (k : Nat) (x : Stack) : (s.setStack k x).refclk = s.refclk := rfl
@[simp] theorem alertLow_setStack (s : State) (k : Nat) (x : Stack) : (s.setStack k x).alertLow = s.alertLow := rfl
@[simp] theorem resetLow_setStack (s : State) (k : Nat) (x : Stack) : (s.setStack k x).resetLow = s.resetLow := rfl
@[simp] theorem resetInBanked_setStack (s : State) (k : Nat) (x : Stack) : (s.setStack k x).resetInBanked = s.resetInBanked := rfl
@[simp] theorem bootCause_setStack (s : State) (k : Nat) (x : Stack) : (s.setStack k x).bootCause = s.bootCause := rfl
@[simp] theorem shutdownTo_setStack (s : State) (k : Nat) (x : Stack) : (s.setStack k x).shutdownTo = s.shutdownTo := rfl
@[simp] theorem h_setStack (s : State) (k : Nat) (x : Stack) : (s.setStack k x).h = s.h := rfl
@[simp] theorem load_setStack (s : State) (k : Nat) (x : Stack) : (s.setStack k x).load = s.load := rfl
@[simp] theorem ballast_setStack (s : State) (k : Nat) (x : Stack) : (s.setStack k x).ballast = s.ballast := rfl
@[simp] theorem admitting_setStack (s : State) (k : Nat) (x : Stack) : (s.setStack k x).admitting = s.admitting := rfl
@[simp] theorem remove_setStack (s : State) (k : Nat) (x : Stack) : (s.setStack k x).remove = s.remove := rfl
@[simp] theorem litOrder_setStack (s : State) (k : Nat) (x : Stack) : (s.setStack k x).litOrder = s.litOrder := rfl
@[simp] theorem windowUsed_setStack (s : State) (k : Nat) (x : Stack) : (s.setStack k x).windowUsed = s.windowUsed := rfl
@[simp] theorem winSum_setStack (s : State) (k : Nat) (x : Stack) : (s.setStack k x).winSum = s.winSum := rfl
@[simp] theorem loadSum_setStack (s : State) (k : Nat) (x : Stack) : (s.setStack k x).loadSum = s.loadSum := rfl
@[simp] theorem rampAbandoned_setStack (s : State) (k : Nat) (x : Stack) : (s.setStack k x).rampAbandoned = s.rampAbandoned := rfl
@[simp] theorem groupsOn_setStack (s : State) (k : Nat) (x : Stack) : (s.setStack k x).groupsOn = s.groupsOn := rfl
@[simp] theorem warmDue_setStack (s : State) (k : Nat) (x : Stack) : (s.setStack k x).warmDue = s.warmDue := rfl
@[simp] theorem runFailed_setStack (s : State) (k : Nat) (x : Stack) : (s.setStack k x).runFailed = s.runFailed := rfl
@[simp] theorem warned_setStack (s : State) (k : Nat) (x : Stack) : (s.setStack k x).warned = s.warned := rfl
@[simp] theorem uartRx_setStack (s : State) (k : Nat) (x : Stack) : (s.setStack k x).uartRx = s.uartRx := rfl
@[simp] theorem uartTx_setStack (s : State) (k : Nat) (x : Stack) : (s.setStack k x).uartTx = s.uartTx := rfl
@[simp] theorem wakeTx_setStack (s : State) (k : Nat) (x : Stack) : (s.setStack k x).wakeTx = s.wakeTx := rfl
@[simp] theorem tap_setStack (s : State) (k : Nat) (x : Stack) : (s.setStack k x).tap = s.tap := rfl
@[simp] theorem boundary_setStack (s : State) (k : Nat) (x : Stack) : (s.setStack k x).boundary = s.boundary := rfl
@[simp] theorem testBlock_setStack (s : State) (k : Nat) (x : Stack) : (s.setStack k x).testBlock = s.testBlock := rfl
@[simp] theorem sram_setStack (s : State) (k : Nat) (x : Stack) : (s.setStack k x).sram = s.sram := rfl
@[simp] theorem sramChk_setStack (s : State) (k : Nat) (x : Stack) : (s.setStack k x).sramChk = s.sramChk := rfl
@[simp] theorem dram_setStack (s : State) (k : Nat) (x : Stack) : (s.setStack k x).dram = s.dram := rfl
@[simp] theorem dramChk_setStack (s : State) (k : Nat) (x : Stack) : (s.setStack k x).dramChk = s.dramChk := rfl
@[simp] theorem regions_setStack (s : State) (k : Nat) (x : Stack) : (s.setStack k x).regions = s.regions := rfl
@[simp] theorem slots_setStack (s : State) (k : Nat) (x : Stack) : (s.setStack k x).slots = s.slots := rfl
@[simp] theorem nextIdent_setStack (s : State) (k : Nat) (x : Stack) : (s.setStack k x).nextIdent = s.nextIdent := rfl
@[simp] theorem restarts_setStack (s : State) (k : Nat) (x : Stack) : (s.setStack k x).restarts = s.restarts := rfl
@[simp] theorem kClock_setStack (s : State) (k : Nat) (x : Stack) : (s.setStack k x).kClock = s.kClock := rfl
@[simp] theorem ports_setStack (s : State) (k : Nat) (x : Stack) : (s.setStack k x).ports = s.ports := rfl
@[simp] theorem frame_setStack (s : State) (k : Nat) (x : Stack) : (s.setStack k x).frame = s.frame := rfl
@[simp] theorem slot_setStack (s : State) (k : Nat) (x : Stack) : (s.setStack k x).slot = s.slot := rfl
@[simp] theorem nt32_setStack (s : State) (k : Nat) (x : Stack) : (s.setStack k x).nt32 = s.nt32 := rfl
@[simp] theorem ntFrac_setStack (s : State) (k : Nat) (x : Stack) : (s.setStack k x).ntFrac = s.ntFrac := rfl
@[simp] theorem latched_setStack (s : State) (k : Nat) (x : Stack) : (s.setStack k x).latched = s.latched := rfl
@[simp] theorem wrapDue_setStack (s : State) (k : Nat) (x : Stack) : (s.setStack k x).wrapDue = s.wrapDue := rfl
@[simp] theorem subSlot_setStack (s : State) (k : Nat) (x : Stack) : (s.setStack k x).subSlot = s.subSlot := rfl
@[simp] theorem timeIn_setStack (s : State) (k : Nat) (x : Stack) : (s.setStack k x).timeIn = s.timeIn := rfl
@[simp] theorem half0_setStack (s : State) (k : Nat) (x : Stack) : (s.setStack k x).half0 = s.half0 := rfl
@[simp] theorem half1_setStack (s : State) (k : Nat) (x : Stack) : (s.setStack k x).half1 = s.half1 := rfl
@[simp] theorem halfSet_setStack (s : State) (k : Nat) (x : Stack) : (s.setStack k x).halfSet = s.halfSet := rfl
@[simp] theorem copy_setStack (s : State) (k : Nat) (x : Stack) : (s.setStack k x).copy = s.copy := rfl
@[simp] theorem seqPos_setStack (s : State) (k : Nat) (x : Stack) : (s.setStack k x).seqPos = s.seqPos := rfl
@[simp] theorem reps_setStack (s : State) (k : Nat) (x : Stack) : (s.setStack k x).reps = s.reps := rfl
@[simp] theorem runLeft_setStack (s : State) (k : Nat) (x : Stack) : (s.setStack k x).runLeft = s.runLeft := rfl
@[simp] theorem runMark_setStack (s : State) (k : Nat) (x : Stack) : (s.setStack k x).runMark = s.runMark := rfl
@[simp] theorem sched_setStack (s : State) (k : Nat) (x : Stack) : (s.setStack k x).sched = s.sched := rfl
@[simp] theorem uses_setStack (s : State) (k : Nat) (x : Stack) : (s.setStack k x).uses = s.uses := rfl
@[simp] theorem claimed_setStack (s : State) (k : Nat) (x : Stack) : (s.setStack k x).claimed = s.claimed := rfl
@[simp] theorem stepHist_setStack (s : State) (k : Nat) (x : Stack) : (s.setStack k x).stepHist = s.stepHist := rfl
@[simp] theorem jobFrame0_setStack (s : State) (k : Nat) (x : Stack) : (s.setStack k x).jobFrame0 = s.jobFrame0 := rfl
@[simp] theorem schedFrom_setStack (s : State) (k : Nat) (x : Stack) : (s.setStack k x).schedFrom = s.schedFrom := rfl
@[simp] theorem frameIndex_setStack (s : State) (k : Nat) (x : Stack) : (s.setStack k x).frameIndex = s.frameIndex := rfl
@[simp] theorem doms_setStack (s : State) (k : Nat) (x : Stack) : (s.setStack k x).doms = s.doms := rfl
@[simp] theorem tsq_setStack (s : State) (k : Nat) (x : Stack) : (s.setStack k x).tsq = s.tsq := rfl
@[simp] theorem tsLoggedFrame_setStack (s : State) (k : Nat) (x : Stack) : (s.setStack k x).tsLoggedFrame = s.tsLoggedFrame := rfl
@[simp] theorem switchTo_setStack (s : State) (k : Nat) (x : Stack) : (s.setStack k x).switchTo = s.switchTo := rfl
@[simp] theorem stepPending_setStack (s : State) (k : Nat) (x : Stack) : (s.setStack k x).stepPending = s.stepPending := rfl
@[simp] theorem holdover_setStack (s : State) (k : Nat) (x : Stack) : (s.setStack k x).holdover = s.holdover := rfl
@[simp] theorem lastDom_setStack (s : State) (k : Nat) (x : Stack) : (s.setStack k x).lastDom = s.lastDom := rfl
@[simp] theorem image_setStack (s : State) (k : Nat) (x : Stack) : (s.setStack k x).image = s.image := rfl
@[simp] theorem loading_setStack (s : State) (k : Nat) (x : Stack) : (s.setStack k x).loading = s.loading := rfl
@[simp] theorem epoch_setStack (s : State) (k : Nat) (x : Stack) : (s.setStack k x).epoch = s.epoch := rfl
@[simp] theorem qrec_setStack (s : State) (k : Nat) (x : Stack) : (s.setStack k x).qrec = s.qrec := rfl
@[simp] theorem firstFault_setStack (s : State) (k : Nat) (x : Stack) : (s.setStack k x).firstFault = s.firstFault := rfl
@[simp] theorem faultHist_setStack (s : State) (k : Nat) (x : Stack) : (s.setStack k x).faultHist = s.faultHist := rfl
@[simp] theorem replaying_setStack (s : State) (k : Nat) (x : Stack) : (s.setStack k x).replaying = s.replaying := rfl
@[simp] theorem joinWait_setStack (s : State) (k : Nat) (x : Stack) : (s.setStack k x).joinWait = s.joinWait := rfl
@[simp] theorem formerLight_setStack (s : State) (k : Nat) (x : Stack) : (s.setStack k x).formerLight = s.formerLight := rfl
@[simp] theorem formerStacks_setStack (s : State) (k : Nat) (x : Stack) : (s.setStack k x).formerStacks = s.formerStacks := rfl
@[simp] theorem run_setStack (s : State) (k : Nat) (x : Stack) : (s.setStack k x).run = s.run := rfl
@[simp] theorem adopt_setStack (s : State) (k : Nat) (x : Stack) : (s.setStack k x).adopt = s.adopt := rfl
@[simp] theorem repair_setStack (s : State) (k : Nat) (x : Stack) : (s.setStack k x).repair = s.repair := rfl
@[simp] theorem repaired_setStack (s : State) (k : Nat) (x : Stack) : (s.setStack k x).repaired = s.repaired := rfl
@[simp] theorem repairWait_setStack (s : State) (k : Nat) (x : Stack) : (s.setStack k x).repairWait = s.repairWait := rfl
@[simp] theorem endPending_setStack (s : State) (k : Nat) (x : Stack) : (s.setStack k x).endPending = s.endPending := rfl
@[simp] theorem jobIssued_setStack (s : State) (k : Nat) (x : Stack) : (s.setStack k x).jobIssued = s.jobIssued := rfl
@[simp] theorem quenchOut_setStack (s : State) (k : Nat) (x : Stack) : (s.setStack k x).quenchOut = s.quenchOut := rfl
@[simp] theorem pair_setStack (s : State) (k : Nat) (x : Stack) : (s.setStack k x).pair = s.pair := rfl
@[simp] theorem detaching_setStack (s : State) (k : Nat) (x : Stack) : (s.setStack k x).detaching = s.detaching := rfl
@[simp] theorem heldRanges_setStack (s : State) (k : Nat) (x : Stack) : (s.setStack k x).heldRanges = s.heldRanges := rfl
@[simp] theorem pushLeft_setStack (s : State) (k : Nat) (x : Stack) : (s.setStack k x).pushLeft = s.pushLeft := rfl
@[simp] theorem offerDigest_setStack (s : State) (k : Nat) (x : Stack) : (s.setStack k x).offerDigest = s.offerDigest := rfl
@[simp] theorem wantDigest_setStack (s : State) (k : Nat) (x : Stack) : (s.setStack k x).wantDigest = s.wantDigest := rfl
@[simp] theorem confirmedSerial_setStack (s : State) (k : Nat) (x : Stack) : (s.setStack k x).confirmedSerial = s.confirmedSerial := rfl
@[simp] theorem floodSeq_setStack (s : State) (k : Nat) (x : Stack) : (s.setStack k x).floodSeq = s.floodSeq := rfl
@[simp] theorem floodsSeen_setStack (s : State) (k : Nat) (x : Stack) : (s.setStack k x).floodsSeen = s.floodsSeen := rfl
@[simp] theorem pushQueue_setStack (s : State) (k : Nat) (x : Stack) : (s.setStack k x).pushQueue = s.pushQueue := rfl
@[simp] theorem repairDue_setStack (s : State) (k : Nat) (x : Stack) : (s.setStack k x).repairDue = s.repairDue := rfl
@[simp] theorem mgmtQueue_setStack (s : State) (k : Nat) (x : Stack) : (s.setStack k x).mgmtQueue = s.mgmtQueue := rfl
@[simp] theorem quenchAt_setStack (s : State) (k : Nat) (x : Stack) : (s.setStack k x).quenchAt = s.quenchAt := rfl
@[simp] theorem reports_setStack (s : State) (k : Nat) (x : Stack) : (s.setStack k x).reports = s.reports := rfl
@[simp] theorem msgStamp_setStack (s : State) (k : Nat) (x : Stack) : (s.setStack k x).msgStamp = s.msgStamp := rfl
@[simp] theorem waiting_setStack (s : State) (k : Nat) (x : Stack) : (s.setStack k x).waiting = s.waiting := rfl
@[simp] theorem routeLast_setStack (s : State) (k : Nat) (x : Stack) : (s.setStack k x).routeLast = s.routeLast := rfl
@[simp] theorem lateDebt_setStack (s : State) (k : Nat) (x : Stack) : (s.setStack k x).lateDebt = s.lateDebt := rfl
@[simp] theorem dropLogged_setStack (s : State) (k : Nat) (x : Stack) : (s.setStack k x).dropLogged = s.dropLogged := rfl
@[simp] theorem windows_setStack (s : State) (k : Nat) (x : Stack) : (s.setStack k x).windows = s.windows := rfl
@[simp] theorem gtx_setStack (s : State) (k : Nat) (x : Stack) : (s.setStack k x).gtx = s.gtx := rfl
@[simp] theorem heldBeacon_setStack (s : State) (k : Nat) (x : Stack) : (s.setStack k x).heldBeacon = s.heldBeacon := rfl
@[simp] theorem assembly_setStack (s : State) (k : Nat) (x : Stack) : (s.setStack k x).assembly = s.assembly := rfl
@[simp] theorem staged_setStack (s : State) (k : Nat) (x : Stack) : (s.setStack k x).staged = s.staged := rfl
@[simp] theorem commitDue_setStack (s : State) (k : Nat) (x : Stack) : (s.setStack k x).commitDue = s.commitDue := rfl
@[simp] theorem commitReply_setStack (s : State) (k : Nat) (x : Stack) : (s.setStack k x).commitReply = s.commitReply := rfl
@[simp] theorem log_setStack (s : State) (k : Nat) (x : Stack) : (s.setStack k x).log = s.log := rfl
@[simp] theorem eventsSent_setStack (s : State) (k : Nat) (x : Stack) : (s.setStack k x).eventsSent = s.eventsSent := rfl
@[simp] theorem us_setStack (s : State) (k : Nat) (x : Stack) : (s.setStack k x).us = s.us := rfl
@[simp] theorem rateEvent_setStack (s : State) (k : Nat) (x : Stack) : (s.setStack k x).rateEvent = s.rateEvent := rfl
@[simp] theorem scrub_setStack (s : State) (k : Nat) (x : Stack) : (s.setStack k x).scrub = s.scrub := rfl
@[simp] theorem chans_setStack (s : State) (k : Nat) (x : Stack) : (s.setStack k x).chans = s.chans := rfl
@[simp] theorem dmaOverflowFrame_setStack (s : State) (k : Nat) (x : Stack) : (s.setStack k x).dmaOverflowFrame = s.dmaOverflowFrame := rfl
@[simp] theorem timerNext_setStack (s : State) (k : Nat) (x : Stack) : (s.setStack k x).timerNext = s.timerNext := rfl
@[simp] theorem dmaTurn_setStack (s : State) (k : Nat) (x : Stack) : (s.setStack k x).dmaTurn = s.dmaTurn := rfl
@[simp] theorem bgDone_setStack (s : State) (k : Nat) (x : Stack) : (s.setStack k x).bgDone = s.bgDone := rfl
@[simp] theorem reqLost_setStack (s : State) (k : Nat) (x : Stack) : (s.setStack k x).reqLost = s.reqLost := rfl
@[simp] theorem resetOwed_setStack (s : State) (k : Nat) (x : Stack) : (s.setStack k x).resetOwed = s.resetOwed := rfl
@[simp] theorem lostLogged_setStack (s : State) (k : Nat) (x : Stack) : (s.setStack k x).lostLogged = s.lostLogged := rfl
@[simp] theorem ntMoved_setStack (s : State) (k : Nat) (x : Stack) : (s.setStack k x).ntMoved = s.ntMoved := rfl
@[simp] theorem heldRate_setStack (s : State) (k : Nat) (x : Stack) : (s.setStack k x).heldRate = s.heldRate := rfl
@[simp] theorem bankA_setStack (s : State) (k : Nat) (x : Stack) : (s.setStack k x).bankA = s.bankA := rfl
@[simp] theorem bankB_setStack (s : State) (k : Nat) (x : Stack) : (s.setStack k x).bankB = s.bankB := rfl
@[simp] theorem rollback0_setStack (s : State) (k : Nat) (x : Stack) : (s.setStack k x).rollback0 = s.rollback0 := rfl
@[simp] theorem rollback1_setStack (s : State) (k : Nat) (x : Stack) : (s.setStack k x).rollback1 = s.rollback1 := rfl
@[simp] theorem gradeRec_setStack (s : State) (k : Nat) (x : Stack) : (s.setStack k x).gradeRec = s.gradeRec := rfl
@[simp] theorem certificate_setStack (s : State) (k : Nat) (x : Stack) : (s.setStack k x).certificate = s.certificate := rfl
@[simp] theorem config_setStack (s : State) (k : Nat) (x : Stack) : (s.setStack k x).config = s.config := rfl
@[simp] theorem cfg_setStack (s : State) (k : Nat) (x : Stack) : (s.setStack k x).cfg = s.cfg := rfl
@[simp] theorem measLog_setStack (s : State) (k : Nat) (x : Stack) : (s.setStack k x).measLog = s.measLog := rfl
@[simp] theorem measCount_setStack (s : State) (k : Nat) (x : Stack) : (s.setStack k x).measCount = s.measCount := rfl
@[simp] theorem challenge_setStack (s : State) (k : Nat) (x : Stack) : (s.setStack k x).challenge = s.challenge := rfl
@[simp] theorem token_setStack (s : State) (k : Nat) (x : Stack) : (s.setStack k x).token = s.token := rfl
@[simp] theorem mailStatus_setStack (s : State) (k : Nat) (x : Stack) : (s.setStack k x).mailStatus = s.mailStatus := rfl
@[simp] theorem mailResponse_setStack (s : State) (k : Nat) (x : Stack) : (s.setStack k x).mailResponse = s.mailResponse := rfl
@[simp] theorem nonce_setStack (s : State) (k : Nat) (x : Stack) : (s.setStack k x).nonce = s.nonce := rfl
@[simp] theorem quoteBytes_setStack (s : State) (k : Nat) (x : Stack) : (s.setStack k x).quoteBytes = s.quoteBytes := rfl
@[simp] theorem opticsTemp_setStack (s : State) (k : Nat) (x : Stack) : (s.setStack k x).opticsTemp = s.opticsTemp := rfl
@[simp] theorem mgmtTemp_setStack (s : State) (k : Nat) (x : Stack) : (s.setStack k x).mgmtTemp = s.mgmtTemp := rfl
@[simp] theorem puf_setStack (s : State) (k : Nat) (x : Stack) : (s.setStack k x).puf = s.puf := rfl
@[simp] theorem idlePeaks_setStack (s : State) (k : Nat) (x : Stack) : (s.setStack k x).idlePeaks = s.idlePeaks := rfl

@[simp] theorem reg_setStack (s : State) (k : Nat) (x : Stack) (j : Nat) : (s.setStack k x).reg j = s.reg j := rfl
@[simp] theorem blob_setStack (s : State) (k : Nat) (x : Stack) (j : Nat) : (s.setStack k x).blob j = s.blob j := rfl
@[simp] theorem region_setStack (s : State) (k : Nat) (x : Stack) (q : Nat) : (s.setStack k x).region q = s.region q := rfl
@[simp] theorem core_setStack (s : State) (k : Nat) (x : Stack) (q : Nat) : (s.setStack k x).core q = s.core q := rfl
@[simp] theorem port_setStack (s : State) (k : Nat) (x : Stack) (q : Nat) : (s.setStack k x).port q = s.port q := rfl
@[simp] theorem chan_setStack (s : State) (k : Nat) (x : Stack) (q : Nat) : (s.setStack k x).chan q = s.chan q := rfl
@[simp] theorem dom_setStack (s : State) (k : Nat) (x : Stack) (q : Nat) : (s.setStack k x).dom q = s.dom q := rfl

/-! ## What `setChan` leaves alone -/

@[simp] theorem pending_setChan (s : State) (c : Nat) (x : Chan) : (s.setChan c x).pending = s.pending := rfl
@[simp] theorem regs_setChan (s : State) (c : Nat) (x : Chan) : (s.setChan c x).regs = s.regs := rfl
@[simp] theorem blobs_setChan (s : State) (c : Nat) (x : Chan) : (s.setChan c x).blobs = s.blobs := rfl
@[simp] theorem freeCtr_setChan (s : State) (c : Nat) (x : Chan) : (s.setChan c x).freeCtr = s.freeCtr := rfl
@[simp] theorem answer_setChan (s : State) (c : Nat) (x : Chan) : (s.setChan c x).answer = s.answer := rfl
@[simp] theorem answerData_setChan (s : State) (c : Nat) (x : Chan) : (s.setChan c x).answerData = s.answerData := rfl
@[simp] theorem power_setChan (s : State) (c : Nat) (x : Chan) : (s.setChan c x).power = s.power := rfl
@[simp] theorem boot_setChan (s : State) (c : Nat) (x : Chan) : (s.setChan c x).boot = s.boot := rfl
@[simp] theorem inputSwitch_setChan (s : State) (c : Nat) (x : Chan) : (s.setChan c x).inputSwitch = s.inputSwitch := rfl
@[simp] theorem bladeA_setChan (s : State) (c : Nat) (x : Chan) : (s.setChan c x).bladeA = s.bladeA := rfl
@[simp] theorem bladeB_setChan (s : State) (c : Nat) (x : Chan) : (s.setChan c x).bladeB = s.bladeB := rfl
@[simp] theorem mvSumA_setChan (s : State) (c : Nat) (x : Chan) : (s.setChan c x).mvSumA = s.mvSumA := rfl
@[simp] theorem mvSumB_setChan (s : State) (c : Nat) (x : Chan) : (s.setChan c x).mvSumB = s.mvSumB := rfl
@[simp] theorem maSum_setChan (s : State) (c : Nat) (x : Chan) : (s.setChan c x).maSum = s.maSum := rfl
@[simp] theorem msSamples_setChan (s : State) (c : Nat) (x : Chan) : (s.setChan c x).msSamples = s.msSamples := rfl
@[simp] theorem refclk_setChan (s : State) (c : Nat) (x : Chan) : (s.setChan c x).refclk = s.refclk := rfl
@[simp] theorem alertLow_setChan (s : State) (c : Nat) (x : Chan) : (s.setChan c x).alertLow = s.alertLow := rfl
@[simp] theorem resetLow_setChan (s : State) (c : Nat) (x : Chan) : (s.setChan c x).resetLow = s.resetLow := rfl
@[simp] theorem resetInBanked_setChan (s : State) (c : Nat) (x : Chan) : (s.setChan c x).resetInBanked = s.resetInBanked := rfl
@[simp] theorem bootCause_setChan (s : State) (c : Nat) (x : Chan) : (s.setChan c x).bootCause = s.bootCause := rfl
@[simp] theorem shutdownTo_setChan (s : State) (c : Nat) (x : Chan) : (s.setChan c x).shutdownTo = s.shutdownTo := rfl
@[simp] theorem h_setChan (s : State) (c : Nat) (x : Chan) : (s.setChan c x).h = s.h := rfl
@[simp] theorem load_setChan (s : State) (c : Nat) (x : Chan) : (s.setChan c x).load = s.load := rfl
@[simp] theorem ballast_setChan (s : State) (c : Nat) (x : Chan) : (s.setChan c x).ballast = s.ballast := rfl
@[simp] theorem admitting_setChan (s : State) (c : Nat) (x : Chan) : (s.setChan c x).admitting = s.admitting := rfl
@[simp] theorem remove_setChan (s : State) (c : Nat) (x : Chan) : (s.setChan c x).remove = s.remove := rfl
@[simp] theorem litOrder_setChan (s : State) (c : Nat) (x : Chan) : (s.setChan c x).litOrder = s.litOrder := rfl
@[simp] theorem windowUsed_setChan (s : State) (c : Nat) (x : Chan) : (s.setChan c x).windowUsed = s.windowUsed := rfl
@[simp] theorem winSum_setChan (s : State) (c : Nat) (x : Chan) : (s.setChan c x).winSum = s.winSum := rfl
@[simp] theorem loadSum_setChan (s : State) (c : Nat) (x : Chan) : (s.setChan c x).loadSum = s.loadSum := rfl
@[simp] theorem rampAbandoned_setChan (s : State) (c : Nat) (x : Chan) : (s.setChan c x).rampAbandoned = s.rampAbandoned := rfl
@[simp] theorem groupsOn_setChan (s : State) (c : Nat) (x : Chan) : (s.setChan c x).groupsOn = s.groupsOn := rfl
@[simp] theorem warmDue_setChan (s : State) (c : Nat) (x : Chan) : (s.setChan c x).warmDue = s.warmDue := rfl
@[simp] theorem runFailed_setChan (s : State) (c : Nat) (x : Chan) : (s.setChan c x).runFailed = s.runFailed := rfl
@[simp] theorem warned_setChan (s : State) (c : Nat) (x : Chan) : (s.setChan c x).warned = s.warned := rfl
@[simp] theorem uartRx_setChan (s : State) (c : Nat) (x : Chan) : (s.setChan c x).uartRx = s.uartRx := rfl
@[simp] theorem uartTx_setChan (s : State) (c : Nat) (x : Chan) : (s.setChan c x).uartTx = s.uartTx := rfl
@[simp] theorem wakeTx_setChan (s : State) (c : Nat) (x : Chan) : (s.setChan c x).wakeTx = s.wakeTx := rfl
@[simp] theorem tap_setChan (s : State) (c : Nat) (x : Chan) : (s.setChan c x).tap = s.tap := rfl
@[simp] theorem boundary_setChan (s : State) (c : Nat) (x : Chan) : (s.setChan c x).boundary = s.boundary := rfl
@[simp] theorem testBlock_setChan (s : State) (c : Nat) (x : Chan) : (s.setChan c x).testBlock = s.testBlock := rfl
@[simp] theorem sram_setChan (s : State) (c : Nat) (x : Chan) : (s.setChan c x).sram = s.sram := rfl
@[simp] theorem sramChk_setChan (s : State) (c : Nat) (x : Chan) : (s.setChan c x).sramChk = s.sramChk := rfl
@[simp] theorem dram_setChan (s : State) (c : Nat) (x : Chan) : (s.setChan c x).dram = s.dram := rfl
@[simp] theorem dramChk_setChan (s : State) (c : Nat) (x : Chan) : (s.setChan c x).dramChk = s.dramChk := rfl
@[simp] theorem regions_setChan (s : State) (c : Nat) (x : Chan) : (s.setChan c x).regions = s.regions := rfl
@[simp] theorem slots_setChan (s : State) (c : Nat) (x : Chan) : (s.setChan c x).slots = s.slots := rfl
@[simp] theorem nextIdent_setChan (s : State) (c : Nat) (x : Chan) : (s.setChan c x).nextIdent = s.nextIdent := rfl
@[simp] theorem restarts_setChan (s : State) (c : Nat) (x : Chan) : (s.setChan c x).restarts = s.restarts := rfl
@[simp] theorem kClock_setChan (s : State) (c : Nat) (x : Chan) : (s.setChan c x).kClock = s.kClock := rfl
@[simp] theorem ports_setChan (s : State) (c : Nat) (x : Chan) : (s.setChan c x).ports = s.ports := rfl
@[simp] theorem frame_setChan (s : State) (c : Nat) (x : Chan) : (s.setChan c x).frame = s.frame := rfl
@[simp] theorem slot_setChan (s : State) (c : Nat) (x : Chan) : (s.setChan c x).slot = s.slot := rfl
@[simp] theorem nt32_setChan (s : State) (c : Nat) (x : Chan) : (s.setChan c x).nt32 = s.nt32 := rfl
@[simp] theorem ntFrac_setChan (s : State) (c : Nat) (x : Chan) : (s.setChan c x).ntFrac = s.ntFrac := rfl
@[simp] theorem latched_setChan (s : State) (c : Nat) (x : Chan) : (s.setChan c x).latched = s.latched := rfl
@[simp] theorem wrapDue_setChan (s : State) (c : Nat) (x : Chan) : (s.setChan c x).wrapDue = s.wrapDue := rfl
@[simp] theorem subSlot_setChan (s : State) (c : Nat) (x : Chan) : (s.setChan c x).subSlot = s.subSlot := rfl
@[simp] theorem timeIn_setChan (s : State) (c : Nat) (x : Chan) : (s.setChan c x).timeIn = s.timeIn := rfl
@[simp] theorem half0_setChan (s : State) (c : Nat) (x : Chan) : (s.setChan c x).half0 = s.half0 := rfl
@[simp] theorem half1_setChan (s : State) (c : Nat) (x : Chan) : (s.setChan c x).half1 = s.half1 := rfl
@[simp] theorem halfSet_setChan (s : State) (c : Nat) (x : Chan) : (s.setChan c x).halfSet = s.halfSet := rfl
@[simp] theorem copy_setChan (s : State) (c : Nat) (x : Chan) : (s.setChan c x).copy = s.copy := rfl
@[simp] theorem seqPos_setChan (s : State) (c : Nat) (x : Chan) : (s.setChan c x).seqPos = s.seqPos := rfl
@[simp] theorem reps_setChan (s : State) (c : Nat) (x : Chan) : (s.setChan c x).reps = s.reps := rfl
@[simp] theorem runLeft_setChan (s : State) (c : Nat) (x : Chan) : (s.setChan c x).runLeft = s.runLeft := rfl
@[simp] theorem runMark_setChan (s : State) (c : Nat) (x : Chan) : (s.setChan c x).runMark = s.runMark := rfl
@[simp] theorem sched_setChan (s : State) (c : Nat) (x : Chan) : (s.setChan c x).sched = s.sched := rfl
@[simp] theorem uses_setChan (s : State) (c : Nat) (x : Chan) : (s.setChan c x).uses = s.uses := rfl
@[simp] theorem claimed_setChan (s : State) (c : Nat) (x : Chan) : (s.setChan c x).claimed = s.claimed := rfl
@[simp] theorem stepHist_setChan (s : State) (c : Nat) (x : Chan) : (s.setChan c x).stepHist = s.stepHist := rfl
@[simp] theorem jobFrame0_setChan (s : State) (c : Nat) (x : Chan) : (s.setChan c x).jobFrame0 = s.jobFrame0 := rfl
@[simp] theorem schedFrom_setChan (s : State) (c : Nat) (x : Chan) : (s.setChan c x).schedFrom = s.schedFrom := rfl
@[simp] theorem frameIndex_setChan (s : State) (c : Nat) (x : Chan) : (s.setChan c x).frameIndex = s.frameIndex := rfl
@[simp] theorem doms_setChan (s : State) (c : Nat) (x : Chan) : (s.setChan c x).doms = s.doms := rfl
@[simp] theorem tsq_setChan (s : State) (c : Nat) (x : Chan) : (s.setChan c x).tsq = s.tsq := rfl
@[simp] theorem tsLoggedFrame_setChan (s : State) (c : Nat) (x : Chan) : (s.setChan c x).tsLoggedFrame = s.tsLoggedFrame := rfl
@[simp] theorem switchTo_setChan (s : State) (c : Nat) (x : Chan) : (s.setChan c x).switchTo = s.switchTo := rfl
@[simp] theorem stepPending_setChan (s : State) (c : Nat) (x : Chan) : (s.setChan c x).stepPending = s.stepPending := rfl
@[simp] theorem holdover_setChan (s : State) (c : Nat) (x : Chan) : (s.setChan c x).holdover = s.holdover := rfl
@[simp] theorem lastDom_setChan (s : State) (c : Nat) (x : Chan) : (s.setChan c x).lastDom = s.lastDom := rfl
@[simp] theorem image_setChan (s : State) (c : Nat) (x : Chan) : (s.setChan c x).image = s.image := rfl
@[simp] theorem loading_setChan (s : State) (c : Nat) (x : Chan) : (s.setChan c x).loading = s.loading := rfl
@[simp] theorem epoch_setChan (s : State) (c : Nat) (x : Chan) : (s.setChan c x).epoch = s.epoch := rfl
@[simp] theorem qrec_setChan (s : State) (c : Nat) (x : Chan) : (s.setChan c x).qrec = s.qrec := rfl
@[simp] theorem firstFault_setChan (s : State) (c : Nat) (x : Chan) : (s.setChan c x).firstFault = s.firstFault := rfl
@[simp] theorem faultHist_setChan (s : State) (c : Nat) (x : Chan) : (s.setChan c x).faultHist = s.faultHist := rfl
@[simp] theorem replaying_setChan (s : State) (c : Nat) (x : Chan) : (s.setChan c x).replaying = s.replaying := rfl
@[simp] theorem joinWait_setChan (s : State) (c : Nat) (x : Chan) : (s.setChan c x).joinWait = s.joinWait := rfl
@[simp] theorem formerLight_setChan (s : State) (c : Nat) (x : Chan) : (s.setChan c x).formerLight = s.formerLight := rfl
@[simp] theorem formerStacks_setChan (s : State) (c : Nat) (x : Chan) : (s.setChan c x).formerStacks = s.formerStacks := rfl
@[simp] theorem run_setChan (s : State) (c : Nat) (x : Chan) : (s.setChan c x).run = s.run := rfl
@[simp] theorem adopt_setChan (s : State) (c : Nat) (x : Chan) : (s.setChan c x).adopt = s.adopt := rfl
@[simp] theorem repair_setChan (s : State) (c : Nat) (x : Chan) : (s.setChan c x).repair = s.repair := rfl
@[simp] theorem repaired_setChan (s : State) (c : Nat) (x : Chan) : (s.setChan c x).repaired = s.repaired := rfl
@[simp] theorem repairWait_setChan (s : State) (c : Nat) (x : Chan) : (s.setChan c x).repairWait = s.repairWait := rfl
@[simp] theorem endPending_setChan (s : State) (c : Nat) (x : Chan) : (s.setChan c x).endPending = s.endPending := rfl
@[simp] theorem jobIssued_setChan (s : State) (c : Nat) (x : Chan) : (s.setChan c x).jobIssued = s.jobIssued := rfl
@[simp] theorem quenchOut_setChan (s : State) (c : Nat) (x : Chan) : (s.setChan c x).quenchOut = s.quenchOut := rfl
@[simp] theorem pair_setChan (s : State) (c : Nat) (x : Chan) : (s.setChan c x).pair = s.pair := rfl
@[simp] theorem detaching_setChan (s : State) (c : Nat) (x : Chan) : (s.setChan c x).detaching = s.detaching := rfl
@[simp] theorem heldRanges_setChan (s : State) (c : Nat) (x : Chan) : (s.setChan c x).heldRanges = s.heldRanges := rfl
@[simp] theorem pushLeft_setChan (s : State) (c : Nat) (x : Chan) : (s.setChan c x).pushLeft = s.pushLeft := rfl
@[simp] theorem offerDigest_setChan (s : State) (c : Nat) (x : Chan) : (s.setChan c x).offerDigest = s.offerDigest := rfl
@[simp] theorem wantDigest_setChan (s : State) (c : Nat) (x : Chan) : (s.setChan c x).wantDigest = s.wantDigest := rfl
@[simp] theorem confirmedSerial_setChan (s : State) (c : Nat) (x : Chan) : (s.setChan c x).confirmedSerial = s.confirmedSerial := rfl
@[simp] theorem floodSeq_setChan (s : State) (c : Nat) (x : Chan) : (s.setChan c x).floodSeq = s.floodSeq := rfl
@[simp] theorem floodsSeen_setChan (s : State) (c : Nat) (x : Chan) : (s.setChan c x).floodsSeen = s.floodsSeen := rfl
@[simp] theorem pushQueue_setChan (s : State) (c : Nat) (x : Chan) : (s.setChan c x).pushQueue = s.pushQueue := rfl
@[simp] theorem repairDue_setChan (s : State) (c : Nat) (x : Chan) : (s.setChan c x).repairDue = s.repairDue := rfl
@[simp] theorem mgmtQueue_setChan (s : State) (c : Nat) (x : Chan) : (s.setChan c x).mgmtQueue = s.mgmtQueue := rfl
@[simp] theorem quenchAt_setChan (s : State) (c : Nat) (x : Chan) : (s.setChan c x).quenchAt = s.quenchAt := rfl
@[simp] theorem reports_setChan (s : State) (c : Nat) (x : Chan) : (s.setChan c x).reports = s.reports := rfl
@[simp] theorem msgStamp_setChan (s : State) (c : Nat) (x : Chan) : (s.setChan c x).msgStamp = s.msgStamp := rfl
@[simp] theorem waiting_setChan (s : State) (c : Nat) (x : Chan) : (s.setChan c x).waiting = s.waiting := rfl
@[simp] theorem routeLast_setChan (s : State) (c : Nat) (x : Chan) : (s.setChan c x).routeLast = s.routeLast := rfl
@[simp] theorem lateDebt_setChan (s : State) (c : Nat) (x : Chan) : (s.setChan c x).lateDebt = s.lateDebt := rfl
@[simp] theorem dropLogged_setChan (s : State) (c : Nat) (x : Chan) : (s.setChan c x).dropLogged = s.dropLogged := rfl
@[simp] theorem windows_setChan (s : State) (c : Nat) (x : Chan) : (s.setChan c x).windows = s.windows := rfl
@[simp] theorem gtx_setChan (s : State) (c : Nat) (x : Chan) : (s.setChan c x).gtx = s.gtx := rfl
@[simp] theorem heldBeacon_setChan (s : State) (c : Nat) (x : Chan) : (s.setChan c x).heldBeacon = s.heldBeacon := rfl
@[simp] theorem assembly_setChan (s : State) (c : Nat) (x : Chan) : (s.setChan c x).assembly = s.assembly := rfl
@[simp] theorem staged_setChan (s : State) (c : Nat) (x : Chan) : (s.setChan c x).staged = s.staged := rfl
@[simp] theorem commitDue_setChan (s : State) (c : Nat) (x : Chan) : (s.setChan c x).commitDue = s.commitDue := rfl
@[simp] theorem commitReply_setChan (s : State) (c : Nat) (x : Chan) : (s.setChan c x).commitReply = s.commitReply := rfl
@[simp] theorem log_setChan (s : State) (c : Nat) (x : Chan) : (s.setChan c x).log = s.log := rfl
@[simp] theorem eventsSent_setChan (s : State) (c : Nat) (x : Chan) : (s.setChan c x).eventsSent = s.eventsSent := rfl
@[simp] theorem us_setChan (s : State) (c : Nat) (x : Chan) : (s.setChan c x).us = s.us := rfl
@[simp] theorem palaz_setChan (s : State) (c : Nat) (x : Chan) : (s.setChan c x).palaz = s.palaz := rfl
@[simp] theorem rateEvent_setChan (s : State) (c : Nat) (x : Chan) : (s.setChan c x).rateEvent = s.rateEvent := rfl
@[simp] theorem scrub_setChan (s : State) (c : Nat) (x : Chan) : (s.setChan c x).scrub = s.scrub := rfl
@[simp] theorem dmaOverflowFrame_setChan (s : State) (c : Nat) (x : Chan) : (s.setChan c x).dmaOverflowFrame = s.dmaOverflowFrame := rfl
@[simp] theorem timerNext_setChan (s : State) (c : Nat) (x : Chan) : (s.setChan c x).timerNext = s.timerNext := rfl
@[simp] theorem dmaTurn_setChan (s : State) (c : Nat) (x : Chan) : (s.setChan c x).dmaTurn = s.dmaTurn := rfl
@[simp] theorem bgDone_setChan (s : State) (c : Nat) (x : Chan) : (s.setChan c x).bgDone = s.bgDone := rfl
@[simp] theorem reqLost_setChan (s : State) (c : Nat) (x : Chan) : (s.setChan c x).reqLost = s.reqLost := rfl
@[simp] theorem resetOwed_setChan (s : State) (c : Nat) (x : Chan) : (s.setChan c x).resetOwed = s.resetOwed := rfl
@[simp] theorem lostLogged_setChan (s : State) (c : Nat) (x : Chan) : (s.setChan c x).lostLogged = s.lostLogged := rfl
@[simp] theorem ntMoved_setChan (s : State) (c : Nat) (x : Chan) : (s.setChan c x).ntMoved = s.ntMoved := rfl
@[simp] theorem heldRate_setChan (s : State) (c : Nat) (x : Chan) : (s.setChan c x).heldRate = s.heldRate := rfl
@[simp] theorem bankA_setChan (s : State) (c : Nat) (x : Chan) : (s.setChan c x).bankA = s.bankA := rfl
@[simp] theorem bankB_setChan (s : State) (c : Nat) (x : Chan) : (s.setChan c x).bankB = s.bankB := rfl
@[simp] theorem rollback0_setChan (s : State) (c : Nat) (x : Chan) : (s.setChan c x).rollback0 = s.rollback0 := rfl
@[simp] theorem rollback1_setChan (s : State) (c : Nat) (x : Chan) : (s.setChan c x).rollback1 = s.rollback1 := rfl
@[simp] theorem gradeRec_setChan (s : State) (c : Nat) (x : Chan) : (s.setChan c x).gradeRec = s.gradeRec := rfl
@[simp] theorem certificate_setChan (s : State) (c : Nat) (x : Chan) : (s.setChan c x).certificate = s.certificate := rfl
@[simp] theorem config_setChan (s : State) (c : Nat) (x : Chan) : (s.setChan c x).config = s.config := rfl
@[simp] theorem cfg_setChan (s : State) (c : Nat) (x : Chan) : (s.setChan c x).cfg = s.cfg := rfl
@[simp] theorem measLog_setChan (s : State) (c : Nat) (x : Chan) : (s.setChan c x).measLog = s.measLog := rfl
@[simp] theorem measCount_setChan (s : State) (c : Nat) (x : Chan) : (s.setChan c x).measCount = s.measCount := rfl
@[simp] theorem challenge_setChan (s : State) (c : Nat) (x : Chan) : (s.setChan c x).challenge = s.challenge := rfl
@[simp] theorem token_setChan (s : State) (c : Nat) (x : Chan) : (s.setChan c x).token = s.token := rfl
@[simp] theorem mailStatus_setChan (s : State) (c : Nat) (x : Chan) : (s.setChan c x).mailStatus = s.mailStatus := rfl
@[simp] theorem mailResponse_setChan (s : State) (c : Nat) (x : Chan) : (s.setChan c x).mailResponse = s.mailResponse := rfl
@[simp] theorem nonce_setChan (s : State) (c : Nat) (x : Chan) : (s.setChan c x).nonce = s.nonce := rfl
@[simp] theorem quoteBytes_setChan (s : State) (c : Nat) (x : Chan) : (s.setChan c x).quoteBytes = s.quoteBytes := rfl
@[simp] theorem opticsTemp_setChan (s : State) (c : Nat) (x : Chan) : (s.setChan c x).opticsTemp = s.opticsTemp := rfl
@[simp] theorem mgmtTemp_setChan (s : State) (c : Nat) (x : Chan) : (s.setChan c x).mgmtTemp = s.mgmtTemp := rfl
@[simp] theorem puf_setChan (s : State) (c : Nat) (x : Chan) : (s.setChan c x).puf = s.puf := rfl
@[simp] theorem idlePeaks_setChan (s : State) (c : Nat) (x : Chan) : (s.setChan c x).idlePeaks = s.idlePeaks := rfl

@[simp] theorem reg_setChan (s : State) (c : Nat) (x : Chan) (j : Nat) : (s.setChan c x).reg j = s.reg j := rfl
@[simp] theorem blob_setChan (s : State) (c : Nat) (x : Chan) (j : Nat) : (s.setChan c x).blob j = s.blob j := rfl
@[simp] theorem region_setChan (s : State) (c : Nat) (x : Chan) (q : Nat) : (s.setChan c x).region q = s.region q := rfl
@[simp] theorem core_setChan (s : State) (c : Nat) (x : Chan) (q : Nat) : (s.setChan c x).core q = s.core q := rfl
@[simp] theorem port_setChan (s : State) (c : Nat) (x : Chan) (q : Nat) : (s.setChan c x).port q = s.port q := rfl
@[simp] theorem stack_setChan (s : State) (c : Nat) (x : Chan) (q : Nat) : (s.setChan c x).stack q = s.stack q := rfl
@[simp] theorem dom_setChan (s : State) (c : Nat) (x : Chan) (q : Nat) : (s.setChan c x).dom q = s.dom q := rfl

/-! ## What `setDom` leaves alone -/

@[simp] theorem pending_setDom (s : State) (d : Nat) (x : Dom) : (s.setDom d x).pending = s.pending := rfl
@[simp] theorem regs_setDom (s : State) (d : Nat) (x : Dom) : (s.setDom d x).regs = s.regs := rfl
@[simp] theorem blobs_setDom (s : State) (d : Nat) (x : Dom) : (s.setDom d x).blobs = s.blobs := rfl
@[simp] theorem freeCtr_setDom (s : State) (d : Nat) (x : Dom) : (s.setDom d x).freeCtr = s.freeCtr := rfl
@[simp] theorem answer_setDom (s : State) (d : Nat) (x : Dom) : (s.setDom d x).answer = s.answer := rfl
@[simp] theorem answerData_setDom (s : State) (d : Nat) (x : Dom) : (s.setDom d x).answerData = s.answerData := rfl
@[simp] theorem power_setDom (s : State) (d : Nat) (x : Dom) : (s.setDom d x).power = s.power := rfl
@[simp] theorem boot_setDom (s : State) (d : Nat) (x : Dom) : (s.setDom d x).boot = s.boot := rfl
@[simp] theorem inputSwitch_setDom (s : State) (d : Nat) (x : Dom) : (s.setDom d x).inputSwitch = s.inputSwitch := rfl
@[simp] theorem bladeA_setDom (s : State) (d : Nat) (x : Dom) : (s.setDom d x).bladeA = s.bladeA := rfl
@[simp] theorem bladeB_setDom (s : State) (d : Nat) (x : Dom) : (s.setDom d x).bladeB = s.bladeB := rfl
@[simp] theorem mvSumA_setDom (s : State) (d : Nat) (x : Dom) : (s.setDom d x).mvSumA = s.mvSumA := rfl
@[simp] theorem mvSumB_setDom (s : State) (d : Nat) (x : Dom) : (s.setDom d x).mvSumB = s.mvSumB := rfl
@[simp] theorem maSum_setDom (s : State) (d : Nat) (x : Dom) : (s.setDom d x).maSum = s.maSum := rfl
@[simp] theorem msSamples_setDom (s : State) (d : Nat) (x : Dom) : (s.setDom d x).msSamples = s.msSamples := rfl
@[simp] theorem refclk_setDom (s : State) (d : Nat) (x : Dom) : (s.setDom d x).refclk = s.refclk := rfl
@[simp] theorem alertLow_setDom (s : State) (d : Nat) (x : Dom) : (s.setDom d x).alertLow = s.alertLow := rfl
@[simp] theorem resetLow_setDom (s : State) (d : Nat) (x : Dom) : (s.setDom d x).resetLow = s.resetLow := rfl
@[simp] theorem resetInBanked_setDom (s : State) (d : Nat) (x : Dom) : (s.setDom d x).resetInBanked = s.resetInBanked := rfl
@[simp] theorem bootCause_setDom (s : State) (d : Nat) (x : Dom) : (s.setDom d x).bootCause = s.bootCause := rfl
@[simp] theorem shutdownTo_setDom (s : State) (d : Nat) (x : Dom) : (s.setDom d x).shutdownTo = s.shutdownTo := rfl
@[simp] theorem h_setDom (s : State) (d : Nat) (x : Dom) : (s.setDom d x).h = s.h := rfl
@[simp] theorem load_setDom (s : State) (d : Nat) (x : Dom) : (s.setDom d x).load = s.load := rfl
@[simp] theorem ballast_setDom (s : State) (d : Nat) (x : Dom) : (s.setDom d x).ballast = s.ballast := rfl
@[simp] theorem admitting_setDom (s : State) (d : Nat) (x : Dom) : (s.setDom d x).admitting = s.admitting := rfl
@[simp] theorem remove_setDom (s : State) (d : Nat) (x : Dom) : (s.setDom d x).remove = s.remove := rfl
@[simp] theorem litOrder_setDom (s : State) (d : Nat) (x : Dom) : (s.setDom d x).litOrder = s.litOrder := rfl
@[simp] theorem windowUsed_setDom (s : State) (d : Nat) (x : Dom) : (s.setDom d x).windowUsed = s.windowUsed := rfl
@[simp] theorem winSum_setDom (s : State) (d : Nat) (x : Dom) : (s.setDom d x).winSum = s.winSum := rfl
@[simp] theorem loadSum_setDom (s : State) (d : Nat) (x : Dom) : (s.setDom d x).loadSum = s.loadSum := rfl
@[simp] theorem rampAbandoned_setDom (s : State) (d : Nat) (x : Dom) : (s.setDom d x).rampAbandoned = s.rampAbandoned := rfl
@[simp] theorem groupsOn_setDom (s : State) (d : Nat) (x : Dom) : (s.setDom d x).groupsOn = s.groupsOn := rfl
@[simp] theorem warmDue_setDom (s : State) (d : Nat) (x : Dom) : (s.setDom d x).warmDue = s.warmDue := rfl
@[simp] theorem runFailed_setDom (s : State) (d : Nat) (x : Dom) : (s.setDom d x).runFailed = s.runFailed := rfl
@[simp] theorem warned_setDom (s : State) (d : Nat) (x : Dom) : (s.setDom d x).warned = s.warned := rfl
@[simp] theorem uartRx_setDom (s : State) (d : Nat) (x : Dom) : (s.setDom d x).uartRx = s.uartRx := rfl
@[simp] theorem uartTx_setDom (s : State) (d : Nat) (x : Dom) : (s.setDom d x).uartTx = s.uartTx := rfl
@[simp] theorem wakeTx_setDom (s : State) (d : Nat) (x : Dom) : (s.setDom d x).wakeTx = s.wakeTx := rfl
@[simp] theorem tap_setDom (s : State) (d : Nat) (x : Dom) : (s.setDom d x).tap = s.tap := rfl
@[simp] theorem boundary_setDom (s : State) (d : Nat) (x : Dom) : (s.setDom d x).boundary = s.boundary := rfl
@[simp] theorem testBlock_setDom (s : State) (d : Nat) (x : Dom) : (s.setDom d x).testBlock = s.testBlock := rfl
@[simp] theorem sram_setDom (s : State) (d : Nat) (x : Dom) : (s.setDom d x).sram = s.sram := rfl
@[simp] theorem sramChk_setDom (s : State) (d : Nat) (x : Dom) : (s.setDom d x).sramChk = s.sramChk := rfl
@[simp] theorem dram_setDom (s : State) (d : Nat) (x : Dom) : (s.setDom d x).dram = s.dram := rfl
@[simp] theorem dramChk_setDom (s : State) (d : Nat) (x : Dom) : (s.setDom d x).dramChk = s.dramChk := rfl
@[simp] theorem regions_setDom (s : State) (d : Nat) (x : Dom) : (s.setDom d x).regions = s.regions := rfl
@[simp] theorem slots_setDom (s : State) (d : Nat) (x : Dom) : (s.setDom d x).slots = s.slots := rfl
@[simp] theorem nextIdent_setDom (s : State) (d : Nat) (x : Dom) : (s.setDom d x).nextIdent = s.nextIdent := rfl
@[simp] theorem restarts_setDom (s : State) (d : Nat) (x : Dom) : (s.setDom d x).restarts = s.restarts := rfl
@[simp] theorem kClock_setDom (s : State) (d : Nat) (x : Dom) : (s.setDom d x).kClock = s.kClock := rfl
@[simp] theorem ports_setDom (s : State) (d : Nat) (x : Dom) : (s.setDom d x).ports = s.ports := rfl
@[simp] theorem frame_setDom (s : State) (d : Nat) (x : Dom) : (s.setDom d x).frame = s.frame := rfl
@[simp] theorem slot_setDom (s : State) (d : Nat) (x : Dom) : (s.setDom d x).slot = s.slot := rfl
@[simp] theorem nt32_setDom (s : State) (d : Nat) (x : Dom) : (s.setDom d x).nt32 = s.nt32 := rfl
@[simp] theorem ntFrac_setDom (s : State) (d : Nat) (x : Dom) : (s.setDom d x).ntFrac = s.ntFrac := rfl
@[simp] theorem latched_setDom (s : State) (d : Nat) (x : Dom) : (s.setDom d x).latched = s.latched := rfl
@[simp] theorem wrapDue_setDom (s : State) (d : Nat) (x : Dom) : (s.setDom d x).wrapDue = s.wrapDue := rfl
@[simp] theorem subSlot_setDom (s : State) (d : Nat) (x : Dom) : (s.setDom d x).subSlot = s.subSlot := rfl
@[simp] theorem timeIn_setDom (s : State) (d : Nat) (x : Dom) : (s.setDom d x).timeIn = s.timeIn := rfl
@[simp] theorem half0_setDom (s : State) (d : Nat) (x : Dom) : (s.setDom d x).half0 = s.half0 := rfl
@[simp] theorem half1_setDom (s : State) (d : Nat) (x : Dom) : (s.setDom d x).half1 = s.half1 := rfl
@[simp] theorem halfSet_setDom (s : State) (d : Nat) (x : Dom) : (s.setDom d x).halfSet = s.halfSet := rfl
@[simp] theorem copy_setDom (s : State) (d : Nat) (x : Dom) : (s.setDom d x).copy = s.copy := rfl
@[simp] theorem seqPos_setDom (s : State) (d : Nat) (x : Dom) : (s.setDom d x).seqPos = s.seqPos := rfl
@[simp] theorem reps_setDom (s : State) (d : Nat) (x : Dom) : (s.setDom d x).reps = s.reps := rfl
@[simp] theorem runLeft_setDom (s : State) (d : Nat) (x : Dom) : (s.setDom d x).runLeft = s.runLeft := rfl
@[simp] theorem runMark_setDom (s : State) (d : Nat) (x : Dom) : (s.setDom d x).runMark = s.runMark := rfl
@[simp] theorem sched_setDom (s : State) (d : Nat) (x : Dom) : (s.setDom d x).sched = s.sched := rfl
@[simp] theorem uses_setDom (s : State) (d : Nat) (x : Dom) : (s.setDom d x).uses = s.uses := rfl
@[simp] theorem claimed_setDom (s : State) (d : Nat) (x : Dom) : (s.setDom d x).claimed = s.claimed := rfl
@[simp] theorem stepHist_setDom (s : State) (d : Nat) (x : Dom) : (s.setDom d x).stepHist = s.stepHist := rfl
@[simp] theorem jobFrame0_setDom (s : State) (d : Nat) (x : Dom) : (s.setDom d x).jobFrame0 = s.jobFrame0 := rfl
@[simp] theorem schedFrom_setDom (s : State) (d : Nat) (x : Dom) : (s.setDom d x).schedFrom = s.schedFrom := rfl
@[simp] theorem frameIndex_setDom (s : State) (d : Nat) (x : Dom) : (s.setDom d x).frameIndex = s.frameIndex := rfl
@[simp] theorem tsq_setDom (s : State) (d : Nat) (x : Dom) : (s.setDom d x).tsq = s.tsq := rfl
@[simp] theorem tsLoggedFrame_setDom (s : State) (d : Nat) (x : Dom) : (s.setDom d x).tsLoggedFrame = s.tsLoggedFrame := rfl
@[simp] theorem switchTo_setDom (s : State) (d : Nat) (x : Dom) : (s.setDom d x).switchTo = s.switchTo := rfl
@[simp] theorem stepPending_setDom (s : State) (d : Nat) (x : Dom) : (s.setDom d x).stepPending = s.stepPending := rfl
@[simp] theorem holdover_setDom (s : State) (d : Nat) (x : Dom) : (s.setDom d x).holdover = s.holdover := rfl
@[simp] theorem lastDom_setDom (s : State) (d : Nat) (x : Dom) : (s.setDom d x).lastDom = s.lastDom := rfl
@[simp] theorem image_setDom (s : State) (d : Nat) (x : Dom) : (s.setDom d x).image = s.image := rfl
@[simp] theorem loading_setDom (s : State) (d : Nat) (x : Dom) : (s.setDom d x).loading = s.loading := rfl
@[simp] theorem epoch_setDom (s : State) (d : Nat) (x : Dom) : (s.setDom d x).epoch = s.epoch := rfl
@[simp] theorem qrec_setDom (s : State) (d : Nat) (x : Dom) : (s.setDom d x).qrec = s.qrec := rfl
@[simp] theorem firstFault_setDom (s : State) (d : Nat) (x : Dom) : (s.setDom d x).firstFault = s.firstFault := rfl
@[simp] theorem faultHist_setDom (s : State) (d : Nat) (x : Dom) : (s.setDom d x).faultHist = s.faultHist := rfl
@[simp] theorem replaying_setDom (s : State) (d : Nat) (x : Dom) : (s.setDom d x).replaying = s.replaying := rfl
@[simp] theorem joinWait_setDom (s : State) (d : Nat) (x : Dom) : (s.setDom d x).joinWait = s.joinWait := rfl
@[simp] theorem formerLight_setDom (s : State) (d : Nat) (x : Dom) : (s.setDom d x).formerLight = s.formerLight := rfl
@[simp] theorem formerStacks_setDom (s : State) (d : Nat) (x : Dom) : (s.setDom d x).formerStacks = s.formerStacks := rfl
@[simp] theorem run_setDom (s : State) (d : Nat) (x : Dom) : (s.setDom d x).run = s.run := rfl
@[simp] theorem adopt_setDom (s : State) (d : Nat) (x : Dom) : (s.setDom d x).adopt = s.adopt := rfl
@[simp] theorem repair_setDom (s : State) (d : Nat) (x : Dom) : (s.setDom d x).repair = s.repair := rfl
@[simp] theorem repaired_setDom (s : State) (d : Nat) (x : Dom) : (s.setDom d x).repaired = s.repaired := rfl
@[simp] theorem repairWait_setDom (s : State) (d : Nat) (x : Dom) : (s.setDom d x).repairWait = s.repairWait := rfl
@[simp] theorem endPending_setDom (s : State) (d : Nat) (x : Dom) : (s.setDom d x).endPending = s.endPending := rfl
@[simp] theorem jobIssued_setDom (s : State) (d : Nat) (x : Dom) : (s.setDom d x).jobIssued = s.jobIssued := rfl
@[simp] theorem quenchOut_setDom (s : State) (d : Nat) (x : Dom) : (s.setDom d x).quenchOut = s.quenchOut := rfl
@[simp] theorem pair_setDom (s : State) (d : Nat) (x : Dom) : (s.setDom d x).pair = s.pair := rfl
@[simp] theorem detaching_setDom (s : State) (d : Nat) (x : Dom) : (s.setDom d x).detaching = s.detaching := rfl
@[simp] theorem heldRanges_setDom (s : State) (d : Nat) (x : Dom) : (s.setDom d x).heldRanges = s.heldRanges := rfl
@[simp] theorem pushLeft_setDom (s : State) (d : Nat) (x : Dom) : (s.setDom d x).pushLeft = s.pushLeft := rfl
@[simp] theorem offerDigest_setDom (s : State) (d : Nat) (x : Dom) : (s.setDom d x).offerDigest = s.offerDigest := rfl
@[simp] theorem wantDigest_setDom (s : State) (d : Nat) (x : Dom) : (s.setDom d x).wantDigest = s.wantDigest := rfl
@[simp] theorem confirmedSerial_setDom (s : State) (d : Nat) (x : Dom) : (s.setDom d x).confirmedSerial = s.confirmedSerial := rfl
@[simp] theorem floodSeq_setDom (s : State) (d : Nat) (x : Dom) : (s.setDom d x).floodSeq = s.floodSeq := rfl
@[simp] theorem floodsSeen_setDom (s : State) (d : Nat) (x : Dom) : (s.setDom d x).floodsSeen = s.floodsSeen := rfl
@[simp] theorem pushQueue_setDom (s : State) (d : Nat) (x : Dom) : (s.setDom d x).pushQueue = s.pushQueue := rfl
@[simp] theorem repairDue_setDom (s : State) (d : Nat) (x : Dom) : (s.setDom d x).repairDue = s.repairDue := rfl
@[simp] theorem mgmtQueue_setDom (s : State) (d : Nat) (x : Dom) : (s.setDom d x).mgmtQueue = s.mgmtQueue := rfl
@[simp] theorem quenchAt_setDom (s : State) (d : Nat) (x : Dom) : (s.setDom d x).quenchAt = s.quenchAt := rfl
@[simp] theorem reports_setDom (s : State) (d : Nat) (x : Dom) : (s.setDom d x).reports = s.reports := rfl
@[simp] theorem msgStamp_setDom (s : State) (d : Nat) (x : Dom) : (s.setDom d x).msgStamp = s.msgStamp := rfl
@[simp] theorem waiting_setDom (s : State) (d : Nat) (x : Dom) : (s.setDom d x).waiting = s.waiting := rfl
@[simp] theorem routeLast_setDom (s : State) (d : Nat) (x : Dom) : (s.setDom d x).routeLast = s.routeLast := rfl
@[simp] theorem lateDebt_setDom (s : State) (d : Nat) (x : Dom) : (s.setDom d x).lateDebt = s.lateDebt := rfl
@[simp] theorem dropLogged_setDom (s : State) (d : Nat) (x : Dom) : (s.setDom d x).dropLogged = s.dropLogged := rfl
@[simp] theorem windows_setDom (s : State) (d : Nat) (x : Dom) : (s.setDom d x).windows = s.windows := rfl
@[simp] theorem gtx_setDom (s : State) (d : Nat) (x : Dom) : (s.setDom d x).gtx = s.gtx := rfl
@[simp] theorem heldBeacon_setDom (s : State) (d : Nat) (x : Dom) : (s.setDom d x).heldBeacon = s.heldBeacon := rfl
@[simp] theorem assembly_setDom (s : State) (d : Nat) (x : Dom) : (s.setDom d x).assembly = s.assembly := rfl
@[simp] theorem staged_setDom (s : State) (d : Nat) (x : Dom) : (s.setDom d x).staged = s.staged := rfl
@[simp] theorem commitDue_setDom (s : State) (d : Nat) (x : Dom) : (s.setDom d x).commitDue = s.commitDue := rfl
@[simp] theorem commitReply_setDom (s : State) (d : Nat) (x : Dom) : (s.setDom d x).commitReply = s.commitReply := rfl
@[simp] theorem log_setDom (s : State) (d : Nat) (x : Dom) : (s.setDom d x).log = s.log := rfl
@[simp] theorem eventsSent_setDom (s : State) (d : Nat) (x : Dom) : (s.setDom d x).eventsSent = s.eventsSent := rfl
@[simp] theorem us_setDom (s : State) (d : Nat) (x : Dom) : (s.setDom d x).us = s.us := rfl
@[simp] theorem palaz_setDom (s : State) (d : Nat) (x : Dom) : (s.setDom d x).palaz = s.palaz := rfl
@[simp] theorem rateEvent_setDom (s : State) (d : Nat) (x : Dom) : (s.setDom d x).rateEvent = s.rateEvent := rfl
@[simp] theorem scrub_setDom (s : State) (d : Nat) (x : Dom) : (s.setDom d x).scrub = s.scrub := rfl
@[simp] theorem chans_setDom (s : State) (d : Nat) (x : Dom) : (s.setDom d x).chans = s.chans := rfl
@[simp] theorem dmaOverflowFrame_setDom (s : State) (d : Nat) (x : Dom) : (s.setDom d x).dmaOverflowFrame = s.dmaOverflowFrame := rfl
@[simp] theorem timerNext_setDom (s : State) (d : Nat) (x : Dom) : (s.setDom d x).timerNext = s.timerNext := rfl
@[simp] theorem dmaTurn_setDom (s : State) (d : Nat) (x : Dom) : (s.setDom d x).dmaTurn = s.dmaTurn := rfl
@[simp] theorem bgDone_setDom (s : State) (d : Nat) (x : Dom) : (s.setDom d x).bgDone = s.bgDone := rfl
@[simp] theorem reqLost_setDom (s : State) (d : Nat) (x : Dom) : (s.setDom d x).reqLost = s.reqLost := rfl
@[simp] theorem resetOwed_setDom (s : State) (d : Nat) (x : Dom) : (s.setDom d x).resetOwed = s.resetOwed := rfl
@[simp] theorem lostLogged_setDom (s : State) (d : Nat) (x : Dom) : (s.setDom d x).lostLogged = s.lostLogged := rfl
@[simp] theorem ntMoved_setDom (s : State) (d : Nat) (x : Dom) : (s.setDom d x).ntMoved = s.ntMoved := rfl
@[simp] theorem heldRate_setDom (s : State) (d : Nat) (x : Dom) : (s.setDom d x).heldRate = s.heldRate := rfl
@[simp] theorem bankA_setDom (s : State) (d : Nat) (x : Dom) : (s.setDom d x).bankA = s.bankA := rfl
@[simp] theorem bankB_setDom (s : State) (d : Nat) (x : Dom) : (s.setDom d x).bankB = s.bankB := rfl
@[simp] theorem rollback0_setDom (s : State) (d : Nat) (x : Dom) : (s.setDom d x).rollback0 = s.rollback0 := rfl
@[simp] theorem rollback1_setDom (s : State) (d : Nat) (x : Dom) : (s.setDom d x).rollback1 = s.rollback1 := rfl
@[simp] theorem gradeRec_setDom (s : State) (d : Nat) (x : Dom) : (s.setDom d x).gradeRec = s.gradeRec := rfl
@[simp] theorem certificate_setDom (s : State) (d : Nat) (x : Dom) : (s.setDom d x).certificate = s.certificate := rfl
@[simp] theorem config_setDom (s : State) (d : Nat) (x : Dom) : (s.setDom d x).config = s.config := rfl
@[simp] theorem cfg_setDom (s : State) (d : Nat) (x : Dom) : (s.setDom d x).cfg = s.cfg := rfl
@[simp] theorem measLog_setDom (s : State) (d : Nat) (x : Dom) : (s.setDom d x).measLog = s.measLog := rfl
@[simp] theorem measCount_setDom (s : State) (d : Nat) (x : Dom) : (s.setDom d x).measCount = s.measCount := rfl
@[simp] theorem challenge_setDom (s : State) (d : Nat) (x : Dom) : (s.setDom d x).challenge = s.challenge := rfl
@[simp] theorem token_setDom (s : State) (d : Nat) (x : Dom) : (s.setDom d x).token = s.token := rfl
@[simp] theorem mailStatus_setDom (s : State) (d : Nat) (x : Dom) : (s.setDom d x).mailStatus = s.mailStatus := rfl
@[simp] theorem mailResponse_setDom (s : State) (d : Nat) (x : Dom) : (s.setDom d x).mailResponse = s.mailResponse := rfl
@[simp] theorem nonce_setDom (s : State) (d : Nat) (x : Dom) : (s.setDom d x).nonce = s.nonce := rfl
@[simp] theorem quoteBytes_setDom (s : State) (d : Nat) (x : Dom) : (s.setDom d x).quoteBytes = s.quoteBytes := rfl
@[simp] theorem opticsTemp_setDom (s : State) (d : Nat) (x : Dom) : (s.setDom d x).opticsTemp = s.opticsTemp := rfl
@[simp] theorem mgmtTemp_setDom (s : State) (d : Nat) (x : Dom) : (s.setDom d x).mgmtTemp = s.mgmtTemp := rfl
@[simp] theorem puf_setDom (s : State) (d : Nat) (x : Dom) : (s.setDom d x).puf = s.puf := rfl
@[simp] theorem idlePeaks_setDom (s : State) (d : Nat) (x : Dom) : (s.setDom d x).idlePeaks = s.idlePeaks := rfl

@[simp] theorem reg_setDom (s : State) (d : Nat) (x : Dom) (j : Nat) : (s.setDom d x).reg j = s.reg j := rfl
@[simp] theorem blob_setDom (s : State) (d : Nat) (x : Dom) (j : Nat) : (s.setDom d x).blob j = s.blob j := rfl
@[simp] theorem region_setDom (s : State) (d : Nat) (x : Dom) (q : Nat) : (s.setDom d x).region q = s.region q := rfl
@[simp] theorem core_setDom (s : State) (d : Nat) (x : Dom) (q : Nat) : (s.setDom d x).core q = s.core q := rfl
@[simp] theorem port_setDom (s : State) (d : Nat) (x : Dom) (q : Nat) : (s.setDom d x).port q = s.port q := rfl
@[simp] theorem stack_setDom (s : State) (d : Nat) (x : Dom) (q : Nat) : (s.setDom d x).stack q = s.stack q := rfl
@[simp] theorem chan_setDom (s : State) (d : Nat) (x : Dom) (q : Nat) : (s.setDom d x).chan q = s.chan q := rfl

end Sys2Proof.Machine
end

