-- ==== Sys2Proof/Laws/Issue.lean ====
section
/-! SUPPORT. What the issue of a bundle does: the equation of an issue that passes its checks, the core after it, and what
it leaves alone. -/

namespace Sys2Proof.Machine

/-! ## The equation -/

/-- A core that can issue a bundle runs it. -/
theorem issueNow_eq {s : State} {c : Nat} {b : BitVec 256} (h : s.canIssue c b = true) :
    ∃ sc, s.check c b = .inr sc ∧ s.issueNow c b = s.runIssue c b sc := by
  simp only [State.canIssue, Bool.and_eq_true, decide_eq_true_eq, Bool.not_eq_true'] at h
  obtain ⟨⟨⟨⟨⟨⟨hi, hl⟩, hm⟩, hn⟩, ht⟩, hc⟩, hs⟩ := h
  cases hk : s.check c b with
  | inl e => simp [hk] at hc
  | inr sc =>
    refine ⟨sc, rfl, ?_⟩
    simp [State.issueNow, State.issueBundle, hi, Nat.not_le.mpr hl, hm, hn, ht, hk, hs]

/-! ## Marks of undefined far data -/

theorem tab_get_map {α : Type} (d : α) (g : α → α) (hg : g d = d) (t : Tab α) (k : Nat) :
    Tab.get d (t.map fun r => (r.1, g r.2)) k = g (Tab.get d t k) := by
  induction t with
  | nil => simp [Tab.get, hg]
  | cons x t ih =>
    obtain ⟨i, w⟩ := x
    simp only [List.map_cons, Tab.get]
    split <;> simp_all

/-- A far request marked where it clashes with some ranges. -/
def FarReq.markFar (x : List (Nat × Nat × Nat × Bool)) (q : FarReq) : FarReq :=
  if !q.done && clash q.spans x then { q with undef := true } else q

/-- A core whose far requests that clash with some ranges are marked. -/
def Core.markFar (k : Core) (x : List (Nat × Nat × Nat × Bool)) : Core :=
  { k with farq := k.farq.map fun f => (f.1, { f.2 with entries := f.2.entries.map (FarReq.markFar x) }) }

/-- A region whose cores are marked. -/
def Region.markFar (y : Region) (x : List (Nat × Nat × Nat × Bool)) : Region :=
  { y with cores := y.cores.map fun c => (c.1, c.2.markFar x) }

theorem region_markClash (s : State) (x : List (Nat × Nat × Nat × Bool)) (r : Nat) :
    (s.markClash x).region r = (s.region r).markFar x :=
  tab_get_map ({} : Region) (fun y : Region => y.markFar x) rfl s.regions r

theorem core_markClash (s : State) (x : List (Nat × Nat × Nat × Bool)) (c : Nat) :
    (s.markClash x).core c = (s.core c).markFar x := by
  unfold State.core
  rw [region_markClash]
  exact tab_get_map ({} : Core) (fun y : Core => y.markFar x) rfl (s.region (c / 64)).cores (c % 64)

@[simp] theorem farReq_unmarked_markFar (x : List (Nat × Nat × Nat × Bool)) (q : FarReq) :
    (q.markFar x).unmarked = q.unmarked := by
  simp only [FarReq.markFar]; split <;> rfl

/-- A far queue whose requests are marked. -/
def FarQ.markFar (f : FarQ) (x : List (Nat × Nat × Nat × Bool)) : FarQ := { f with entries := f.entries.map (FarReq.markFar x) }

@[simp] theorem farQ_unmarked_markFar (f : FarQ) (x : List (Nat × Nat × Nat × Bool)) : (f.markFar x).unmarked = f.unmarked := by
  simp [FarQ.unmarked, FarQ.markFar, Function.comp_def]

theorem markFar_farq (k : Core) (x : List (Nat × Nat × Nat × Bool)) :
    (k.markFar x).farq = k.farq.map fun f => (f.1, f.2.markFar x) := rfl

@[simp] theorem unmarked_markFar (k : Core) (x : List (Nat × Nat × Nat × Bool)) : (k.markFar x).unmarked = k.unmarked := by
  have h : (k.markFar x).farq.map (fun f => (f.1, f.2.unmarked)) = k.farq.map fun f => (f.1, f.2.unmarked) := by
    simp [markFar_farq, Function.comp_def]
  simp only [Core.unmarked, h]
  rfl

theorem tab_set_set {α : Type} (t : Tab α) (k : Nat) (v w : α) : Tab.set (Tab.set t k v) k w = Tab.set t k w := by
  induction t with
  | nil => simp [Tab.set]
  | cons x t ih =>
    obtain ⟨i, u⟩ := x
    by_cases h : i = k
    · simp [Tab.set, h]
    · by_cases h2 : k < i
      · simp [Tab.set, h, h2]
      · simp [Tab.set, h, h2, ih]

theorem tab_map_set {α β : Type} (g : α → β) (t : Tab α) (k : Nat) (v : α) :
    (Tab.set t k v).map (fun r => (r.1, g r.2)) = Tab.set (t.map fun r => (r.1, g r.2)) k (g v) := by
  induction t with
  | nil => simp [Tab.set]
  | cons x t ih =>
    obtain ⟨i, u⟩ := x
    by_cases h : i = k
    · simp [Tab.set, h]
    · by_cases h2 : k < i
      · simp [Tab.set, h, h2]
      · simp [Tab.set, h, h2, ih]

/-! ## The new far request -/

theorem unmarked_eq {k : Core} {f : Tab FarQ}
    (h : f.map (fun x => (x.1, x.2.unmarked)) = k.farq.map fun x => (x.1, x.2.unmarked)) :
    ({ k with farq := f } : Core).unmarked = k.unmarked := by
  simp only [Core.unmarked, h]

theorem core_noteFar_other (s : State) (c q : Nat) (r : FarReq) (c' : Nat) (h : c' ≠ c) :
    ((s.noteFar c q r).core c').unmarked = (s.core c').unmarked := by
  unfold State.noteFar
  split
  · rfl
  · dsimp only
    rw [core_modCore, if_neg h]
    split
    · rw [core_markClash, unmarked_markFar, core_modCore, if_neg h]
    · rw [core_modCore, if_neg h]

@[simp] theorem unmarked_withItem (s : State) (r : FarReq) (u : Bool) :
    ({ s.withItem r with undef := u } : FarReq).unmarked = r.unmarked := by
  unfold State.withItem; split <;> rfl

theorem core_noteFar_self (s : State) (c q : Nat) (r : FarReq) (F : Tab FarQ) (fq : FarQ) (E : List FarReq)
    (hf : (s.core c).farq = Tab.set F q fq) (he : fq.entries = E ++ [r]) :
    ((s.noteFar c q r).core c).unmarked = (s.core c).unmarked := by
  unfold State.noteFar
  split
  · rfl
  · dsimp only
    have hu (G : Tab FarQ) (f : FarQ) := tab_map_set FarQ.unmarked G q f
    rw [core_modCore, if_pos rfl]
    split
    · rw [core_markClash, core_modCore, if_pos rfl]
      refine unmarked_eq (k := s.core c) ?_
      have hm (f : FarQ) := tab_map_set (fun y : FarQ => y.markFar (s.withItem r).spans) F q f
      simp only [markFar_farq, hf, tab_get_set, if_true, tab_set_set, he, List.dropLast_concat, hm, hu, List.map_map,
        Function.comp_def, farQ_unmarked_markFar]
      congr 1
      simp only [FarQ.unmarked, FarQ.markFar, he, List.map_append, List.map_map, Function.comp_def,
        farReq_unmarked_markFar, List.map_cons, List.map_nil, unmarked_withItem]
    · rw [core_modCore, if_pos rfl]
      refine unmarked_eq (k := s.core c) ?_
      simp only [hf, tab_get_set, if_true, tab_set_set, he, List.dropLast_concat, hu]
      congr 1
      simp only [FarQ.unmarked, he, List.map_append, List.map_cons, List.map_nil, unmarked_withItem]

/-! ## The core after a bundle -/

/-- The core that the C slot's operation leaves, before bodies end. -/
def State.afterOps (s : State) (c : Nat) (b : BitVec 256) (sc : List (SbUnit × Nat)) : CtlOut :=
  runC (s.ctx c b .c) (runV (s.ctx c b .v) (runM (s.ctx c b .m) { s.core c with score := sc }))

theorem runBundle_fields (s : State) (c : Nat) (b : BitVec 256) (sc : List (SbUnit × Nat)) :
    let o := s.afterOps c b sc
    let e := endBodies o.last o.core.loops o.nxt o.jumped
    (s.runBundle c b sc).1 = { o.core with
      pc := e.1, loops := e.2, issued := true
      restartPc := if o.stepped then e.1 else o.core.restartPc
      restartLoops := if o.stepped then e.2 else o.core.restartLoops } := by
  simp only [State.runBundle, State.afterOps]
  split <;> simp_all

theorem farq_newest (s : State) (c : Nat) (b : BitVec 256) (sc : List (SbUnit × Nat)) (r : FarReq)
    (h : (s.ctx c b .c).newest (s.runBundle c b sc).1 = some r) :
    ∃ F fq E, (s.runBundle c b sc).1.farq = Tab.set F ((s.ctx c b .c).x.f 53 52) fq ∧ fq.entries = E ++ [r] := by
  rw [runBundle_fields] at h ⊢
  simp only [OpCtx.newest] at h
  split at h
  · next hop =>
    have hq : ∃ F fq, (s.afterOps c b sc).core.farq = Tab.set F ((s.ctx c b .c).x.f 53 52) fq := by
      unfold State.afterOps runC
      rcases hop with h7 | h7 | h7 <;> simp only [h7] <;> exact ⟨_, _, rfl⟩
    obtain ⟨F, fq, hq⟩ := hq
    simp only [hq, tab_get_set, if_true] at h
    obtain ⟨E, he⟩ := List.getLast?_eq_some_iff.mp h
    exact ⟨F, fq, E, hq, he⟩
  · cases h

theorem core_joinBank (s : State) (r : Nat) (a : Option BankAcc) (c : Nat) : (s.joinBank r a).core c = s.core c := by
  cases a with
  | none => rfl
  | some a =>
    unfold State.core State.joinBank
    rw [region_modRegion]
    split <;> rfl

theorem region_joinBank (s : State) (r : Nat) (a : Option BankAcc) (q : Nat) : (s.joinBank r a).region q
    = if q = r then { s.region q with bank := (s.region q).bank ++ a.toList } else s.region q := by
  cases a with
  | none => simp [State.joinBank]
  | some a => simp [State.joinBank, region_modRegion]

theorem core_runIssue (s : State) (c : Nat) (b : BitVec 256) (sc : List (SbUnit × Nat)) :
    ((s.runIssue c b sc).core c).unmarked = (s.runBundle c b sc).1.unmarked := by
  have h3 : ((s.setCore c (s.runBundle c b sc).1).joinBank (c / 64) (s.runBundle c b sc).2).core c = (s.runBundle c b sc).1 := by
    rw [core_joinBank, core_setCore, if_pos rfl]
  simp only [State.runIssue]
  split
  · next r hr =>
    obtain ⟨F, fq, E, hf, he⟩ := farq_newest s c b sc r hr
    rw [core_noteFar_self _ c _ r F fq E (by rw [h3]; exact hf) he, h3]
  · rw [h3]

theorem core_runIssue_other (s : State) (c : Nat) (b : BitVec 256) (sc : List (SbUnit × Nat)) (c' : Nat) (h : c' ≠ c) :
    ((s.runIssue c b sc).core c').unmarked = (s.core c').unmarked := by
  have h3 : ((s.setCore c (s.runBundle c b sc).1).joinBank (c / 64) (s.runBundle c b sc).2).core c' = s.core c' := by
    rw [core_joinBank, core_setCore, if_neg h]
  simp only [State.runIssue]
  split
  · rw [core_noteFar_other _ c _ _ c' h, h3]
  · rw [h3]

/-- A region but for its cores and its bank accesses. -/
def Region.rest (x : Region) : Region := { x with cores := [], bank := [] }

/-- The state with other regions, DMA channels, stacks and undefined waiting requests. -/
def State.setRegions (s : State) (l : Tab Region) (m : Tab Chan) (w : Tab Stack) (z : List (List Nat)) : State :=
  { s with regions := l, chans := m, palaz := w, reqLost := z }

theorem setRegions_setRegions (s : State) (l l' : Tab Region) (m m' : Tab Chan) (w w' : Tab Stack) (z z' : List (List Nat)) :
    (s.setRegions l m w z).setRegions l' m' w' z' = s.setRegions l' m' w' z' := rfl

theorem setRegions_self (s : State) : s.setRegions s.regions s.chans s.palaz s.reqLost = s := rfl

/-- Channels that differ at most in the bytes marked undefined. -/
def SameChans (l m : Tab Chan) : Prop := ∀ c, { Tab.get {} l c with clash := (Tab.get {} m c : Chan).clash } = Tab.get {} m c

theorem sameChans_refl (l : Tab Chan) : SameChans l l := fun _ => rfl

/-- Stacks that differ at most in the marks of their engines' items. -/
def SameStacks (l m : Tab Stack) : Prop := ∀ k, (Tab.get {} l k : Stack).unmarked = (Tab.get {} m k : Stack).unmarked

theorem sameStacks_refl (l : Tab Stack) : SameStacks l l := fun _ => rfl

theorem setCore_regions (s : State) (c : Nat) (k : Core) : ∃ l, s.setCore c k = s.setRegions l s.chans s.palaz s.reqLost := ⟨_, rfl⟩

theorem joinBank_regions (s : State) (r : Nat) (a : Option BankAcc) : ∃ l, s.joinBank r a = s.setRegions l s.chans s.palaz s.reqLost := by
  cases a with
  | none => exact ⟨s.regions, rfl⟩
  | some a => exact ⟨_, rfl⟩

theorem markClash_chans (s : State) (x : List (Nat × Nat × Nat × Bool)) : SameChans (s.markClash x).chans s.chans := fun c => by
  show { Tab.get {} (s.chans.map fun c => if some c.1 = none then c else (c.1, { c.2 with clash := common x c.2.spans ++ c.2.clash })) c
    with clash := (Tab.get {} s.chans c : Chan).clash } = Tab.get {} s.chans c
  simp only [reduceCtorEq, if_false]
  rw [tab_get_map ({} : Chan) (fun y : Chan => { y with clash := common x y.spans ++ y.clash }) (by simp [Chan.spans, common])]

theorem markClash_stacks (s : State) (x : List (Nat × Nat × Nat × Bool)) : SameStacks (s.markClash x).palaz s.palaz := fun k => by
  have hi (i : Item) : (if clash i.spans x then { i with undef := true } else i).unmarked = i.unmarked := by split <;> rfl
  show (Tab.get {} (s.palaz.map fun k => (k.1, { k.2 with
    queues := k.2.queues.map fun q => (q.1, q.2.map fun i => if clash i.spans x then { i with undef := true } else i)
    running := k.2.running.map fun i => (i.1, i.2.map fun i => if clash i.spans x then { i with undef := true } else i) })) k : Stack).unmarked = _
  rw [tab_get_map ({} : Stack) (fun y : Stack => { y with
    queues := y.queues.map fun q => (q.1, q.2.map fun i => if clash i.spans x then { i with undef := true } else i)
    running := y.running.map fun i => (i.1, i.2.map fun i => if clash i.spans x then { i with undef := true } else i) }) rfl]
  simp [Stack.unmarked, Function.comp_def, hi]

theorem markClash_regions (s : State) (x : List (Nat × Nat × Nat × Bool)) :
    ∃ l m w z, SameChans m s.chans ∧ SameStacks w s.palaz ∧ s.markClash x = s.setRegions l m w z :=
  ⟨_, _, _, _, markClash_chans s x, markClash_stacks s x, rfl⟩

theorem modCore_regions (s : State) (c : Nat) (f : Core → Core) : ∃ l, s.modCore c f = s.setRegions l s.chans s.palaz s.reqLost := by
  rw [modCore_eq]; exact setCore_regions s c _

/-- A noted request changes its core, marks what it clashes with, and changes its core again. -/
theorem noteFar_eq (s : State) (c q : Nat) (r : FarReq) : ∃ f g, s.noteFar c q r = if r.done then s else
    let o := s.modCore c f
    (if o.anyClash (s.withItem r).spans then o.markClash (s.withItem r).spans else o).modCore c g := ⟨_, _, rfl⟩

/-- A far request that is noted changes nothing outside the regions but the marks of channels and of engines' items. -/
theorem noteFar_regions (s : State) (c q : Nat) (r : FarReq) :
    ∃ l m w z, SameChans m s.chans ∧ SameStacks w s.palaz ∧ s.noteFar c q r = s.setRegions l m w z := by
  obtain ⟨f, g, he⟩ := noteFar_eq s c q r
  rw [he]
  split
  · exact ⟨s.regions, s.chans, s.palaz, s.reqLost, sameChans_refl _, sameStacks_refl _, rfl⟩
  · obtain ⟨l1, h1⟩ := modCore_regions s c f
    dsimp only
    rw [h1]
    split
    · obtain ⟨l2, m2, w2, z2, hm, hw, h2⟩ := markClash_regions (s.setRegions l1 s.chans s.palaz s.reqLost) (s.withItem r).spans
      rw [h2, setRegions_setRegions]
      obtain ⟨l3, h3⟩ := modCore_regions (s.setRegions l2 m2 w2 z2) c g
      exact ⟨l3, m2, w2, z2, hm, hw, by rw [h3, setRegions_setRegions]; rfl⟩
    · obtain ⟨l3, h3⟩ := modCore_regions (s.setRegions l1 s.chans s.palaz s.reqLost) c g
      exact ⟨l3, s.chans, s.palaz, s.reqLost, sameChans_refl _, sameStacks_refl _, by rw [h3, setRegions_setRegions]; rfl⟩

theorem modCore_rest (s : State) (c : Nat) (f : Core → Core) (n : Nat) :
    ((s.modCore c f).region n).rest = (s.region n).rest ∧ ((s.modCore c f).region n).bank = (s.region n).bank := by
  rw [modCore_eq, region_setCore]
  split <;> exact ⟨rfl, rfl⟩

theorem markClash_rest (s : State) (x : List (Nat × Nat × Nat × Bool)) (n : Nat) :
    ((s.markClash x).region n).rest = (s.region n).rest ∧ ((s.markClash x).region n).bank = (s.region n).bank := by
  rw [region_markClash]; exact ⟨rfl, rfl⟩

theorem noteFar_rest (s : State) (c q : Nat) (r : FarReq) (n : Nat) :
    ((s.noteFar c q r).region n).rest = (s.region n).rest ∧ ((s.noteFar c q r).region n).bank = (s.region n).bank := by
  obtain ⟨f, g, he⟩ := noteFar_eq s c q r
  rw [he]
  split
  · exact ⟨rfl, rfl⟩
  · obtain ⟨h1, h2⟩ := modCore_rest s c f n
    dsimp only
    split
    · obtain ⟨h3, h4⟩ := markClash_rest (s.modCore c f) (s.withItem r).spans n
      obtain ⟨h5, h6⟩ := modCore_rest ((s.modCore c f).markClash (s.withItem r).spans) c g n
      exact ⟨by rw [h5, h3, h1], by rw [h6, h4, h2]⟩
    · obtain ⟨h5, h6⟩ := modCore_rest (s.modCore c f) c g n
      exact ⟨by rw [h5, h1], by rw [h6, h2]⟩

theorem runIssue_regions (s : State) (c : Nat) (b : BitVec 256) (sc : List (SbUnit × Nat)) :
    ∃ l m w z, SameChans m s.chans ∧ SameStacks w s.palaz ∧ ((slotOf b .c).op ∉ [7, 8, 9] → m = s.chans ∧ w = s.palaz ∧ z = s.reqLost)
      ∧ s.runIssue c b sc = s.setRegions l m w z := by
  simp only [State.runIssue]
  generalize (s.runBundle c b sc).1 = k
  generalize (s.runBundle c b sc).2 = a
  obtain ⟨l1, h1⟩ := setCore_regions s c k
  obtain ⟨l2, h2⟩ := joinBank_regions (s.setRegions l1 s.chans s.palaz s.reqLost) (c / 64) a
  rw [h1, h2, setRegions_setRegions]
  split
  · next r hr =>
    obtain ⟨l3, m3, w3, z3, hm, hw, h3⟩ := noteFar_regions (s.setRegions l2 s.chans s.palaz s.reqLost) c ((s.ctx c b .c).x.f 53 52) r
    refine ⟨l3, m3, w3, z3, hm, hw, fun hop => absurd hr ?_, h3⟩
    have hx : (s.ctx c b .c).x = slotOf b .c := rfl
    rw [OpCtx.newest, hx, if_neg (by simpa using hop)]
    simp
  · exact ⟨l2, s.chans, s.palaz, s.reqLost, sameChans_refl _, sameStacks_refl _, fun _ => ⟨rfl, rfl, rfl⟩, rfl⟩

/-- The issue of a bundle changes nothing outside the regions, but for the bytes of DMA channels, the engines' items and the waiting requests
that it marks undefined. -/
theorem runIssue_frame (s : State) (c : Nat) (b : BitVec 256) (sc : List (SbUnit × Nat)) :
    (s.runIssue c b sc).setRegions s.regions s.chans s.palaz s.reqLost = s ∧ SameChans (s.runIssue c b sc).chans s.chans
      ∧ SameStacks (s.runIssue c b sc).palaz s.palaz
      ∧ ((slotOf b .c).op ∉ [7, 8, 9] → (s.runIssue c b sc).chans = s.chans ∧ (s.runIssue c b sc).palaz = s.palaz
        ∧ (s.runIssue c b sc).reqLost = s.reqLost) := by
  obtain ⟨l, m, w, z, hm, hw, hop, h⟩ := runIssue_regions s c b sc
  rw [h]
  exact ⟨rfl, hm, hw, hop⟩

theorem runIssue_region (s : State) (c : Nat) (b : BitVec 256) (sc : List (SbUnit × Nat)) (n : Nat) :
    ((s.runIssue c b sc).region n).rest = (s.region n).rest ∧ ((s.runIssue c b sc).region n).bank
        = if n = c / 64 then (s.region n).bank ++ (runL (s.ctx c b .l)).toList else (s.region n).bank := by
  have hl : (s.runBundle c b sc).2 = runL (s.ctx c b .l) := rfl
  simp only [State.runIssue]
  generalize (s.runBundle c b sc).1 = k
  have h1 : ((((s.setCore c k).joinBank (c / 64) (s.runBundle c b sc).2).region n).rest
      = (s.region n).rest) ∧ (((s.setCore c k).joinBank (c / 64) (s.runBundle c b sc).2).region n).bank
        = if n = c / 64 then (s.region n).bank ++ (runL (s.ctx c b .l)).toList else (s.region n).bank := by
    rw [region_joinBank, region_setCore, hl]
    split <;> exact ⟨rfl, rfl⟩
  split
  · next r _ =>
    obtain ⟨hr, hb⟩ := noteFar_rest ((s.setCore c k).joinBank (c / 64) (s.runBundle c b sc).2) c ((s.ctx c b .c).x.f 53 52) r n
    rw [hr, hb]; exact h1
  · exact h1

end Sys2Proof.Machine
end

