-- ==== Sys2Proof/Laws/Lanes.lean ====
section
/-! SUPPORT. Lanes of vectors built from lanes or from bytes, and the value of a byte string. -/

namespace Sys2Proof.Machine

/-! ## Byte strings as numbers -/

theorem leNat_append (a b : List Byte) : leNat (a ++ b) = leNat a + 2 ^ (8 * a.length) * leNat b := by
  induction a with
  | nil => simp [leNat]
  | cons x t ih =>
    have : 2 ^ (8 * (t.length + 1)) = 256 * 2 ^ (8 * t.length) := by
      rw [show 8 * (t.length + 1) = 8 * t.length + 8 from by ring, pow_add]; norm_num [mul_comm]
    simp only [List.cons_append, leNat, ih, List.length_cons, this]
    ring

@[simp] theorem length_toLE (n x : Nat) : (toLE n x).length = n := by
  induction n generalizing x with
  | zero => rfl
  | succ n ih => simp [toLE, ih]

@[simp] theorem leNat_toLE (n x : Nat) : leNat (toLE n x) = x % 256 ^ n := by
  induction n generalizing x with
  | zero => simp [toLE, leNat, Nat.mod_one]
  | succ n ih =>
    simp only [toLE, leNat, ih, BitVec.toNat_ofNat]
    rw [show 256 ^ (n + 1) = 256 * 256 ^ n from by rw [pow_succ, mul_comm], Nat.mod_mul]

/-- Word `k` of `w` bytes in a string of such words. -/
theorem leNat_words (w : Nat) (l : List Nat) (k : Nat) :
    leNat (l.flatMap (toLE w)) / 256 ^ (w * k) % 256 ^ w = l.getD k 0 % 256 ^ w := by
  induction l generalizing k with
  | nil => simp [leNat]
  | cons x t ih =>
    simp only [List.flatMap_cons, leNat_append, length_toLE, leNat_toLE]
    have hp : (2 : Nat) ^ (8 * w) = 256 ^ w := by rw [pow_mul]; norm_num
    rw [hp]
    cases k with
    | zero => simp
    | succ k =>
      rw [show w * (k + 1) = w + w * k from by ring, pow_add, ← Nat.div_div_eq_div_mul]
      rw [Nat.add_mul_div_left _ _ (by positivity), Nat.div_eq_of_lt (Nat.mod_lt _ (by positivity)), Nat.zero_add]
      simpa using ih k

/-! ## Lanes -/

theorem toNat_lane (v : Vec) (k : Nat) : (lane v k).toNat = v.toNat / 2 ^ (32 * k) % 2 ^ 32 := by
  simp [lane, BitVec.extractLsb'_toNat, Nat.shiftRight_eq_div_pow]

theorem lane_ofNat (n k : Nat) (h : k < 64) : (lane (BitVec.ofNat 2048 n) k).toNat = n / 2 ^ (32 * k) % 2 ^ 32 := by
  rw [toNat_lane, BitVec.toNat_ofNat]
  have e : (2 : Nat) ^ 2048 = 2 ^ (32 * k) * 2 ^ (2048 - 32 * k) := by rw [← pow_add]; congr 1; omega
  rw [e, Nat.mod_mul_right_div_self, Nat.mod_mod_of_dvd]
  exact pow_dvd_pow 2 (by omega)

/-- Lane `k` of a vector built from 32-bit words. -/
theorem lane_words (l : List Nat) (k : Nat) (h : k < 64) :
    lane (ofBytes 2048 (l.flatMap (toLE 4))) k = BitVec.ofNat 32 (l.getD k 0) := by
  apply BitVec.eq_of_toNat_eq
  rw [ofBytes, lane_ofNat _ _ h, BitVec.toNat_ofNat]
  have := leNat_words 4 l k
  have e : (256 : Nat) ^ (4 * k) = 2 ^ (32 * k) := by
    rw [show (256 : Nat) = 2 ^ 8 from by norm_num, ← pow_mul]; congr 1; ring
  rw [e] at this
  norm_num at this ⊢
  exact this

theorem getLsbD_foldl_or (f : Nat → BitVec 32) (l : List Nat) (a : Vec) (i : Nat) :
    (l.foldl (fun acc k => acc ||| ((f k).setWidth 2048 <<< (32 * k))) a).getLsbD i
      = (a.getLsbD i || l.any fun k => ((f k).setWidth 2048 <<< (32 * k) : Vec).getLsbD i) := by
  induction l generalizing a with
  | nil => simp
  | cons x t ih => rw [List.foldl_cons, ih]; simp [Bool.or_assoc]

theorem lane_ofLanes (f : Nat → BitVec 32) (k : Nat) (h : k < 64) : lane (ofLanes f) k = f k := by
  apply BitVec.eq_of_getLsbD_eq
  intro i hi
  simp only [lane, BitVec.getLsbD_extractLsb', hi, decide_true, Bool.true_and, ofLanes, getLsbD_foldl_or]
  simp only [BitVec.getLsbD_shiftLeft, BitVec.getLsbD_setWidth]
  rw [show (BitVec.getLsbD (0 : Vec) (32 * k + i)) = false from BitVec.getLsbD_zero, Bool.false_or]
  rw [Bool.eq_iff_iff, List.any_eq_true]
  constructor
  · rintro ⟨j, hj, hb⟩
    simp only [Bool.and_eq_true, decide_eq_true_eq, Bool.not_eq_true', decide_eq_false_iff_not] at hb
    obtain ⟨⟨_, h1⟩, h2⟩ := hb
    have hlt := BitVec.lt_of_getLsbD h2.2
    have : j = k := by omega
    subst this
    rw [← h2.2]; congr 1; omega
  · intro hb
    refine ⟨k, List.mem_range.mpr h, ?_⟩
    simp only [Bool.and_eq_true, decide_eq_true_eq, Bool.not_eq_true', decide_eq_false_iff_not]
    refine ⟨⟨by omega, by omega⟩, by omega, ?_⟩
    rw [← hb]; congr 1; omega

@[simp] theorem lane_laneMask (on : BitVec 64) (k : Nat) (h : k < 64) :
    lane (laneMask on) k = if on.getLsbD k then 0xFFFFFFFF else 0 := lane_ofLanes _ k h

/-- A lane-by-lane result, lane by lane. -/
theorem lane_lanewise (on : BitVec 64) (f : Nat → Nat × StFlags) (k : Nat) (h : k < 64) :
    lane (lanewise on f).mask k = (if on.getLsbD k then 0xFFFFFFFF else 0)
      ∧ (on.getLsbD k = true → lane (lanewise on f).val k = BitVec.ofNat 32 (f k).1) := by
  refine ⟨lane_laneMask on k h, fun ho => ?_⟩
  have e : (((List.range 64).map fun k => if on.getLsbD k then f k else (0, 0)).flatMap fun x => toLE 4 x.1)
      = ((List.range 64).map fun k => if on.getLsbD k then (f k).1 else 0).flatMap (toLE 4) := by
    simp only [List.flatMap_map]
    congr 1
    funext j
    split <;> rfl
  show lane (ofBytes 2048 _) k = _
  rw [e, lane_words _ k h, List.getD_eq_getElem?_getD]
  simp [h, ho]

theorem flags_lanewise (on : BitVec 64) (f : Nat → Nat × StFlags) :
    (lanewise on f).flags = (List.range 64).foldl (fun a k => if on.getLsbD k then a ||| (f k).2 else a) 0 := by
  show List.foldl _ _ (List.map _ _) = _
  rw [List.foldl_map]
  congr 1
  funext a k
  split <;> simp

end Sys2Proof.Machine
end

