-- ==== Sys2Proof/Laws/CoreOps.lean ====
section
/-! SUPPORT. What each slot's operation changes in its core: the M slot accumulators and results to come, the V slot results
to come, the C slot what its operation names. -/

namespace Sys2Proof.Machine

/-! ## Slots -/

/-- A slot of a bundle it was put into. -/
theorem extract_withSlot (b : BitVec 256) (u : Slot) (op : Nat) (w : BitVec 58) :
    (withSlot b u op w).extractLsb' (64 * slotIndex u) 64 = BitVec.ofNat 64 (op * 2 ^ 58 + w.toNat) := by
  have hu : slotIndex u ≤ 3 := by cases u <;> decide
  apply BitVec.eq_of_getLsbD_eq
  intro i hi
  have hm : (0xFFFFFFFFFFFFFFFF : BitVec 256).getLsbD i = true := by
    have : (0xFFFFFFFFFFFFFFFF : BitVec 256) = BitVec.ofNat 256 (2 ^ 64 - 1) := rfl
    rw [this, BitVec.getLsbD_ofNat, Nat.testBit_two_pow_sub_one]
    simp [hi]; omega
  simp only [withSlot, BitVec.getLsbD_extractLsb', hi, decide_true, Bool.true_and, BitVec.getLsbD_or, BitVec.getLsbD_and,
    BitVec.getLsbD_not, BitVec.getLsbD_shiftLeft, Nat.add_sub_cancel_left, hm, BitVec.getLsbD_ofNat]
  have h1 : 64 * slotIndex u + i < 256 := by omega
  have h2 : ¬ (64 * slotIndex u + i < 64 * slotIndex u) := by omega
  simp [h1, h2]
  omega

/-- The operation of a slot put into a bundle. -/
theorem slotOf_op (b : BitVec 256) (u : Slot) (op : Nat) (w : BitVec 58) (h : op < 64) :
    (slotOf (withSlot b u op w) u).op = op := by
  simp only [slotOf, extract_withSlot, bits, BitVec.toNat_ofNat]
  have := w.isLt
  omega

/-! ## Results to come -/

theorem put_eq (o : OpCtx) (n : Core) (lat : Nat) (r : VOut) : ∃ l, o.put n lat r = { n with pend := n.pend ++ l }
    ∧ (⟨o.beat + lat, .vreg (o.x.f 53 49) r.mask r.val⟩ : Pend) ∈ l
    ∧ (r.flags ≠ 0 → (⟨o.beat + lat, .flags r.flags⟩ : Pend) ∈ l)
    ∧ (r.wf ≠ 0 → (⟨o.beat + lat, .wf r.wf⟩ : Pend) ∈ l) := by
  unfold OpCtx.put
  dsimp only
  by_cases hf : r.flags = 0 <;> by_cases hw : r.wf = 0
  · rw [if_pos hf, if_pos hw]
    exact ⟨_, rfl, List.mem_singleton.mpr rfl, fun h => absurd hf h, fun h => absurd hw h⟩
  · rw [if_pos hf, if_neg hw]
    refine ⟨[_, _], by simp only [Core.later, List.append_assoc, List.cons_append, List.nil_append]; rfl, ?_, fun h => absurd hf h,
      fun _ => ?_⟩ <;> simp
  · rw [if_neg hf, if_pos hw]
    refine ⟨[_, _], by simp only [Core.later, List.append_assoc, List.cons_append, List.nil_append]; rfl, ?_, fun _ => ?_,
      fun h => absurd hw h⟩ <;> simp
  · rw [if_neg hf, if_neg hw]
    refine ⟨[_, _, _], by simp only [Core.later, List.append_assoc, List.cons_append, List.nil_append]; rfl, ?_, fun _ => ?_,
      fun _ => ?_⟩ <;> simp

theorem putP_eq (o : OpCtx) (n : Core) (lat : Nat) (f : Nat → Bool × StFlags) :
    ∃ l v, o.putP n lat f = { n with pend := n.pend ++ l }
      ∧ (⟨o.beat + lat, .preg (o.x.f 51 49) o.on v⟩ : Pend) ∈ l
      ∧ v = BitVec.ofNat 64 (((List.range 64).map fun k => if o.on.getLsbD k then f k else (false, 0)).reverse.foldl
          (fun a x => 2 * a + x.1.toNat) 0) := by
  unfold OpCtx.putP
  dsimp only
  split
  · exact ⟨_, _, rfl, List.mem_singleton.mpr rfl, rfl⟩
  · refine ⟨[_, _], _, by simp only [Core.later, List.append_assoc, List.cons_append, List.nil_append]; rfl, ?_, rfl⟩
    exact List.mem_cons_self

/-- The V slot only adds results to come. -/
theorem runV_eq (o : OpCtx) (n : Core) : ∃ l, runV o n = { n with pend := n.pend ++ l } := by
  unfold runV
  have hp (lat : Nat) (r : VOut) : ∃ l, o.put n lat r = { n with pend := n.pend ++ l } :=
    let ⟨l, h, _⟩ := put_eq o n lat r; ⟨l, h⟩
  have hq (lat : Nat) (f : Nat → Bool × StFlags) : ∃ l, o.putP n lat f = { n with pend := n.pend ++ l } :=
    let ⟨l, _, h, _⟩ := putP_eq o n lat f; ⟨l, h⟩
  split
  case h_14 => exact ⟨[], by simp⟩
  all_goals first | exact hp _ _ | exact hq _ _

/-- The M slot changes the accumulators, its scoreboard entry and results to come. -/
theorem runM_eq (o : OpCtx) (n : Core) : ∃ l a sc, runM o n = { n with pend := n.pend ++ l, acc := a, score := sc } := by
  unfold runM
  split
  · unfold opMma; dsimp only; split
    · exact ⟨[], _, _, by simp; exact ⟨rfl, rfl⟩⟩
    · exact ⟨[], _, _, by simp; exact ⟨rfl, rfl⟩⟩
  · unfold opMclr; dsimp only; split
    · exact ⟨[], _, _, by simp; exact ⟨rfl, rfl⟩⟩
    · exact ⟨[], _, _, by simp; exact ⟨rfl, rfl⟩⟩
  · unfold opRdout; dsimp only
    split
    · split <;> split <;>
        exact ⟨_, _, n.score, by simp only [Core.later, List.append_assoc]; rfl⟩
    · exact ⟨[], n.acc, n.score, by simp⟩
  · exact ⟨[], n.acc, n.score, by simp⟩

/-- Where the M slot holds no operation it does nothing. -/
theorem runM_nop (o : OpCtx) (n : Core) (h : o.x.op = 0) : runM o n = n := by simp [runM, h]

theorem runV_nop (o : OpCtx) (n : Core) (h : o.x.op = 0) : runV o n = n := by simp [runV, h]

/-! ## The C slot -/

/-- A result to come outlives the C slot, but for a flag that a STEP drops. -/
theorem mem_runC (o : OpCtx) (n : Core) (p : Pend) (hp : p ∈ n.pend) (hf : p.isFlag = false ∨ (o.x.op = 13 ∧ o.isOn) = False) :
    p ∈ (runC o n).core.pend := by
  unfold runC
  split
  · unfold opAop; dsimp only; split <;> simp [OpCtx.next, Core.later, hp]
  · unfold opLoop; dsimp only; split <;> simpa [OpCtx.next] using hp
  · exact hp
  · unfold opHalt; split <;> simpa [OpCtx.next] using hp
  · simpa [opSend, OpCtx.next] using hp
  · unfold opRecv; dsimp only; split
    · exact hp
    · split <;> simp [OpCtx.next, Core.later, hp]
  · exact hp
  · exact hp
  · exact hp
  · exact hp
  · unfold opFlags; dsimp only; split
    · split <;> simp [OpCtx.next, Core.later, hp]
    · exact hp
  · unfold opSread; dsimp only; split <;> simp [OpCtx.next, Core.later, hp]
  · next h13 =>
    unfold opStep; split
    · next hon =>
      simp only [OpCtx.next, List.mem_filter, hp, true_and]
      rcases hf with hf | hf
      · simp [hf]
      · simp [h13, hon] at hf
    · exact hp
  · exact hp

/-! ## The commands -/

/-- A core operation issues its bundle. -/
theorem exec_core (i : Instr) (core : CoreId) (b : BitVec 256) (s : State) (h : asBundle i = some (core, b)) :
    exec i s = .next (s.issueNow core.val b) := by
  cases i <;> simp only [asBundle, Option.some.injEq, Prod.mk.injEq, reduceCtorEq] at h
  all_goals obtain ⟨rfl, rfl⟩ := h; rfl

/-- A result to come of the bundle is one of the core after the issue. -/
theorem pend_runIssue (s : State) (c : Nat) (b : BitVec 256) (sc : List (SbUnit × Nat)) (p : Pend) (h : p ∈ (s.runBundle c b sc).1.pend) : p ∈ ((s.runIssue c b sc).core c).pend := by
  have := congrArg Core.pend (core_runIssue s c b sc)
  simp only [Core.unmarked] at this
  rw [this]; exact h

/-- A result of the V slot is on the way after the issue. -/
theorem pend_runV (s : State) (c : Nat) (b : BitVec 256) (sc : List (SbUnit × Nat)) (p : Pend) (hV : ∀ n, p ∈ (runV (s.ctx c b .v) n).pend)
   (hf : p.isFlag = false ∨ s.steps c b = false) : p ∈ ((s.runIssue c b sc).core c).pend := by
  apply pend_runIssue
  rw [runBundle_fields]
  apply mem_runC _ _ _ (hV _)
  rcases hf with h | h
  · exact .inl h
  · right
    have : (s.ctx c b .c).x.op = (slotOf b .c).op := rfl
    simp [State.steps] at h
    simp [this]
    exact h

theorem resultComing_runIssue (s : State) (c : Nat) (b : BitVec 256) (sc : List (SbUnit × Nat)) (lat : Nat) (f : OpCtx → VOut)
   (hV : ∀ n, runV (s.ctx c b .v) n = (s.ctx c b .v).put n lat (f (s.ctx c b .v))) :
   s.resultComing (s.runIssue c b sc) c b lat f := by
  have key := fun n => put_eq (s.ctx c b .v) n lat (f (s.ctx c b .v))
  refine ⟨pend_runV s c b sc _ (fun n => ?_) (.inl rfl), fun hf hs => pend_runV s c b sc _ (fun n => ?_) (.inr hs), fun hf hs => pend_runV s c b sc _ (fun n => ?_) (.inr hs)⟩
  all_goals rw [hV n]; obtain ⟨l, h, h1, h2, h3⟩ := key n; rw [h]
  · exact List.mem_append_right _ h1
  · exact List.mem_append_right _ (h2 hf)
  · exact List.mem_append_right _ (h3 hf)

theorem lanesComing_runIssue (s : State) (c : Nat) (b : BitVec 256) (sc : List (SbUnit × Nat)) (lat : Nat) (f : OpCtx → Nat → Nat × StFlags)
   (hV : ∀ n, runV (s.ctx c b .v) n = (s.ctx c b .v).put n lat (lanewise (s.ctx c b .v).on (f (s.ctx c b .v)))) :
   s.lanesComing (s.runIssue c b sc) c b lat f := by
  obtain ⟨h1, h2, _⟩ := resultComing_runIssue s c b sc lat (fun o => lanewise o.on (f o)) hV
  refine ⟨⟨_, _, h1, fun k hk => ?_⟩, ?_⟩
  · obtain ⟨h1, h2⟩ := lane_lanewise (s.ctx c b .v).on (f (s.ctx c b .v)) k hk
    unfold LaneIs
    split
    · next ho => exact ⟨by rw [h1, if_pos ho], h2 ho⟩
    · next ho => rw [h1, if_neg ho]
  · rw [flags_lanewise] at h2; exact h2

/-- A core operation that can issue completes. -/
theorem exec_runs {i : Instr} {core : CoreId} {b : BitVec 256} (hb : asBundle i = some (core, b)) {s : State} (h : s.canIssue core.val b = true) : ∃ sc, exec i s = .next (s.runIssue core.val b sc) := by
  obtain ⟨sc, _, he⟩ := issueNow_eq h
  exact ⟨sc, by rw [exec_core _ _ _ _ hb, he]⟩
end Sys2Proof.Machine
end

