-- ==== Sys2Proof/Laws/Events.lean ====
section
/-! SUPPORT. What logging an event can change, said once for the proofs that use it. -/

namespace Sys2Proof.Machine

/-! ## Commits that wait -/

/-- Where no commit waits for a boundary, or the part does not start for a join, a command leaves what its effect leaves (R482). -/
theorem settled_of_settles {s : State} (h : s.settles) (x : Res) : s.settled x = x := by
  have hc : ¬ (s.commitDue = true ∧ s.reg R.jobState = 1 ∧ s.joinWait.isSome = true) := by
    rintro ⟨h1, h2, h3⟩
    rcases h with h | h | h
    · simp [h] at h1
    · exact h h2
    · simp [h] at h3
  cases x <;> simp [State.settled, hc]

/-- A command of R482 leaves what its effect leaves, with the commit that waits applied or not. -/
theorem settled_next (s t : State) : s.settled (.next t) = .next t ∨ s.settled (.next t) = .next t.commitIfIdle := by
  simp only [State.settled]
  split <;> simp

/-! ## The log -/

/-- The registers that a log entry counts in. -/
def logRegs : List Nat := [R.logCount, R.logNextSeq, R.logOverwritten, R.eventsUnsent]

/-- Sending an entry's EVENT frames changes only the frames sent, their count, and the count of entries not sent. -/
theorem sendEvent_cases (s : State) (e : LogEntry) :
    s.sendEvent e = s.bump R.eventsUnsent 32 ∨ ∃ n g, s.sendEvent e = { s with eventsSent := n, gtx := g } := by
  unfold State.sendEvent
  simp only
  split
  · exact .inl rfl
  · refine .inr ?_
    generalize hl : List.filter s.gUp [GPort.a, GPort.b] = l
    have key : ∀ (l : List GPort) (n : Nat) (g : List GOut),
        ∃ g', ({ s with eventsSent := n, gtx := g } : State).each l (fun t p => t.sendG p 0x04 (s.eventFrame e))
          = { s with eventsSent := n, gtx := g' } := by
      intro l
      induction l with
      | nil => intro n g; exact ⟨g, rfl⟩
      | cons p t ih => intro n g; exact ih n _
    obtain ⟨g, hg⟩ := key l (s.eventsSent + l.length) s.gtx
    exact ⟨_, g, hg⟩

/-- A log entry changes the log, its counts, and what goes out on the Glazin chain; the entry is the log's last. -/
theorem logEntry_cases (s : State) (code kind unit detail : Nat) :
    ∃ e l r g n, s.logEntry code kind unit detail = { s with log := l ++ [e], regs := r, gtx := g, eventsSent := n }
      ∧ e.code = code ∧ e.kind = kind ∧ e.unit = unit % 256 ∧ e.detail = BitVec.ofNat 64 detail
      ∧ ∀ k, k ∉ logRegs → Tab.get (s.dflt k) r k = s.reg k := by
  unfold State.logEntry
  simp only
  generalize he : (LogEntry.mk _ _ _ _ _ _ _ _) = e
  have hc : e.code = code ∧ e.kind = kind ∧ e.unit = unit % 256 ∧ e.detail = BitVec.ofNat 64 detail := by
    subst he; exact ⟨rfl, rfl, rfl, rfl⟩
  have hr : ∀ (t : State) (x : LogEntry), t.cfg = s.cfg →
      ∃ r g n, t.sendEvent x = { t with regs := r, gtx := g, eventsSent := n }
        ∧ ∀ k, k ∉ logRegs → Tab.get (s.dflt k) r k = t.reg k := by
    intro t x ht
    have hd : ∀ k, s.dflt k = t.dflt k := fun k => by simp [State.dflt, State.cfgValue, ht]
    rcases sendEvent_cases t x with h | ⟨n, g, h⟩
    · refine ⟨_, t.gtx, t.eventsSent, h, fun k hk => ?_⟩
      have := reg_setReg t R.eventsUnsent ((t.reg R.eventsUnsent + 1) % 2 ^ 32) k
      rw [if_neg (fun h => hk (by simp [logRegs, h]))] at this
      rw [hd]
      exact this
    · exact ⟨t.regs, g, n, h, fun k _ => by rw [hd]; rfl⟩
  split
  · obtain ⟨r, g, n, h, hk⟩ := hr (((({ s with log := s.log.drop 1 ++ [e] } : State).setReg R.logCount (s.log.drop 1 ++ [e]).length).bump R.logNextSeq 32).bump R.logOverwritten 32) e rfl
    refine ⟨e, s.log.drop 1, r, g, n, h, hc.1, hc.2.1, hc.2.2.1, hc.2.2.2, fun k hn => ?_⟩
    rw [hk k hn]
    simp only [logRegs, List.mem_cons, List.not_mem_nil, or_false, not_or] at hn
    simp [State.bump, hn.1, hn.2.1, hn.2.2.1]
    rfl
  · obtain ⟨r, g, n, h, hk⟩ := hr ((({ s with log := s.log ++ [e] } : State).setReg R.logCount (s.log ++ [e]).length).bump R.logNextSeq 32) e rfl
    refine ⟨e, s.log, r, g, n, h, hc.1, hc.2.1, hc.2.2.1, hc.2.2.2, fun k hn => ?_⟩
    rw [hk k hn]
    simp only [logRegs, List.mem_cons, List.not_mem_nil, or_false, not_or] at hn
    simp [State.bump, hn.1, hn.2.1]
    rfl

/-- An event is in the log. -/
theorem logged_event (s : State) (code unit detail : Nat) : (s.event code unit detail).logged code unit detail := by
  obtain ⟨e, l, r, g, n, h, h1, -, h3, h4, -⟩ := logEntry_cases s code 0 unit detail
  refine ⟨e, ?_, h1, h3, h4⟩
  show e ∈ (s.logEntry code 0 unit detail).log
  rw [h]
  simp

/-- An event leaves every register but the log's counts. -/
theorem reg_event (s : State) (code unit detail k : Nat) (hk : k ∉ logRegs) : (s.event code unit detail).reg k = s.reg k := by
  obtain ⟨e, l, r, g, n, h, -, -, -, -, hr⟩ := logEntry_cases s code 0 unit detail
  show (s.logEntry code 0 unit detail).reg k = _
  rw [h]
  exact hr k hk

end Sys2Proof.Machine
end

