-- ==== Sys2Proof/Laws/Link.lean ====
section
/-! SUPPORT. Flits: computing a flit's CRC changes no other bit of it, and makes it hold (R225). -/

namespace Sys2Proof.Machine

theorem crcMask (j : Nat) : BitVec.getLsbD (0xFFFFFFFF : BitVec 2176) j = decide (j < 32) := by
  have hb : Nat.testBit 4294967295 j = decide (j < 32) := Nat.testBit_two_pow_sub_one 32 j
  have hd : BitVec.getLsbD (0xFFFFFFFF : BitVec 2176) j = (decide (j < 2176) && Nat.testBit 4294967295 j) :=
    BitVec.getLsbD_ofNat ..
  rw [hd, hb]
  by_cases h : j < 32
  · rw [decide_eq_true h, decide_eq_true (by omega : j < 2176)]; rfl
  · rw [decide_eq_false h, Bool.and_false]

theorem withCrc_getLsbD (f : BitVec 2176) (i : Nat) :
    (withCrc f).getLsbD i = if 96 ≤ i ∧ i < 128 then (flitCrc f).getLsbD (i - 96) else f.getLsbD i := by
  unfold withCrc
  rw [BitVec.getLsbD_or, BitVec.getLsbD_and, BitVec.getLsbD_not, BitVec.getLsbD_shiftLeft, BitVec.getLsbD_shiftLeft,
    BitVec.getLsbD_setWidth, crcMask]
  by_cases hi : i < 2176
  · rw [decide_eq_true hi, decide_eq_true (by omega : i - 96 < 2176)]
    by_cases h1 : i < 96
    · rw [if_neg (by omega), decide_eq_true h1]; simp
    · by_cases h2 : i < 128
      · rw [if_pos (by omega), decide_eq_false h1, decide_eq_true (by omega : i - 96 < 32)]; simp
      · have hc : (flitCrc f).getLsbD (i - 96) = false := BitVec.getLsbD_of_ge _ _ (by omega)
        rw [if_neg (by omega), decide_eq_false h1, decide_eq_false (by omega : ¬ i - 96 < 32), hc]; simp
  · have hf : f.getLsbD i = false := BitVec.getLsbD_of_ge _ _ (by omega)
    rw [if_neg (by omega), hf, decide_eq_false hi]; simp

theorem withCrc_lo (f : BitVec 2176) : (withCrc f).setWidth 96 = f.setWidth 96 := by
  apply BitVec.eq_of_getLsbD_eq
  intro i hi
  simp [withCrc_getLsbD, show ¬ (96 ≤ i ∧ i < 128) by omega]

theorem withCrc_hi (f : BitVec 2176) : withCrc f >>> 128 = f >>> 128 := by
  apply BitVec.eq_of_getLsbD_eq
  intro i _
  simp [withCrc_getLsbD]

@[simp] theorem flitCrc_withCrc (f : BitVec 2176) : flitCrc (withCrc f) = flitCrc f := by
  rw [flitCrc, flitCrc, withCrc_lo, withCrc_hi]

@[simp] theorem flitPayload_withCrc (f : BitVec 2176) : flitPayload (withCrc f) = flitPayload f := by
  rw [flitPayload, flitPayload, withCrc_hi]

theorem testBit_bits (x hi lo i : Nat) : (bits x hi lo).testBit i = (decide (i < hi + 1 - lo) && x.testBit (lo + i)) := by
  simp [bits, Nat.testBit_mod_two_pow, Nat.testBit_div_two_pow, Nat.add_comm]

/-- The bits of a flit's header below its CRC. -/
theorem fh_withCrc (f : BitVec 2176) (hi lo : Nat) (h : hi < 96) : fh (withCrc f) hi lo = fh f hi lo := by
  apply Nat.eq_of_testBit_eq
  intro i
  simp only [fh, testBit_bits]
  by_cases hb : i < hi + 1 - lo
  · have := withCrc_getLsbD f (lo + i)
    rw [if_neg (by omega)] at this
    rw [BitVec.testBit_toNat, BitVec.testBit_toNat, this]
  · simp [hb]

theorem flitType_withCrc (f : BitVec 2176) : flitType (withCrc f) = flitType f := fh_withCrc f 3 0 (by omega)

/-- A flit sealed with its CRC is sound. -/
@[simp] theorem crcOk_withCrc (f : BitVec 2176) : crcOk (withCrc f) = true := by
  simp only [crcOk, flitCrc_withCrc, decide_eq_true_eq]
  apply Nat.eq_of_testBit_eq
  intro i
  rw [testBit_bits]
  by_cases hb : i < 32
  · have := withCrc_getLsbD f (96 + i)
    rw [if_pos (by omega), Nat.add_sub_cancel_left] at this
    rw [BitVec.testBit_toNat, BitVec.testBit_toNat, this]
    simp [hb]
  · have : (flitCrc f).toNat.testBit i = false := by
      have := BitVec.getLsbD_of_ge (flitCrc f) i (by omega)
      simpa [BitVec.testBit_toNat] using this
    simp [hb, this]

end Sys2Proof.Machine
end

