-- ==== Sys2Proof/Laws/Memory.lean ====
section
/-! SUPPORT. The memories: reading after writing, and that every memory operation keeps the canonical form (log entry 2). -/

namespace Sys2Proof.Machine

/-! ## One memory -/

/-- Every listed address is at least `a`. -/
theorem wf_tail {x : Host.Cell} {m : Memory} (h : Memory.wf (x :: m) = true) : m.wf = true := by
  cases m with
  | nil => rfl
  | cons y t => obtain ⟨i, a⟩ := x; obtain ⟨j, b⟩ := y; simp [Memory.wf] at h; exact h.2

/-- The first address of a canonical memory is below all others. -/
theorem wf_lt {a : Nat} {b : Byte} {m : Memory} (h : Memory.wf ((a, b) :: m) = true) : ∀ x ∈ m, a < x.1 := by
  induction m generalizing a b with
  | nil => simp
  | cons y t ih =>
    obtain ⟨j, c⟩ := y
    simp only [Memory.wf, Bool.and_eq_true, decide_eq_true_eq] at h
    intro x hx
    rcases List.mem_cons.mp hx with rfl | hx
    · exact h.1.2
    · exact Nat.lt_trans h.1.2 (ih h.2 x hx)

/-- A canonical memory with a lower address of a byte that is not 0 in front. -/
theorem wf_cons {a : Nat} {b : Byte} {m : Memory} (hb : b ≠ 0) (hm : m.wf = true) (hl : ∀ x ∈ m, a < x.1) :
    Memory.wf ((a, b) :: m) = true := by
  cases m with
  | nil => simpa [Memory.wf] using hb
  | cons y t =>
    obtain ⟨j, c⟩ := y
    simp only [Memory.wf, Bool.and_eq_true, decide_eq_true_eq, bne_iff_ne]
    exact ⟨⟨hb, hl (j, c) (by simp)⟩, hm⟩

/-- No entry of a canonical memory is 0. -/
theorem wf_ne {a : Nat} {b : Byte} {m : Memory} (h : Memory.wf ((a, b) :: m) = true) : b ≠ 0 := by
  cases m with
  | nil => simpa [Memory.wf] using h
  | cons y t => obtain ⟨j, c⟩ := y; simp [Memory.wf] at h; simpa using h.1.1

/-- A canonical memory is one by two conditions that filters and tails plainly keep. -/
theorem wf_iff (m : Memory) : m.wf = true ↔ (m.Pairwise fun x y => x.1 < y.1) ∧ ∀ x ∈ m, x.2 ≠ 0 := by
  induction m with
  | nil => simp [Memory.wf]
  | cons x t ih =>
    obtain ⟨a, b⟩ := x
    constructor
    · intro h
      have ht := ih.mp (wf_tail h)
      refine ⟨List.pairwise_cons.mpr ⟨wf_lt h, ht.1⟩, ?_⟩
      intro y hy
      rcases List.mem_cons.mp hy with rfl | hy
      · exact wf_ne h
      · exact ht.2 y hy
    · rintro ⟨hp, hn⟩
      rw [List.pairwise_cons] at hp
      exact wf_cons (hn (a, b) (by simp)) (ih.mpr ⟨hp.2, fun y hy => hn y (by simp [hy])⟩) hp.1

theorem wf_filter {m : Memory} (h : m.wf = true) (p : Host.Cell → Bool) : Memory.wf (m.filter p) = true := by
  rw [wf_iff] at h ⊢
  exact ⟨h.1.filter p, fun x hx => h.2 x (List.mem_of_mem_filter hx)⟩

/-- What a write lists: the old entries and the written one. -/
theorem mem_write {m : Memory} {a : Nat} {b : Byte} {x : Host.Cell} (h : x ∈ m.write a b) : x ∈ m ∨ (x = (a, b) ∧ b ≠ 0) := by
  induction m with
  | nil => by_cases hb : b = 0 <;> simp_all [Memory.write]
  | cons y t ih =>
    obtain ⟨j, c⟩ := y
    simp only [Memory.write] at h
    split at h
    · split at h
      · exact .inl (by simp [h])
      · next hb => rcases List.mem_cons.mp h with rfl | h
                   · exact .inr ⟨rfl, hb⟩
                   · exact .inl (by simp [h])
    · split at h
      · split at h
        · exact .inl h
        · next hb => rcases List.mem_cons.mp h with rfl | h
                     · exact .inr ⟨rfl, hb⟩
                     · exact .inl h
      · rcases List.mem_cons.mp h with rfl | h
        · exact .inl (by simp)
        · rcases ih h with h | h
          · exact .inl (by simp [h])
          · exact .inr h

/-- A write keeps the canonical form. -/
theorem wf_write {m : Memory} (h : m.wf = true) (a : Nat) (b : Byte) : (m.write a b).wf = true := by
  induction m with
  | nil =>
    show Memory.wf (if b = 0 then [] else [(a, b)]) = true
    split
    · rfl
    · next hb => simpa [Memory.wf] using hb
  | cons y t ih =>
    obtain ⟨j, c⟩ := y
    have ht := wf_tail h
    have hl := wf_lt h
    have hc := wf_ne h
    simp only [Memory.write]
    split
    · next hj =>
      subst hj
      split
      · exact ht
      · next hb => exact wf_cons hb ht hl
    · split
      · next haj =>
        split
        · exact h
        · next hb =>
          refine wf_cons hb h fun x hx => ?_
          rcases List.mem_cons.mp hx with rfl | hx
          · exact haj
          · exact Nat.lt_trans haj (hl x hx)
      · refine wf_cons hc (ih ht) fun x hx => ?_
        rcases mem_write hx with hx | ⟨rfl, -⟩
        · exact hl x hx
        · simp only; omega

/-- A byte string's write keeps the canonical form. -/
theorem wf_writeN {m : Memory} (h : m.wf = true) (a : Nat) (d : List Byte) : (m.writeN a d).wf = true := by
  induction d generalizing m a with
  | nil => exact h
  | cons b t ih => exact ih (wf_write h a b) (a + 1)

/-- An address below all entries is not listed. -/
theorem read_below {m : Memory} {a : Nat} (h : ∀ x ∈ m, a < x.1) : m.read a = 0 := by
  induction m with
  | nil => rfl
  | cons y t ih =>
    obtain ⟨j, c⟩ := y
    have := h (j, c) (by simp)
    simp only [Memory.read]
    rw [if_neg (by simp only at this; omega)]
    exact ih fun x hx => h x (by simp [hx])

/-- Reading after a write of one byte. -/
theorem read_write {m : Memory} (h : m.wf = true) (a : Nat) (b : Byte) (i : Nat) :
    (m.write a b).read i = if i = a then b else m.read i := by
  induction m with
  | nil =>
    show Memory.read (if b = 0 then [] else [(a, b)]) i = _
    split
    · next hb => subst hb; simp [Memory.read]
    · simp [Memory.read, eq_comm (a := a)]
  | cons y t ih =>
    obtain ⟨j, c⟩ := y
    have ht := wf_tail h
    have hl := wf_lt h
    simp only [Memory.write]
    split
    · next hj =>
      subst hj
      split
      · next hb =>
        by_cases hi : i = j
        · subst hi; simp [hb, read_below hl]
        · simp [Memory.read, hi, Ne.symm hi]
      · by_cases hi : i = j
        · subst hi; simp [Memory.read]
        · simp [Memory.read, hi, Ne.symm hi]
    · next hj =>
      split
      · next haj =>
        split
        · next hb =>
          by_cases hi : i = a
          · subst hi
            rw [if_pos rfl, hb, read_below]
            intro x hx
            rcases List.mem_cons.mp hx with rfl | hx
            · exact haj
            · exact Nat.lt_trans haj (hl x hx)
          · rw [if_neg hi]
        · by_cases hi : i = a
          · subst hi; simp [Memory.read]
          · simp [Memory.read, hi, Ne.symm hi]
      · simp only [Memory.read, ih ht]
        by_cases hi : i = a
        · subst hi; simp [hj]
        · simp [hi]

/-- Reading after a byte string's write. -/
theorem read_writeN {m : Memory} (h : m.wf = true) (a : Nat) (d : List Byte) (i : Nat) :
    (m.writeN a d).read i = if a ≤ i ∧ i < a + d.length then d.getD (i - a) 0 else m.read i := by
  induction d generalizing m a with
  | nil => simp [Memory.writeN, show ¬ (a ≤ i ∧ i < a) by omega]
  | cons b t ih =>
    rw [Memory.writeN, ih (wf_write h a b), read_write h]
    simp only [List.length_cons]
    by_cases h1 : i = a
    · subst h1; simp [show ¬ (i + 1 ≤ i) by omega]
    · by_cases h2 : a + 1 ≤ i ∧ i < a + 1 + t.length
      · rw [if_pos h2, if_pos (by omega), show i - a = (i - (a + 1)) + 1 by omega, List.getD_cons_succ]
      · rw [if_neg h2, if_neg h1, if_neg (by omega)]

/-! ## The part's memories -/

theorem memoryOk_iff (s : State) :
    s.memoryOk = true ↔ s.sram.wf = true ∧ s.sramChk.wf = true ∧ s.dram.wf = true ∧ s.dramChk.wf = true := by
  simp [State.memoryOk, and_assoc]

/-- After the power-on reset every memory is canonical: nothing is listed. -/
theorem memoryOk_reset : State.reset.memoryOk = true := rfl

theorem memoryOk_writeSram {s : State} (h : s.memoryOk = true) (off : Nat) (d : List Byte) :
    (s.writeSram off d).memoryOk = true := by
  rw [memoryOk_iff] at h ⊢
  exact ⟨wf_writeN h.1 _ _, wf_writeN h.2.1 _ _, h.2.2⟩

theorem memoryOk_writeStack {s : State} (h : s.memoryOk = true) (off : Nat) (d : List Byte) :
    (s.writeStack off d).memoryOk = true := by
  rw [memoryOk_iff] at h ⊢
  exact ⟨h.1, h.2.1, wf_writeN h.2.2.1 _ _, wf_writeN h.2.2.2 _ _⟩

theorem memoryOk_writeWord {s : State} (h : s.memoryOk = true) (space off : Nat) (d : List Byte) :
    (s.writeWord space off d).memoryOk = true := by
  unfold State.writeWord
  split
  · exact memoryOk_writeSram h _ _
  · exact memoryOk_writeStack h _ _

theorem memoryOk_writeWords {s : State} (h : s.memoryOk = true) (space off : Nat) (d : List Byte) :
    (s.writeWords space off d).memoryOk = true := by
  unfold State.writeWords
  generalize List.range (d.length / 64) = l
  induction l generalizing s with
  | nil => exact h
  | cons i t ih => exact ih (memoryOk_writeWord h _ _ _)

theorem memoryOk_zeroRange {s : State} (h : s.memoryOk = true) (space off n : Nat) :
    (s.zeroRange space off n).memoryOk = true := by
  unfold State.zeroRange
  split <;> rw [memoryOk_iff] at h ⊢
  · exact ⟨wf_filter h.1 _, wf_filter h.2.1 _, h.2.2⟩
  · exact ⟨h.1, h.2.1, wf_filter h.2.2.1 _, wf_filter h.2.2.2 _⟩

/-- A byte of SRAM after a write. -/
theorem sram_writeSram {s : State} (h : s.memoryOk = true) (off : Nat) (d : List Byte) (a : Nat) :
    (s.writeSram off d).sram.read a = if off ≤ a ∧ a < off + d.length then d.getD (a - off) 0 else s.sram.read a :=
  read_writeN ((memoryOk_iff s).mp h).1 off d a

/-- A byte of a stack after a word's write. -/
theorem dram_writeStack {s : State} (h : s.memoryOk = true) (off : Nat) (d : List Byte) (a : Nat) :
    (s.writeStack off d).dram.read a = if off ≤ a ∧ a < off + d.length then d.getD (a - off) 0 else s.dram.read a :=
  read_writeN ((memoryOk_iff s).mp h).2.2.1 off d a

end Sys2Proof.Machine
end

