-- ==== Sys2Proof/Tests/Slice0.lean ====
section
/-! SUPPORT. Tests: terms that the well-formedness checks refuse, single commands with the values the spec gives, and for every
statement with hypotheses a state and operands that meet them all, each clause of it. -/

namespace Sys2Proof.Tests

set_option Elab.async false

open Sys2Proof Sys2Proof.Machine

/-! ## States to test on -/

/-- Registers set in a state. -/
def put (s : State) (l : List (Nat × Nat)) : State := l.foldl (fun t x => t.setReg x.1 x.2) s

/-- Awake in Kindled, nothing else changed since reset. -/
def kin : State := { State.reset with power := .kindled }

/-- A bundle with one operation. -/
def one (u : Slot) (op : Nat) (w : BitVec 58) : BitVec 256 := withSlot 0 u op w

/-- Core 0 with a window over the first 64 KiB of region 0, one flit in landing stream 0 and one in send stream 1. -/
def core0 : Core :=
  { windows := [(0, BitVec.ofNat 128 (2 ^ 16 * 2 ^ 48 + 3 * 2 ^ 100))], sendBind := [(0, 1), (1, 1)], landBind := [(0, 1)],
    land := [(0, [{ payload := 5, ready := 0 }])], send := [(1, [{ payload := 9, ready := 0 }])] }

/-- Region 0 lit and running, core 0 in it. -/
def run0 : State :=
  { kin with power := .lit
             regions := [(0, { lit := true, running := true, map := List.range 64, spares := [64], cores := [(0, core0)], beat := 10 })] }

/-- The same in a running job. -/
def job0 : State := put run0 [(R.jobState, 2)]

/-! ## Core operations -/

theorem witness_LaneOperations :
    run0.canIssue 0 (one .v 1 0) = true ∧ run0.canIssue 0 (one .v 3 0) = true ∧ run0.canIssue 0 (one .v 8 0) = true
      ∧ run0.canIssue 0 (one .v 9 0) = true ∧ run0.canIssue 0 (one .v 12 0) = true := by decide +kernel

theorem witness_PredicateOperations :
    run0.canIssue 0 (one .v 2 0) = true ∧ run0.canIssue 0 (one .v 4 0) = true ∧ run0.canIssue 0 (one .v 13 0) = true := by
  decide +kernel

theorem witness_ConversionOperations :
    run0.canIssue 0 (one .v 5 0) = true ∧ run0.canIssue 0 (one .v 6 0) = true ∧ run0.canIssue 0 (one .v 7 0) = true
      ∧ run0.canIssue 0 (one .v 10 0) = true ∧ run0.canIssue 0 (one .v 11 0) = true := by decide +kernel

theorem witness_MatrixOperations :
    run0.canIssue 0 (one .m 1 0) = true ∧ run0.canIssue 0 (one .m 2 0) = true ∧ run0.canIssue 0 (one .m 3 0) = true := by
  decide +kernel

theorem witness_LoadsAndStores :
    run0.canIssue 0 (one .l 1 0) = true ∧ run0.canIssue 0 (one .l 2 0) = true ∧ run0.canIssue 0 (one .l 3 (2 <<< 43)) = true
      ∧ run0.canIssue 0 (one .l 4 (1 <<< 43)) = true := by decide +kernel

theorem witness_ControlOperations :
    run0.canIssue 0 (one .c 1 0) = true ∧ run0.canIssue 0 (one .c 4 0) = true ∧ run0.canIssue 0 (one .c 11 0) = true
      ∧ run0.canIssue 0 (one .c 12 0) = true ∧ run0.canIssue 0 (one .c 13 0) = true
      ∧ (∀ op ∈ [1, 11, 12, 13], run0.canIssue 0 (one .c op (1 <<< 55)) = true ∧ (run0.ctx 0 (one .c op (1 <<< 55)) .c).isOn = false)
      ∧ (let s := run0.setCore 0 { core0 with loops := [⟨0, 3, 5, 0, none, true⟩] }
         s.canIssue 0 (one .c 4 0) = true ∧ (s.ctx 0 (one .c 4 0) .c).isOn = false) := by decide +kernel

theorem witness_SequencingOperations :
    run0.canIssue 0 (one .l 0 0) = true ∧ (slotOf (one .l 0 0) .c).op = 0
      ∧ run0.canIssue 0 (one .c 2 (1 <<< 24)) = true ∧ run0.canIssue 0 (one .c 2 (1 <<< 24 ||| 1 <<< 38)) = true
      ∧ run0.canIssue 0 (one .c 3 0) = true ∧ (run0.core 0).loops = [] := by decide +kernel

/-- A LOOP without iterations whose body of one bundle ends with the body it stands in. -/
theorem witness_SequencingOperations_nested : ∀ l ∈ [(⟨2, 3, 5, 0, none, false⟩ : Loop), ⟨2, 3, 5, 4, none, false⟩],
    let s := run0.setCore 0 { core0 with pc := 3, loops := [l] }
    s.canIssue 0 (one .c 2 (1 <<< 24)) = true ∧ l.start + l.len - 1 = (s.core 0).pc + 1
      ∧ (slotOf (one .c 2 (1 <<< 24)) .c).f 53 38 = 0 ∧ (slotOf (one .c 2 (1 <<< 24)) .c).f 37 24 = 1 := by decide +kernel

/-- Core 0 at the last bundle of a loop's body, with an iteration left. -/
def loop0 : State := run0.setCore 0 { core0 with pc := 3, loops := [⟨2, 2, 5, 0, none, false⟩] }

theorem witness_LoopBodies :
    asBundle (.fop 0 0 0) = some (0, one .v 1 0) ∧ loop0.canIssue 0 (one .v 1 0) = true ∧ (slotOf (one .v 1 0) .c).op = 0
      ∧ (loop0.core 0).loops = [⟨2, 2, 5, 0, none, false⟩] ∧ 2 + 2 - 1 = (loop0.core 0).pc := by decide +kernel

/-- A JUMP in the last bundle of a body, and two bodies that end together, after the inner's last iteration and after both. -/
theorem witness_LoopBodies_jump_and_nested :
    (asBundle (.jump 0 (3 <<< 41) 0) = some ((0 : CoreId), one .c 3 (3 <<< 41)) ∧ loop0.canIssue 0 (one .c 3 (3 <<< 41)) = true
      ∧ (slotOf (one .c 3 (3 <<< 41)) .c).f 53 41 = 3) ∧
    ∀ y ∈ [(⟨1, 3, 4, 0, none, false⟩ : Loop), ⟨1, 3, 4, 3, none, false⟩],
      let s := run0.setCore 0 { core0 with pc := 3, loops := [⟨2, 2, 5, 4, none, false⟩, y] }
      s.canIssue 0 (one .v 1 0) = true ∧ (s.core 0).loops = [⟨2, 2, 5, 4, none, false⟩, y] ∧ y.start + y.len - 1 = (s.core 0).pc := by
  decide +kernel

theorem witness_StreamOperations :
    run0.canIssue 0 (one .c 5 0) = true ∧ run0.canIssue 0 (one .c 6 0) = true := by decide +kernel

def far1 : FarReq := { kind := .fld, tag := 0, loc := 0, far := 0, len := 1, own := true, chip := 0, period := false, done := true }

/-- A rank table that gives rank 0 to chip 0, and core 0 with one complete request in queue 1. -/
def far0 : State :=
  (put run0 [(R.chipNumber, 0)]).setBlob R.rankTable ([0, 0x80] ++ zeros 8190) |>.setCore 0
    { core0 with a := [(1, 64)], farq := [(1, { entries := [far1], ctr := 1, issued := 1 })] }

theorem witness_FarOperations :
    far0.canIssue 0 (one .c 7 (1 <<< 32 ||| 1 <<< 48)) = true ∧ far0.canIssue 0 (one .c 8 (1 <<< 32)) = true
      ∧ far0.canIssue 0 (one .c 9 0) = true ∧ far0.canIssue 0 (one .c 10 (1 <<< 52 ||| 1 <<< 29)) = true := by decide +kernel

theorem witness_IssueFrame : asBundle (.mma 0 0 0) = some (0, one .m 1 0) ∧ run0.canIssue 0 (one .m 1 0) = true := by
  decide +kernel

/-- A load outside the core's windows. -/
theorem witness_FailedCheck :
    asBundle (.ld 0 (0x10000 <<< 13) 0) = some ((0 : CoreId), one .l 1 (0x10000 <<< 13)) ∧ job0.reg R.jobState = 2 ∧ job0.qrec = none
      ∧ job0.firstFault = false ∧ job0.reg R.runState ≠ 2 ∧ job0.issuing 0 = true ∧ (job0.core 0).issued = false
      ∧ job0.check 0 (one .l 1 (0x10000 <<< 13)) = .inl (0x1004, 2) := by decide +kernel

/-! ## Banks, far requests, bridges -/

/-- A store, and a store of a higher core to the same bank. -/
def store0 : BankAcc := { due := 10, valid := 10, core := 0, phys := 0, kind := .st, off := 0, size := 64, data := 7, mask := BitVec.allOnes 256, pc := 0 }

def store1 : BankAcc := { store0 with core := 1, phys := 1, off := 2 ^ 20 }

/-- Region 0 with accesses waiting for their bank beat. -/
def bank0 (l : List BankAcc) : State := job0.modRegion 0 fun x => { x with bank := l }

theorem witness_StoreBeat :
    let s := bank0 [store0, { store1 with due := 11 }]
    s.bankBeats 0 = true ∧ (kin.bankBeats 0 = false) ∧ (s.region 0).bank = [store0, { store1 with due := 11 }] ∧ store0.due ≤ (s.region 0).beat + (s.region 0).drain
      ∧ (s.region 0).beat + (s.region 0).drain < 11 ∧ store0.size ∈ [64, 128] ∧ store0.off % 64 = 0 ∧ s.memoryOk = true
      ∧ (∀ i ∈ store0.words, s.bgTouches (store0.off + 64 * i) (store0.off + 64 * i + 64) = false
        ∧ s.anyClash [(0, store0.off + 64 * i, store0.off + 64 * i + 64, true)] = false) := by decide +kernel

theorem witness_LoadBeat :
    let a : BankAcc := { store0 with kind := .ld 3, size := 256, valid := 17 }
    let s := bank0 [a]
    s.bankBeats 0 = true ∧ (s.region 0).bank = [a] ∧ a.due ≤ (s.region 0).beat + (s.region 0).drain ∧ a.core / 64 = 0 ∧ a.size ∈ [64, 128, 256]
      ∧ (∀ i < a.size, (sramDecode (s.sram.read (a.off + i)) (s.sramChk.read (a.off + i))).2 = .clean)
      ∧ (∀ i ∈ a.words, s.bgTouches (a.off + 64 * i) (a.off + 64 * i + 64) = false
        ∧ s.anyClash [(0, a.off + 64 * i, a.off + 64 * i + 64, false)] = false) := by decide +kernel

theorem witness_BankConflict :
    let s := bank0 [store0, store1]
    s.bankBeats 0 = true ∧ (s.region 0).bank = [store0, store1] ∧ store1.due ≤ (s.region 0).beat + (s.region 0).drain ∧ store0.off ≠ store1.off
      ∧ bankOf store0.off = bankOf store1.off ∧ store0.phys < store1.phys ∧ s.memoryOk = true
      ∧ (∀ q ∈ [store0, store1], s.bgTouches q.off (q.off + 64) = false ∧ s.anyClash [(0, q.off, q.off + 64, true)] = false)
      ∧ s.reg R.jobState = 2 ∧ s.qrec = none ∧ s.firstFault = false ∧ s.reg R.runState ≠ 2 := by decide +kernel

theorem witness_BackgroundWrite :
    let x : BgAcc := { off := 64, data := 3, mask := 1 }
    let s := run0.modRegion 0 fun y => { y with bg := [x] }
    (s.region 0).bg.find? (fun y => y.off / 64 % 4 = 1 ∧ s.bankBusy 0 (bankOf y.off) = false) = some x ∧ s.memoryOk = true
      ∧ (s.region 0).shortStopTo = none ∧ s.settles := by decide +kernel

/-- An older write to a bank that a core has, and a younger one that passes it. -/
theorem witness_BackgroundWrite_passes :
    let x : BgAcc := { off := 0, data := 3, mask := 1 }
    let z : BgAcc := { off := 256, data := 4, mask := 1 }
    let s := (bank0 [store0]).modRegion 0 fun y => { y with bg := [x, z] }
    (s.region 0).bg.find? (fun y => y.off / 64 % 4 = 0 ∧ s.bankBusy 0 (bankOf y.off) = false) = some z
      ∧ ((s.modRegion 0 fun y => { y with shortStopTo := some 800000 }).region 0).shortStopTo ≠ none := by decide +kernel

/-- A queued write to the bank that a core's store has in this beat. -/
theorem witness_BackgroundWrite_waits :
    let x : BgAcc := { off := 0, data := 3, mask := 1 }
    let s := (bank0 [store0]).modRegion 0 fun y => { y with bg := [x], bgWaiting := [x] }
    (s.region 0).bg = [x] ∧ x.off / 64 % 4 = 0 ∧ s.bankBusy 0 (bankOf x.off) = true := by decide +kernel

/-- A request of core 0, queue 1: to the part's own memory, or to another part. -/
def req0 (own : Bool) (chip : Nat) : FarReq :=
  { kind := .fld, tag := 0, loc := 0, far := 0, len := 65, own := own, chip := chip, period := false }

def farReq0 (own : Bool) (chip : Nat) : State :=
  run0.setCore 0 { core0 with farq := [(1, { entries := [req0 own chip], ctr := 1, issued := 1 })] }

theorem witness_FarDispatch : ∀ own, ∀ chip ∈ [0, 4095],
    ((List.range 256).map fun i => (((farReq0 own chip).region 0).farTurn + i) % 256).findSome? (fun i =>
      ((Tab.get {} ((farReq0 own chip).core (64 * 0 + i / 4)).farq (i % 4) : FarQ).next).map fun f => (i, f))
        = some (1, req0 own chip)
      ∧ ((Tab.get {} ((farReq0 own chip).core 0).farq 1 : FarQ).entries.map FarReq.tag).Nodup
      ∧ chip < 4096 ∧ (farReq0 own chip).slotsUsed < 1024 ∧ (∀ w ∈ (req0 own chip).words, (farReq0 own chip).bgReady w = true) := by
  decide +kernel

/-- An FST of the part's own memory one of whose words has its bank taken by a core's store. -/
theorem witness_FarDispatch_waits :
    let f : FarReq := { req0 true 0 with kind := .fst, len := 2, far := BitVec.ofNat 64 (2 ^ 48) }
    let s := (farReq0 true 0).modRegion 0 fun y => { y with bank := [store0] }
    f.words = [0, 64] ∧ (∀ x ∈ s.bgDone, x.1 ≠ [2, 0, 1, 0, 0]) ∧ s.bgReady 0 = false ∧ s.bgReady 64 = true := by decide +kernel

/-- An FENG to stack 1 of the part, its engine's queue with room and full, and a part whose reply slots are all taken. -/
theorem witness_FarDispatch_engine : ∀ n ∈ [0, 16],
    let f : FarReq := { req0 true 0 with kind := .feng, len := 1, far := BitVec.ofNat 64 (2 ^ 48 + stackSize) }
    let s := (run0.setCore 0 { core0 with farq := [(1, { entries := [f], ctr := 1, issued := 1 })] }).setStack 1
      { queues := [(0, List.replicate n { bytes := 0, src := .none })] }
    f.own = true ∧ f.kind = .feng ∧ bits f.far.toNat 51 48 = 1 ∧ f.undef = false ∧ (s.readSram f.loc 64).2.1 = none
      ∧ (Tab.get [] (s.stack (bits f.far.toNat 47 0 / stackSize)).queues (homeEngine (ofBytes 512 (s.readSram f.loc 64).1))).length
        = n := by
  decide +kernel

theorem witness_FarDispatch_full :
    let x : ReplySlot := { ident := 0, chip := 5, core := 0, q := 0, tag := 0, loc := 0, units := 1, kind := 0 }
    1024 ≤ { farReq0 false 5 with slots := List.replicate 1024 x }.slotsUsed := by decide +kernel

theorem witness_FarRequestCompletes :
    let r : FarReq := { req0 false 5 with sent := 65 }
    let s := run0.setCore 0 { core0 with farq := [(1, { entries := [r], ctr := 1, issued := 1 })] }
    s.farReq 0 1 0 = some r ∧ r.done = false ∧ r.stuck = false ∧ r.len ≤ r.sent ∧ r.outstanding = 0
      ∧ s.bgTouches r.loc (r.loc + 64 * r.len) = false := by decide +kernel

/-- A WAIT of core 0 that stalls its region. -/
def stall0 : Stall := { core := 0, q := 1, tag := 0, count := 1, beats := 5000, bundle := one .v 1 0, beat := 10 }

theorem witness_HoldEnds :
    let s := (run0.setCore 0 { core0 with farq := [(1, { entries := [{ req0 false 5 with done := true }], ctr := 1, issued := 1 })] }).modRegion 0
      fun x => { x with stalls := [stall0] }
    (s.region 0).stalls = [stall0] ∧ (∀ q ∈ (Tab.get {} (s.core 0).farq 1 : FarQ).entries, q.done = true)
      ∧ (∀ q < 16, q ≠ 0 → ∀ y ∈ (s.region q).stalls, y.ended = false)
      ∧ (s.modRegion 0 fun y => { y with stalls := [] }).canIssue 0 stall0.bundle = true
      ∧ (let u := s.modRegion 3 fun x => { x with stalls := [{ stall0 with core := 192 }] }
         (∀ q < 16, q ≠ 0 → ∀ y ∈ (u.region q).stalls, y.ended = false)
           ∧ (u.modRegion 0 fun y => { y with stalls := [] }).issuing 0 = false) := by decide +kernel

theorem witness_WaitTimesOut :
    let s := (put job0 [(R.waitTimeoutBeats, 4999)]).modRegion 0 fun x => { x with stalls := [stall0] }
    (s.region 0).stalls = [stall0] ∧ stall0.ended = false ∧ s.reg R.waitTimeoutBeats < stall0.beats ∧ stall0.timedOut = false
      ∧ s.reg R.jobState = 2 ∧ s.qrec = none ∧ s.firstFault = false ∧ s.reg R.runState ≠ 2 := by decide +kernel

/-- Core 0's send stream 1 bound to a neighbour region's core, its landing stream there holding `n` flits. -/
def bridge0 (n : Nat) : State :=
  let q := neighbour 0 3
  (run0.setCore 0 { core0 with sendBind := [(1, BitVec.ofNat 32 (3 + 8 * (64 * q)))] }).setCore (64 * q)
    { land := [(0, List.replicate n { payload := 0, ready := 0 })] }

theorem witness_NeighbourBridge : ∀ n ∈ [7, 8], 2 ≤ 3 ∧ neighbour 0 3 ∉ ((bridge0 n).region 0).sent ∧
    neighbour 0 3 ∈ neighboursOf 0 ∧ bits (3 + 8 * (64 * neighbour 0 3)) 12 3 = 64 * neighbour 0 3
      ∧ Tab.get [] ((bridge0 n).core 0).send 1 = [⟨9, 0⟩] ∧ 0 ≤ ((bridge0 n).region 0).beat
      ∧ Tab.get [] ((bridge0 n).region (neighbour 0 3)).bridgeIn 0 = [] := by decide +kernel

/-- A flit waiting in the bridge ahead, whose time has not come; a bridge that has taken its flit of the beat. -/
theorem witness_NeighbourBridge_queue :
    let q := neighbour 0 3
    let b : BFlit := { core := 64 * q, stream := 0, payload := 1, ready := 16 }
    let s := (bridge0 7).modRegion q fun x => { x with bridgeIn := [(0, [b])] }
    (∀ x ∈ (Tab.get [] (s.region q).bridgeIn 0).head?, (s.region q).beat < x.ready)
      ∧ q ∈ ((s.modRegion 0 fun x => { x with sent := [q] }).region 0).sent := by decide +kernel

theorem witness_SpineBridge : ∀ late ∈ [0, 1],
    let s := { run0 with lateDebt := [(1, late)] }
    bits (Tab.get 0 (s.core 0).sendBind 1).toNat 2 0 = 1 ∧ (s.region 0).bridgeOut.length < 64 ∧ (s.region 0).spineCtr < 4
      ∧ Tab.get [] (s.core 0).send 1 = [⟨9, 0⟩] ∧ Tab.get 0 s.lateDebt (8 * 0 + 1) = late := by decide +kernel

theorem witness_IdleBeat :
    let s := kin.modRegion 3 fun x => { x with lit := true }
    s.pending = [] ∧ s.scrub = none ∧ s.inJob = false ∧ (∀ r < 16, (s.region r).running = false ∧ (s.region r).busy = false
      ∧ (s.region r).frameHeld = false ∧ (s.region r).stalls = [] ∧ (s.region r).bg = []) := by decide +kernel

/-- The request of `farReq0` in a part whose route to chip 5 is port 28, verified and UP. -/
def reach0 : State :=
  let s := (put kin [(R.linkState 28, 7), (R.portMode 28, 1), (R.chipNumber, 4)]).setBlob R.routeTable (zeros 10 ++ [0x71, 0x01] ++ zeros 8180)
  { s with power := .lit, regions := (farReq0 false 5).regions }.setPort 28 { adv := [(0, 1), (4, 1), (8, 1)] }

theorem reach0_route : bit (reach0.route 5) 8 = true ∧ bit (reach0.route 5) 7 = false ∧ bits (reach0.route 5) 6 4 = 7
    ∧ bitsSet (bits (reach0.route 5) 3 0) 4 = [0] := by decide +kernel

/-- A request and a reply have a route to chip 5. -/
theorem witness_reaches (c : Nat) (hc : c = 1 ∨ c = 3) : reach0.reaches c 5 := by
  refine ⟨[28], c, 7, fun q _ hv hd => ?_, 28, by simp, by rcases hc with rfl | rfl <;> decide +kernel⟩
  have hc5 : q.msg.vc ≠ 5 := by rw [hv]; omega
  obtain ⟨h1, h2, h3, h4⟩ := reach0_route
  have hvc : reach0.hopVc q 7 (match routeDir reach0.manifest reach0.chip 5 with | some (_, u) => u | none => true) = c := by
    unfold State.hopVc
    simp only [or_true, if_true]
    rw [hv]
    rcases hc with rfl | rfl <;> decide +kernel
  unfold State.routeChoice
  simp only [if_neg hc5, hd, show 5 % 4096 = 5 from rfl, h1, h2, h3, h4]
  simp
  exact hvc

/-! ## Supply, governor, resets, test port -/

/-- Cold after a forced shutdown, and before any. -/
theorem witness_PowerComesAndGoes :
    (∀ c ∈ [none, some 0x5002],
      let s := { State.reset with power := .cold, shutdownTo := c }
      s.power = .cold ∧ 40000 ≤ 40000 ∧ (s.shutdownTo = none ∨ 40000 ≤ 59500 ∧ 59500 ≤ 59500)) ∧ State.reset.power ≠ .cold := by
  decide +kernel

theorem witness_ForcedShutdowns :
    run0.power = .lit ∧ (job0.power = .lit ∧ job0.reg R.jobState = 2) ∧ kin.power = .kindled ∧ run0.power ≠ .cold
      ∧ 40000 ≤ run0.bladeB ∧ 40000 ≤ run0.bladeA ∧ (115 : Int) ≤ 115 := by decide +kernel

/-- A load at the hold level's reach, between jobs and in a job. -/
theorem witness_GovernorHolds :
    (let s := { run0 with h := 100000 }
     s.settles ∧ s.power ≠ .cold ∧ s.litList ≠ [] ∧ s.reg R.ballastEnable = 1 ∧ s.nextH 60000 ≤ 60000 + s.ballastCap ∧ s.jobLevel = none) ∧
    (let s := { put run0 [(R.jobState, 2), (R.jobHoldW, 150)] with h := 100000 }
     s.power ≠ .cold ∧ s.litList ≠ [] ∧ s.reg R.ballastEnable = 1 ∧ s.nextH 60000 ≤ 60000 + s.ballastCap
       ∧ s.jobLevel = some 150000 ∧ s.h ≤ 150000) ∧
    (let s := { put run0 [(R.jobState, 2), (R.jobHoldW, 50)] with h := 100000 }
     s.nextH 60000 ≤ 60000 + s.ballastCap ∧ s.jobLevel = some 50000 ∧ 50000 ≤ s.h) ∧
    (let s := { run0.modRegion 0 fun x => { x with shortStopTo := some 800000 } with h := 100000, ballast := 40000 }
     s.power ≠ .cold ∧ s.litList = [0] ∧ s.reg R.ballastEnable = 1 ∧ ((s.region 0).shortStopTo).isSome = true) := by decide +kernel

theorem witness_UnitAdmitted :
    (∀ u ∈ [PowerUnit.region 1, .stack 3, .group 7, .access 2],
      let s := { kin with admitting := [u] }
      s.settles ∧ s.admitting = [u] ∧ s.awake = true ∧ s.windowUsed = 0 ∧ s.litList = [] ∧ (s.canLight = true ∨ u.isAccess = true)) ∧
    (let s := { put run0 [(R.jobState, 1), (R.jobHoldW, 60)] with admitting := [.stack 3], load := 50000, h := 60000 }
     s.awake = true ∧ s.jobLevel = some 60000 ∧ 60000 ≤ s.h ∧ s.canLight = true) ∧
    (let s := { run0 with admitting := [.stack 3], load := 50000, h := 65000 }
     s.awake = true ∧ s.windowUsed = 0 ∧ s.litList ≠ [] ∧ s.load + 15000 ≤ s.h) := by decide +kernel

/-- Frame 12 of a running job with its steps known. -/
def quiet0 : State := { job0 with frame := 12, jobFrame0 := 10, stepHist := [3, 2, 1], h := 100000 }

theorem witness_EnvelopeQuenches :
    quiet0.reg R.jobState = 2 ∧ quiet0.qrec = none ∧ quiet0.firstFault = false ∧ quiet0.reg R.runState ≠ 2
      ∧ quiet0.h + max 25000 (quiet0.h / 50) < 125001 ∧ quiet0.replaying = none ∧ 0 < quiet0.reg R.replayLimit
      ∧ quiet0.jobFrame0 + 2 ≤ quiet0.frame ∧ 2 < quiet0.stepHist.length ∧ quiet0.slot < 4080
      ∧ (let s := { put quiet0 [(R.linkState 28, 7), (R.portMode 28, 1)] with slot := 4096 }
         s.slot = 4096 ∧ s.mgmtPorts none = [28]) := by decide +kernel

theorem witness_TemperatureWarnings :
    kin.kindled = true ∧ (.mgmt : Sensor) ∉ kin.warned ∧ (.mgmt : Sensor) ∈ { kin with warned := [.mgmt] }.warned ∧ (100 : Int) ≤ 100
      ∧ (95 : Int) ≤ 100 - 5 ∧ (100 : Int) - 5 < 97 ∧ (97 : Int) < 100 := by decide +kernel

theorem witness_WakeAndRelease :
    (State.reset.power = .banked ∧ State.reset.boot = .none ∧ State.reset.refclk = true ∧ State.reset.resetLow = false)
      ∧ kin.power ≠ .banked ∧ { kin with boot := .held 1 }.boot = .held 1 := by decide +kernel

/-- No channel runs, so no byte is one that a channel writes; beside a running one the bytes outside its range are. -/
theorem witness_spared (space a : Nat) : kin.spared space a := fun c hc h =>
  absurd h ((by decide +kernel : ∀ c < 64, kin.reg (R.dmaState c) ≠ 2) c hc)

theorem witness_ColdResets :
    kin.power ≠ .cold ∧ kin.awake = true ∧ kin.takes .node0 (regKey 0x2500 1) [1] = true ∧ State.reset.power ≠ .cold
      ∧ (put kin [(R.txnOwner, 0)]).reg R.txnOwner ≠ 2 ∧ regPer R.stackActive = .v ∧ liveReg R.stackActive = false
      ∧ R.stackActive ≠ R.jobState ∧ ∀ c < 64, R.stackActive ≠ R.dmaStatus c := by
  decide +kernel

theorem witness_BootCompletes :
    (∀ r, let s := { kin with power := .banked, boot := .running 0, refclk := r }
      s.boot = .running 0 ∧ s.power = .banked ∧ s.refclk = r) := by decide +kernel

/-- Test access authorised with every scope. -/
def tested : State := put kin [(R.testAccess, 1), (R.testScope, 7)]

theorem witness_TestPort :
    kin.power ≠ .cold ∧ tested.power ≠ .cold ∧ tested.scoped 0 = true ∧ kin.reg R.testAccess = 0
      ∧ (∀ op ∈ [(0x00 : Byte), 0x3F, 0x80, 0xFF], op ∉ [(0x02 : Byte), 0x06, 0x20] ∧ (op < 0x40 ∨ 0x80 ≤ op)) := by decide +kernel

theorem witness_Mailbox :
    { kin with tap := TapReg.mailbox }.tap = .mailbox ∧ { kin with tap := TapReg.mailbox }.awake = true
      ∧ { State.reset with tap := TapReg.mailbox, boot := .stopped }.boot = .stopped := by decide +kernel

/-- A log entry. -/
def entry0 : LogEntry := { seq := 0, frame := 0, slot := 0, code := 0x704A, kind := 0, unit := 0xFF, step := 0, detail := 0 }

theorem witness_ServiceUart :
    let s := { put kin [(R.uartConsoleEnable, 1)] with log := [entry0] }
    s.kindled = true ∧ s.boot = .none ∧ s.awake = true ∧ s.reg R.uartConsoleEnable = 1
      ∧ s.log.find? (fun x => x.seq.toNat == 0) = some entry0 ∧ s.reg R.testAccess = 0
      ∧ (odFind (R.frameNumber / 65536) (R.frameNumber / 256 % 256)).isSome = true ∧ lockedRange (R.frameNumber / 65536) = false
      ∧ ((odFind (R.frameNumber / 65536) (R.frameNumber / 256 % 256)).map (·.acc)) ≠ some .wo
      ∧ R.frameNumber ∉ [R.testChallenge, R.tsPop] := by decide +kernel

/-! ## The object dictionary -/

/-- The access, type and size of an entry, if there is one. -/
def shape (index sub : Nat) : Option (Acc × Nat × Int × Int) := (odFind index sub).map fun e => (e.acc, e.size, e.lo, e.hi)

/-- An index and a sub-index that no entry has, another owner, and one entry for every further code. -/
theorem witness_WriteRefused :
    kin.awake = true ∧ kin.mayWrite .node0 = true ∧ kin.mayWrite .uart = false ∧ kin.scoped 1 = false ∧ lockedRange 0xF000 = true
      ∧ blockOnly (R.fwInstall / 65536) (R.fwInstall / 256 % 256) = true ∧ odFind 0x2001 1 = none ∧ odFind 0x2101 200 = none ∧ (odFind 0x2101 0).isSome = true
      ∧ (put kin [(R.txnOwner, 1)]).reg R.txnOwner ≠ srcNode .node0 ∧ kin.reg R.txnOwner = 2
      ∧ shape 0x2102 1 = some (.ro, 4, -2147483648, 2147483647) ∧ shape 0x2101 1 = some (.rwj, 2, 50, 400)
      ∧ job0.reg R.jobState ≠ 0 ∧ kin.reg R.jobState = 0 ∧ (toLE 1 50).length ≠ 2 ∧ (toLE 2 49).length = 2
      ∧ ((leNat (toLE 2 49) : Int) < 50) ∧ (400 < (leNat (toLE 2 401) : Int)) ∧ shape 0x4001 7 = some (.rw, 4, -250000, 250000)
      ∧ sext (8 * 4) (leNat (toLE 4 (twos 32 (-250001)))) < -250000 ∧ 250000 < sext (8 * 4) (leNat (toLE 4 250001))
      ∧ (∀ i ∈ [0x2001, 0x2101, 0x2102, 0x4001], lockedRange i = false ∧ ∀ j ∈ [1, 7, 200], blockOnly i j = false) := by
  decide +kernel

/-- The cases of a transaction of the writer's own, and an empty value. -/
theorem witness_WriteRefused_owner :
    let s := put kin [(R.txnOwner, 0)]
    s.reg R.txnOwner ≠ 2 ∧ s.reg R.txnOwner = srcNode .node0 ∧ (shape (R.txnBegin / 65536) (R.txnBegin / 256 % 256)).map (·.1) = some .wo
      ∧ (shape (R.recordInstall / 65536) (R.recordInstall / 256 % 256)).map (·.1) = some .wo ∧ R.recordInstall / 65536 ≠ 0xA000
      ∧ (odFind (R.recordInstall / 65536) (R.recordInstall / 256 % 256)).map (·.ty) = some .blob
      ∧ R.recordInstall ∉ [R.manifest, R.rankTable, R.routeTable, R.jobSeed, R.adoptDigest, R.quoteNonce]
      ∧ R.recordInstall / 256 ≠ R.failedMask 0 / 256 ∧ (odFind 0x4001 7).map (valueStatus · (zeros 4)) = some 0
      ∧ (let t := { s with staged := List.replicate 256 (0, []) }
         256 ≤ t.staged.length ∧ ∀ x ∈ t.staged, x.1 ≠ 0x4001 * 256 + 7) := by decide +kernel

theorem witness_WriteTaken :
    let k := regKey 0x2101 1
    let s := kin.setBlob R.manifest []
    (shape 0x2101 1 = some (.rwj, 2, 50, 400) ∧ s.takes .node1 k (toLE 2 400) = true
      ∧ (∀ w ∈ writers0 ++ writers1 ++ writers2, w.1 ≠ k) ∧ k ∉ [R.txnBegin, R.txnCommit, R.txnRollback]) ∧
    s.takes .node0 (regKey 0x2103 1) [1] = true ∧ s.takes .node0 R.logClear [1] = true ∧ s.takes .node0 R.testLock [1] = true
      ∧ s.takes .node0 R.quoteNonce (zeros 32) = true ∧ s.takes .node0 (R.leakPeriodMs 0) (toLE 4 0) = true
      ∧ s.takes .node0 R.rankTable [] = true ∧ s.takes .node0 R.routeTable (zeros 8192) = true
      ∧ s.takes .node0 R.manifest [] = true ∧ s.takes .node0 R.chipNumber (toLE 2 4095) = true
      ∧ (∀ p < 32, s.reg (R.linkState p) ≠ 7) ∧ s.reg R.custodyGiven = 0 ∧ s.reg R.lostNoticeChip = 0xFFFF ∧ s.manifest = [] := by
  decide +kernel

theorem leNat_zeros (n : Nat) : leNat (zeros n) = 0 := by
  induction n with
  | zero => rfl
  | succ n ih => simpa [zeros, List.replicate_succ, leNat] using ih

theorem field_zeros (m o n : Nat) : field (zeros m) o n = 0 := by
  have h : slice (zeros m) o n = zeros (min n (m - o)) := by simp [slice, zeros, List.drop_replicate, List.take_replicate]
  rw [field, h, leNat_zeros]

/-- Without a manifest every derived entry is 0, and so is every entry of the written table. -/
theorem witness_WriteTaken_routes (c : Nat) :
    routeStatus (field (zeros 8192) (2 * c) 2) (derivedRoute kin.manifest kin.chip c) = 0 := by
  have h : derivedRoute kin.manifest kin.chip c = 0 := by
    have hr : ∀ x, recOf kin.manifest x = none := fun x => by
      have : manifestRecs kin.manifest = [] := by decide +kernel
      simp [recOf, this]
    simp [derivedRoute, hr]
  rw [field_zeros, h]
  rfl

theorem witness_Transactions :
    (kin.awake = true ∧ kin.reg R.txnOwner = 2) ∧
    (let s := put kin [(R.txnOwner, 0)]
     s.reg R.txnOwner ≠ 2 ∧ s.reg R.txnOwner = srcNode .node0 ∧ shape 0x2101 1 = some (.rwj, 2, 50, 400) ∧ s.reg R.jobState = 0 ∧ s.staged = []
       ∧ (odFind 0x2101 1).map (valueStatus · (toLE 2 50)) = some 0 ∧ s.commitReply = [] ∧ s.commitDue = false
       ∧ (put s [(R.jobState, 2)]).reg R.jobState ≠ 0
       ∧ { s with staged := [(R.bootBank / 256, [1])] }.staged = [(R.bootBank / 256, [1])]
       ∧ blockOnly 0x2101 1 = false ∧ lockedRange 0x2101 = false ∧ (toLE 2 50).length ≤ 131072
       ∧ (let t := { put s [(R.jobState, 4), (R.frameReference, 0), (R.domainState 0, 2)] with
            commitDue := true, staged := [(R.bootBank / 256, [1])], endPending := some 0 }
          t.reg R.jobState = 4 ∧ t.commitReply = [] ∧ t.spineOn = true ∧ t.endPending.isSome = true ∧ t.remove = [] ∧ t.h ≤ t.load
            ∧ t.reg R.governorState = 0 ∧ t.reg R.txnOwner = srcNode .node0)) := by decide +kernel

theorem witness_PowerEntries :
    (kin.litList = [] ∧ kin.image = none ∧ kin.stacksOn = [] ∧ kin.groupsOn = 0 ∧ kin.reg R.stackActive = 0
      ∧ kin.reg R.groupEnable = 0 ∧ kin.reg R.regionLight = 0 ∧ kin.canLight = true ∧ kin.reg R.jobState = 0 ∧ kin.reg R.custodyHeld < 2) ∧
    kin.takes .node0 (regKey 0x2400 1) [1] = true ∧ (∀ v ∈ [0, 1], kin.takes .node0 (regKey 0x2400 2) [v] = true)
      ∧ kin.litOrAsked.length ≤ 4 ∧ kin.resetOwed = []
      ∧ kin.takes .node0 (regKey 0x2401 2) [40] = true
      ∧ kin.takes .node0 (regKey 0x2402 2) [0x0F, 0] = true ∧ (bitsSet 0x0F 16).length ≤ 4
      ∧ kin.takes .node0 (regKey 0x2402 3) [0xFF, 0x0F] = true ∧ kin.takes .node0 (regKey 0x2402 4) [0xFF] = true
      ∧ kin.takes .node0 (regKey 0x2402 5) [1] = true
      ∧ (let s := kin.setBlob (R.goodMask 0) (List.replicate 9 0xFF)
         s.takes .node0 (regKey 0x2201 4) (0xFF :: zeros 8) = true ∧ (∀ p < 72, bit (leNat (0xFF :: zeros 8)) p = true → bit (s.goodMask 0) p = true)
           ∧ 64 ≤ ((List.range 72).filter fun p => bit (s.goodMask 0) p && !bit (leNat (0xFF :: zeros 8)) p).length) := by decide +kernel

/-! ## Jobs and images -/

/-- A resident image of one region and a sequence of two entries, RUN 0 and END. -/
def image0 : Image :=
  { regions := 1, sets := [(0, [⟨0, [], [], []⟩])], segBases := kin.segBases }

/-- A part of a mesh of one chip, ready to start `image0`. -/
def ready0 : State :=
  let s := put kin [(R.chipNumber, 0), (R.loadState, 2), (R.frameReference, 0), (R.domainState 0, 2), (R.custodyGiven, 2), (R.startFrame, 5000)]
  { (s.setBlob R.rankTable ([0, 0x80] ++ zeros 8190)).setBlob R.manifest (zeros 64) with image := some image0 }

theorem witness_JobControl_start :
    ready0.takes .node0 R.jobStart [1] = true ∧ ready0.image = some image0 ∧ ready0.reg R.jobState = 0 ∧ ready0.reg R.loadState = 2
      ∧ ready0.canLight = true ∧ ready0.reg R.runState ≠ 1 ∧ ready0.reg R.runState ≠ 2 ∧ ready0.startRefusal image0 = none
      ∧ ready0.startLead ≤ (ready0.reg R.startFrame : Int) - ready0.frame := by
  decide +kernel

/-- A record held for the control node. -/
def record0 : QRec :=
  { s := 3, a := 0, q := 20, p := 0xFFFFFFFFFFFF, isEnd := false, defer := false, release := false, stop := 20, origin := 0, cause := 0x2010 }

theorem witness_JobControl_running :
    (let s := put kin [(R.jobState, 1)]
     s.takes .node0 R.jobAbort [1] = true ∧ s.reg R.jobState = 1) ∧
    (job0.takes .node0 R.jobAbort [1] = true ∧ job0.reg R.jobState = 2 ∧ job0.qrec = none) ∧
    (quiet0.takes .node0 R.quenchRequest [1] = true ∧ quiet0.replaying = none ∧ 0 < quiet0.reg R.replayLimit ∧ quiet0.slot < 4080) ∧
    (let s := { put quiet0 [(R.linkState 28, 7), (R.portMode 28, 1)] with slot := 4096 }
     s.slot = 4096 ∧ s.mgmtPorts none ≠ [] ∧ s.takes .node0 R.jobAbort [1] = true ∧ s.takes .node0 R.quenchRequest [1] = true) ∧
    (let s := { put run0 [(R.jobState, 3)] with qrec := some record0 }
     s.qrec = some record0 ∧ s.takes .node0 R.jobAbort [1] = true ∧ s.takes .node0 R.replayRelease (toLE 8 64) = true ∧ s.reg R.jobState = 3 ∧ record0.p = 0xFFFFFFFFFFFF
       ∧ s.frame + 64 ≤ leNat (toLE 8 64) ∧ s.takes .node0 R.spareCore (toLE 2 63) = true ∧ (s.region (63 / 64)).spares = 64 :: []
       ∧ s.takes .node0 R.spareCore (toLE 2 64) = true ∧ leNat (toLE 2 64) / 64 = 1 ∧ (s.region 1).spares = [] ∧ s.reg R.runState ≠ 2) := by
  decide +kernel

theorem witness_JobControl_recovery :
    (let s := put ready0 [(R.runCount, 1), (R.runFrame, 5000)]
     let c : Clause := ⟨0, [], [], []⟩
     s.takes .node0 R.runStart [1] = true ∧ s.runBusy = false ∧ s.adopt = false ∧ s.followedLocked = true
       ∧ (image0.setOf (s.reg R.runSet))[s.reg R.runSlot]? = some c ∧ c.ports.all s.verifiedUp = true ∧ s.canLight = true ∧ s.fifthRegion image0 = false
       ∧ (s.reg R.groupEnable &&& image0.portGroups) = image0.portGroups ∧ s.reg R.runCount ≠ 0
       ∧ s.frame + 64 + image0.copyFrames (s.reg R.runSet) + s.rampFrames (c.envelope * 1000) ≤ s.reg R.runFrame) ∧
    (let s := [28, 29, 30, 31].foldl (fun (t : State) p => (put t [(R.linkState p, 7), (R.portMode p, 1)]).setBlob (R.peerIdentity p)
        (toLE 2 ready0.twin)) ready0
     s.takes .node0 R.adoptStart [1] = true ∧ s.reg R.jobState = 0 ∧ s.image ≠ none
       ∧ ∀ p ∈ [28, 29, 30, 31], s.reg (R.linkState p) = 7 ∧ s.reg (R.portMode p) = 1
         ∧ field (s.blob (R.peerIdentity p)) 0 2 = s.twin) ∧
    (let s := { put kin [(R.jobState, 4)] with endPending := some 0 }
     s.awake = true ∧ s.reg R.jobState = 4 ∧ s.endPending = some 0 ∧ s.remove = [] ∧ s.h ≤ s.load ∧ s.reg R.governorState = 0 ∧ s.commitDue = false
       ∧ s.warmDue = false) := by decide +kernel

theorem witness_LoadsAndResets :
    (kin.takes .node0 R.imageLength (toLE 8 128) = true ∧ kin.reg R.jobState = 0 ∧ kin.reg R.loadState ≠ 1) ∧
    (∀ off ∈ [0, 64],
      let s := { kin with loading := some { len := 128, got := zeros 64 } }
      s.awake = true ∧ s.mayWrite .node1 = true ∧ s.reg R.txnOwner = 2 ∧ (off = 0 ∨ off = (zeros 64).length)
        ∧ (if off = 0 then 0 else (zeros 64).length) + (zeros 63).length < 128) ∧
    (let s := put kin [(R.loadState, 1)]
     s.takes .node0 R.loadAbort [1] = true ∧ s.reg R.loadState = 1) ∧ kin.reg R.loadState ≠ 1 ∧
    kin.takes .node0 (regKey 0x2500 3) [1] = true ∧ kin.takes .node0 (regKey 0x2500 2) [1] = true
      ∧ (job0.takes .node0 (regKey 0x2500 2) [1] = true ∧ job0.reg R.jobState ≠ 0) ∧ kin.litList = [] ∧ kin.stacksOn = []
      ∧ timeReg R.stackActive = false ∧ glazinReg R.stackActive = false ∧ R.stackActive ≠ R.gradeState
      ∧ ∀ i < 64, R.stackActive ≠ R.linkState i ∧ R.stackActive ≠ R.width i := by decide +kernel

theorem witness_SecurityEntries :
    (kin.awake = true ∧ kin.mayWrite .node1 = true ∧ kin.reg R.txnOwner = 2 ∧ kin.reg R.jobState = 0) ∧
    (let a : Assembly := { index := R.fwInstall / 65536, sub := R.fwInstall / 256 % 256, total := 4, got := [1, 2] }
     { kin with assembly := [a] }.partialOf (R.fwInstall / 65536) (R.fwInstall / 256 % 256) = some a ∧ a.got.length + [3, 4].length = a.total
       ∧ a.total ≤ 2 ^ 24) ∧
    (∀ ty ∈ [2, 3], kin.takes .node0 R.recordInstall (zeros 4 ++ [ty, 0] ++ zeros 58) = true
      ∧ field (zeros 4 ++ [ty, 0] ++ zeros 58) 4 2 = ty.toNat) ∧
    kin.takes .node0 R.rollbackCommit [1] = true ∧
    (∀ x ∈ [(0 : Byte), 1], let d := zeros 16 ++ [48] ++ zeros 59 ++ [x] ++ zeros 3
      kin.takes .node0 R.testToken d = true ∧ tokenReserved d = decide (x = 1)) ∧
    (let s := { kin with nonce := some (zeros 32), quoteBytes := zeros 192 }
     s.nonce = some (zeros 32) ∧ (zeros 32).length = 32 ∧ 64 + 64 ≤ s.quoteBytes.length) ∧ kin.nonce = none ∧
    (∀ x ∈ [(7 : Byte), 8], field (zeros 4 ++ [3, 0] ++ zeros 26 ++ [x] ++ zeros 31) 32 1 = x.toNat
      ∧ kin.takes .node0 R.recordInstall (zeros 4 ++ [3, 0] ++ zeros 26 ++ [x] ++ zeros 31) = true) := by decide +kernel

/-! ## Stack memory and DMA -/

/-- A work item in stack 1 with its result at the first free word. -/
def item (op count src dst aux unit : Nat) : Item :=
  { bytes := ofBytes 512 (toLE 1 op ++ zeros 3 ++ toLE 4 count ++ toLE 8 src ++ toLE 8 dst ++ toLE 8 aux ++ toLE 4 unit ++ zeros 4
      ++ toLE 8 stackSize), src := .none }

/-- Engine 0 of stack 1 with an item running, after some words are written from an offset on. -/
def engine0 (i : Item) (off : Nat) (d : List Byte) : State :=
  let s := kin.setStack 1 { awake := true, running := [(0, some i)] }
  if d = [] then s else s.writeWords 1 off d

def wordAt (n : Nat) : Nat := stackSize + 64 * n

/-- Engine 0 takes from its own queue, or from queue 2, the first of the longest; an item of no op as well. -/
theorem witness_EngineItems_take :
    (∀ op ∈ [8, 1, 0, 9],
      let s := kin.setStack 1 { queues := [(0, [item op 1 (wordAt 1) 0 0 0])] }
      s.settles ∧ s.memoryOk = true ∧ Tab.get none (s.stack 1).running 0 = none ∧ Tab.get [] (s.stack 1).queues 0 = [item op 1 (wordAt 1) 0 0 0]
        ∧ (itemFields (item op 1 (wordAt 1) 0 0 0).bytes).op = op ∧ (itemFields (item op 1 (wordAt 1) 0 0 0).bytes).result = stackSize) ∧
    (let i := item 8 1 (wordAt 1) 0 0 0
     let s := kin.setStack 1 { queues := [(1, [i]), (2, [i, i]), (3, [i, i])] }
     let queue (j : Nat) : List Item := Tab.get [] (s.stack 1).queues j
     queue 0 = [] ∧ queue 2 = [i, i] ∧ (∀ j < 32, (queue j).length ≤ (queue 2).length) ∧ ∀ j < 2, (queue j).length < (queue 2).length) := by
  decide +kernel

/-- Engine 0 of stack 1 runs an item of a core's far request in a running job, or of a REQ of chip 5. -/
def sourced (src : ItemFrom) (i : Item) : State :=
  (match src with
    | .remote .. => reach0
    | _ => put (farReq0 true 0) [(R.jobState, 2)]).setStack 1 { awake := true, running := [(0, some { i with src := src })] }

/-- An item whose result lies in stack 0. -/
def astray : Item := { bytes := ofBytes 512 (toLE 1 8 ++ zeros 3 ++ toLE 4 1 ++ toLE 8 (wordAt 2) ++ zeros 40), src := .none }

/-- A well-formed item, one with flags that COPY has not, and one whose result lies in another stack, of each source. -/
theorem witness_EngineItems_sources :
    (∀ i ∈ [item 8 1 (wordAt 2) 0 0 0, item 8 1 (wordAt 2) 0 1 0, astray], ∀ src ∈ [ItemFrom.core 0 1 0, ItemFrom.remote 5 7 0],
      let s := sourced src i
      s.settles ∧ s.memoryOk = true ∧ Tab.get none (s.stack 1).running 0 = some { i with src := src } ∧ (itemFields i.bytes).op = 8) ∧
    (itemFields (item 8 1 (wordAt 2) 0 1 0).bytes).illegal = true ∧ (itemFields astray.bytes).illegal = false
      ∧ inStack 1 (itemFields astray.bytes).result 64 = false ∧
    (∀ i ∈ [item 8 1 (wordAt 2) 0 0 0, astray],
      let s := sourced (.core 0 1 0) i
      s.farReq 0 1 0 = some (req0 true 0) ∧ (req0 true 0).undef = false ∧ s.reg R.jobState = 2 ∧ s.qrec = none ∧ s.firstFault = false
        ∧ s.reg R.runState ≠ 2) ∧ 5 ≠ (sourced (.remote 5 7 0) astray).chip := by decide +kernel

/-- Its reply to chip 5 has a route. -/
theorem witness_EngineItems_reaches : (sourced (.remote 5 7 0) astray).reaches 3 5 := witness_reaches 3 (.inr rfl)

/-- What every item of the next witnesses meets. -/
theorem witness_EngineItems : ∀ i ∈ [item 3 2 0 (wordAt 2) 0x0123456789ABCDEF 0, item 4 1 (wordAt 2) (wordAt 3) 0 0,
      item 1 1 (wordAt 4) (wordAt 8) (wordAt 1) 64, item 2 1 (wordAt 4) (wordAt 8) (wordAt 1) 1, item 5 1 (wordAt 2) 0 0 0,
      item 6 1 (wordAt 2) (wordAt 3) 4 2, item 7 2 (wordAt 2) (wordAt 4) 0 1, item 8 1 (wordAt 2) 0 0 0],
    (engine0 i 0 []).settles ∧ Tab.get none ((engine0 i 0 []).stack 1).running 0 = some i ∧ i.src = .none ∧ (engine0 i 0 []).memoryOk = true
      ∧ (itemFields i.bytes).illegal = false ∧ inStack 1 (itemFields i.bytes).result 64 = true ∧ 0 < (itemFields i.bytes).count
      ∧ (itemFields i.bytes).flags = 0 ∧ i.undef = false := by decide +kernel

/-- Words that read clean. -/
abbrev clean (s : State) (off n : Nat) : Prop := ∀ j < n,
  (rsWord (s.dram.readN (off + 64 * j) 64) (s.dramChk.readN ((off + 64 * j) / 8) 8)).2.2 = false

/-- FILL and COPY. -/
theorem witness_EngineItems_move :
    inStack 1 (wordAt 2) (64 * 2) = true ∧ wordAt 0 + 64 * 1 ≤ wordAt 2 ∧ inStack 1 (wordAt 3) 64 = true ∧ wordAt 2 + 64 * 1 ≤ wordAt 3
      ∧ clean (engine0 (item 4 1 (wordAt 2) (wordAt 3) 0 0) 0 []) (wordAt 2) 1 := by decide +kernel

/-- GATHER of one block of 64 units, and SCATTER of one of one unit, index 0. -/
theorem witness_EngineItems_blocks :
    let s := engine0 (item 1 1 (wordAt 4) (wordAt 68) (wordAt 1) 64) 0 []
    let idx := (List.range 1).map fun j => field (s.readWords 1 (wordAt 1) (ceilDiv 1 16)).1 (4 * j) 4
    inStack 1 (wordAt 1) (64 * ceilDiv 1 16) = true ∧ clean s (wordAt 1) (ceilDiv 1 16) ∧ idx = [0] ∧ idx.Nodup
      ∧ inStack 1 (wordAt 68) (1 * (64 * 64)) = true ∧ inStack 1 (wordAt 4 + 0 * (64 * 64)) (64 * 64) = true
      ∧ wordAt 4 + 64 * 64 ≤ wordAt 68 ∧ wordAt 0 + 64 ≤ wordAt 4 ∧ inStack 1 (wordAt 8) 64 = true := by decide +kernel

theorem witness_EngineItems_words : ∀ j < 64, clean kin (wordAt 4 + 64 * j) 1 := by decide +kernel

/-- PACK_KV of a word of zeros, and UNPACK_KV of what it gives. -/
theorem witness_EngineItems_pack :
    let s := engine0 (item 6 1 (wordAt 2) (wordAt 3) 4 2) 0 []
    let d := (s.readWords 1 (wordAt 2) 1).1
    inStack 1 (wordAt 2) 64 = true ∧ inStack 1 (wordAt 3) (64 * 2) = true ∧ clean s (wordAt 2) 1 ∧ (packKv 4 d).1.length ≤ 64 * 2 := by
  decide +kernel

theorem witness_EngineItems_unpack :
    let s := engine0 (item 7 2 (wordAt 2) (wordAt 4) 0 1) (wordAt 2) (packKv 1 (zeros 64)).1
    clean s (wordAt 2) 2 ∧ unpackKv (s.readWords 1 (wordAt 2) 2).1 = some (zeros 64) ∧ (zeros 64).length ≤ 64 * 1
      ∧ inStack 1 (wordAt 2) (64 * 2) = true ∧ inStack 1 (wordAt 4) 64 = true := by decide +kernel

/-- A scrub of one word of region 0. -/
def scrub0 (aborted : Bool) (len : Nat) : Scrub := { space := 0, start := 0, off := 0, len := len, wb := false, aborted := aborted }

theorem witness_ScrubsAndRepairs :
    (∀ w ∈ [0, 1], let s := put run0 [(R.scrubLength, 64), (R.scrubWriteBack, w)]
     s.takes .node0 R.scrubStart [1] = true ∧ s.scrub = none ∧ s.reg R.scrubLength ≠ 0 ∧ s.reg R.scrubOffset % 64 = 0
       ∧ s.reg R.scrubLength % 64 = 0 ∧ s.reg R.scrubOffset + s.reg R.scrubLength ≤ spaceSize (s.reg R.scrubSpace)
       ∧ s.rangeAwake (s.reg R.scrubSpace) (s.reg R.scrubOffset) (s.reg R.scrubLength) = true ∧ s.reg R.jobState = 0) ∧
    { run0 with scrub := some (scrub0 false 64) }.takes .node0 R.scrubAbort [1] = true ∧ (scrub0 true 64).aborted = true
      ∧ (scrub0 false 0).aborted = false ∧ (scrub0 false 0).len = 0
      ∧ kin.reg (R.leakPeriodMs 27) ≠ 0 ∧ (put kin [(R.leakPeriodMs 0, 0)]).reg (R.leakPeriodMs 0) = 0 ∧
    (let s := { put run0 [(R.jobState, 3)] with repair := some (2 ^ 30 + 64), qrec := some record0 }
     s.repair = some (2 ^ 30 + 64) ∧ (2 ^ 30 + 64) / 2 ^ 30 = 1 ∧ s.memoryOk = true ∧ s.reg R.jobState = 3 ∧ s.qrec = some record0
       ∧ s.repairWait = [] ∧ s.bgReady (2 ^ 30 + 64) = true) := by
  decide +kernel

/-- A stack used 999 µs and 1 ms ago, and a repaired word whose region stands in a short stop. -/
theorem witness_ScrubsAndRepairs_waits :
    (∀ u ∈ [0, 999], let s := { kin with us := u }.setStack 1 { awake := true, wakePending := true, lastUse := some 0 }
      (s.stack 1).lastUse = some 0 ∧ s.us < 0 + 1000) ∧
    (let s := { kin with us := 1000 }.setStack 1 { awake := true, wakePending := true, lastUse := some 0 }
     ¬ s.us < 0 + 1000) ∧ (kin.stack 1).lastUse = none ∧
    (let s := { run0.modRegion 0 fun x => { x with shortStopTo := some 800000 } with repair := some 64 }
     s.repair = some 64 ∧ 64 / 2 ^ 30 = 0 ∧ s.memoryOk = true ∧ s.bgReady 64 = false) := by decide +kernel

/-- A FILL of 4,097 bytes in two segments, the last of its chain. -/
def desc0 : BitVec 512 :=
  ofBytes 512 (zeros 8 ++ toLE 8 100 ++ toLE 8 4097 ++ zeros 8 ++ [1, 1, 12] ++ zeros 5 ++ toLE 8 0x0123456789ABCDEF)

/-- Channel 5 in a state, with what it runs. -/
def chan0 (st : Nat) (x : Chan) : State := (put run0 [(R.channelSelect, 5), (R.dmaState 5, st), (R.dmaDescCount 5, 1)]).setChan 5 x

theorem witness_DmaChannels :
    ((chan0 0 {}).reg R.channelSelect = 5 ∧ (chan0 0 {}).takes .node0 (R.dmaStart 0) [1] = true ∧ (chan0 0 {}).reg (R.dmaState 5) = 0
      ∧ (chan0 0 {}).reg (R.dmaDescCount 5) ≠ 0) ∧
    ((chan0 1 {}).takes .node0 (R.dmaStop 0) [1] = true ∧ (chan0 1 {}).reg (R.dmaState 5) = 1) ∧
    ((chan0 2 { busy := true }).takes .node0 (R.dmaStop 0) [1] = true ∧ (chan0 2 { busy := true }).reg (R.dmaState 5) = 2
      ∧ ((chan0 2 { busy := true }).chan 5).busy = true ∧ (chan0 2 { busy := true }).settles) ∧
    (let s := { chan0 2 { busy := true, evAt := some 7, evCount := 2 } with slot := 7, frame := 0 }
     s.takes .node0 (R.dmaStop 0) [1] = true ∧ (s.chan 5).evAt = some (s.frame * 4096 + s.slot)) ∧
    (put kin [(R.timerSelect, 15)]).takes .node0 (R.timerEnable 0) [1] = true ∧
    (let s := { put (chan0 1 {}) [(R.timerEnable 15, 1), (R.dmaTrigger 5, 1), (R.dmaTriggerSource 5, 15)] with timerNext := [(15, some 7)], slot := 7 }
     Tab.get none s.timerNext 15 = some 7 ∧ s.reg (R.timerEnable 15) = 1 ∧ 7 ≤ s.frame * 4096 + s.slot ∧ s.reg (R.dmaTrigger 5) = 1
       ∧ s.reg (R.dmaTriggerSource 5) = 15 ∧ s.reg (R.dmaState 5) = 1 ∧ s.reg (R.dmaDescCount 5) ≠ 0 ∧ s.reg (R.timerPeriod 15) = 0) := by
  decide +kernel

theorem witness_DmaChannels_fetch :
    let s := (chan0 2 { credit := true }).writeSram 0 ((bytesOf 64 desc0).take 48)
    let words := sramWords (bits (s.chan 5).addr 51 48) (bits (s.chan 5).addr 47 0) 48
    let r := (s.bgTry [5, 5] words).1.readRange (s.chan 5).addr 48
    words = [0] ∧ (∀ w ∈ words, s.bgReady w = true) ∧
    s.reg (R.dmaState 5) = 2 ∧ (s.chan 5).busy = false ∧ (s.chan 5).credit = true ∧ descAddr (s.chan 5).addr = true ∧ r.2.1 = []
      ∧ (r.2.2.setReg (R.currentDesc 5) (s.globalAddr 0 0)).descInvalid (descFields (ofBytes 512 r.1)) = false
      ∧ (descFields (ofBytes 512 r.1)).len ≠ 0 := by decide +kernel

theorem witness_DmaChannels_segments :
    let d := descFields desc0
    (d.segs = 2 ∧ d.fill = true ∧ d.dstRemote = false ∧ d.srcRemote = false ∧ bits d.dst 51 48 = 0 ∧ d.last = true
      ∧ (d.segRange 1).2 = 1) ∧
    (let x : Chan := { busy := true, desc := desc0, segOut := [(1, 3)] }
     x.busy = true ∧ (∀ y ∈ x.segDone, y.1 ≠ 1) ∧ Tab.get 0 x.segOut 1 ≠ 0 ∧ Tab.get 0 x.segBad 1 = 0 ∧ (chan0 2 x).memoryOk = true) ∧
    (let x : Chan := { busy := true, desc := desc0, segDone := [(0, 0), (1, 0)] }
     d.segs ≤ x.segDone.length ∧ (chan0 2 x).reg (R.dmaState 5) = 2 ∧ x.stopReq = false ∧ ∀ y ∈ x.segDone, y.2 = 0) ∧
    (let x : Chan := { busy := true, desc := desc0, segDone := [(0, 0), (1, 5)] }
     d.segs ≤ x.segDone.length ∧ (∃ y ∈ x.segDone, y.2 ≠ 0) ∧ ∃ y ∈ x.segDone, y.2 = 0) ∧ (chan0 2 {}).reg (R.dmaPaced 5) = 0 := by
  decide +kernel

/-- The last byte of `desc0` in its channel's turn with its bank free and in use, in another's, and after it has been moved; and the
space of the status word of a descriptor at 0. -/
theorem witness_DmaChannels_words :
    let d := descFields desc0
    let x : Chan := { busy := true, desc := desc0, sent := 4096 }
    let s := chan0 2 x
    s.settles ∧ d.segRange 1 = (4096, 1) ∧ (∀ y ∈ x.segDone, y.1 ≠ 1) ∧ s.dmaNext = some 5 ∧ x.clash = [] ∧ s.memoryOk = true
      ∧ d.words 4096 1 = [4160] ∧ s.bgReady 4160 = true ∧ bits (d.src + 4096) 47 0 + 1 ≤ 2 ^ 48 ∧ Tab.get 0 x.segBad 1 = 0
      ∧ (s.setChan 4 { busy := true }).dmaNext ≠ some 5 ∧ { x with sent := 4097 }.sent = 4096 + 1
      ∧ (let t := s.modRegion 0 fun r => { r with shortStopTo := some 800000 }
         t.bgReady 4160 = false ∧ t.dmaNext = some 5 ∧ ∀ y ∈ t.bgDone, y.1 ≠ [3, 5])
      ∧ sramWords (bits x.addr 51 48) (bits x.addr 47 0 + 48) 16 = [0] ∧ s.bgReady 0 = true := by decide +kernel

/-- A copy of 100 bytes between space 0 and rank 1, either way: all of it answered, and an answer that does not come with the bank of
the destination free and in use. -/
theorem witness_DmaChannels_remote :
    let b (src dst : Nat) (flags : Byte) : BitVec 512 :=
      ofBytes 512 (toLE 8 src ++ toLE 8 dst ++ toLE 8 100 ++ toLE 8 0 ++ [0, flags, 12] ++ zeros 13)
    (let d := descFields (b 0 (2 ^ 52) 4)
     let x : Chan := { busy := true, desc := b 0 (2 ^ 52) 4, sent := 100 }
     d.srcRemote = false ∧ d.dstRemote = true ∧ d.segs = 1 ∧ d.segRange 0 = (0, 100) ∧ (∀ y ∈ x.segDone, y.1 ≠ 0) ∧ Tab.get 0 x.segOut 0 = 0) ∧
    (let d := descFields (b (2 ^ 52) 0 2)
     let x : Chan := { busy := true, desc := b (2 ^ 52) 0 2, segOut := [(0, 2)] }
     let s := chan0 2 x
     d.srcRemote = true ∧ d.segs = 1 ∧ d.segRange 0 = (0, 100) ∧ Tab.get 0 x.segOut 0 ≠ 0 ∧ Tab.get 0 x.segBad 0 = 0
       ∧ d.words 0 100 = [0, 64] ∧ s.bgReady 0 = true ∧ s.bgReady 64 = true
       ∧ (let t := s.modRegion 0 fun r => { r with shortStopTo := some 800000 }
          t.bgReady 0 = false ∧ ∀ y ∈ t.bgDone, y.1 ≠ [4, 5, 0])) := by decide +kernel

/-- A copy of 100 bytes of space 0 that is not the last of its chain, and one with a stop that waits. -/
theorem witness_DmaChannels_copy :
    let b : BitVec 512 := ofBytes 512 (toLE 8 4096 ++ toLE 8 100 ++ toLE 8 100 ++ toLE 8 0 ++ [0, 0, 12] ++ zeros 13)
    let d := descFields b
    let x : Chan := { busy := true, desc := b }
    d.segs = 1 ∧ d.fill = false ∧ d.dstRemote = false ∧ d.srcRemote = false ∧ bits d.dst 51 48 = 0 ∧ d.last = false
      ∧ (d.segRange 0).2 = 100 ∧ bits (d.src + (d.segRange 0).1) 51 48 = 0 ∧ x.clash = [] ∧ (chan0 2 x).memoryOk = true
      ∧ (∀ j < 100, (sramDecode ((chan0 2 x).sram.read (4096 + j)) ((chan0 2 x).sramChk.read (4096 + j))).2 = .clean)
      ∧ (let s := put (chan0 2 { x with segDone := [(0, 0)] }) [(R.dmaDescCount 5, 2)]
         x.ran + 1 < s.reg (R.dmaDescCount 5)) := by decide +kernel

/-! ## Clocks -/

/-- Region 0 with its clock as a change of frequency finds it. -/
def clock0 (f : Region → Region) : State := run0.modRegion 0 f

theorem witness_RegionClocks :
    (kin.kindled = true ∧ kin.litList = [] ∧ kin.settles) ∧
    ((run0.region 0).lit = true ∧ (run0.region 0).inReset = false ∧ (run0.region 0).shortStopTo = none
      ∧ (put run0 [(R.freqChangeMode, 1)]).reg R.freqChangeMode = 1 ∧ run0.reg (R.freqKhz 0) ≠ run0.wantKhz 0) ∧
    ((clock0 fun x => { x with shortStopTo := some 800000 }).region 0).shortStopTo = some 800000 ∧
    (∀ l, let s := { put (clock0 fun x => { x with shadowTo := some 800000, shadowLocked := l, clock := 256 }) [(R.freqChangeMode, 1)] with
        kClock := some 256 }
      (s.region 0).shadowTo = some 800000 ∧ s.kClock = some 256 ∧ s.native = true ∧ 256 ≤ (s.region 0).clock
        ∧ (∀ q < 16, q ≠ 0 → (s.region q).shadowTo = none) ∧ (s.region 0).shadowLocked = l ∧ s.reg R.freqChangeMode = 1) ∧
    (job0.reg R.jobState = 2 ∧ job0.qrec = none ∧ job0.firstFault = false ∧ (job0.region 0).lit = true) ∧
    ((clock0 fun x => { x with inReset := true }).region 0).inReset = true ∧ (run0.region 0).clocked = true ∧
    (let s := clock0 fun x => { x with frameHeld := true }
     ∀ q < 16, (s.region q).lit = true → (s.region q).running = true →
      (s.region q).frameHeld = true ∧ (s.region q).framesStarted ≤ s.frameIndex) := by decide +kernel

/-! ## The scheduled fabric -/

/-- A sequence with every op of R201: RUNs of slot 0 and, with a step mark, of slot 1; REPEATs of one entry, twice, never and without end;
a PRELOAD of set 1, a SWAP and END. -/
def seq0 : List (BitVec 64) :=
  let run (slot mark : Nat) := BitVec.ofNat 64 (2 ^ 60 + slot * 2 ^ 57 + mark * 2 ^ 56)
  let again (n : Nat) := BitVec.ofNat 64 (2 * 2 ^ 60 + 2 ^ 48 + n)
  [run 0 0, run 1 1, again 2, run 0 0, again 0, run 1 0, run 0 0, BitVec.ofNat 64 (3 * 2 ^ 60 + 2 ^ 48), run 0 0, BitVec.ofNat 64 (4 * 2 ^ 60),
    run 1 0, again 0xFFFFFFFF, run 0 0, BitVec.ofNat 64 (5 * 2 ^ 60)]

/-- A clause of some frames. -/
def framed (n : Nat) : Clause := ⟨BitVec.ofNat 512 (n * 2 ^ 16), [], [], []⟩

/-- A running job of that sequence, at some position with some frames left. -/
def fab0 (pos left : Nat) : State :=
  { put quiet0 [(R.ballastEnable, 1), (R.activeClause, 0)] with
    image := some { image0 with seq := seq0 }, sched := true, runLeft := left, seqPos := pos, half0 := [framed 3, framed 1]
    half1 := [framed 5, framed 7], halfSet := [0, 1] }

/-- What a frame boundary meets that only begins a frame (R274). -/
abbrev calm0 (s : State) : Prop :=
  s.awake = true ∧ s.reg R.slewRemaining = 0 ∧ s.switchTo = none ∧ s.stepPending = none ∧ s.native = true ∧ s.commitDue = false
    ∧ (∀ d < 2, s.reg (R.role d) ≠ 1) ∧ ∀ p < 32, s.reg (R.linkState p) ≠ 5 ∧ s.reg (R.linkState p) ≠ 6

/-- What the frame boundaries of a job meet as well. -/
abbrev framed0 (s : State) : Prop :=
  calm0 s ∧ s.image = some { image0 with seq := seq0 } ∧ image0.legacy = false ∧ s.reg R.runState = 0 ∧ s.run = none
    ∧ (∀ p < 32, s.halfWidth p = false) ∧ s.reg R.activeHalf < 2 ∧ s.halfSet.length = 2 ∧ s.reg R.variantPorts = 0

/-- The ops at a position of the sequence and at the next. -/
abbrev ops0 (p : Nat) : Nat × Nat := (seqOp (seq0.getD p 0), seqOp (seq0.getD (p + 1) 0))

theorem witness_FrameBoundaries :
    (calm0 kin ∧ kin.image = none) ∧
    (∀ x ∈ [(1, 2), (1, 1), (2, 1), (4, 1), (7, 1), (9, 1), (11, 1), (13, 1)],
      let s := fab0 x.1 x.2
      framed0 s ∧ s.reg R.jobState = 2 ∧ s.qrec = none ∧ s.sched = true ∧ s.runMark = false ∧ s.reps = [] ∧ s.copy = none
        ∧ s.firstFault = false ∧ s.runLeft = x.2 ∧ s.reg R.ballastEnable = 1 ∧ s.reg R.activeClause < 8) ∧
    ([1, 2, 4, 7, 9, 11, 13].map ops0 = [(1, 2), (2, 1), (2, 1), (3, 1), (4, 1), (2, 1), (5, 0)]
      ∧ [2, 4, 11].map (fun p => (seqArg (seq0.getD p 0), seqCount (seq0.getD p 0))) = [(1, 2), (1, 0), (1, 0xFFFFFFFF)]
      ∧ seqOp (seq0.getD 6 0) = 1) ∧
    (let s := { fab0 1 1 with copy := some { set := 0, half := 1 } }
     s.copy ≠ none ∧ s.reg R.jobState = 2 ∧ s.reg R.runState = 0 ∧ s.halfSet.length = 2) ∧
    0 < { kin with wrapDue := 1 }.wrapDue := by decide +kernel

/-- The end of a REPEAT's body with a walk left and with none. -/
theorem witness_FrameBoundaries_body : ∀ k ∈ [1, 0],
    let s := { fab0 4 1 with reps := [(3, 4, k)] }
    framed0 s ∧ s.seqPos = 4 ∧ seqOp (seq0.getD 3 0) = 1 ∧ s.runMark = false
      ∧ (let u := { fab0 6 1 with reps := [(5, 6, k)] }; framed0 u ∧ u.seqPos = 6 ∧ seqOp (seq0.getD 6 0) = 1) := by decide +kernel

/-- A step mark with every core halted, with one that has not issued its STEP, and at the step limit. -/
theorem witness_FrameBoundaries_mark :
    (let s := { fab0 1 1 with runMark := true }
     framed0 s ∧ s.uses = [] ∧ (∀ p < 32, (s.port p).landing = []) ∧ s.firstFault = false ∧ s.replaying = none
       ∧ s.jobCores.length = 64 ∧ (s.core 0).halted = false ∧ (s.core 0).step ≠ 1 ∧ s.reg R.stepLimit = 0) ∧
    (∀ l ∈ [0, 1],
      let s := put ({ fab0 1 1 with runMark := true }.modRegion 0 fun x => { x with cores := (List.range 64).map fun c => (c, { step := 1 }) })
        [(R.stepLimit, l)]
      framed0 s ∧ (∀ c ∈ s.jobCores, (s.core c).step = 1) ∧ (s.reg R.fabricStepCounter + 1) % 2 ^ 64 = 1
        ∧ s.reg R.stepLimit = l ∧ s.reg R.firstStep = 0) := by decide +kernel

/-- A part at its start frame, with H at the job hold level and below it. -/
def start0 (h : Nat) : State :=
  put { fab0 0 0 with h := h, stepHist := [], sched := false } [(R.jobState, 1), (R.jobHoldW, 100), (R.startFrame, 13)]

theorem witness_FrameBoundaries_start :
    (∀ h ∈ [100000, 99999], framed0 (start0 h) ∧ (start0 h).reg R.jobState = 1 ∧ (start0 h).joinWait = none
      ∧ (start0 h).reg R.startFrame ≤ 13 ∧ (start0 h).qrec = none ∧ (start0 h).rampAbandoned = false) ∧
    (start0 100000).reg R.jobHoldW * 1000 ≤ 100000 ∧ 99999 < (start0 99999).reg R.jobHoldW * 1000
      ∧ (start0 100000).slowRegion = none ∧ (start0 100000).halfSet.getD 0 0xFFFF = 0 ∧ (start0 100000).reg R.activeHalf = 0
      ∧ (start0 100000).seqPos = 0 ∧ (start0 100000).reps = [] ∧ seqOp (seq0.getD 0 0) = 1
      ∧ bit image0.regions 0 = true ∧ ((start0 100000).region 0).lit = true := by decide +kernel

/-- A record whose quench boundary is frame 13, and a QUENCHED part of that record whose P is 13. -/
def quenched0 (st : Nat) (isEnd : Bool) (f : State → State) : State :=
  f { put (fab0 1 2) [(R.jobState, st)] with
      qrec := some { record0 with q := 13, p := 13, stop := 13, isEnd := isEnd }, sched := decide (st = 2), jobIssued := true
      restarts := [⟨3, 1, [], 0, [0, 1], 4, []⟩] }

/-- Clocks at 1,050 MHz and a domain that is LOCKED. -/
def able0 (s : State) : State :=
  put s [(R.ceilingKhz 0, 1150000), (R.freqKhz 0, 1050000), (R.frameReference, 0), (R.domainState 0, 2)]

theorem witness_FrameBoundaries_quench :
    ∀ e ∈ [false, true], let s := quenched0 2 e id
      framed0 s ∧ s.reg R.jobState = 2 ∧ s.runMark = false ∧ s.reg R.ballastEnable = 1 ∧ s.frame = 12 := by decide +kernel

theorem witness_FrameBoundaries_replay :
    ∀ b ∈ [true, false], let s := quenched0 3 false (if b then able0 else id)
      framed0 s ∧ s.reg R.jobState = 3 ∧ s.frame = 12 ∧ s.restartOf 3 = some ⟨3, 1, [], 0, [0, 1], 4, []⟩
        ∧ s.ready ⟨3, 1, [], 0, [0, 1], 4, []⟩ = b ∧ s.copy = none ∧ seqOp (seq0.getD 1 0) = 1 ∧ 1 < s.reg R.replayLimit := by
  decide +kernel

/-- A recovery run of an IDLE part, waiting for frame 13 or running. -/
def recovery0 (st left level : Nat) (failed : Bool) : State :=
  { put (fab0 1 0) [(R.jobState, 0), (R.runState, st)] with
    run := some { set := 1, slot := 1, count := 2, entry := 9, frame := 13, left := left, onIdle := true, formerLight := 1, formerStacks := 0
                  level := level }
    runFailed := failed, palaz := (List.range 12).map fun k => (k, { awake := true }) }

theorem witness_FrameBoundaries_runs :
    (∀ l ∈ [(1, true), (100001, false)], let s := recovery0 1 0 l.1 false
      calm0 s ∧ s.reg R.jobState = 0 ∧ s.reg R.runState = 1 ∧ s.frame = 12 ∧ (∀ p < 32, s.halfWidth p = false) ∧ s.reg R.activeHalf = 0
        ∧ (s.run.map fun r => s.runReady { image0 with seq := seq0 } r) = some l.2 ∧ (s.half (1 - s.reg R.activeHalf))[1]? = some (framed 7)) ∧
    (∀ x ∈ [(5, false), (1, false), (5, true)], let s := recovery0 2 x.1 1 x.2
      calm0 s ∧ s.reg R.jobState = 0 ∧ s.reg R.runState = 2 ∧ s.runFailed = x.2 ∧ s.reg R.activeHalf < 2) := by decide +kernel

/-- A use of slot 5 that a flit of port 1 waits for, to go out on port 0 or to land at stream 2 of core 0. -/
def use0 (land : Bool) : FUse :=
  { slot := 5, input := 1, txSlot := 3, frameLo := 0, ports := if land then [] else [0], land := if land then some (0, 2) else none,
    deadline := 20, clause := 0, late := false }

def landed0 : Landed := { txSlot := 3, frameLo := 0, payload := 77, ready := 6, period := false, late := false }

/-- Slot 9 of a clause whose port 0 has a slack entry there. -/
def slots0 (land : Bool) : State :=
  let c : Clause := ⟨BitVec.ofNat 512 (2 ^ 16), [], [], [(0, List.replicate 512 (BitVec.ofNat 64 (2 ^ 63 + 4 * 2 ^ 60)))]⟩
  ({ put job0 [(R.linkState 0, 7), (R.portMode 0, 1), (R.width 0, 4), (R.activeClause, 0)] with sched := true, half0 := [c], slot := 9, uses := [use0 land] }.setPort 0 {}).setPort 1
    { landing := [landed0] }

/-- A clause whose port 0 has an entry in slot 9 and one in slot 17. -/
def clause9 (now ahead : Nat) : Clause :=
  ⟨BitVec.ofNat 512 (2 ^ 16), [], [], [(0, List.replicate 9 0 ++ [BitVec.ofNat 64 now] ++ List.replicate 7 0 ++ [BitVec.ofNat 64 ahead])]⟩

/-- Slot 9 of that clause, with no use. -/
def slot9 (now ahead : Nat) (landing : List Landed) (out : List BFlit) : State :=
  (({ put job0 [(R.linkState 0, 7), (R.portMode 0, 1), (R.width 0, 4), (R.activeClause, 0)] with
      sched := true, half0 := [clause9 now ahead], slot := 9, claimed := 17 }.setPort 0 {}).setPort 1 { landing := landing }).modRegion 0
    fun x => { x with bridgeOut := out, cores := [] }

/-- An entry of a kind with a mask and input 1. -/
def entry9 (kind mask : Nat) : Nat := 2 ^ 63 + kind * 2 ^ 60 + mask * 2 ^ 23 + 2 ^ 18

def flit9 (claim : Option Nat) : BFlit := { core := 0, stream := 0, payload := 5, ready := 1, claim := claim }

def landed9 : Landed := { txSlot := 8, frameLo := 0, payload := 77, ready := 8, period := false, late := false }

theorem witness_FabricSlots_slot :
    (∀ x ∈ [(1, 1), (2, 1), (3, 2 ^ 32)], ∀ l ∈ [[landed9], []],
      let s := put (slot9 (entry9 x.1 x.2) 0 l [flit9 (some 9)]) [(R.readyOffsetAssumed 1, 1)]
      let c := clause9 (entry9 x.1 x.2) 0
      s.onlyPort c 0 ∧ s.noSendDue c ∧ (s.entryNow c 0).valid = true ∧ s.canSend 0 = true ∧ s.carriesSched 0 = true
        ∧ (s.port 0).outstanding < 512 ∧ s.now = 9 ∧ (s.port 1).landing = l ∧ landed9.ready ≤ s.now
        ∧ (s.entryNow c 0).input = 1 ∧ useOf s.now 0 (s.reg (R.readyOffsetAssumed 1)) = (8, 0) ∧ mapEntry c.sendMap 0 = (0, 0)) := by
  unfold State.onlyPort State.stillSlot State.noSendDue; decide +kernel

theorem witness_FabricSlots_claim :
    ∀ l ∈ [[flit9 none], []],
      let s := slot9 0 (entry9 1 1) [] l
      let c := clause9 0 (entry9 1 1)
      s.onlyPort c 0 ∧ (s.entryNow c 0).valid = false ∧ s.claimed = s.now + 8
        ∧ (∀ q < 32, q ≠ 0 → (entryFields (c.entry q (s.slot + 8))).valid = false)
        ∧ (entryFields (c.entry 0 (s.slot + 8))).valid = true ∧ (entryFields (c.entry 0 (s.slot + 8))).kind = 1
        ∧ (entryFields (c.entry 0 (s.slot + 8))).outs.head? = some 0
        ∧ s.openFlit 0 0 = l.head? ∧ s.reg R.jobState = 2 ∧ s.qrec = none ∧ s.firstFault = false ∧ s.reg R.runState ≠ 2 := by
  unfold State.onlyPort State.stillSlot; decide +kernel

/-- A MGMT message of no units that port 0 may send. -/
def out9 : TxMsg := { stamp := 1, arr := none, held := false, msg := { vc := 6, period := false, hdr := 0, units := [] } }

theorem witness_FabricSlots_credit :
    (let s := (slot9 (entry9 4 0) 0 [] []).setPort 0 { txq := [out9], grantIn := [(10, 1), (11, 1)] }
     let c := clause9 (entry9 4 0) 0
     s.onlyPort c 0 ∧ s.noSendDue c ∧ (s.entryNow c 0).valid = true ∧ (s.entryNow c 0).kind = 4 ∧ s.canSend 0 = true
       ∧ (∀ q < 32, q ≠ 0 → s.reg (R.linkState q) ≠ 7) ∧ (s.port 0).continOf = none ∧ s.opDue 0 = false
       ∧ s.nextMsg 0 = some out9 ∧ (s.port 0).outstanding < 512) := by
  unfold State.onlyPort State.stillSlot State.noSendDue; decide +kernel

theorem witness_FabricSlots_replay :
    (let e : ReplayEntry := ⟨4, BitVec.ofNat 2176 (1 + 4 * 2 ^ 8)⟩
     let s := { slot9 0 0 [] [] with sched := false }.setPort 0 { replay := [e], seqTx := 5, ackPt := 3, resend := some 4 }
     s.stillSlot ∧ s.runningClause = none ∧ s.canSend 0 = true ∧ (s.port 0).resend = some 4
       ∧ ((s.port 0).replay.find? fun y => y.seq = 4) = some e ∧ fh e.flit 19 8 = 4) := by
  unfold State.stillSlot; decide +kernel

theorem witness_FabricSlots_forward :
    let s := slots0 false
    s.awake = true ∧ s.sched = true ∧ s.runningClause.isSome = true ∧ (∀ c ∈ s.runningClause, (s.entryNow c 0).valid = true
      ∧ (s.entryNow c 0).kind = 4) ∧ s.canSend 0 = true ∧ s.carriesSched 0 = true ∧ (s.port 0).resend = none ∧ (s.port 0).outstanding < 512
      ∧ s.pendingFor 0 = some (use0 false, landed0) ∧ s.uses = [use0 false] ∧ (use0 false).ports = [0] ∧ (use0 false).land = none := by
  decide +kernel

theorem witness_FabricSlots :
    (kin.awake = true ∧ { kin with slot := 4095 }.slot < 4096 ∧ kin.settles) ∧
    ((slots0 true).uses = [use0 true] ∧ (use0 true).ports = [] ∧ (use0 true).land = some (0, 2)
      ∧ (slots0 true).flitFor (use0 true) = some landed0 ∧ (slots0 true).bridgeRoom 0 = true) ∧
    (let f : BFlit := { core := 0, stream := 0, payload := 1, ready := 9 }
     let s := { slots0 true with slot := 9 }.modRegion 0 fun x => { x with spineIn := [f] }
     (s.region 0).spineIn = [f] ∧ f.ready ≤ s.frame * 4096 + s.slot ∧ (Tab.get [] (s.core 0).land 0).length < 8) ∧
    (let s := { slots0 true with slot := 21 }
     s.uses = [use0 true] ∧ (use0 true).deadline < s.frame * 4096 + s.slot ∧ (use0 true).late = false ∧ s.reg R.jobState = 2
       ∧ s.qrec = none ∧ s.firstFault = false ∧ s.reg R.runState ≠ 2) := by decide +kernel

/-! ## The link -/

/-- A flit of a type and a payload, sequence number 0, before its CRC is computed. -/
def flit0 (type payload : Nat) : BitVec 2176 := BitVec.ofNat 2176 (type + payload * 2 ^ 128)

/-- Port 3 in UP at full width. -/
def up3 : State := put kin [(R.linkState 3, 7), (R.portMode 3, 1), (R.width 3, 4)]

/-- No codeword was beyond correction, and no quench has been. -/
theorem witness_LinkReception_sound (f : BitVec 2176) (n : Nat) : up3.inBadWord 3 f = false ∧ up3.quenched n = false := by
  have h : (up3.port 3).destroyed = [] := by decide +kernel
  simp only [State.inBadWord, h]
  exact ⟨rfl, rfl⟩

/-- The low header bits and payload of flits of each kind: scheduled, in order, ahead, accepted before; idle; width requests for either
half, a retrain request; unknown type; first flits of class 1 with 0 and 5 units, early and far ahead, of MGMT with ops 3 and 9 and of a class
without credits; a continuation. -/
def flits3 : List (Nat × Nat) :=
  [(1, 5), (0x301, 5), (0xFFF01, 5), (0, 7), (5, 1), (5, 257), (5, 2), (9, 0), (0x12, 0), (0x12, 5), (0x312, 0), (0x25812, 0),
   (0x62, 3 * 2 ^ 64), (0x62, 9 * 2 ^ 64), (0x22, 0), (0x13, 0)]

theorem witness_LinkReception_flits : ∀ x ∈ flits3,
    let f := withCrc (flit0 x.1 x.2)
    crcOk f = true ∧ fh f 33 32 = 0 ∧ fh f 68 66 = 0 ∧ flitType f = x.1 % 16 ∧ fh f 19 8 = x.1 / 256 ∧ fh f 6 4 = x.1 / 16 % 8
      ∧ flitPayload f = flitPayload (flit0 x.1 x.2) := by
  intro x hx
  have h : ∀ x ∈ flits3, fh (flit0 x.1 x.2) 33 32 = 0 ∧ fh (flit0 x.1 x.2) 68 66 = 0 ∧ flitType (flit0 x.1 x.2) = x.1 % 16
      ∧ fh (flit0 x.1 x.2) 19 8 = x.1 / 256 ∧ fh (flit0 x.1 x.2) 6 4 = x.1 / 16 % 8 := by decide +kernel
  obtain ⟨h1, h2, h3, h4, h5⟩ := h x hx
  refine ⟨crcOk_withCrc _, ?_, ?_, ?_, ?_, ?_, flitPayload_withCrc _⟩
  · rw [fh_withCrc _ _ _ (by omega), h1]
  · rw [fh_withCrc _ _ _ (by omega), h2]
  · rw [flitType_withCrc, h3]
  · rw [fh_withCrc _ _ _ (by omega), h4]
  · rw [fh_withCrc _ _ _ (by omega), h5]

/-- The message a first flit opens is that of the flit before its CRC is computed. -/
theorem firstMsg_withCrc (g : BitVec 2176) : firstMsg (withCrc g) = firstMsg g := by
  simp only [firstMsg, fh_withCrc _ _ _ (show 7 < 96 by omega), fh_withCrc _ _ _ (show 6 < 96 by omega), flitPayload_withCrc]

theorem witness_LinkReception_messages :
    (∀ x ∈ [(0x12, 0, 0), (0x12, 5, 5), (0x62, 3 * 2 ^ 64, 0), (0x62, 9 * 2 ^ 64, 0), (0x22, 0, 0)],
      let m := firstMsg (flit0 x.1 x.2.1)
      m.vc = x.1 / 16 ∧ mf m 0 1 = x.2.2 ∧ isQuenchMsg m = false) ∧
    mf (firstMsg (flit0 0x62 (3 * 2 ^ 64))) 8 1 = 3 ∧ mf (firstMsg (flit0 0x62 (9 * 2 ^ 64))) 8 1 = 9 ∧
    (let x : Port := { own := [(0, 64), (10, 32)] }
     (∀ vc ∈ [1, 6], Tab.get 0 x.own (2 * (vc - 1)) ≠ 0 ∧ Tab.get 0 x.rxHdr vc < hdrBuffer vc ∧ Tab.get 0 x.rxData vc + 5 ≤ dataBuffer vc)
       ∧ Tab.get 0 x.own 2 = 0 ∧ x.rxMap = [] ∧ x.rxE = 0 ∧ x.held = []) ∧
    (∀ n ∈ [4, 5], ({ msg := firstMsg (flit0 0x12 5), left := n } : RxMsg).msg.vc ≤ 5) ∧ up3.mgmtHeld < 256 := by decide +kernel

/-- Of two flits that differ in their CRC fields alone, one is damaged. -/
theorem witness_LinkReception_damaged : ∃ f, crcOk f = false := by
  by_contra h
  have all : ∀ f, crcOk f = true := fun f => by
    cases hf : crcOk f with
    | true => rfl
    | false => exact absurd ⟨f, hf⟩ h
  have h0 := all 0
  have h1 := all (BitVec.ofNat 2176 (2 ^ 96))
  have e : flitCrc (BitVec.ofNat 2176 (2 ^ 96)) = flitCrc 0 := by
    have a : (BitVec.ofNat 2176 (2 ^ 96)).setWidth 96 = (0 : BitVec 2176).setWidth 96 := by decide +kernel
    have b : BitVec.ofNat 2176 (2 ^ 96) >>> 128 = (0 : BitVec 2176) >>> 128 := by decide +kernel
    rw [flitCrc, flitCrc, a, b]
  simp only [crcOk, decide_eq_true_eq] at h0 h1
  rw [e, ← h0] at h1
  exact absurd h1 (by decide +kernel)

theorem witness_LinkReception :
    up3.reg (R.linkState 3) = 7 ∧ up3.commitDue = false ∧ up3.reg R.jobState = 0 ∧ (up3.port 3).destroyed = [] ∧
    (∀ n ∈ [0, 9], ((put up3 [(R.chipNumber, n)]).setBlob (R.peerIdentity 3) [5, 0, 3]).leads 3 = decide (n = 0)) ∧
    (let x : Port := { linkOp := some (1, 1) }
     x.linkOp = some (1, 1) ∧ x.pendRetrain = false ∧ x.switchAt = none ∧ bits x.lanesFailed.toNat 3 0 = 0) ∧
    (up3.port 3).rxMap = [] ∧ { up3 with sched := true }.sched = true ∧ up3.carriesSched 3 = true ∧ (up3.port 3).landing.length < 256 ∧
    (vbyte (flitPayload (flit0 5 1)) 0 = 1 ∧ (vbyte (flitPayload (flit0 5 1)) 1).toNat = 0
      ∧ vbyte (flitPayload (flit0 5 257)) 0 = 1 ∧ (vbyte (flitPayload (flit0 5 257)) 1).toNat = 1
      ∧ vbyte (flitPayload (flit0 5 2)) 0 = 2) ∧
    (up3.reg (R.width 3) = 4 ∧ (up3.port 3).pendRetrain = false ∧ (up3.port 3).lanesFailed = 0 ∧ (up3.port 3).linkOp = none
      ∧ (up3.port 3).switchAt = none) ∧
    (List.replicate 544 (0 : BitVec 10)).length = 544 ∧
    (∀ n ∈ [6, 7], let x : Port := { replay := [{ seq := 0, flit := 0 }], seqTx := 1, timer := some 0, expiries := n }
     let s := { up3.setPort 3 x with slot := 1455 }
     x.replay ≠ [] ∧ x.outstanding ≠ 0 ∧ x.timer = some 0 ∧ 0 + 1455 ≤ s.frame * 4096 + s.slot ∧ (s.port 3) = x) := by decide +kernel

theorem witness_LinkTraining :
    (∀ st < 8, (put kin [(R.linkState 3, st)]).reg (R.linkState 3) = st ∧ (put kin [(R.linkState 3, st)]).settles) ∧
    (let b : BitVec 512 := BitVec.ofNat 512 (kin.reg R.linkProtocolVersion / 256 * 2 ^ 40)
     let s := ((put kin [(R.linkState 3, 4)]).setBlob (R.peerIdentity 3) (bytesOf 64 b)).setPort 3 { idRun := 2, peerSeen := true }
     s.blob (R.peerIdentity 3) = bytesOf 64 b ∧ (s.port 3).idRun = 2 ∧ (s.port 3).peerSeen = true ∧ s.manifest = []
       ∧ field (bytesOf 64 b) 5 1 = s.reg R.linkProtocolVersion / 256) ∧
    (put kin [(R.linkState 3, 6), (R.width 3, 4)]).reg (R.width 3) ≠ 1 ∧
    (kin.awake = true ∧ kin.image = none ∧ kin.commitDue = false) ∧
    (∀ w ∈ [1, 4], (put kin [(R.linkState 3, 5), (R.width 3, w)]).reg (R.width 3) = w) ∧
    (∀ h ∈ [0, 1], let s := (put kin [(R.linkState 3, 6), (R.width 3, 4)]).setPort 3 { switchAt := some (1, h) }
      (s.port 3).switchAt = some (1, h) ∧ 1 ≤ (s.frame + 1) % 2 ^ 48) ∧
    (∃ j < 8, j / 4 ≠ 0 ∧ bit ({ lanesFailed := 0x80 } : Port).lanesFailed.toNat j = true) ∧
    ((up3.port 3).lanesFailed = 0 ∧ (up3.port 3).switchAt = none ∧ up3.reg (R.width 3) = 4) ∧
    (∀ l ∈ [0x01, 0x80], let s := up3.setPort 3 { switchAt := some (0, 1), lanesFailed := l }
     (s.port 3).switchAt = some (0, 1) ∧ 0 ≤ s.frame ∧ s.slot = 0 ∧ s.reg (R.width 3) ≠ 0
       ∧ decide ((s.port 3).lanesFailed &&& 0xF0 = 0) = decide (l = 0x01)) ∧
    (let s := (put up3 [(R.width 3, 2)]).setPort 3 { switched := some 0 }
     s.reg (R.width 3) = 2 + 3 / 4 ∧ (s.port 3).switched = some 0 ∧ 0 + 4096 ≤ { s with frame := 1 }.now ∧ s.now < 0 + 4096) ∧
    (let s := put up3 [(R.portEnable, 8)]
     (∀ l ∈ [[], [PowerUnit.group 0]], { s with admitting := l }.takes .node0 (regKey 0x3000 4) [3] = true) ∧ leNat [3] = 3 ∧ s.seqUses 3 = false ∧ bit (s.reg R.portEnable) 3 = true) ∧
    (∀ v ∈ [0, 0xFFFFFFFF], up3.takes .node0 R.portEnable (toLE 4 v) = true) := by decide +kernel

/-! ## Network time -/

/-- A 1588 message of a type and domain 1, sequence number 9, from port 0. -/
def time0 (type : Nat) : TimeMsg := { port := 0, bytes := toLE 1 type ++ [2, 0, 0, 1] ++ zeros 25 ++ [0, 9] ++ zeros 32, rx := 65536, delayed := false }

/-- Port 0 verified and UP, the slave port of domain 1, whose state is TRAINING. -/
def slave0 : State :=
  put kin [(R.linkState 0, 7), (R.portMode 0, 1), (R.role 1, 2), (R.slavePort 1, 0), (R.domainState 1, 1), (R.pathDelay 0, 65536)]

theorem witness_TimeMessages :
    (∀ ty ∈ [0, 8, 11, 2, 3, 10], slave0.carriesTime 0 = true ∧ ptpVersion (time0 ty).bytes = 2 ∧ (slave0.heldTime (time0 ty)).delayed = false
      ∧ slave0.settles ∧ ptpDomain (time0 ty).bytes = 1 ∧ ptpType (time0 ty).bytes = ty ∧ slave0.reg (R.role 1) = 2 ∧ slave0.reg (R.slavePort 1) = 0) ∧
    (let s := slave0.setDom 1 { pendSync := some (9, 0, 0), good := 14 }
     (s.dom 1).pendSync = some (ptpSeq (time0 8).bytes, 0, 0) ∧ (stampOf 65536 + 2 ^ 48 - 0) % 2 ^ 48 ≤ s.syncInterval 1
       ∧ s.reg (R.pathDelay 0) ≠ 0 ∧ s.reg (R.domainState 1) = 1 ∧ (s.dom 1).good < 15) ∧
    (let s := slave0.setPort 0 { pdelayT1 := some 1, pdelayT2 := some 2, pdelayT4 := some 4, pdelayRuns := 3 }
     (s.port 0).pdelayT1 = some 1 ∧ (s.port 0).pdelayT2 = some 2 ∧ (s.port 0).pdelayT4 = some 4 ∧ (s.port 0).pdelayRuns = 3) ∧
    (∀ ty ∈ [0, 2, 3, 8, 10], (slave0.heldTime { time0 ty with delayed := true }).delayed = true) ∧
    ptpVersion ({ time0 0 with bytes := [0, 1, 0, 0, 2] } : TimeMsg).bytes ≠ 2 ∧ 1 < ptpDomain ({ time0 0 with bytes := [0, 2, 0, 0, 2] } : TimeMsg).bytes := by
  decide +kernel

theorem witness_TimeKeeping :
    (let s := put slave0 [(R.role 0, 1), (R.domainState 0, 2), (R.masterPorts 0, 1)]
     s.reg (R.role 0) ≠ 0 ∧ s.reg (R.domainState 0) = 2 ∧ s.masters 0 = [0]) ∧
    kin.tsq.length < 16 ∧ (∀ y ∈ (kin.port 4).stamps, y.1 ≠ 5)
      ∧ ((kin.setPort 4 { stamps := [(5, 77)] }).port 4).stamps.find? (fun y => y.1 = 5) = some (5, 77) ∧ 16 ≤ { kin with tsq := List.replicate 16 0 }.tsq.length ∧
    (slave0.reg (R.role 1) = 2 ∧ slave0.reg (R.domainState 1) = 1) ∧ { quiet0 with holdover := true }.holdover = true ∧
    (∀ x ∈ [(73805 : Int), -73834], ((put kin [(R.slewRemaining, twos 64 x)]).sreg R.slewRemaining 64) = x)
      ∧ (∀ x ∈ [(73806 : Int), -73835], ((put kin [(R.slewRemaining, twos 64 x)]).sreg R.slewRemaining 64) = x) ∧
    (kin.takes .node0 R.ntSet (toLE 8 0) = true ∧ kin.reg R.jobState = 0 ∧ kin.reg R.frameEpochNs ≤ leNat (toLE 8 0)) ∧
    (let s := put kin [(R.domainState 1, 2), (R.frameReference, 0)]
     s.takes .node0 R.timeSelect [1] = true ∧ leNat [1] = 1 ∧ s.reg R.frameReference ≠ 1 ∧ s.switchable 1 = true) ∧
    (kin.takes .node0 (R.role 1) [2] = true ∧ leNat [2] = 2 ∧ kin.reg (R.role 1) = 0
      ∧ bit (kin.reg (R.masterPorts 1)) (kin.reg (R.slavePort 1)) = false ∧ kin.reg R.frameReference ≠ 1 ∧ kin.switchTo = none) := by
  decide +kernel

/-! ## Messages between parts -/

/-- A message from chip 5 to this part (chip 4): channel, operation, request identifier, target, units asked for, units. -/
def msg0 (vc op target n : Nat) (units : List (BitVec 512)) (status : Nat := 0) : Msg :=
  { vc := vc, period := false,
    hdr := hdrOf (linkBytes units.length 4 5 ++ toLE 1 op ++ toLE 1 status ++ zeros 2 ++ toLE 4 7 ++ toLE 8 target ++ toLE 1 n ++ zeros 39),
    units := units }

/-- Chip 4 with export windows over the first 4 KiB of space 0 and the first free MiB of stack 1. -/
def target0 : State :=
  reach0.setBlob R.exportMap (bytesOf 16 (BitVec.ofNat 128 (4096 * 2 ^ 48 + 3 * 2 ^ 100))
    ++ bytesOf 16 (BitVec.ofNat 128 (stackSize + 2 ^ 20 * 2 ^ 48 + 2 ^ 96 + 3 * 2 ^ 100)) ++ zeros 224)

theorem witness_RemoteRequests : ∀ m ∈ [msg0 1 1 0 64 [], msg0 2 1 8192 1 [], msg0 1 2 4032 1 [5], msg0 2 3 (2 ^ 48 + stackSize) 1 [3],
      msg0 5 1 (3 * 2 ^ 48) 64 [], msg0 5 2 (2 ^ 48) 1 [6]],
    mf m 2 2 = target0.chip ∧ m.period = false ∧ (∀ x ∈ (target0.port 28).held, x.2 ≠ m) ∧ target0.memoryOk = true
      ∧ bits (mf m 12 4) 31 30 = target0.epoch.toNat ∧ malformedReq m = false ∧ mf m 4 2 = 5 ∧ mf m 4 2 ≠ target0.chip := by
  decide +kernel

theorem witness_RemoteRequests_ready :
    (∀ m ∈ [msg0 1 1 0 64 [], msg0 2 1 8192 1 [], msg0 1 2 4032 1 [5], msg0 2 3 (2 ^ 48 + stackSize) 1 [3]],
      ∀ w ∈ sramWords (bits (mf m 16 8) 51 48) (bits (mf m 16 8) 47 0) (64 * mf m 24 1), target0.bgReady w = true) ∧
    (let s := { target0 with regions := run0.regions }.modRegion 0 fun x => { x with shortStopTo := some 1000000 }
     ∀ m ∈ [msg0 1 1 0 64 [], msg0 1 2 4032 1 [5], msg0 5 1 0 1 [], msg0 5 2 0 1 [6]],
       (∃ w ∈ sramWords 0 (bits (mf m 16 8) 47 0) (64 * mf m 24 1), s.bgReady w = false) ∧ (∀ y ∈ s.bgDone, y.1 ≠ [1, 28, m.hdr.toNat])
         ∧ inWindows s.exports 0 (bits (mf m 16 8) 47 0) (64 * mf m 24 1) (decide (mf m 8 1 = 2)) = true ∧ s.anyClash (hdrSpans m.hdr.toNat) = false
         ∧ { s with bgDone := [([1, 29, m.hdr.toNat], [])] }.anyClash (hdrSpans m.hdr.toNat) = decide (mf m 8 1 = 2)) ∧
    (∀ m ∈ [msg0 1 1 0 64 [], msg0 1 2 4032 1 [5], msg0 5 2 (2 ^ 48) 1 [6]], { target0 with regions := run0.regions }.undisturbed 28 m) ∧
    target0.anyClash (target0.itemSpans 3) = false := by decide +kernel

theorem witness_RemoteRequests_windows :
    inWindows target0.exports 0 0 (64 * 64) false = true ∧ inWindows target0.exports 0 8192 64 false = false
      ∧ inWindows target0.exports 0 4032 64 true = true ∧ inWindows target0.exports 1 stackSize 64 true = true
      ∧ (Tab.get [] (target0.stack (stackSize / stackSize)).queues (homeEngine 3)).length < 16 := by decide +kernel

theorem witness_RemoteRequests_clean (i : Nat) : (sramDecode (target0.sram.read i) (target0.sramChk.read i)).2 = .clean := by
  have h : target0.sram.read i = 0 ∧ target0.sramChk.read i = 0 := ⟨rfl, rfl⟩
  rw [h.1, h.2]
  decide +kernel

theorem witness_RemoteRequests_fields :
    mf (msg0 1 1 0 64 []) 8 1 = 1 ∧ bits (mf (msg0 1 1 0 64 []) 16 8) 51 48 = 0 ∧ mf (msg0 1 1 0 64 []) 24 1 = 64
      ∧ mf (msg0 1 2 4032 1 [5]) 8 1 = 2 ∧ bits (mf (msg0 1 2 4032 1 [5]) 16 8) 47 0 = 4032
      ∧ mf (msg0 2 3 (2 ^ 48 + stackSize) 1 [3]) 8 1 = 3 ∧ bits (mf (msg0 2 3 (2 ^ 48 + stackSize) 1 [3]) 16 8) 51 48 = 1
      ∧ bits (mf (msg0 5 1 (3 * 2 ^ 48) 64 []) 16 8) 51 48 = 3 ∧ 0 + 64 * 64 ≤ 0x30000
      ∧ bits (mf (msg0 5 2 (2 ^ 48) 1 [6]) 16 8) 51 48 = 1 ∧ 0 + 64 * 1 ≤ 0x400000000 := by decide +kernel

/-- Chips 4 and 5 of a mesh, each the other's twin. -/
def manifest0 : List Byte :=
  toLE 2 1 ++ toLE 2 2 ++ [0, 2, 1, 1, 1, 0] ++ zeros 54 ++ toLE 2 4 ++ toLE 2 0 ++ toLE 2 5 ++ toLE 2 0xFFFF ++ toLE 2 5 ++ toLE 2 1 ++ toLE 2 4 ++ toLE 2 0xFFFF

def twin0 : State := (put kin [(R.chipNumber, 4)]).setBlob R.manifest manifest0

/-- The manifest of the twins, written to chip 4, and its chip number written. -/
theorem witness_WriteTaken_manifest :
    (put kin [(R.chipNumber, 4)]).takes .node0 R.manifest manifest0 = true ∧ manifestStatus manifest0 (put kin [(R.chipNumber, 4)]).chip = 0
      ∧ twin0.takes .node0 R.chipNumber (toLE 2 5) = true ∧ (recOf twin0.manifest 5).isSome = true ∧ twin0.manifest ≠ []
      ∧ (let s := put twin0 [(R.linkState 3, 7), (R.portEnable, 8)]
         s.reg (R.linkState 3) = 7 ∧ bit (s.reg R.portEnable) 3 = true) := by decide +kernel

/-- The twin, while a copy is being received, and another chip. -/
theorem witness_RemoteRequests_twin :
    (let s := put twin0 [(R.custodyHeld, 1)]
     s.twin = 5 ∧ s.twin ≠ 0xFFFF ∧ s.chip = 4 ∧ s.reg R.jobState = 0 ∧ s.reg R.custodyHeld = 1) ∧ target0.twin ≠ 5 := by decide +kernel

theorem witness_RemoteRequests_replies : ∀ k ∈ [0, 1, 2],
    let x : ReplySlot := { ident := 7, chip := 5, core := 0, q := 1, tag := 0, loc := 0, units := 1, kind := k }
    let s := { target0 with slots := [x] }
    let m := msg0 3 (0x81 + k) 0 1 [8]
    s.slots = [x] ∧ x.answered = false ∧ x.kind = k ∧ mf m 8 1 = 0x81 + k ∧ x.ident = BitVec.ofNat 32 (mf m 12 4) ∧ x.chip = mf m 4 2
      ∧ bits (mf m 12 4) 31 30 = s.epoch.toNat ∧ mf m 9 1 = 0 ∧ s.farReq 0 1 0 = some (req0 false 5) := by decide +kernel

/-- A message from chip 4 to chip 5, and one to chip 6, which has no route. -/
def pass0 (dest : Nat) : Msg := { msg0 3 0x81 0 0 [] with hdr := hdrOf (linkBytes 0 dest 4 ++ toLE 1 0x81 ++ zeros 55) }

theorem witness_ManagementMessages :
    (∀ d ∈ [5, 6], mf (pass0 d) 2 2 = d ∧ d ≠ reach0.chip ∧ (pass0 d).vc = 3 ∧ (pass0 d).period = false
      ∧ ∀ x ∈ (reach0.port 28).held, x.2 ≠ pass0 d) ∧
    bit (reach0.route (6 % 4096)) 8 = false ∧ reach0.offers 28 3 = true ∧ reach0.routeChoice ⟨0, some 28, false, pass0 5⟩ = some ([28], 3, 7)
      ∧ (let s := reach0.setPort 28 { (reach0.port 28) with grantIn := [(4, 1), (5, 1)] }
         s.offers 28 3 = true ∧ s.creditsFor 28 { pass0 5 with vc := 3 } = true) ∧
    (let m : Msg := { vc := 6, period := false, hdr := mgmtHdr 0 0xFFFF 0 1 126 1 9 [], units := [] }
     mf m 8 1 = 1 ∧ mf m 2 2 = 0xFFFF ∧ kin.awake = true ∧ mf m 9 1 < 127) ∧ kin.manifest = [] ∧
    (let m : Msg := { vc := 6, period := true, hdr := mgmtHdr 0 0xFFFF 0 2 0 1 9 (record0.bytes 1), units := [] }
     isQuenchMsg m = true ∧ quiet0.awake = true ∧ quiet0.reg R.jobState = 2 ∧ quiet0.qrec = none ∧ quiet0.frame < mf m 28 6) ∧
    (let q := { record0 with p := 100 }
     let s := { put run0 [(R.jobState, 3)] with qrec := some q, frame := 10 ^ 9 }
     s.reg R.jobState = 3 ∧ q.p < 0xFFFFFFFFFFFF ∧ s.readyFor q = false
       ∧ s.reg R.recoveryWaitMs * 1000000 < (s.frame - q.q) * 5632) ∧
    ∀ op ∈ [0, 4, 255], mf ({ vc := 6, period := false, hdr := mgmtHdr 0 0 0 op 1 1 9 [], units := [] } : Msg) 8 1 = op := by decide +kernel

/-- A CUSTODY message for the coordinates of chip 5 at chip 4, by port 28. -/
theorem witness_ManagementMessages_custody :
    let m : Msg := { vc := 6, period := false, hdr := mgmtHdr 0 1 0 3 126 1 9 [1, 4], units := [] }
    let s := put twin0 [(R.linkState 28, 7)]
    mf m 8 1 = 3 ∧ mf m 2 2 = 1 ∧ mf m 2 2 ≠ s.coords ∧ mf m 9 1 < 127 ∧ s.manifest ≠ []
      ∧ (∃ r ∈ ((manifestRecs s.manifest).find? fun r => r.coord = mf m 2 2), r.chip = 5
          ∧ (routeDir s.manifest s.chip r.chip).isSome = true ∧ s.mgmtPort r.chip = some 28) ∧ s.mgmtQueue = [] := by decide +kernel

/-- The route of such a message depends on nothing but the message and the port it came in on. -/
theorem witness_ManagementMessages_route (q : TxMsg) (hm : q.msg = pass0 5) (ha : q.arr = some 28) :
    reach0.routeChoice q = some ([28], 3, 7) := by
  have h : reach0.routeChoice ⟨0, some 28, false, pass0 5⟩ = some ([28], 3, 7) := by decide +kernel
  have e : reach0.routeChoice q = reach0.routeChoice ⟨0, some 28, false, pass0 5⟩ := by
    unfold State.routeChoice State.hopVc
    rw [hm, ha]
  rw [e, h]

/-! ## Twin pairing -/

/-- A CUSTODY message of the twin with an operation. -/
def custody0 (op : Nat) : Msg := { vc := 6, period := false, hdr := mgmtHdr 0 0 1 3 0 1 9 (toLE 1 op ++ [4]), units := [] }

/-- An OFFER of one range of 64 bytes. -/
def offer0 : Msg :=
  { vc := 6, period := false, hdr := mgmtHdr 2 0 1 3 0 1 9 (toLE 1 1 ++ zeros 1 ++ toLE 2 1),
    units := [0, ofBytes 512 (toLE 8 4096 ++ toLE 8 64 ++ zeros 48)] }

theorem witness_TwinPairing :
    (∀ op ∈ [1, 2, 3, 4, 5, 6, 7, 8], twin0.awake = true ∧ mf (custody0 op) 8 1 = 3 ∧ mf (custody0 op) 24 1 = op
      ∧ mf (custody0 op) 2 2 = twin0.coords ∧ twin0.fromTwin (custody0 op) = true ∧ twin0.mgmtTurn (custody0 op) = true
      ∧ twin0.reg R.jobState = 0) ∧ (offerRanges offer0 ≠ [] ∧ (∀ r ∈ offerRanges offer0, r.2 ≠ 0) ∧ mf offer0 24 1 = 1) ∧
    (let s := [28, 29, 30, 31].foldl (fun (t : State) p => put t [(R.linkState p, 7), (R.portMode p, 1)]) { twin0 with image := some image0 }
     s.takes .node0 R.pairRequest [1] = true ∧ s.image = some image0 ∧ s.twin ≠ 0xFFFF ∧ s.groupSeven = true ∧ image0.weights.length ≤ 252) ∧
    (twin0.takes .node0 R.detachRequest [1] = true ∧ twin0.reg R.custodyGiven ≠ 1) ∧
    (let s := put twin0 [(R.custodyHeld, 2)]
     s.takes .node0 R.custodyRelease [1] = true ∧ s.reg R.custodyHeld ≠ 0 ∧ 2 ≤ s.reg R.custodyHeld) ∧
    { twin0 with image := some image0, pair := .offered }.image ≠ none ∧ { twin0 with pair := .pushing }.pushLeft = 0 ∧ { twin0 with pair := .pushing }.pushQueue = []
      ∧ (let s := put twin0 [(R.custodyHeld, 1), (R.heldSource, 5), (R.linkState 28, 7), (R.portMode 28, 1), (R.width 28, 4)]
         s.pair = .idle ∧ s.reg R.custodyHeld = 1 ∧ (recOf s.manifest (s.reg R.heldSource)).isSome = true
           ∧ s.mgmtPort (s.reg R.heldSource) = some 28 ∧ s.mgmtPort s.twin = some 28) ∧ (put twin0 [(R.jobState, 2)]).reg R.jobState ≠ 0
      ∧ (put twin0 [(R.custodyHeld, 1)]).reg R.custodyHeld = 1 ∧ { twin0 with pair := .completed }.pair = .completed
      ∧ { twin0 with pair := .checking }.pair = .checking ∧ { twin0 with pair := .offered }.pair ≠ .idle
      ∧ { twin0 with pair := .offered }.detaching = false ∧ { twin0 with image := some image0, adopt := true }.adopt = true := by
  decide +kernel

/-! ## Glazin -/

/-- A request frame for position 0 from node 1. -/
def frame0 (index sub : Nat) (data : List Byte) (length : Nat) : GFrame :=
  { fcsOk := true, etherType := 0x88B5, version := 1, flags := 0, node := 1, position := 0, chainLength := 2, chip := 0xFFFF,
    sequence := 1, status := 0, index := BitVec.ofNat 16 index, sub := BitVec.ofNat 8 sub, offset := 0, length := length, total := 128,
    opcode := 1, data := data }

/-- Position 0 of a chain whose second port is up. -/
def chain0 : State := put kin [(R.chainPosition, 0), (R.portBUp, 1)]

theorem witness_GlazinFrames_write :
    ∃ u, exec (.odWrite .node1 0x2101 1 [60, 0]) chain0 = .next u ∧ u.awake = true ∧ u.reg (regKey 0x2101 1) = 60 :=
  ⟨_, rfl, by decide +kernel⟩

theorem witness_GlazinFrames_window :
    (((0 : BitVec 16) - 1).toNat = 65535 ∧ ((32767 : BitVec 16) - 1).toNat = 32766 ∧ ((65535 : BitVec 16) - 1).toNat = 65534
      ∧ ((1 : BitVec 16) - 0).toNat = 1 ∧ ((1 : BitVec 16) - 65535).toNat = 2) ∧
    (let g : GOut := { port := .b, opcode := 1, f := frame0 0x2101 1 [] 0 }
     let w : Window := { high := some 40, kept := [(1, g)] }
     (Tab.get {} [(1, w)] 1 : Window) = w ∧ (40 - (1 : BitVec 16)).toNat < 64 ∧ 64 ≤ (40 - (65000 : BitVec 16)).toNat
       ∧ ((1 : BitVec 16) - 40).toNat = 65497 ∧ ((65000 : BitVec 16) - 40).toNat = 64960
       ∧ (w.kept.find? fun y => y.1 == (frame0 0 0 [] 0).sequence) = some (1, g) ∧ chain0.commitReply = [] ∧ ∀ x ∈ w.kept, x.1 ≠ 2) := by
  decide +kernel

theorem witness_GlazinFrames_cases :
    let f := frame0 0 0 [] 0
    (f.position = BitVec.ofNat 8 (chain0.reg R.chainPosition) ∧ f.position ≠ 0xFF ∧ (7 : BitVec 16).toNat ≠ chain0.chip) ∧
    (∀ flags ∈ [(1 : Byte), 4], ({ f with flags := flags }.flags.getLsbD 0 = true ↔ flags = 1)
      ∧ ({ f with flags := flags }.flags.getLsbD 2 = true ↔ flags = 4)) ∧
    ({ f with position := 3 }.position ≠ BitVec.ofNat 8 (chain0.reg R.chainPosition) ∧ chain0.gUp .a = false) ∧
    { f with position := 0xFF }.chip = 0xFFFF ∧ { f with position := 2 }.chainLength.toNat ≤ 2
      ∧ regKey 0x2101 1 ∉ [R.txnCommit, regKey 0x2500 1, regKey 0x2500 2] := by
  decide +kernel

theorem witness_GlazinFrames :
    (∀ f ∈ [frame0 0x2101 1 [] 0, frame0 0x2001 1 [1] 1, frame0 0x2103 1 [1] 1, frame0 0x2101 1 [] 2, frame0 0x7001 2 (zeros 127) 127],
      chain0.awake = true ∧ f.fcsOk = true ∧ f.etherType = 0x88B5 ∧ f.version = 1 ∧ f.flags.getLsbD 0 = false ∧ f.node = 1
        ∧ f.position = BitVec.ofNat 8 (chain0.reg R.chainPosition) ∧ f.position ≠ 0xFF ∧ f.chip = 0xFFFF
        ∧ (Tab.get {} chain0.windows f.node.toNat : Window).high = none ∧ f.opcode.toNat = 1) ∧
    (shape 0x2101 1 = some (.rwj, 2, 50, 400) ∧ lockedRange 0x2101 = false
      ∧ regKey 0x2101 1 ∉ [R.testChallenge, R.tsPop, R.quote] ∧ (∀ e ∈ odFind 0x2101 1, (chain0.odBytes e).length = 2)) ∧
    (odFind 0x2001 1 = none ∧ lockedRange 0x2001 = false ∧ blockOnly 0x2001 1 = false) ∧
    (regKey 0x7001 2 = R.imageStream ∧ chain0.reg R.txnOwner = 2 ∧ { chain0 with loading := some { len := 128, got := [] } }.loading = some { len := 128, got := [] }
      ∧ (zeros 127).length = 127) ∧
    (chain0.gUp .b = true ∧ chain0.reg R.chainPosition = (frame0 0 0 [] 0).position.toNat
      ∧ (frame0 0 0 [] 0).position.toNat + 1 < (frame0 0 0 [] 0).chainLength.toNat) ∧
    Tab.get none { chain0 with heldBeacon := [(0, some (frame0 0 0 [] 0))] }.heldBeacon (gIdx .a) = some (frame0 0 0 [] 0) := by
  decide +kernel

/-! ## The whole part -/

theorem witness_StepRunsFrontCommand : { kin with pending := [.wrapEvent, .slotTick] }.pending = .wrapEvent :: [.slotTick] := rfl

theorem witness_CheckCodes : (zeros 64).length = 64 ∧ (0xFF : Byte) ≠ 0 := by decide +kernel

theorem witness_StepKeepsMemories : State.reset.memoryOk = true ∧ (kin.writeSram 64 [1, 0, 2]).memoryOk = true := by decide +kernel

/-! ## Ill-formed terms: one for every check of `Instr.wf` -/

theorem illFormed_slotFree : (Instr.fop 0 0 (1 <<< 64)).wf = false ∧ (Instr.nop 0 .c 0 (1 <<< 192)).wf = false
    ∧ (Instr.mma 0 0 1).wf = false ∧ (Instr.ld 0 0 (1 <<< 128)).wf = false ∧ (Instr.halt 0 0 (1 <<< 255)).wf = false := by decide +kernel

theorem illFormed_message :
    (Instr.reqRead 0 (msg0 3 1 0 1 [])).wf = false ∧ (Instr.reqWrite 0 { msg0 1 2 0 1 [5] with units := [] }).wf = false
      ∧ (Instr.rspReadData 0 (msg0 1 0x81 0 1 [])).wf = false ∧ (Instr.svcRead 0 (msg0 1 1 0 1 [])).wf = false
      ∧ (Instr.messageForward 0 (msg0 8 1 0 1 [])).wf = false ∧ (Instr.offer (msg0 1 3 0 1 [])).wf = false
      ∧ (Instr.quench 0 { msg0 6 2 0 1 [] with units := List.replicate 65 0 }).wf = false := by decide +kernel

theorem illFormed_console :
    (Instr.uartConsoleCommand (.read 65536 0)).wf = false ∧ (Instr.uartConsoleCommand (.write 0 256 [])).wf = false
      ∧ (Instr.uartConsoleCommand (.log (2 ^ 32))).wf = false := by decide +kernel

theorem illFormed_celsius : (Instr.tempWarn .mgmt 32768).wf = false ∧ (Instr.overtempShutdown .mgmt (-32769)).wf = false := by
  decide +kernel

theorem illFormed_lengths :
    (Instr.codewordReceive 0 0 [0]).wf = false ∧ (Instr.alignComplete 0 0 0 [0]).wf = false ∧ (Instr.ceilingUpdate [] []).wf = false
      ∧ (Instr.sync { time0 0 with bytes := zeros 4153 }).wf = false := by decide +kernel

theorem illFormed_frame :
    (Instr.read .a { frame0 0 0 [] 0 with offset := 2 ^ 64 }).wf = false ∧ (Instr.write .a (frame0 0 0 [] (2 ^ 32))).wf = false
      ∧ (Instr.event .b { frame0 0 0 [] 0 with total := 2 ^ 32 }).wf = false := by decide +kernel

theorem illFormed_entry :
    (Instr.odWrite .node0 65536 0 []).wf = false ∧ (Instr.odWrite .node0 0 256 []).wf = false
      ∧ (Instr.imageBlock .node0 (2 ^ 64) 0 []).wf = false ∧ (Instr.fwInstall .node0 0 (2 ^ 32) []).wf = false
      ∧ (Instr.quote .node0 0 (2 ^ 32)).wf = false ∧ (Instr.piece (2 ^ 32) []).wf = false := by decide +kernel

/-- A value of 2^32 bytes is refused by its length alone. -/
theorem illFormed_value (d : List Byte) (h : 2 ^ 32 ≤ d.length) : (Instr.alertClear .node0 d).wf = false := by
  simpa [Instr.wf, valueWf] using h

theorem wellFormed : (Instr.fop 0 0 0).wf = true ∧ (Instr.reqRead 0 (msg0 1 1 0 1 [])).wf = true
    ∧ (Instr.uartConsoleCommand (.read 65535 255)).wf = true ∧ (Instr.alertClear .node0 [1]).wf = true := by decide +kernel

/-! ## Decoding: no row of the table has bits -/

theorem test_decode : decodeTableWord 0 0 = none ∧ decodeTableWord 64 5 = none ∧ State.reset.withFetchWord 8 1 = State.reset :=
  ⟨rfl, rfl, rfl⟩

/-! ## Values the spec gives -/

/-- CRC-32 and CRC-64 of no bytes: the initial ones complemented. -/
theorem test_crc_empty : crc32 [] = 0 ∧ crc64Of [] = 0 := by decide +kernel

/-- The spec's bounds of R36 and R509: a fall below 30 V on both blades takes the part to Cold, 30 V does not. -/
theorem test_alwaysOn : (∃ t, exec (.alwaysOnDomainStop 29999 29999) kin = .next t ∧ t.power = .cold)
    ∧ ∃ t, exec (.alwaysOnDomainStop 30000 29999) kin = .next t ∧ t.power = .kindled :=
  ⟨⟨_, rfl, by decide +kernel⟩, ⟨_, rfl, by decide +kernel⟩⟩

/-- R21: a low of 1 µs on RESET_N resets, one of 999 ns does not. -/
theorem test_reset : (∃ t, exec (.coldReset 1000) kin = .next t ∧ t.boot = .held 1) ∧ exec (.coldReset 999) kin = .next kin :=
  ⟨⟨_, rfl, by decide +kernel⟩, rfl⟩

/-- R471, R474: slew_limit_w_per_ms takes 50 to 400 W/ms in two bytes. -/
theorem test_odWrite : (∃ t, exec (.odWrite .node0 0x2101 1 (toLE 2 50)) kin = .next t ∧ t.reg R.slewLimitWPerMs = 50 ∧ t.answer = 0)
    ∧ (∃ t, exec (.odWrite .node0 0x2101 1 (toLE 2 49)) kin = .next t ∧ t.reg R.slewLimitWPerMs = 400 ∧ t.answer = 0x0301) :=
  ⟨⟨_, rfl, by decide +kernel⟩, ⟨_, rfl, by decide +kernel⟩⟩


/-! ## The spec's worked examples -/

/-- Chapter 2: 0x12345FC0 lies in bank 383 of tier 3, at space-0 offset 0xD2345FC0 of region 3. -/
theorem test_bank : bankOf 0x12345FC0 = 383 ∧ tierOf 0x12345FC0 = 3 ∧ 3 * 0x40000000 + 0x12345FC0 = 0xD2345FC0 := by decide +kernel

/-- Chapter 10: 0xA5 has check bits 0b00011; one flipped bit is corrected, two are not. -/
theorem test_sramCode : sramCheck 0xA5 = 3 ∧ sramDecode 0xA5 3 = (0xA5, .clean) ∧ sramDecode 0x85 3 = (0xA5, .fixed)
    ∧ (sramDecode 0x84 3).2 = .bad := by decide +kernel

/-- The E2M1 operands of chapter 3's MXFP4 block. -/
def mxA : Vec := 0x0693 ||| (0x7E <<< 1024)
def mxB : Tile := { elems := 0x0C57, scales := 0x81 }

/-- Chapter 3: the block sum −1.0 lands exactly, and every rounding mode reads 0xBF800000. -/
theorem test_mxBlock : (ExAcc.add {} (columnTerm mxA mxB 4 4 64 0)).z = BitVec.ofInt 576 (-(2 ^ 286))
    ∧ ∀ r ∈ [Rnd.rne, .rtz, .rup, .rdn], ((ExAcc.add {} (columnTerm mxA mxB 4 4 64 0)).readout 0 r).1 = 0xBF800000 := by decide +kernel

/-- Chapter 3: 2^24 + 1 − 2^24 added exactly reads as 1.0. -/
theorem test_exactSum : ((ExAcc.add {} (columnTerm 0xC5803F804580 { elems := 0x45803F804580, scales := 0 } 10 10 32 0)).readout 0 .rne).1
    = 0x3F800000 := by decide +kernel

/-- Chapter 3: the three W128 terms at B = −20, and their sum's readout. -/
theorem test_w128 : window false 1 30 (-20) = (2 ^ 50, 0) ∧ window true 1 30 (-20) = (2 ^ 128 - 2 ^ 50, 0)
    ∧ window true 3 (-22) (-20) = (2 ^ 128 - 1, 1) ∧ (termOut false .rne (-20) (2 ^ 128 - 1, 1)).1 = 0xB5800000 := by decide +kernel

/-- Chapter 3: a block whose amax is 478 in E4M3 takes e = 0 and saturates to 448. -/
theorem test_quant : (quantBlock 0 (0x43EF0000 :: List.replicate 31 0)).1 = 127
    ∧ (quantBlock 0 (0x43EF0000 :: List.replicate 31 0)).2.1.head? = some 0x7E := by decide +kernel

/-- Chapter 3: the counter of seed, step 42, stream 7 and element 10, whose word is w2. -/
theorem test_philox : randomWord 0x0123456789ABCDEFFEDCBA9876543210 42 7 10
    = (philoxRounds 10 0x76543210 0xFEDCBA98 (2, 7, 0x89ABCDC5, 0x01234567)).2.2.1 := by decide +kernel

/-- Chapter 7: timestamps just after and just before the wrap of NT32. -/
theorem test_extend : { State.reset with frame := 762600 }.extendTime (0x1000 * 65536) = 4294971392 * 65536
    ∧ { State.reset with frame := 762600 }.extendTime (0xFFFFE000 * 65536) = 4294959104 * 65536 := by decide +kernel

/-- Chapter 8: the torus of 8 × 6 × 7, cut to the chips of one route. -/
def torus : List Byte :=
  toLE 2 1 ++ toLE 2 7 ++ [0, 8, 6, 7, 1, 7] ++ zeros 54
    ++ ([(22, 0x026), (70, 0x126), (118, 0x226), (160, 0x320), (161, 0x321), (166, 0x326), (167, 0x327)] : List (Nat × Nat)).flatMap
      fun x => toLE 2 x.1 ++ toLE 2 x.2 ++ toLE 2 0xFFFF ++ toLE 2 0xFFFF

/-- Chapter 8: the route entries of chips 161, 166 and 22 for chip 22. -/
theorem test_route : manifestStatus torus 161 = 0 ∧ derivedRoute torus 161 22 = 0x011F ∧ derivedRoute torus 166 22 = 0x015F
    ∧ derivedRoute torus 22 22 = 0x0180 ∧ expectedNeighbour torus 160 4 = some (167, 0) := by decide +kernel

/-- Chapter 9: the MOV and OR that load a far address, before and after their relocation to 0x48_0001_2340. -/
theorem test_reloc : patchImm ((0x041401A003910000 : BitVec 256) <<< 192) true 0x4800012340 = some ((0x041401A003910048 : BitVec 256) <<< 192)
    ∧ (slotOf ((0x041401A003910000 : BitVec 256) <<< 192) .c).op = 1 := by decide +kernel

/-- Chapter 13: first_step = 42 written to the part at position 5 with chip number 37, between jobs and during one. -/
def write42 : GFrame :=
  { fcsOk := true, etherType := 0x88B5, version := 1, flags := 0, node := 0, position := 5, chainLength := 0, chip := 37,
    sequence := 1, status := 0, index := 0x7000, sub := 4, offset := 0, length := 8, total := 0, opcode := 2,
    data := toLE 8 42 }

def part37 : State := put kin [(R.chainPosition, 5), (R.chipNumber, 37)]

theorem test_writeFrame :
    (∃ t, exec (.write .a write42) part37 = .next t ∧ t.reg R.firstStep = 42 ∧ t.gtx.map (fun g => (g.opcode, g.f.flags, g.f.position, g.f.chip, g.f.status, g.f.length)) = [(2, 1, 5, 37, 0, 0)])
    ∧ ∃ t, exec (.write .a write42) (put part37 [(R.jobState, 2)]) = .next t ∧ t.reg R.firstStep = 0 ∧ t.gtx.map (·.f.status) = [0x0401] :=
  ⟨⟨_, rfl, by decide +kernel⟩, ⟨_, rfl, by decide +kernel⟩⟩

/-- Chapter 10: at T = 3 the fourth correction in a row fires and empties the counter. -/
theorem test_ceCounter :
    let s := put kin [(R.ceThreshold 21, 3)]
    (s.correctN 21 0 3).reg (R.ceLevel 21) = 3 ∧ (s.correctN 21 0 3).reg (R.firings 21) = 0
      ∧ (s.correctN 21 0 4).reg (R.ceLevel 21) = 0 ∧ (s.correctN 21 0 4).reg (R.firings 21) = 1 := by decide +kernel

end Sys2Proof.Tests
end

section
/-! What raising a fault and training a port leave alone, said once as the equality of a projection of the state (R163, R257, R540). -/

namespace Sys2Proof.Machine

/-! ## Folds -/

/-- What every step of a fold keeps, the fold keeps. -/
theorem each_keeps {α β : Type} (P : State → β) (f : State → α → State) (l : List α) (s : State)
    (h : ∀ t, ∀ x ∈ l, P (f t x) = P t) : P (s.each l f) = P s := by
  induction l generalizing s with
  | nil => rfl
  | cons x l ih =>
    calc P ((f s x).each l f) = P (f s x) := ih (f s x) fun t y hy => h t y (by simp [hy])
      _ = P s := h s x (by simp)

/-! ## The projection -/

/-- The fields that neither a fault nor a port's training touches, with what stands under key `k` among the registers and the BLOB
registers, whatever the default. -/
structure Aside where
  power : Power
  boot : Boot
  h : Nat
  load : Nat
  ballast : Nat
  us : Nat
  groupsOn : Nat
  sram : Memory
  dram : Memory
  cfg : Tab (List Byte)
  measLog : List (List Byte)
  reg : Nat → Nat
  blob : List Byte → List Byte

/-- That projection of a state. -/
def State.aside (s : State) (k : Nat) : Aside where
  power := s.power
  boot := s.boot
  h := s.h
  load := s.load
  ballast := s.ballast
  us := s.us
  groupsOn := s.groupsOn
  sram := s.sram
  dram := s.dram
  cfg := s.cfg
  measLog := s.measLog
  reg := fun d => Tab.get d s.regs k
  blob := fun d => Tab.get d s.blobs k

/-- A register is read from the projection. -/
theorem reg_of_aside {s t : State} {k : Nat} (h : t.aside k = s.aside k) : t.reg k = s.reg k := by
  have hr : ∀ d, Tab.get d t.regs k = Tab.get d s.regs k := congrFun (congrArg Aside.reg h)
  have hc : t.cfg = s.cfg := congrArg Aside.cfg h
  simp [State.reg, State.dflt, State.cfgValue, hr, hc]

/-- A BLOB register is read from the projection. -/
theorem blob_of_aside {s t : State} {k : Nat} (h : t.aside k = s.aside k) : t.blob k = s.blob k := by
  have hb : ∀ d, Tab.get d t.blobs k = Tab.get d s.blobs k := congrFun (congrArg Aside.blob h)
  have hc : t.cfg = s.cfg := congrArg Aside.cfg h
  simp [State.blob, State.cfgValue, hb, hc]

theorem aside_setReg {k j : Nat} (h : k ≠ j) (s : State) (v : Nat) : (s.setReg j v).aside k = s.aside k := by
  simp [State.aside, State.setReg, h]

theorem aside_setBlob {k j : Nat} (h : k ≠ j) (s : State) (l : List Byte) : (s.setBlob j l).aside k = s.aside k := by
  simp [State.aside, State.setBlob, h]

theorem aside_each {α : Type} {f : State → α → State} {l : List α} {k : Nat}
    (h : ∀ t, ∀ x ∈ l, (f t x).aside k = t.aside k) (s : State) : (s.each l f).aside k = s.aside k :=
  each_keeps (State.aside · k) f l s h

theorem aside_ite {c : Prop} [Decidable c] {s t u : State} {k : Nat} (ht : t.aside k = s.aside k) (hu : u.aside k = s.aside k) :
    (if c then t else u).aside k = s.aside k := by
  split
  · exact ht
  · exact hu

/-! ## The log -/

/-- A log entry changes no register but the log's counts, whatever the default. -/
theorem regs_logEntry (s : State) (code kind unit detail : Nat) {k : Nat} (hk : k ∉ logRegs) (d : Nat) :
    Tab.get d (s.logEntry code kind unit detail).regs k = Tab.get d s.regs k := by
  simp only [logRegs, List.mem_cons, List.not_mem_nil, or_false, not_or] at hk
  obtain ⟨h1, h2, h3, h4⟩ := hk
  have hsend : ∀ (t : State) (e : LogEntry), Tab.get d (t.sendEvent e).regs k = Tab.get d t.regs k := fun t e => by
    rcases sendEvent_cases t e with h | ⟨n, g, h⟩
    · simp [h, State.bump, State.setReg, h4]
    · rw [h]
  unfold State.logEntry
  simp only [hsend]
  split <;> simp [State.bump, State.setReg, h1, h2, h3]

theorem aside_logEntry (s : State) (code kind unit detail : Nat) {k : Nat} (hk : k ∉ logRegs) :
    (s.logEntry code kind unit detail).aside k = s.aside k := by
  have hr := regs_logEntry s code kind unit detail hk
  obtain ⟨e, l, r, g, n, h, -⟩ := logEntry_cases s code kind unit detail
  rw [h] at hr ⊢
  simp only [State.aside, hr]

theorem aside_event (s : State) (code unit detail : Nat) {k : Nat} (hk : k ∉ logRegs) :
    (s.event code unit detail).aside k = s.aside k := aside_logEntry s code 0 unit detail hk

/-- A flood changes the ports' queues, the message stamp and the flood numbers alone. -/
theorem flood_cases (s : State) (units : List (BitVec 512)) (op : Nat) (rest : List Byte) :
    ∃ po st n seen, s.flood units op rest = { s with ports := po, msgStamp := st, floodSeq := n, floodsSeen := seen } := by
  have key (t : State) (m : Msg) (l : List Nat) : ∀ po st, ∃ po' st', ({ t with ports := po, msgStamp := st } : State).each l
      (fun u p => if op = 2 then u.modPort p fun x => { x with quenchTx := x.quenchTx ++ [m] } else u.queueMsg p m)
        = { t with ports := po', msgStamp := st' } := by
    induction l with
    | nil => exact fun po st => ⟨po, st, rfl⟩
    | cons p l ih =>
      intro po st
      by_cases h : op = 2
      · simp only [h, if_true] at ih ⊢
        exact ih _ st
      · simp only [h, if_false] at ih ⊢
        exact ih _ (st + 1)
  obtain ⟨seen, hseen⟩ : ∃ seen, ({ s with floodSeq := s.floodSeq + 1 } : State).noteFlood Config.serial (s.floodSeq + 1)
    = { s with floodSeq := s.floodSeq + 1, floodsSeen := seen } := ⟨_, rfl⟩
  unfold State.flood
  dsimp only
  rw [hseen]
  obtain ⟨po, st, h⟩ := key { s with floodSeq := s.floodSeq + 1, floodsSeen := seen } _
    (State.mgmtPorts { s with floodSeq := s.floodSeq + 1, floodsSeen := seen } none) s.ports s.msgStamp
  exact ⟨po, st, _, _, h⟩

theorem aside_flood (s : State) (units : List (BitVec 512)) (op : Nat) (rest : List Byte) (k : Nat) :
    (s.flood units op rest).aside k = s.aside k := by
  obtain ⟨po, st, n, seen, h⟩ := flood_cases s units op rest
  rw [h]
  rfl

/-! ## Faults -/

/-- The registers that a fault can change: the log's counts, those of the fault, of the record, and of a start it abandons. -/
def faultRegs : List Nat := logRegs ++
  [R.lastFaultCause, R.lastCoreFault, R.lastFaultCore, R.jobState, R.joinStep, R.regionLight, R.stackActive, R.replayStep,
    R.replayAttempt, R.quenchFrame, R.replayFrame, R.quenchOrigin, R.quenchCause]

theorem not_mem_logRegs {k : Nat} (hk : k ∉ faultRegs) : k ∉ logRegs := fun h => hk (List.mem_append_left _ h)

section
variable {k : Nat} (hk : k ∉ faultRegs)
include hk

theorem ne_of_mem_faultRegs {j : Nat} (hj : j ∈ faultRegs) : k ≠ j := fun h => hk (h ▸ hj)

theorem aside_noteCoreFault (s : State) (code : Nat) (at? : Option (Nat × Nat)) :
    (s.noteCoreFault code at?).aside k = s.aside k := by
  unfold State.noteCoreFault
  split
  · rw [aside_setReg (ne_of_mem_faultRegs hk (by decide)), aside_setReg (ne_of_mem_faultRegs hk (by decide))]
  · rfl

theorem aside_showRec (s : State) : s.showRec.aside k = s.aside k := by
  have h (t : State) (j v : Nat) (hj : j ∈ faultRegs) : (t.setReg j v).aside k = t.aside k :=
    aside_setReg (ne_of_mem_faultRegs hk hj) t v
  unfold State.showRec
  split <;>
    rw [h _ _ _ (by decide), h _ _ _ (by decide), h _ _ _ (by decide), h _ _ _ (by decide), h _ _ _ (by decide),
      h _ _ _ (by decide)]

theorem aside_abandonStart (s : State) : s.abandonStart.aside k = s.aside k := by
  show ((s.setReg R.regionLight s.formerLight).setReg R.stackActive s.formerStacks).aside k = _
  rw [aside_setReg (ne_of_mem_faultRegs hk (by decide)), aside_setReg (ne_of_mem_faultRegs hk (by decide))]

theorem aside_takeRecord (s : State) (m : QRec) (ep : BitVec 2) : (s.takeRecord m ep).1.aside k = s.aside k := by
  have hlog (t : State) (h : t.aside k = s.aside k) : (t.event 0x7071 0xFF noDetail).aside k = s.aside k :=
    (aside_event t _ _ _ (not_mem_logRegs hk)).trans h
  unfold State.takeRecord
  split
  case h_1 =>
    split
    · split
      · rfl
      · rw [aside_event _ _ _ _ (not_mem_logRegs hk)]
        show (((s.setReg R.jobState 0).setReg R.joinStep 0xFFFFFFFFFFFFFFFF).abandonStart).aside k = _
        rw [aside_abandonStart hk, aside_setReg (ne_of_mem_faultRegs hk (by decide)),
          aside_setReg (ne_of_mem_faultRegs hk (by decide))]
    · rfl
  case h_2 hjob =>
    dsimp only
    split
    · rw [if_pos hjob]
      exact aside_ite (hlog _ (aside_showRec hk _)) (aside_showRec hk _)
    · split
      · rfl
      · split
        · exact aside_showRec hk _
        · rw [if_neg (by omega : ¬ s.reg R.jobState = 3)]
          exact aside_ite (hlog _ (aside_showRec hk _)) (aside_showRec hk _)
  case h_3 hjob =>
    dsimp only
    split
    · rw [if_neg (by omega : ¬ s.reg R.jobState = 2)]
    · split
      · rfl
      · split
        · exact aside_showRec hk _
        · exact aside_showRec hk _
  case h_4 => rfl

theorem aside_sendQuench (s : State) (q : QRec) : (s.sendQuench q).aside k = s.aside k :=
  (aside_takeRecord hk _ _ _).trans (aside_flood _ _ _ _ k)

theorem aside_originate (s : State) (cause : Nat) (isEnd held : Bool) : (s.originate cause isEnd held).aside k = s.aside k := by
  unfold State.originate
  exact (aside_sendQuench hk _ _).trans (aside_ite (aside_logEntry s _ _ _ _ (not_mem_logRegs hk)) rfl)

/-- A fault that leads to a replay (R549), as the loss of a port that the job needs does. -/
theorem aside_raise (s : State) {code : Nat} (hact : faultAct code = .replay) (unit detail : Nat) :
    (s.raise code unit detail).aside k = s.aside k := by
  have hlog (kind : Nat) : ((s.logEntry code kind unit detail).noteCoreFault code none).aside k = s.aside k :=
    (aside_noteCoreFault hk _ _ _).trans (aside_logEntry s _ _ _ _ (not_mem_logRegs hk))
  have hcause : (((s.logEntry code 1 unit detail).setReg R.lastFaultCause code).noteCoreFault code none).aside k = s.aside k :=
    (aside_noteCoreFault hk _ _ _).trans
      ((aside_setReg (ne_of_mem_faultRegs hk (by decide)) _ _).trans (aside_logEntry s _ _ _ _ (not_mem_logRegs hk)))
  have hact' (t : State) : (t.actOn code detail none 0).aside k = t.aside k := by
    simp only [State.actOn, hact]
    exact aside_originate hk t _ _ _
  unfold State.raise
  split
  · split
    · exact hlog 2
    · exact hcause
  · split
    · exact hlog 0
    · dsimp only
      split
      · simp only [hact, reduceCtorEq, false_or, false_and, and_false, if_false]
        exact hlog 2
      · exact (hact' _).trans hcause

end

end Sys2Proof.Machine
end

section
/-! What training a port, or turning it off, leaves alone (R253, R257). -/

namespace Sys2Proof.Machine

/-- The keys of one port that its training sets. -/
def portKeys (p : Nat) : List Nat :=
  [R.linkState p, R.portMode p, R.width p, R.lanesGood p, R.heldReason p, R.pathDelay p, R.trainAttempts p, R.retrainsJob p,
    R.readyOffsetMeasured p, R.peerIdentity p]

theorem aside_discover (s : State) (k : Nat) : s.discover.aside k = s.aside k := by
  have hone (t : State) (p : GPort) (f : GFrame) : (t.sendEventOn p f).aside k = t.aside k := by
    unfold State.sendEventOn
    exact aside_ite rfl rfl
  have hreport (t : State) (m : Msg) : (t.report m).aside k = t.aside k :=
    by
    unfold State.report
    refine (aside_each (fun u p _ => ?_) _).trans ?_
    · exact aside_each (fun v l _ => hone v p _) u
    · simp only [State.aside]
  exact (hreport _ _).trans (aside_flood s _ _ _ k)

theorem aside_left (s : State) (q : TxMsg) (k : Nat) : (s.left q).aside k = s.aside k := by
  unfold State.left State.freeHeld
  split
  · split <;> rfl
  · rfl

theorem aside_dropBuffers (s : State) (p k : Nat) : (s.dropBuffers p).aside k = s.aside k := by
  have hdrop (t : State) (l : List Nat) (mine : TxMsg → Bool) :
      (t.each l fun u r => if (u.port r).txq.any mine then u.modPort r fun x => { x with txq := x.txq.filter fun q => !mine q } else u).aside k
        = t.aside k := by
    refine aside_each (fun u r _ => ?_) t
    split <;> rfl
  unfold State.dropBuffers
  dsimp only
  split
  · exact (aside_left _ _ k).trans (hdrop _ _ _)
  · exact hdrop _ _ _

theorem ne_of_mem_portKeys {k p j : Nat} (hp : k ∉ portKeys p) (hj : j ∈ portKeys p) : k ≠ j := fun h => hp (h ▸ hj)

theorem aside_linkEntries {k p : Nat} (hp : k ∉ portKeys p) (s : State) (st w : Nat) :
    (s.linkEntries p st w).aside k = s.aside k := by
  have hset (t : State) (j v : Nat) (hj : j ∈ portKeys p) : (t.setReg j v).aside k = t.aside k :=
    aside_setReg (ne_of_mem_portKeys hp hj) t v
  unfold State.linkEntries
  rw [hset _ _ _ (by simp [portKeys]), hset _ _ _ (by simp [portKeys]), hset _ _ _ (by simp [portKeys]),
    hset _ _ _ (by simp [portKeys]), hset _ _ _ (by simp [portKeys]), hset _ _ _ (by simp [portKeys])]

section
variable {k : Nat} (hk : k ∉ faultRegs)
include hk

theorem aside_leaveUp (s : State) (p : Nat) : (s.leaveUp p).aside k = s.aside k :=
  aside_ite (aside_raise hk s (by decide) _ _) rfl

variable {p : Nat} (hp : k ∉ portKeys p)
include hp

theorem aside_retrain (s : State) : (s.retrain p).aside k = s.aside k := by
  have hset (t : State) (j v : Nat) (hj : j ∈ portKeys p) : (t.setReg j v).aside k = t.aside k :=
    aside_setReg (ne_of_mem_portKeys hp hj) t v
  have hclear (t : State) (x : Port) : (t.setPort p x).aside k = t.aside k := rfl
  have hbuf : ((s.leaveUp p).dropBuffers p).aside k = s.aside k := (aside_dropBuffers _ p k).trans (aside_leaveUp hk s p)
  unfold State.retrain State.bump
  refine (hset _ _ _ (by simp [portKeys])).trans (aside_ite ?_ ?_)
  · rw [hset _ _ _ (by simp [portKeys]), aside_linkEntries hp, hclear, hbuf]
  · rw [hset _ _ _ (by simp [portKeys]), hset _ _ _ (by simp [portKeys]), aside_linkEntries hp, hclear, hbuf]

theorem aside_portOff (s : State) : (s.portOff p).aside k = s.aside k := by
  have hpeer (t : State) : t.peerChanged.aside k = t.aside k := by
    unfold State.peerChanged
    exact aside_ite (aside_discover t k) rfl
  have hoff : (((((s.leaveUp p).dropBuffers p).setPort p { (((s.leaveUp p).dropBuffers p).port p).cleared with dark := true }).linkEntries
      p 0 0).setBlob (R.peerIdentity p) []).aside k = s.aside k := by
    rw [aside_setBlob (ne_of_mem_portKeys hp (by simp [portKeys])), aside_linkEntries hp]
    exact (aside_dropBuffers _ p k).trans (aside_leaveUp hk s p)
  have hset (t : State) (v : Nat) : (t.setReg (R.readyOffsetMeasured p) v).aside k = t.aside k :=
    aside_setReg (ne_of_mem_portKeys hp (by simp [portKeys])) t v
  unfold State.portOff
  exact aside_ite ((hset _ _).trans hoff) ((hpeer _).trans ((hset _ _).trans hoff))

end

/-- Every port of a list trained anew or turned off, with a key of none of them. -/
theorem aside_retrainAll {k : Nat} (hk : k ∉ faultRegs) {l : List Nat} (hl : ∀ p ∈ l, k ∉ portKeys p) (s : State) :
    (s.retrainAll l).aside k = s.aside k :=
  aside_each (fun t p hp => aside_ite (aside_retrain hk (hl p hp) t) (aside_portOff hk (hl p hp) t)) s

/-- A trained port is in SEEK (R257). -/
theorem linkState_retrain (s : State) (p : Nat) : (s.retrain p).reg (R.linkState p) = 2 := by
  unfold State.retrain State.linkEntries
  split <;> simp [State.bump, R.linkState, R.portMode, R.width, R.lanesGood, R.heldReason, R.pathDelay, R.trainAttempts,
    R.retrainsJob, R.readyOffsetMeasured, regKey]

end Sys2Proof.Machine
end

section
/-! The pins, the sensors, the test port and the service UART: the statements that the meaning of one command settles (01, 14). -/

namespace Sys2Proof.Machine

/-! ## The test port (R26 to R28) -/

theorem tapTo_of_powered {s : State} (h : s.power ≠ .cold) (r : TapReg) : s.tapTo r = { s with tap := r } := if_neg h

theorem boundaryScan_of_powered {s : State} (h : s.power ≠ .cold) (extest : Bool) : s.boundaryScan extest
    = { s with freeCtr := s.freeCtr + 1, tap := .boundary extest, boundary := Config.boundaryCells s.freeCtr } := if_neg h

theorem testScan_of_powered {s : State} (h : s.power ≠ .cold) (op : Nat) : s.testScan op
    = { s with freeCtr := s.freeCtr + 1, tap := .test op, testBlock := Config.testScan op s.freeCtr } := if_neg h

/-- Without an authorisation nothing is in its scope (R27). -/
theorem scoped_of_locked {s : State} (h : s.reg R.testAccess = 0) (b : Nat) : s.scoped b = false := by
  simp [State.scoped, State.authorised, h]

/-- An opcode outside the table's rows selects BYPASS (R26). -/
theorem execBypass_of_unnamed {op : Byte} (h1 : op ∉ [(0x02 : Byte), 0x06, 0x20]) (h2 : op < 0x40 ∨ 0x80 ≤ op) (s : State) :
    execBypass op s = .next (s.tapTo .bypass) := by
  have hne : ∀ n < 256, op ≠ BitVec.ofNat 8 n → op.toNat ≠ n := fun n hn h h' =>
    h (by apply BitVec.eq_of_toNat_eq; simp [h', Nat.mod_eq_of_lt hn])
  simp only [List.mem_cons, List.not_mem_nil, or_false, not_or] at h1
  have hrange : op.toNat < 0x40 ∨ 0x80 ≤ op.toNat := h2
  have := hne 2 (by omega) h1.1
  have := hne 6 (by omega) h1.2.1
  have := hne 32 (by omega) h1.2.2
  exact if_neg (by omega)

/-- Settles O33: each instruction selects the register that its lock state and the job allow. -/
theorem testPort : Obligations.TestPort := by
  unfold Obligations.TestPort
  intro s hp
  have tap := tapTo_of_powered hp
  refine ⟨?_, ?_, ?_, ?_, ?_⟩
  · rw [← tap]; rfl
  · rw [← tap]; rfl
  · intro op h1 h2
    rw [← tap]
    exact execBypass_of_unnamed h1 h2 s
  · intro hs
    refine ⟨⟨Config.boundaryCells s.freeCtr, ?_⟩, fun op => ⟨Config.testScan op s.freeCtr, ?_⟩,
      fun hj => ⟨Config.boundaryCells s.freeCtr, ?_⟩, fun hj => ?_⟩
    · rw [← boundaryScan_of_powered hp]
      simp [exec, execSamplePreload, hs]
    · rw [← testScan_of_powered hp]
      simp [exec, execTestAccessInstruction, hs]
    · rw [← boundaryScan_of_powered hp]
      simp [exec, execExtest, hs, State.inJob, hj]
    · rw [← tap]
      simp [exec, execExtest, State.inJob, hj]
  · intro hl
    have hs := scoped_of_locked hl 0
    refine ⟨?_, ?_, fun op => ?_⟩ <;> rw [← tap]
    · simp [exec, execSamplePreload, hs]
    · simp [exec, execExtest, hs]
    · simp [exec, execTestAccessInstruction, hs]

/-! ## Wake and reset pins (R20, R21, R468) -/

theorem wake_of_banked {s : State} (h1 : s.power = .banked) (h2 : s.boot = .none) (h3 : s.refclk = true) (h4 : s.resetLow = false) :
    s.wake = { s with boot := .running s.bootCause } := if_pos ⟨h1, h2, h3, by simp [h4]⟩

theorem wake_ignored {s : State} (h : s.power ≠ .banked ∨ s.resetLow = true) : s.wake = s := by
  refine if_neg ?_
  rintro ⟨hb, -, -, hr⟩
  rcases h with h | h
  · exact h hb
  · exact hr h

/-- A low of WAKE_N wakes from 10 µs on (R20). -/
theorem execWake_eq (ns : Nat) (s : State) : execWake ns s = .next (if 10000 ≤ ns then s.wake else s) := by
  unfold execWake
  split <;> rfl

/-- The Glazin pattern wakes from eight on-periods on (R468). -/
theorem execWakePattern_eq (port : GPort) (n : Nat) (s : State) : execWakePattern port n s = .next (if 8 ≤ n then s.wake else s) := by
  unfold execWakePattern
  split <;> rfl

theorem exec_wake (ns : Nat) (s : State) : exec (.wake ns) s = .next (if 10000 ≤ ns then s.wake else s) := execWake_eq ns s

theorem exec_wakePattern (port : GPort) (n : Nat) (s : State) :
    exec (.wakePattern port n) s = .next (if 8 ≤ n then s.wake else s) := execWakePattern_eq port n s

/-- Settles O30: the two wakes are one operation, which starts the boot in Banked alone. -/
theorem wakeAndRelease : Obligations.WakeAndRelease := by
  unfold Obligations.WakeAndRelease
  intro s
  refine ⟨fun h1 h2 h3 h4 => ⟨fun ns hns => ?_, fun port n hn => ?_⟩, fun h => ⟨fun ns => ?_, fun port n => ?_⟩, fun ns hns => ?_,
    fun port n hn => ?_, fun c hc => ?_⟩
  · rw [exec_wake, if_pos hns, wake_of_banked h1 h2 h3 h4]
  · rw [exec_wakePattern, if_pos hn, wake_of_banked h1 h2 h3 h4]
  · rw [exec_wake, wake_ignored h, ite_self]
  · rw [exec_wakePattern, wake_ignored h, ite_self]
  · rw [exec_wake, if_neg (by omega)]
  · rw [exec_wakePattern, if_neg (by omega)]
  · show execResetRelease s = _
    unfold execResetRelease
    rw [hc]
    dsimp only
    split <;> rfl

/-! ## Temperatures (R47) -/

/-- A reading is kept beside everything else. -/
theorem setTemp_cases (s : State) (x : Sensor) (c : Int) :
    ∃ r p o m, s.setTemp x c = { s with regions := r, palaz := p, opticsTemp := o, mgmtTemp := m } := by
  cases x
  case region r => exact ⟨_, s.palaz, s.opticsTemp, s.mgmtTemp, rfl⟩
  case stack k => exact ⟨s.regions, _, s.opticsTemp, s.mgmtTemp, rfl⟩
  case optics e => exact ⟨s.regions, s.palaz, _, s.mgmtTemp, rfl⟩
  case mgmt => exact ⟨s.regions, s.palaz, s.opticsTemp, c, rfl⟩

/-- The warning of a sensor that has reached its point and has not been logged. -/
theorem noteTemp_warn {s : State} {x : Sensor} {c : Int} (h : (sensorRow x).1 ≤ c) (hx : x ∉ s.warned) :
    s.noteTemp x c = ({ s.setTemp x c with warned := x :: s.warned }).event (sensorRow x).2.2.1 (sensorRow x).2.2.2 (twos 32 c) :=
  if_pos ⟨h, by simpa using hx⟩

/-- A sensor 5 °C below its point is warned anew from then on. -/
theorem noteTemp_cool {s : State} {x : Sensor} {c : Int} (h : c ≤ (sensorRow x).1 - 5) :
    s.noteTemp x c = { s.setTemp x c with warned := s.warned.filter (· ≠ x) } := by
  have h1 : ¬ ((sensorRow x).1 ≤ c ∧ ¬ s.warned.contains x = true) := fun h' => by omega
  exact (if_neg h1).trans (if_pos h)

/-- Any other reading is only kept. -/
theorem noteTemp_other {s : State} {x : Sensor} {c : Int} (h : (sensorRow x).1 - 5 < c) (hx : (sensorRow x).1 ≤ c → x ∈ s.warned) :
    s.noteTemp x c = s.setTemp x c := by
  have h1 : ¬ ((sensorRow x).1 ≤ c ∧ ¬ s.warned.contains x = true) := fun h' => h'.2 (by simpa using hx h'.1)
  exact (if_neg h1).trans (if_neg (not_le.mpr h))

/-- No reading moves ALERT_N, a quench record or the job. -/
theorem noteTemp_keeps (s : State) (x : Sensor) (c : Int) : (s.noteTemp x c).alertLow = s.alertLow
    ∧ (s.noteTemp x c).qrec = s.qrec ∧ (s.noteTemp x c).reg R.jobState = s.reg R.jobState := by
  obtain ⟨r, p, o, m, hset⟩ := setTemp_cases s x c
  rcases (by omega : c ≤ (sensorRow x).1 - 5 ∨ (sensorRow x).1 - 5 < c) with h | h
  · rw [noteTemp_cool h, hset]
    exact ⟨rfl, rfl, rfl⟩
  · by_cases hw : (sensorRow x).1 ≤ c ∧ x ∉ s.warned
    · rw [noteTemp_warn hw.1 hw.2, reg_event _ _ _ _ _ (by decide), hset]
      obtain ⟨e, l, g, q, n, hev, -⟩ := logEntry_cases
        { s with regions := r, palaz := p, opticsTemp := o, mgmtTemp := m, warned := x :: s.warned }
        (sensorRow x).2.2.1 0 (sensorRow x).2.2.2 (twos 32 c)
      rw [State.event, hev]
      exact ⟨rfl, rfl, rfl⟩
    · rw [noteTemp_other h fun h' => by_contra fun hx => hw ⟨h', hx⟩, hset]
      exact ⟨rfl, rfl, rfl⟩

/-- An event changes none of the fields but the log's. -/
theorem warned_event (s : State) (code unit detail : Nat) : (s.event code unit detail).warned = s.warned := by
  obtain ⟨e, l, g, q, n, hev, -⟩ := logEntry_cases s code 0 unit detail
  rw [State.event, hev]

/-- Settles O29, by the three cases of a reading: at the warning point and not logged, 5 °C below it, and every other. -/
theorem temperatureWarnings : Obligations.TemperatureWarnings := by
  unfold Obligations.TemperatureWarnings
  intro x c s hk row
  have hrow : row = ((sensorRow x).1, (sensorRow x).2.2.1, (sensorRow x).2.2.2) := by cases x <;> rfl
  have hlog : (s.setTemp x c).log = s.log ∧ (s.setTemp x c).warned = s.warned := by
    obtain ⟨r, p, o, m, hset⟩ := setTemp_cases s x c
    rw [hset]
    exact ⟨rfl, rfl⟩
  obtain ⟨halert, hrec, hjob⟩ := noteTemp_keeps s x c
  refine ⟨s.noteTemp x c, ?_, halert, ?_, ?_, ?_, ?_, hrec, hjob⟩
  · show execTempWarn x c s = _
    rw [execTempWarn, if_pos hk]
  all_goals rw [hrow]
  · intro h hx
    rw [noteTemp_warn h hx]
    exact ⟨by simp [warned_event], logged_event _ _ _ _⟩
  · intro h hx
    rw [noteTemp_other (by simp only at h; omega) fun _ => hx]
    exact hlog
  · intro h
    rw [noteTemp_cool h]
    refine ⟨hlog.1, by simp, fun y hy => by simp [hy]⟩
  · intro h h'
    rw [noteTemp_other h fun h'' => by simp only at h'; omega]
    exact hlog

/-! ## The service UART (R24, R25) -/

/-- A plain entry is read without a trace (R472). -/
theorem odRead_plain {index sub : Nat} {e : OdEntry} (hfind : odFind index sub = some e) (hl : lockedRange index = false)
    (hacc : e.acc ≠ .wo) (hkey : regKey index sub ∉ [R.testChallenge, R.tsPop]) (s : State) (src : OdSrc) :
    s.odRead src index sub = (0, s.odBytes e, s) := by
  simp only [List.mem_cons, List.not_mem_nil, or_false, not_or] at hkey
  simp only [State.odRead, hl, hfind, hacc, hkey.1, hkey.2, if_false, Bool.false_eq_true]

/-- A console without test access writes nothing (R25). -/
theorem wholeWrite_of_locked {s : State} (h : s.reg R.testAccess = 0) (index sub : Nat) (d : List Byte) :
    s.wholeWrite .uart index sub d = (s, 0x0501) := by
  have hbar : s.writeBar .uart = 0x0501 := if_pos ⟨rfl, by simp [scoped_of_locked h]⟩
  simp [State.wholeWrite, State.odWrite, hbar]

/-- An awake part whose console is enabled answers a console command. -/
theorem exec_uartConsoleCommand {s : State} (ha : s.awake = true) (he : s.reg R.uartConsoleEnable = 1) (cmd : ConsoleCmd) :
    exec (.uartConsoleCommand cmd) s =
      (let x : Served := match cmd with
        | .read index sub => ({ s with uartRx := [] } : State).odRead .uart index sub
        | .write index sub d =>
          ((({ s with uartRx := [] } : State).wholeWrite .uart index sub d).2, [],
            (({ s with uartRx := [] } : State).wholeWrite .uart index sub d).1)
        | .log seq => (0, (match s.log.find? fun e => e.seq.toNat == seq with | some e => e.bytes | none => []), { s with uartRx := [] })
      .next ({ x.2.2 with answer := x.1, answerData := x.2.1 }.uartLine (toLE 2 x.1 ++ x.2.1))) := by
  show execUartConsoleCommand cmd s = _
  refine (if_neg (by simp [ha, he])).trans ?_
  cases cmd <;> rfl

/-- Settles O35: the receiver, and the three console commands. -/
theorem serviceUart : Obligations.ServiceUart := by
  unfold Obligations.ServiceUart
  intro s
  refine ⟨fun hk hb ch => ?_, fun ha he => ⟨fun n e hfind => ?_, fun index sub e hfind hl hacc hkey => ?_, fun index sub d hlock => ?_⟩⟩
  · show execUartRxCharacter ch s = _
    rw [execUartRxCharacter, if_neg (by simp [hk, hb])]
    split <;> rfl
  · rw [exec_uartConsoleCommand ha he]
    dsimp only
    rw [hfind]
    rfl
  · rw [exec_uartConsoleCommand ha he]
    dsimp only
    rw [odRead_plain hfind hl hacc hkey]
    exact ⟨_, rfl, rfl, rfl, rfl, rfl, rfl⟩
  · rw [exec_uartConsoleCommand ha he]
    dsimp only
    rw [wholeWrite_of_locked (s := { s with uartRx := [] }) hlock]
    exact ⟨_, rfl, rfl, rfl, rfl, rfl⟩

end Sys2Proof.Machine
end

section
/-! Input power: what a power-on reset keeps, and what forced shutdowns do where a configuration record names more than class K entries
(R29, R34, R46, R509). -/

namespace Sys2Proof.Machine

/-! ## The power-on reset (R509) -/

/-- A table cut down by its keys. -/
theorem tab_get_filter {α : Type} (d : α) (t : Tab α) (keep : Nat → Bool) (k : Nat) :
    Tab.get d (t.filter fun x => keep x.1) k = if keep k then Tab.get d t k else d := by
  induction t with
  | nil => simp
  | cons x t ih =>
    obtain ⟨j, v⟩ := x
    by_cases hj : j = k
    · subst hj
      cases hkeep : keep j
      · simpa [List.filter, hkeep] using ih
      · simp [List.filter, hkeep, Tab.get]
    · cases hkeep : keep j <;> simp [List.filter, hkeep, Tab.get, hj, ih]

/-- The registers that a power-on reset keeps: class K, and what shows the blades. -/
def keptAtPowerOn (k : Nat) : Bool :=
  decide (regPer k = .k) || (liveReg k && !unlitReg k && decide (k ≠ R.inputCurrentMa) && decide (k ≠ R.inputPowerMw))

theorem reg_powerOn (s : State) (p : Power) (k : Nat) : (s.powerOn p).reg k = if keptAtPowerOn k then s.reg k else s.dflt k :=
  tab_get_filter (s.dflt k) s.regs keptAtPowerOn k

theorem reg_powerOn_k (s : State) (p : Power) {k : Nat} (hk : regPer k = .k) : (s.powerOn p).reg k = s.reg k := by
  rw [reg_powerOn, if_pos (by simp [keptAtPowerOn, hk])]

theorem reg_powerOn_default (s : State) (p : Power) {k : Nat} (hk : regPer k ≠ .k) (hl : liveReg k = false) :
    (s.powerOn p).reg k = s.dflt k := by
  rw [reg_powerOn, if_neg (by simp [keptAtPowerOn, hk, hl])]

theorem reg_readBlades (s : State) (a b k : Nat) : (s.readBlades a b).reg k
    = if k = R.bladePresent then (if 37000 ≤ a then 1 else 0) + (if 37000 ≤ b then 2 else 0) else s.reg k := by
  unfold State.readBlades
  rw [reg_setReg]
  rfl

/-- The part once input power has come, the blades at two voltages. -/
def State.arrived (s : State) (a b : Nat) : State :=
  (({ (s.powerOn .banked).readBlades a b with inputSwitch := true, refclk := true, bootCause := 0 }).setReg R.bladeAMv a).setReg R.bladeBMv b

theorem exec_inputPowerArrival {s : State} {a b : Nat} (h : s.insertable a b = true) :
    exec (.inputPowerArrival a b) s = .next (s.arrived a b) := if_pos h

theorem reg_arrived (s : State) (a b k : Nat) : (s.arrived a b).reg k =
    if k = R.bladeBMv then b else if k = R.bladeAMv then a else ((s.powerOn .banked).readBlades a b).reg k := by
  unfold State.arrived
  rw [reg_setReg, reg_setReg]
  rfl

/-- Only the blades' own entries differ from the power-on reset. -/
theorem reg_arrived_other (s : State) (a b : Nat) {k : Nat} (h : k ∉ [R.bladeAMv, R.bladeBMv, R.bladePresent]) :
    (s.arrived a b).reg k = (s.powerOn .banked).reg k := by
  simp only [List.mem_cons, List.not_mem_nil, or_false, not_or] at h
  rw [reg_arrived, if_neg h.2.1, if_neg h.1, reg_readBlades, if_neg h.2.2]

/-- Settles O24: the part after the power-on reset, read field by field. -/
theorem powerComesAndGoes : Obligations.PowerComesAndGoes := by
  unfold Obligations.PowerComesAndGoes
  intro s
  refine ⟨fun a b hcold ha hb htrip => ?_, fun a b ha hb hpow => ?_, rfl⟩
  · have hin : s.insertable a b = true := by
      rcases htrip with h | ⟨h, h'⟩ <;> simp [State.insertable, *]
    refine ⟨_, exec_inputPowerArrival hin, rfl, rfl, rfl, rfl, ?_, ?_, ?_, fun k hk => ?_, fun k hk hl => ?_, rfl, rfl, rfl, rfl,
      rfl, rfl⟩
    · rw [reg_arrived, if_neg (by decide), if_pos rfl]
    · rw [reg_arrived, if_pos rfl]
    · rw [reg_arrived, if_neg (by decide), if_neg (by decide), reg_readBlades, if_pos rfl, if_pos (by omega), if_pos (by omega)]
    · have hk' : k ∉ [R.bladeAMv, R.bladeBMv, R.bladePresent] := fun h =>
        (by decide : ∀ j ∈ [R.bladeAMv, R.bladeBMv, R.bladePresent], regPer j ≠ .k) k h hk
      rw [reg_arrived_other s a b hk', reg_powerOn_k s _ hk]
    · have hk' : k ∉ [R.bladeAMv, R.bladeBMv, R.bladePresent] := fun h =>
        Bool.false_ne_true (hl.symm.trans ((by decide : ∀ j ∈ [R.bladeAMv, R.bladeBMv, R.bladePresent], liveReg j = true) k h))
      rw [reg_arrived_other s a b hk', reg_powerOn_default s _ hk hl]
      rfl
  · have hexec : exec (.alwaysOnDomainStop a b) s = .next ((s.powerOn .cold).readBlades a b) := if_pos ⟨by omega, hpow⟩
    refine ⟨_, hexec, rfl, rfl, rfl, rfl, fun k hk => ?_, rfl, rfl⟩
    rw [reg_readBlades, if_neg fun h => absurd hk (by rw [h]; decide), reg_powerOn_k s _ hk]

/-! ## Forced shutdowns (R46) -/

/-- A part in Kindled with a configuration record in force that names job_state, an entry of class V. -/
def namesJobState : State := { power := .kindled, cfg := [(R.jobState, [5])] }

/-- Refutes O25: the overvoltage clause has job_state 0 in Cold. job_state is of class V, so the part in Cold shows its default, and a
configuration record that lists job_state gives it another one, here 5 (`State.dflt`, R567). `State.applyConfig` takes only class K values, so
no boot leads to such a state; the statement quantifies over every state. -/
theorem not_forcedShutdowns : ¬ Obligations.ForcedShutdowns := by
  unfold Obligations.ForcedShutdowns
  intro h
  obtain ⟨-, hover, -⟩ := h namesJobState
  obtain ⟨t, hexec, -, -, -, -, -, hjob⟩ := hover 61000 48000 (by decide) (by decide)
  have ht : exec (.inputOvervoltage 61000 48000) namesJobState
      = .next ((namesJobState.readBlades 61000 48000).forcedShutdown 0x5002 0xFF 61000 .cold) := rfl
  rw [ht] at hexec
  injection hexec with hexec
  rw [← hexec] at hjob
  exact absurd hjob (by decide +kernel)

end Sys2Proof.Machine
end

section
/-! Cold resets: what an aborted descriptor does to a stack word that it covers in part (R418, R514). -/

namespace Sys2Proof.Machine

/-- A part in Kindled with DMA channel 0 in a descriptor that writes one byte, byte 1 of stack memory. Byte 0 of its word holds 3 where the
word's check symbols are those of a word with 1 there: one symbol is wrong, which a read corrects (R375). -/
def midWord : State :=
  { power := .kindled
    regs := [(R.dmaState 0, 2)]
    chans := [(0, { busy := true, desc := BitVec.ofNat 512 ((2 ^ 48 + 1) * 2 ^ 64 + 2 ^ 128 + 12 * 2 ^ 272) })]
    dram := [(0, 3)]
    dramChk := Memory.writeN [] 0 (rsCheckBytes (1 :: zeros 63)) }

/-- The descriptor is a legal one, from byte 0 of SRAM to byte 1 of stack memory (R399, R400). -/
theorem descInvalid_midWord : midWord.descInvalid (descFields (midWord.chan 0).desc) = false := by decide +kernel

theorem spared_midWord : midWord.spared 1 0 := by
  have hone : ∀ c < 64, midWord.reg (R.dmaState c) = 2 → c = 0 := by decide +kernel
  intro c hc hrun hbusy d hlocal hspace
  obtain rfl := hone c hc hrun
  exact .inl (by decide +kernel : 0 < bits (descFields (midWord.chan 0).desc).dst 47 0)

/-- Refutes O31: a low on RESET_N aborts the descriptor of `midWord`, whose byte 1 becomes undefined (R418); the part writes that byte by
reading, correcting and merging its whole word (R378), so byte 0 turns from the stored 3 into the corrected 1, although the descriptor was
not to write it and `State.spared` names it. What a read of byte 0 answers stays the same: it is the raw byte that the statement compares.
Where the words at a descriptor's edges hold no wrong symbol the merge writes back what it read. -/
theorem not_coldResets : ¬ Obligations.ColdResets := by
  unfold Obligations.ColdResets
  intro h
  obtain ⟨hreset, -⟩ := h midWord
  obtain ⟨t, hexec, -, hcold⟩ := hreset 1000 (by decide) (by decide)
  obtain ⟨-, -, -, -, -, -, -, hdram, -⟩ := hcold
  have ht : exec (.coldReset 1000) midWord = .next ({ midWord with resetLow := true }.coldReset (.held 1)) := rfl
  rw [ht] at hexec
  injection hexec with hexec
  have hread := hdram 0 (by decide) spared_midWord
  rw [← hexec] at hread
  exact absurd hread (by decide +kernel)

end Sys2Proof.Machine
end

section
/-! The ramp governor: units added and removed, and a sample (R36 to R41, R578). -/

namespace Sys2Proof.Machine

/-! ## Units -/

/-- The power state follows the units, and nothing else changes. -/
theorem restate_cases (s : State) : ∃ p, s.restate = { s with power := p } := by
  unfold State.restate
  split
  · exact ⟨s.power, rfl⟩
  · split
    · exact ⟨_, rfl⟩
    · split <;> exact ⟨_, rfl⟩

theorem region_restate (s : State) (q : Nat) : s.restate.region q = s.region q := by
  obtain ⟨p, h⟩ := restate_cases s
  rw [h]
  rfl

theorem stack_restate (s : State) (q : Nat) : s.restate.stack q = s.stack q := by
  obtain ⟨p, h⟩ := restate_cases s
  rw [h]
  rfl

theorem admitting_restate (s : State) : s.restate.admitting = s.admitting := by
  obtain ⟨p, h⟩ := restate_cases s
  rw [h]

theorem aside_restate (s : State) (k : Nat) : ∃ p, s.restate.aside k = { s.aside k with power := p } := by
  obtain ⟨p, h⟩ := restate_cases s
  exact ⟨p, congrArg (State.aside · k) h⟩

theorem stack_modStack (s : State) (k : Nat) (f : Stack → Stack) (q : Nat) :
    (s.modStack k f).stack q = if q = k then f (s.stack q) else s.stack q := by
  by_cases h : q = k <;> simp [modStack_eq, h]

/-- The keys of the ports stand above those of the supply and the governor. -/
theorem not_mem_portKeys {k : Nat} (h : k < R.linkState 0) (p : Nat) : k ∉ portKeys p := by
  simp only [R.linkState, regKey] at h
  simp only [portKeys, R.linkState, R.portMode, R.width, R.lanesGood, R.heldReason, R.pathDelay, R.trainAttempts, R.retrainsJob,
    R.readyOffsetMeasured, R.peerIdentity, regKey, List.mem_cons, List.not_mem_nil, or_false, not_or]
  omega

/-- A register is read from the projection where units have come or gone. -/
theorem reg_of_aside_units {s t : State} {k g : Nat} {p : Power} (h : t.aside k = { s.aside k with power := p, groupsOn := g }) :
    t.reg k = s.reg k :=
  reg_of_aside (s := { s with power := p, groupsOn := g }) h

/-- A port group switched: its bit, and what the training of its ports touches. -/
theorem aside_setGroup {k : Nat} (hk : k ∉ faultRegs) (hp : k < R.linkState 0) (s : State) (g : Nat) (on : Bool) :
    ∃ p, (s.setGroup g on).aside k = { s.aside k with power := p, groupsOn := setBit s.groupsOn g on } := by
  obtain ⟨p, h⟩ := aside_restate
    { s with groupsOn := setBit s.groupsOn g on, resetOwed := s.resetOwed.filter fun p => p / 4 ≠ g } k
  exact ⟨p, (aside_each (fun t q _ => aside_ite rfl (aside_retrain hk (not_mem_portKeys hp q) t)) _).trans h⟩

/-- A unit removed touches none of the supply's fields. -/
theorem aside_dropUnit {k : Nat} (hk : k ∉ faultRegs) (hp : k < R.freqKhz 0) (s : State) (u : PowerUnit) :
    ∃ p g, (s.dropUnit u).aside k = { s.aside k with power := p, groupsOn := g } := by
  have hp' : k < R.linkState 0 := by simp only [R.linkState, R.freqKhz, regKey] at hp ⊢; omega
  cases u
  case region r =>
    obtain ⟨p, h⟩ := aside_restate ((({ s with litOrder := s.litOrder.filter (· ≠ r) } : State).modRegion r fun x =>
      { x with lit := false, inReset := false, running := false, stalls := [], shortStopTo := none, shadowTo := none,
               shadowLocked := false, frameHeld := false }).setReg (R.freqKhz r) 0) k
    have hne : k ≠ R.freqKhz r := by simp only [R.freqKhz, regKey] at hp ⊢; omega
    rw [aside_setReg hne] at h
    exact ⟨p, s.groupsOn, h⟩
  case stack j =>
    obtain ⟨p, h⟩ := aside_restate (s.modStack j fun x => { x with awake := false, wakePending := x.recent s.us }) k
    exact ⟨p, s.groupsOn, h⟩
  case group g =>
    obtain ⟨p, h⟩ := aside_setGroup hk hp' s g false
    exact ⟨p, _, h⟩
  case access j => exact ⟨s.power, s.groupsOn, rfl⟩

/-- A unit added touches none of the supply's fields. -/
theorem aside_addUnit {k : Nat} (hk : k ∉ faultRegs) (hp : k < R.linkState 0) (s : State) (u : PowerUnit) :
    ∃ p g, (s.addUnit u).aside k = { s.aside k with power := p, groupsOn := g } := by
  cases u
  case region r =>
    obtain ⟨p, h⟩ := aside_restate (({ s with litOrder := s.litOrder.filter (· ≠ r) ++ [r] } : State).modRegion r fun x =>
      { x with lit := true, inReset := true, stopped := false }) k
    exact ⟨p, s.groupsOn, h⟩
  case stack j =>
    obtain ⟨p, h⟩ := aside_restate (s.modStack j fun x => { x with awake := true, wakePending := false }) k
    exact ⟨p, s.groupsOn, h⟩
  case group g =>
    obtain ⟨p, h⟩ := aside_setGroup hk hp s g true
    exact ⟨p, _, h⟩
  case access j => exact ⟨s.power, s.groupsOn, rfl⟩

theorem region_addUnit_region (s : State) (r q : Nat) : (s.addUnit (.region r)).region q
    = if q = r then { s.region q with lit := true, inReset := true, stopped := false } else s.region q := by
  show (s.lightRegion r).region q = _
  rw [State.lightRegion, region_restate, region_modRegion]
  rfl

theorem admitting_addUnit_region (s : State) (r : Nat) : (s.addUnit (.region r)).admitting = s.admitting := admitting_restate _

theorem stack_addUnit_stack (s : State) (k q : Nat) : (s.addUnit (.stack k)).stack q
    = if q = k then { s.stack q with awake := true, wakePending := false } else s.stack q :=
  (stack_restate _ q).trans (stack_modStack s k _ q)

theorem admitting_addUnit_stack (s : State) (k : Nat) : (s.addUnit (.stack k)).admitting = s.admitting := admitting_restate _

theorem stack_addUnit_access (s : State) (k q : Nat) : (s.addUnit (.access k)).stack q
    = if q = k then { s.stack q with wakePending := true } else s.stack q := stack_modStack s k _ q

theorem groupsOn_addUnit_group (s : State) (g : Nat) : (s.addUnit (.group g)).groupsOn = setBit s.groupsOn g true := by
  obtain ⟨p, h⟩ := aside_setGroup (k := 0) (by decide) (by decide) s g true
  exact congrArg Aside.groupsOn h

/-! ## Admission (R37, R450) -/

/-- The window and the hold level let the unit in. -/
theorem admissible_of {s : State} {u : PowerUnit} (hw : s.windowUsed = 0)
    (h : s.litList = [] ∨ s.load + unitStep u ≤ s.h
      ∨ (∃ l, s.jobLevel = some l ∧ l ≤ s.h) ∧ (s.reg R.jobState = 1 ∨ s.reg R.runState = 1)) : s.admissible u = true := by
  unfold State.admissible
  rw [if_neg (by omega)]
  split
  · rfl
  · next hlit =>
    rcases h with h | h | ⟨⟨l, hl, hle⟩, hjob⟩
    · exact absurd h hlit
    · simp [h]
    · simp [hl, hle, hjob]

/-- The unit in front is added. -/
theorem exec_unitAdmission {s : State} {u : PowerUnit} {rest : List PowerUnit} (hs : s.settles) (hadm : s.admitting = u :: rest)
    (ha : s.awake = true) (h1 : s.admissible u = true) (h2 : s.canLight = true ∨ u.isAccess = true) :
    exec .unitAdmission s
      = .next { ({ s with admitting := rest }.addUnit u) with windowUsed := if s.litList = [] then 1 else 0 } := by
  show s.settled (unitAdmissionNow s) = _
  rw [settled_of_settles hs, unitAdmissionNow, hadm]
  exact if_pos ⟨ha, h1, h2⟩

/-- Settles O27: each kind of unit is added by its own operation, which leaves the others and the governor. -/
theorem unitAdmitted : Obligations.UnitAdmitted := by
  unfold Obligations.UnitAdmitted
  intro u rest s hadm ha hw hs hroom hlight
  have hroom' : s.litList = [] ∨ s.load + unitStep u ≤ s.h
      ∨ (∃ l, s.jobLevel = some l ∧ l ≤ s.h) ∧ (s.reg R.jobState = 1 ∨ s.reg R.runState = 1) := by
    cases u <;> exact hroom
  obtain ⟨p, g, h⟩ := aside_addUnit (k := 0) (by decide) (by decide) { s with admitting := rest } u
  refine ⟨_, exec_unitAdmission hs hadm ha (admissible_of hw hroom') hlight, by simp, ?_, congrArg Aside.h h, congrArg Aside.sram h,
    congrArg Aside.dram h⟩
  cases u
  case region r =>
    have hreg := region_addUnit_region { s with admitting := rest } r
    have hadd := admitting_addUnit_region { s with admitting := rest } r
    generalize State.addUnit { s with admitting := rest } (.region r) = t at hreg hadd
    have hr := (hreg r).trans (if_pos rfl)
    exact ⟨congrArg Region.lit hr, congrArg Region.inReset hr, hadd, fun q hq => (hreg q).trans (if_neg hq)⟩
  case stack k =>
    have hstk := stack_addUnit_stack { s with admitting := rest } k
    have hadd := admitting_addUnit_stack { s with admitting := rest } k
    generalize State.addUnit { s with admitting := rest } (.stack k) = t at hstk hadd
    have hk := (hstk k).trans (if_pos rfl)
    exact ⟨congrArg Stack.awake hk, hadd, fun q hq => (hstk q).trans (if_neg hq)⟩
  case group g => exact groupsOn_addUnit_group { s with admitting := rest } g
  case access k =>
    have hstk := stack_addUnit_access { s with admitting := rest } k
    have hadd : (State.addUnit { s with admitting := rest } (.access k)).admitting = rest := rfl
    generalize State.addUnit { s with admitting := rest } (.access k) = t at hstk hadd
    have hk := (hstk k).trans (if_pos rfl)
    exact ⟨congrArg Stack.wakePending hk, (congrArg Stack.awake hk :), hadd, fun q hq => (hstk q).trans (if_neg hq)⟩

/-! ## A sample (R36, R38, R40) -/

/-- The hold level moves by at most the slew limit while a region is lit. -/
theorem nextH_within_slew {s : State} (hlit : s.litList ≠ []) (load : Nat) :
    s.nextH load ≤ s.h + s.reg R.slewLimitWPerMs ∧ s.h ≤ s.nextH load + s.reg R.slewLimitWPerMs := by
  unfold State.nextH
  rw [if_neg hlit]
  split <;> omega

/-- In a job it moves towards the job's level and not past it. -/
theorem nextH_towards_level {s : State} (hlit : s.litList ≠ []) (load : Nat) {l : Nat} (hl : s.jobLevel = some l) :
    (s.h ≤ l → s.h ≤ s.nextH load ∧ s.nextH load ≤ l) ∧ (l ≤ s.h → s.nextH load ≤ s.h ∧ l ≤ s.nextH load) := by
  have ht : s.target load = l := by simp [State.target, hl, hlit]
  unfold State.nextH
  rw [if_neg hlit, ht]
  split <;> omega

theorem inShortStop_iff (s : State) : s.inShortStop = true ↔ ∃ r ∈ s.litList, (s.region r).shortStopTo ≠ none := by
  simp [State.inShortStop, Option.isSome_iff_ne_none]

/-- The state with a sample's load and hold level taken. -/
def State.sampled (s : State) (load : Nat) : State :=
  ({ s with us := s.us + 1, load := load, h := s.nextH load
            eventsSent := if (s.us + 1) % 1000000 = 0 then 0 else s.eventsSent } : State).setReg R.governorState
    (s.govState s.h (s.nextH load) load)

/-- The same with the ballast that the sample asks for. -/
def State.filled (s : State) : State :=
  { s with ballast := s.fillNow, winSum := s.winSum + s.load + s.fillNow, loadSum := s.loadSum + s.load }

/-- No shortfall where the ballast reaches, or in the dip of a short stop (R40, R521). -/
theorem shortfall_none {s : State} (h : s.inShortStop = true ∨ s.h ≤ s.load + s.ballastCap) : s.shortfall = s := by
  refine if_neg ?_
  rintro ⟨-, hshort, -, hlow⟩
  rcases h with h | h
  · exact hshort h
  · omega

/-- A sample without a shortfall. -/
theorem exec_governorSample {s : State} {load : Nat} (hs : s.settles) (hp : s.power ≠ .cold)
    (h : (s.sampled load).shortfall = s.sampled load) : exec (.governorSample load) s
      = .next (((s.sampled load).filled.sampleSupply ((s.sampled load).load + (s.sampled load).fillNow)).closeWindow).removeNext.settleWarm := by
  show s.settled (governorSampleNow load s) = _
  rw [settled_of_settles hs, governorSampleNow, if_neg hp]
  show Host.Outcome.next ((({ (s.sampled load).shortfall with
    ballast := (s.sampled load).shortfall.fillNow
    winSum := (s.sampled load).shortfall.winSum + (s.sampled load).shortfall.load + (s.sampled load).shortfall.fillNow
    loadSum := (s.sampled load).shortfall.loadSum + (s.sampled load).shortfall.load } : State).sampleSupply
      ((s.sampled load).shortfall.load + (s.sampled load).shortfall.fillNow)).closeWindow.removeNext.settleWarm) = _
  rw [h]
  rfl

/-- What follows the sample in the same microsecond, the supply's averages, the window's end, a unit removed and a warm reset complete,
touches neither the governor's fields nor the count of exempt falls. -/
theorem aside_afterSample (s : State) (mw : Nat) : ∃ p g, (s.sampleSupply mw).closeWindow.removeNext.settleWarm.aside R.exemptFalls
    = { s.aside R.exemptFalls with power := p, groupsOn := g } := by
  have hset (t : State) (j v : Nat) (hj : R.exemptFalls ≠ j) : (t.setReg j v).aside R.exemptFalls = t.aside R.exemptFalls :=
    aside_setReg hj t v
  have hsupply : (s.sampleSupply mw).aside R.exemptFalls = s.aside R.exemptFalls := by
    unfold State.sampleSupply
    refine aside_ite rfl ?_
    rw [hset _ _ _ (by decide), hset _ _ _ (by decide), hset _ _ _ (by decide)]
    rfl
  have hwindow (t : State) : t.closeWindow.aside R.exemptFalls = t.aside R.exemptFalls := by
    have hin : (t.setReg R.inputPowerMw (t.winSum / 50 % 2 ^ 32)).aside R.exemptFalls = t.aside R.exemptFalls := hset _ _ _ (by decide)
    have windowless {u : State} : ({ u with winSum := 0, loadSum := 0, windowUsed := 0 } : State).aside R.exemptFalls
        = u.aside R.exemptFalls := rfl
    have hpeak : R.exemptFalls ≠ R.clausePeakW (t.reg R.activeClause) := by simp only [R.exemptFalls, R.clausePeakW, regKey]; omega
    unfold State.closeWindow
    exact aside_ite rfl (windowless.trans (aside_ite ((hset _ _ _ hpeak).trans hin) hin))
  have hremove (t : State) : ∃ p g, t.removeNext.aside R.exemptFalls = { t.aside R.exemptFalls with power := p, groupsOn := g } := by
    unfold State.removeNext
    split
    · exact ⟨t.power, t.groupsOn, rfl⟩
    · next u rest _ =>
      dsimp only
      split
      · exact aside_dropUnit (by decide) (by decide) { t with remove := rest } u
      · exact ⟨t.power, t.groupsOn, rfl⟩
  have hwarm (t : State) : t.settleWarm.aside R.exemptFalls = t.aside R.exemptFalls := by
    unfold State.settleWarm
    exact aside_ite (aside_event _ _ _ _ (by decide)) rfl
  obtain ⟨p, g, h⟩ := hremove (s.sampleSupply mw).closeWindow
  exact ⟨p, g, by rw [hwarm, h, hwindow, hsupply]⟩

/-- What a sample without a shortfall answers. -/
theorem governorSample_effect {s : State} {load : Nat} (hs : s.settles) (hp : s.power ≠ .cold)
    (h : (s.sampled load).shortfall = s.sampled load) : ∃ t p g, exec (.governorSample load) s = .next t
      ∧ t.aside R.exemptFalls = { (s.sampled load).filled.aside R.exemptFalls with power := p, groupsOn := g } := by
  obtain ⟨p, g, ht⟩ := aside_afterSample (s.sampled load).filled ((s.sampled load).load + (s.sampled load).fillNow)
  exact ⟨_, p, g, exec_governorSample hs hp h, ht⟩

theorem ballastCap_sampled (s : State) (load : Nat) : (s.sampled load).ballastCap = s.ballastCap := by
  have h : (s.sampled load).reg R.ballastEnable = s.reg R.ballastEnable := (reg_setReg _ _ _ _).trans (if_neg (by decide))
  unfold State.ballastCap
  rw [h]
  rfl

theorem fillNow_sampled (s : State) (load : Nat) : (s.sampled load).fillNow
    = if (s.sampled load).inShortStop then min (min (s.nextH load - load) s.ballastCap) s.ballast
      else min (s.nextH load - load) s.ballastCap := by
  unfold State.fillNow
  rw [ballastCap_sampled]
  rfl

/-- Settles O26: the hold level by `nextH`, the ballast by `fillNow`; nothing later in the sample touches either. -/
theorem governorHolds : Obligations.GovernorHolds := by
  unfold Obligations.GovernorHolds
  intro load s hp hlit hbal hs short hreach
  have hshort : (s.sampled load).inShortStop = true ↔ short := inShortStop_iff s
  have hcap : s.ballastCap = 150000 * s.litList.length := if_neg (by omega)
  have hnone : (s.sampled load).shortfall = s.sampled load := shortfall_none (by
    by_cases h : short
    · exact .inl (hshort.mpr h)
    · exact .inr (by rw [ballastCap_sampled]; exact hreach h))
  obtain ⟨t, p, g, hexec, ht⟩ := governorSample_effect hs hp hnone
  have hballast : t.ballast = (s.sampled load).fillNow := congrArg Aside.ballast ht
  have hh : t.h = s.nextH load := congrArg Aside.h ht
  have hfalls : t.reg R.exemptFalls = (s.sampled load).reg R.exemptFalls := reg_of_aside_units (s := (s.sampled load).filled) ht
  refine ⟨t, hexec, congrArg Aside.load ht, congrArg Aside.us ht, ?_, ?_, fun h => ?_, fun h => ?_, fun l hl => ?_⟩
  · rw [hh]
    exact (nextH_within_slew hlit load).1
  · rw [hh]
    exact (nextH_within_slew hlit load).2
  · have hle := hreach h
    rw [hballast, fillNow_sampled, if_neg (mt hshort.mp h), hh, ← hcap]
    exact ⟨min_eq_left (by omega), hle⟩
  · rw [hballast, fillNow_sampled, if_pos (hshort.mpr h), hfalls]
    exact ⟨min_le_right _ _, (reg_setReg _ _ _ _).trans (if_neg (by decide))⟩
  · rw [hh]
    exact nextH_towards_level hlit load hl

end Sys2Proof.Machine
end

section
/-! The quench that a cause fault of a running job makes (R534, R541, R543). -/

namespace Sys2Proof.Machine

/-! ## When the QUENCH goes out -/

/-- Flits stand 1, 2 or 16 slots apart. -/
theorem slotStride_cases (w : Nat) : slotStride w = 1 ∨ slotStride w = 2 ∨ slotStride w = 16 := by
  unfold slotStride
  split <;> simp

/-- Before slot 4,080 every port has a slot left in the frame. -/
theorem sendsYet_early {s : State} (h : s.slot < 4080) (p : Nat) : s.sendsYet p = true := by
  unfold State.sendsYet ceilDiv
  rcases slotStride_cases (s.reg (R.width p)) with hn | hn | hn <;> rw [hn] <;> simp only [decide_eq_true_eq] <;> split <;> omega

/-- Past the frame's last slot none has. -/
theorem sendsYet_late {s : State} (h : s.slot = 4096) (p : Nat) : s.sendsYet p = false := by
  unfold State.sendsYet ceilDiv
  rcases slotStride_cases (s.reg (R.width p)) with hn | hn | hn <;> rw [hn] <;> simp only [decide_eq_false_iff_not] <;> split <;> omega

theorem quenchFrameNow_early {s : State} (h : s.slot < 4080) : s.quenchFrameNow = s.frame + 3 := by
  refine if_pos ?_
  cases hl : s.mgmtPorts none with
  | nil => exact .inl rfl
  | cons p l => exact .inr (by simp [sendsYet_early h])

theorem quenchFrameNow_late {s : State} (h : s.slot = 4096) (hports : s.mgmtPorts none ≠ []) : s.quenchFrameNow = s.frame + 4 :=
  if_neg (by simp [hports, sendsYet_late h])

theorem frame_lt_quenchFrameNow (s : State) : s.frame < s.quenchFrameNow := by
  unfold State.quenchFrameNow
  dsimp only
  split <;> omega

/-! ## The record -/

/-- The record that a running job's first attempt makes at a step. -/
def State.firstRecord (s : State) (cause : Nat) : QRec :=
  { s := s.replayStepNow, a := 0, q := s.quenchFrameNow, p := s.quenchFrameNow + s.reg R.replayDelayFrames, isEnd := false, defer := false,
    release := false, stop := s.quenchFrameNow, origin := s.chip, cause := cause }

/-- A first attempt is within the limit (R547). -/
theorem originate_first {s : State} (hjob : s.reg R.jobState = 2) (hrep : s.replaying = none) (hlim : 0 < s.reg R.replayLimit)
    (cause : Nat) : s.originate cause false false = s.sendQuench (s.firstRecord cause) := by
  have hown : (if s.reg R.jobState = 3 then s.qrec else none) = none := if_neg (by omega)
  have ha (st : BitVec 64) : s.attemptFor st = 0 := by rw [State.attemptFor, hrep]
  have hl : ¬ s.reg R.replayLimit ≤ 0 := by omega
  simp [State.originate, hown, ha, hl, State.firstRecord]

/-- A running job without a record takes one whose Q is still to come (R540). -/
theorem takeRecord_first {s : State} (hjob : s.reg R.jobState = 2) (hrec : s.qrec = none) {q : QRec} (hq : s.frame < q.q) (ep : BitVec 2) :
    (s.takeRecord q ep).1 = ({ s with qrec := some q } : State).showRec := by
  simp [State.takeRecord, hjob, hrec, not_le.mpr hq]

/-- Its own QUENCH is such a record, which keeps the memories and the regions. -/
theorem sendQuench_first {s : State} (hjob : s.reg R.jobState = 2) (hrec : s.qrec = none) {q : QRec} (hq : s.frame < q.q) :
    ∃ po st n seen, s.sendQuench q = ({ s with ports := po, msgStamp := st, floodSeq := n, floodsSeen := seen
                                               qrec := some { q with origin := s.chip } } : State).showRec := by
  unfold State.sendQuench
  dsimp only
  generalize State.epochFromQ s { q with origin := s.chip } = ep
  obtain ⟨po, st, n, seen, h⟩ := flood_cases s [] 2 (({ q with origin := s.chip } : QRec).bytes ep)
  refine ⟨po, st, n, seen, ?_⟩
  rw [h]
  exact takeRecord_first (s := { s with ports := po, msgStamp := st, floodSeq := n, floodsSeen := seen }) hjob hrec
    (q := { q with origin := s.chip }) hq ep

/-- The first fault of a running job's step is its cause; this is one that leads to a replay (R163, R549). -/
theorem raise_first {s : State} (hs : s.quiet) {code : Nat} (hact : faultAct code = .replay) (hcore : code / 256 ≠ 0x10)
    (unit detail : Nat) : s.raise code unit detail
      = ({ (s.logEntry code 1 unit detail).setReg R.lastFaultCause code with firstFault := true } : State).originate code false false := by
  obtain ⟨hjob, hrec, hfirst, hrun⟩ := hs
  have hnote (t : State) : t.noteCoreFault code none = t := if_neg hcore
  simp [State.raise, hrun, hjob, hfirst, hnote, State.actOn, hact]

/-- The record's registers are all that showing it changes. -/
theorem reg_showRec_other (s : State) {k : Nat}
    (hk : k ∉ [R.replayStep, R.replayAttempt, R.quenchFrame, R.replayFrame, R.quenchOrigin, R.quenchCause]) :
    s.showRec.reg k = s.reg k := by
  simp only [List.mem_cons, List.not_mem_nil, or_false, not_or] at hk
  obtain ⟨h1, h2, h3, h4, h5, h6⟩ := hk
  unfold State.showRec
  split <;> simp [h1, h2, h3, h4, h5, h6]

theorem quenchFrame_showRec {s : State} {q : QRec} (h : s.qrec = some q) : s.showRec.reg R.quenchFrame = q.q := by
  unfold State.showRec
  rw [h]
  simp [show R.quenchFrame ≠ R.quenchCause by decide, show R.quenchFrame ≠ R.quenchOrigin by decide,
    show R.quenchFrame ≠ R.replayFrame by decide]

theorem showRec_keeps (s : State) : ∃ r, s.showRec = { s with regs := r } := by
  unfold State.showRec
  split <;> exact ⟨_, rfl⟩

/-- The state in which a running job's first cause fault is acted on: logged, and kept as the cause. -/
def State.causeKept (s : State) (code unit detail : Nat) : State :=
  { (s.logEntry code 1 unit detail).setReg R.lastFaultCause code with firstFault := true }

theorem causeKept_cases (s : State) (code unit detail : Nat) : ∃ l r g n,
    s.causeKept code unit detail = { s with log := l, regs := r, gtx := g, eventsSent := n, firstFault := true } := by
  obtain ⟨e, l, r, g, n, h, -⟩ := logEntry_cases s code 1 unit detail
  unfold State.causeKept
  rw [h]
  exact ⟨_, _, _, _, rfl⟩

theorem reg_causeKept (s : State) (code unit detail : Nat) {k : Nat} (h1 : k ∉ logRegs) (h2 : k ≠ R.lastFaultCause) :
    (s.causeKept code unit detail).reg k = s.reg k :=
  ((reg_setReg _ _ _ k).trans (if_neg h2)).trans (reg_of_aside (aside_logEntry s code 1 unit detail h1))

theorem lastFaultCause_causeKept (s : State) (code unit detail : Nat) : (s.causeKept code unit detail).reg R.lastFaultCause = code := by
  show ((s.logEntry code 1 unit detail).setReg R.lastFaultCause code).reg R.lastFaultCause = code
  simp

/-- What the first cause fault of a running job's step leaves: the record of its first attempt, and the cause. -/
theorem raise_first_effect {s : State} (hs : s.quiet) {code : Nat} (hact : faultAct code = .replay) (hcore : code / 256 ≠ 0x10)
    (hrep : s.replaying = none) (hlim : 0 < s.reg R.replayLimit) (unit detail : Nat) :
    ∃ x t, x = s.causeKept code unit detail ∧ s.raise code unit detail = t
      ∧ t.qrec = some { x.firstRecord code with origin := x.chip } ∧ t.reg R.lastFaultCause = code
      ∧ t.reg R.quenchFrame = x.quenchFrameNow ∧ t.reg R.jobState = 2 ∧ t.load = s.load ∧ t.sram = s.sram ∧ t.dram = s.dram
      ∧ t.regions = s.regions := by
  have hjob := (reg_causeKept s code unit detail (k := R.jobState) (by decide) (by decide)).trans hs.1
  have hlim' := (reg_causeKept s code unit detail (k := R.replayLimit) (by decide) (by decide)).symm ▸ hlim
  have hcause := lastFaultCause_causeKept s code unit detail
  have hraise := raise_first hs hact hcore unit detail
  change _ = (s.causeKept code unit detail).originate code false false at hraise
  obtain ⟨l, r, g, n, hx⟩ := causeKept_cases s code unit detail
  generalize s.causeKept code unit detail = x at *
  have hkeep : x.replaying = none ∧ x.qrec = none ∧ x.load = s.load ∧ x.sram = s.sram ∧ x.dram = s.dram ∧ x.regions = s.regions := by
    rw [hx]
    exact ⟨hrep, hs.2.1, rfl, rfl, rfl, rfl⟩
  obtain ⟨hrep', hrec', hkeep⟩ := hkeep
  obtain ⟨po, st, m, seen, hq⟩ := sendQuench_first hjob hrec' (q := x.firstRecord code) (frame_lt_quenchFrameNow x)
  obtain ⟨u, hu⟩ : ∃ u, u = ({ x with ports := po, msgStamp := st, floodSeq := m, floodsSeen := seen
                                      qrec := some { x.firstRecord code with origin := x.chip } } : State) := ⟨_, rfl⟩
  rw [originate_first hjob hrep' hlim' code, hq, ← hu] at hraise
  have hrec : u.qrec = some { x.firstRecord code with origin := x.chip } := by rw [hu]
  have hreg (k : Nat) : u.reg k = x.reg k := by rw [hu]; rfl
  have hukeep : u.load = s.load ∧ u.sram = s.sram ∧ u.dram = s.dram ∧ u.regions = s.regions := by rw [hu]; exact hkeep
  obtain ⟨r', hr'⟩ := showRec_keeps u
  refine ⟨x, u.showRec, rfl, hraise, ?_, ?_, quenchFrame_showRec hrec, ?_, ?_⟩
  · rw [hr']
    exact hrec
  · rw [reg_showRec_other u (by decide), hreg, hcause]
  · rw [reg_showRec_other u (by decide), hreg, hjob]
  · rw [hr']
    exact hukeep

/-! ## A load beyond the envelope (R42) -/

/-- A running job's load is judged against the hold level (R42). -/
theorem exec_envelopeExceeded {s : State} {load : Nat} (hs : s.quiet) (h : s.h + max 25000 (s.h / 50) < load) :
    exec (.envelopeExceeded load) s = .next (({ s with load := load } : State).raise 0x5006 0xFF (load / 1000)) := by
  obtain ⟨hjob, hrec, hfirst, hrun⟩ := hs
  have henv : s.envelope = s.h := by
    unfold State.envelope
    split
    · next h2 => exact absurd h2 hrun
    · rfl
  have hlevel : s.jobLevel.isSome = true := by simp [State.jobLevel, hjob]
  show s.settled (envelopeExceededNow load s) = _
  rw [settled_of_settles (.inr (.inl (by omega))), envelopeExceededNow, henv, if_pos ⟨h, hlevel⟩]

/-- Keeping the cause changes nothing that the frame Q depends on. -/
theorem quenchFrameNow_causeKept {s : State} (code unit detail : Nat) (h : s.slot < 4080 ∨ s.slot = 4096 ∧ s.mgmtPorts none ≠ []) :
    (s.causeKept code unit detail).quenchFrameNow = (if s.slot < 4080 then s.frame else s.frame + 1) + 3 := by
  have hports : (s.causeKept code unit detail).mgmtPorts none = s.mgmtPorts none := by
    refine List.filter_congr fun p hp => ?_
    have hne : R.linkState p ∉ logRegs ∧ R.linkState p ≠ R.lastFaultCause := by
      simp only [logRegs, R.linkState, R.lastFaultCause, R.logCount, R.logNextSeq, R.logOverwritten, R.eventsUnsent, regKey,
        List.mem_cons, List.not_mem_nil, or_false, not_or]
      have := List.mem_range.mp hp
      omega
    rw [State.carriesMgmt, State.carriesMgmt, reg_causeKept s _ _ _ hne.1 hne.2]
  have hplace : (s.causeKept code unit detail).slot = s.slot ∧ (s.causeKept code unit detail).frame = s.frame := by
    obtain ⟨l, r, g, n, hx⟩ := causeKept_cases s code unit detail
    rw [hx]
    exact ⟨rfl, rfl⟩
  rcases h with h | ⟨h, hp⟩
  · rw [if_pos h, quenchFrameNow_early (hplace.1.trans_lt h), hplace.2]
  · rw [if_neg (by omega), quenchFrameNow_late (hplace.1.trans h) (by rwa [hports]), hplace.2]

/-- The step of frame n − 2, where the job has run that long (R541). -/
theorem replayStepNow_causeKept {s : State} (code unit detail : Nat) (h : s.jobFrame0 + 2 ≤ s.frame) (hhist : 2 < s.stepHist.length) :
    some (s.causeKept code unit detail).replayStepNow = s.stepHist[2]? := by
  obtain ⟨l, r, g, n, hx⟩ := causeKept_cases s code unit detail
  rw [hx]
  unfold State.replayStepNow
  rw [if_neg (by simp only; omega)]
  simp [hhist]

/-- Settles O28: the fault is the step's first, and its record is that of the first attempt. -/
theorem envelopeQuenches : Obligations.EnvelopeQuenches := by
  unfold Obligations.EnvelopeQuenches
  intro load s hs hload hrep hlim hframe hhist hslot n
  obtain ⟨x, t, hx, hraise, hqrec, hcause, hquench, hjob, hkeep⟩ := raise_first_effect (s := { s with load := load }) hs
    (code := 0x5006) (by decide) (by decide) hrep hlim 0xFF (load / 1000)
  have hframeQ : x.quenchFrameNow = n + 3 := by
    rw [hx]
    exact quenchFrameNow_causeKept (s := { s with load := load }) _ _ _ hslot
  have hdelay : x.reg R.replayDelayFrames = s.reg R.replayDelayFrames := by
    rw [hx]
    exact reg_causeKept { s with load := load } _ _ _ (by decide) (by decide)
  have hstep : some x.replayStepNow = s.stepHist[2]? := by
    rw [hx]
    exact replayStepNow_causeKept (s := { s with load := load }) _ _ _ hframe hhist
  refine ⟨t, _, (exec_envelopeExceeded hs hload).trans (congrArg _ hraise), hqrec, hstep, rfl, hframeQ, ?_, rfl, rfl, hcause,
    hquench.trans hframeQ, hjob, hkeep⟩
  show x.quenchFrameNow + x.reg R.replayDelayFrames = _
  rw [hframeQ, hdelay]

end Sys2Proof.Machine
end

section
/-! Writes of dictionary entries that the part takes (R471 to R479). -/

namespace Sys2Proof.Machine

/-- The memories are read from the projection. -/
theorem memories_of_aside {s t : State} {k : Nat} (h : t.aside k = s.aside k) : t.sram = s.sram ∧ t.dram = s.dram :=
  ⟨congrArg Aside.sram h, congrArg Aside.dram h⟩

/-! ## A taken write -/

/-- An entry found stands at its place. -/
theorem odFind_place {index sub : Nat} {e : OdEntry} (h : odFind index sub = some e) : e.index = index ∧ e.sub = sub := by
  have := List.find?_some h
  simpa using this

/-- What a taken write has passed. -/
theorem takes_cases {s : State} {src : OdSrc} {k : Nat} {data : List Byte} (h : s.takes src k data = true) :
    s.awake = true ∧ s.writeBar src = 0 ∧ s.reg R.txnOwner = 2
      ∧ ∃ e, odFind (k / 65536) (k / 256 % 256) = some e ∧ s.odCheck src (k / 65536) (k / 256 % 256) data = .inl e := by
  simp only [State.takes, Bool.and_eq_true, decide_eq_true_eq] at h
  obtain ⟨⟨⟨ha, hmay⟩, hown⟩, hcheck⟩ := h
  have hbar : s.writeBar src = 0 := by
    have h1 : ¬ (src = .uart ∧ ¬ s.scoped 2 = true) := by
      rintro ⟨h1, h2⟩
      simp [State.mayWrite, h1, h2] at hmay
    have h2 : ¬ s.heldFrom src = true := by simp [State.heldFrom, hown]
    rw [State.writeBar, if_neg h1, if_neg h2]
  refine ⟨ha, hbar, hown, ?_⟩
  cases hf : odFind (k / 65536) (k / 256 % 256) with
  | none => simp [State.odCheck, hf] at hcheck
  | some e =>
    refine ⟨e, rfl, ?_⟩
    simp only [State.odCheck, hf] at hcheck ⊢
    split at hcheck
    · simp at hcheck
    · split at hcheck
      · simp at hcheck
      · next h1 h2 => rw [if_neg h1, if_neg h2]

/-- The keys of the transaction entries. -/
def txnKeys : List Nat := [R.txnBegin, R.txnCommit, R.txnRollback]

/-- The entry's own write, and what comes after it, where the write is taken and is no transaction's. -/
theorem odWrite_taken {s : State} {src : OdSrc} {index sub : Nat} {data : List Byte} {e : OdEntry} (hbar : s.writeBar src = 0)
    (hown : s.reg R.txnOwner = 2) (hl : lockedRange index = false) (hfind : odFind index sub = some e)
    (hcheck : s.odCheck src index sub data = .inl e) (hk : regKey index sub ∉ txnKeys) :
    s.odWrite src index sub data = ((s.ownWrite e data).1.posts (s.ownWrite e data).2.2, (s.ownWrite e data).2.1) := by
  obtain ⟨hi, hs⟩ := odFind_place hfind
  simp only [txnKeys, List.mem_cons, List.not_mem_nil, or_false, not_or] at hk
  simp [State.odWrite, hbar, hl, hcheck, State.odApply, hi, hs, hk, hown]

theorem answered_of_ne {k : Nat} (hk : k ≠ R.txnCommit) (t : State) (code : Nat) :
    answered k (t, code) = .next { t with answer := code, answerData := [] } := by
  simp [answered, hk]

/-- A command that writes one entry with a write of its own. -/
theorem rowWrite_taken {s : State} {src : OdSrc} {k k' : Nat} {data : List Byte} {f : List Byte → State → WriteRes}
    (h : s.takes src k data = true) (hl : lockedRange (k / 65536) = false) (hk : k ∉ txnKeys)
    (hplace : regKey (k / 65536) (k / 256 % 256) = k)
    (hown : ((writers0 ++ writers1 ++ writers2).find? fun w => w.1 == k) = some (k', f)) :
    s.rowWrite src k data
      = .next { (f data s).1.posts (f data s).2.2 with answer := (f data s).2.1, answerData := [] } := by
  obtain ⟨ha, hbar, htxn, e, hfind, hcheck⟩ := takes_cases h
  obtain ⟨hi, hs⟩ := odFind_place hfind
  have hwrite : s.ownWrite e data = f data s := by
    unfold State.ownWrite
    rw [hi, hs, hplace, hown]
  have hne : k ≠ R.txnCommit := fun h => hk (by simp [txnKeys, h])
  rw [State.rowWrite, if_pos ha, odWrite_taken hbar htxn hl hfind hcheck (by rwa [hplace]), hwrite, answered_of_ne hne]

/-- No side effect. -/
theorem posts_nil (s : State) : s.posts [] = s := rfl

/-- A plain entry's value is stored (R471). -/
theorem exec_odWrite_plain {s : State} {src : OdSrc} {index sub : Nat} {data : List Byte} {e : OdEntry} (hfind : odFind index sub = some e)
    (hblock : blockOnly index sub = false) (hl : lockedRange index = false) (h : s.takes src (regKey index sub) data = true)
    (hw : ∀ w ∈ writers0 ++ writers1 ++ writers2, w.1 ≠ regKey index sub) (hk : regKey index sub ∉ txnKeys) (hsub : sub < 256) :
    exec (.odWrite src index sub data) s = .next (s.storeEntry e data).ok := by
  obtain ⟨ha, hbar, htxn, e', hfind', hcheck⟩ := takes_cases h
  have hindex : regKey index sub / 65536 = index ∧ regKey index sub / 256 % 256 = sub := by
    unfold regKey
    omega
  rw [hindex.1, hindex.2] at hfind' hcheck
  obtain rfl : e = e' := Option.some.inj (hfind.symm.trans hfind')
  obtain ⟨hi, hs⟩ := odFind_place hfind
  have hnone : (writers0 ++ writers1 ++ writers2).find? (fun w => w.1 == regKey index sub) = none := by
    rw [List.find?_eq_none]
    intro w hmem
    simpa using hw w hmem
  have hwrite : s.ownWrite e data = (s.storeEntry e data).wOk := by
    unfold State.ownWrite
    rw [hi, hs, hnone]
  have hne : regKey index sub ≠ R.txnCommit := fun h => hk (by simp [txnKeys, h])
  show execOdWrite src index sub data s = _
  rw [execOdWrite, if_pos ha, State.wholeWrite, if_neg (by simp [hblock]), odWrite_taken hbar htxn hl hfind hcheck hk, hwrite,
    answered_of_ne hne]
  rfl

/-! ## What comes after a write (R479) -/

section
variable {k : Nat}

theorem aside_custodyNone (h1 : k ≠ R.custodyGiven) (h2 : k ≠ R.givenDigest) (s : State) : s.custodyNone.aside k = s.aside k := by
  have hpush : s.dropPush.aside k = s.aside k := by
    unfold State.dropPush
    refine aside_ite rfl ?_
    refine (aside_each (fun t p _ => ?_) _).trans rfl
    split <;> rfl
  exact ((aside_setBlob h2 _ _).trans (aside_setReg h1 _ _)).trans hpush

theorem aside_post_twin (h1 : k ≠ R.custodyGiven) (h2 : k ≠ R.givenDigest) (s : State) (old : Nat) :
    (s.post (.twin old)).aside k = s.aside k := aside_ite (aside_custodyNone h1 h2 s) rfl

theorem aside_measure1 (h : k ≠ R.measRegister) (s : State) (kind version : Nat) (digest : List Byte) :
    ∃ l, (s.measure1 kind version digest).aside k = { s.aside k with measLog := l } := by
  refine ⟨(s.measure1 kind version digest).measLog, ?_⟩
  unfold State.measure1
  simp [State.aside, State.setBlob, h]

theorem aside_post_measured (h : k ≠ R.measRegister) (s : State) : ∃ l, (s.post .measured).aside k = { s.aside k with measLog := l } := by
  unfold State.post
  dsimp only
  split
  · exact ⟨s.measLog, rfl⟩
  · exact aside_measure1 h s _ _ _

theorem aside_post_retrainUp (hk : k ∉ faultRegs) (hp : ∀ p < 32, k ∉ portKeys p) (s : State) : (s.post .retrainUp).aside k = s.aside k :=
  aside_retrainAll hk (fun p h => hp p (List.mem_range.mp (List.mem_filter.mp h).1)) s

theorem aside_sendOwedLost (h1 : k ∉ logRegs) (h2 : k ≠ R.lostNoticeChip) (s : State) : s.sendOwedLost.aside k = s.aside k := by
  have hmgmt (t : State) (chip op : Nat) (rest : List Byte) (units : List (BitVec 512)) :
      (t.sendMgmt chip op rest units).aside k = t.aside k := by
    unfold State.sendMgmt
    split <;> rfl
  have hflag (t : State) : ({ t with lostLogged := false } : State).aside k = t.aside k := rfl
  have hlog : (if s.lostLogged then s else { s.event 0x7042 0xFF noDetail with lostLogged := true }).aside k = s.aside k :=
    aside_ite rfl (aside_event s _ _ _ h1)
  unfold State.sendOwedLost
  dsimp only
  refine aside_ite (aside_ite ?_ hlog) rfl
  rw [hflag, aside_setReg h2, hmgmt, hlog]

end

/-! ## Manifest and chip number (R320, R334) -/

theorem not_mem_faultRegs_linkState {p : Nat} (hp : p < 32) : R.linkState p ∉ faultRegs := by
  simp only [faultRegs, logRegs, R.linkState, R.lastFaultCause, R.logCount, R.logNextSeq, R.logOverwritten, R.eventsUnsent,
    R.lastCoreFault, R.lastFaultCore, R.jobState, R.joinStep, R.regionLight, R.stackActive, R.replayStep, R.replayAttempt, R.quenchFrame,
    R.replayFrame, R.quenchOrigin, R.quenchCause, regKey, List.cons_append, List.nil_append, List.mem_cons, List.not_mem_nil, or_false,
    not_or]
  omega

theorem linkState_not_mem_portKeys {p q : Nat} (hp : p < 32) (hq : q < 32) (h : p ≠ q) : R.linkState p ∉ portKeys q := by
  simp only [portKeys, R.linkState, R.portMode, R.width, R.lanesGood, R.heldReason, R.pathDelay, R.trainAttempts, R.retrainsJob,
    R.readyOffsetMeasured, R.peerIdentity, regKey, List.mem_cons, List.not_mem_nil, or_false, not_or]
  omega

/-- Each enabled port among those that train anew is in SEEK then (R257). -/
theorem linkState_retrainAll {l : List Nat} (hl : ∀ q ∈ l, q < 32) (hnd : l.Nodup) {p : Nat} (hp : p ∈ l) (s : State)
    (hen : bit (s.reg R.portEnable) p = true) : (s.retrainAll l).reg (R.linkState p) = 2 := by
  induction l generalizing s with
  | nil => simp at hp
  | cons q l ih =>
    have hstep : s.retrainAll (q :: l) = (if bit (s.reg R.portEnable) q then s.retrain q else s.portOff q).retrainAll l := rfl
    rw [List.nodup_cons] at hnd
    rw [hstep]
    rcases List.mem_cons.mp hp with rfl | hp
    · have hrest (t : State) : (t.retrainAll l).aside (R.linkState p) = t.aside (R.linkState p) :=
        aside_retrainAll (not_mem_faultRegs_linkState (hl p (by simp)))
          (fun q hq => linkState_not_mem_portKeys (hl p (by simp)) (hl q (by simp [hq])) fun h => hnd.1 (h ▸ hq)) t
      rw [reg_of_aside (hrest _), if_pos hen, linkState_retrain]
    · refine ih (fun r hr => hl r (by simp [hr])) hnd.2 hp _ ?_
      have hkeep : (if bit (s.reg R.portEnable) q then s.retrain q else s.portOff q).aside R.portEnable = s.aside R.portEnable :=
        aside_ite (aside_retrain (by decide) (not_mem_portKeys (by decide) q) s)
          (aside_portOff (by decide) (not_mem_portKeys (by decide) q) s)
      rwa [reg_of_aside hkeep]

/-- The keys that neither the ports' training nor what follows a topology write sets. -/
def topologyKeeps (k : Nat) : Prop :=
  k ∉ faultRegs ∧ (∀ p < 32, k ∉ portKeys p) ∧ k ∉ [R.custodyGiven, R.givenDigest, R.measRegister, R.lostNoticeChip]

/-- The part after a manifest's side effects, but for the last, which reports a lost custody copy. -/
theorem posts_manifest (s : State) (old : Nat) : s.posts [.twin old, .measured, .retrainUp, .lost]
    = (((s.post (.twin old)).post .measured).post .retrainUp).post .lost := by
  have h : firstKinds [.twin old, .measured, .retrainUp, .lost] = [.twin old, .measured, .retrainUp, .lost] := rfl
  simp only [State.posts, h, State.each, List.foldl_cons, List.foldl_nil]

theorem posts_chipNumber (s : State) (old : Nat) : s.posts [.twin old, .retrainUp] = (s.post (.twin old)).post .retrainUp := by
  have h : firstKinds [.twin old, .retrainUp] = [.twin old, .retrainUp] := rfl
  simp only [State.posts, h, State.each, List.foldl_cons, List.foldl_nil]

theorem aside_posts_chipNumber {k : Nat} (hk : topologyKeeps k) (s : State) (old : Nat) :
    (s.posts [.twin old, .retrainUp]).aside k = s.aside k := by
  obtain ⟨h1, h2, h3⟩ := hk
  simp only [List.mem_cons, List.not_mem_nil, or_false, not_or] at h3
  rw [posts_chipNumber, aside_post_retrainUp h1 h2, aside_post_twin h3.1 h3.2.1]

theorem aside_posts_manifest {k : Nat} (hk : topologyKeeps k) (s : State) (old : Nat) :
    ∃ l, (s.posts [.twin old, .measured, .retrainUp, .lost]).aside k = { s.aside k with measLog := l } := by
  obtain ⟨h1, h2, h3⟩ := hk
  simp only [List.mem_cons, List.not_mem_nil, or_false, not_or] at h3
  obtain ⟨l, hl⟩ := aside_post_measured h3.2.2.1 (s.post (.twin old))
  refine ⟨l, ?_⟩
  rw [posts_manifest, show State.post _ .lost = State.sendOwedLost _ from rfl, aside_sendOwedLost (not_mem_logRegs h1) h3.2.2.2,
    aside_post_retrainUp h1 h2, hl, aside_post_twin h3.1 h3.2.1]

/-- Every enabled port that was UP trains anew with a new manifest (R321). -/
theorem linkState_posts_manifest (s : State) (old : Nat) {p : Nat} (hp : p < 32) (hup : s.reg (R.linkState p) = 7)
    (hen : bit (s.reg R.portEnable) p = true) : (s.posts [.twin old, .measured, .retrainUp, .lost]).reg (R.linkState p) = 2 := by
  have hlost (t : State) : (t.post .lost).reg (R.linkState p) = t.reg (R.linkState p) :=
    reg_of_aside (aside_sendOwedLost (not_mem_logRegs (not_mem_faultRegs_linkState hp))
      (by simp only [R.linkState, R.lostNoticeChip, regKey]; omega) t)
  have hbefore {k : Nat} (h1 : k ≠ R.custodyGiven) (h2 : k ≠ R.givenDigest) (h3 : k ≠ R.measRegister) :
      ((s.post (.twin old)).post .measured).reg k = s.reg k := by
    obtain ⟨l, hl⟩ := aside_post_measured h3 (s.post (.twin old))
    rw [aside_post_twin h1 h2] at hl
    exact reg_of_aside (s := { s with measLog := l }) hl
  have hup' : ((s.post (.twin old)).post .measured).reg (R.linkState p) = 7 := by
    rw [hbefore, hup]
    all_goals simp only [R.linkState, R.custodyGiven, R.givenDigest, R.measRegister, regKey]; omega
  have hen' : ((s.post (.twin old)).post .measured).reg R.portEnable = s.reg R.portEnable := hbefore (by decide) (by decide) (by decide)
  rw [posts_manifest, hlost]
  refine linkState_retrainAll (fun q hq => List.mem_range.mp (List.mem_filter.mp hq).1) (List.nodup_range.filter _) ?_ _ (by rwa [hen'])
  exact List.mem_filter.mpr ⟨List.mem_range.mpr hp, by simp [hup']⟩

/-- With no port UP, nothing in custody and no manifest, nothing follows. -/
theorem post_twin_idle {s : State} (h : s.reg R.custodyGiven = 0) (old : Nat) : s.post (.twin old) = s := if_neg (by simp [h])

theorem post_retrainUp_idle {s : State} (h : ∀ p < 32, s.reg (R.linkState p) ≠ 7) : s.post .retrainUp = s := by
  have hnil : (List.range 32).filter (fun p => s.reg (R.linkState p) == 7) = [] := by
    rw [List.filter_eq_nil_iff]
    intro p hp
    simpa using h p (List.mem_range.mp hp)
  show s.retrainAll _ = s
  rw [hnil]
  rfl

theorem post_measured_idle {s : State} (h : s.manifest = []) : s.post .measured = s := if_pos h

theorem post_lost_idle {s : State} (h : s.manifest = []) : s.post .lost = s := by
  have hnone (c : Nat) : recOf [] c = none := rfl
  exact if_neg (by simp [h, hnone])

/-! ## The writes of the statement -/

theorem lockTest_eq (s : State) : s.lockTest = { (s.setReg R.testAccess 0).setReg R.testScope 0 with
    tap := if s.tap = TapReg.mailbox then TapReg.mailbox else .bypass } := by
  unfold State.lockTest
  cases s.tap <;> rfl

theorem writeRankTable_cases (data : List Byte) (s : State) : writeRankTable data s =
    if s.manifest = [] then s.wBad 0x0402
    else if data = [] ∨ s.ranksStatus data = 0 then (s.setBlob R.rankTable data).wOk else s.wBad (s.ranksStatus data) := by
  unfold writeRankTable
  by_cases h1 : s.manifest = []
  · simp [h1]
  · by_cases h2 : data = []
    · simp [h1, h2]
    · by_cases h3 : s.ranksStatus data = 0 <;> simp [h1, h2, h3]

/-- A route table within the derived one is kept (R326). -/
theorem writeRouteTable_derived {data : List Byte} {s : State}
    (h : ∀ c < 4096, routeStatus (field data (2 * c) 2) (derivedRoute s.manifest s.chip c) = 0) :
    writeRouteTable data s = (s.setBlob R.routeTable data).wOk := by
  have hnone : ((List.range 4096).map fun c => routeStatus (field data (2 * c) 2) (derivedRoute s.manifest s.chip c)).find? (· ≠ 0)
      = none := by
    rw [List.find?_eq_none]
    intro x hx
    obtain ⟨c, hc, rfl⟩ := List.mem_map.mp hx
    simpa using h c (List.mem_range.mp hc)
  unfold writeRouteTable
  rw [hnone]

/-- The state with a manifest written, before what follows the write: without rank and route table (R321). -/
def State.withManifest (s : State) (data : List Byte) : State :=
  ((s.setBlob R.manifest data).setBlob R.rankTable []).setBlob R.routeTable []

theorem writeManifest_valid {data : List Byte} {s : State} (h : data = [] ∨ manifestStatus data s.chip = 0) :
    writeManifest data s = (s.withManifest data).wOk [.twin s.twin, .measured, .retrainUp, .lost] := by
  refine if_neg ?_
  rcases h with h | h <;> simp [h]

theorem writeChipNumber_valid {data : List Byte} {s : State} (h : s.manifest = [] ∨ (recOf s.manifest (leNat data)).isSome = true) :
    writeChipNumber data s = (s.setReg R.chipNumber (leNat data)).wOk [.twin s.twin, .retrainUp] := by
  refine if_neg ?_
  rintro ⟨h1, -, h3⟩
  rcases h with h | h
  · exact h1 h
  · simp [Option.isNone_iff_eq_none.mp h3] at h

/-- An empty manifest erases the entry, and nothing follows where no port is UP and nothing is in custody. -/
theorem posts_withManifest_nil {s : State} (hup : ∀ p < 32, s.reg (R.linkState p) ≠ 7) (hgiven : s.reg R.custodyGiven = 0) (old : Nat) :
    (s.withManifest []).posts [.twin old, .measured, .retrainUp, .lost] = s.withManifest [] := by
  have hm : (s.withManifest []).manifest = [] := by simp [State.manifest, State.withManifest]
  rw [posts_manifest, post_twin_idle (s := s.withManifest []) hgiven, post_measured_idle hm,
    post_retrainUp_idle (s := s.withManifest []) hup, post_lost_idle hm]

/-- A BLOB register that the side effects of a manifest keep. -/
theorem blob_posts_manifest {k : Nat} (hk : topologyKeeps k) (s : State) (old : Nat) :
    (s.posts [.twin old, .measured, .retrainUp, .lost]).blob k = s.blob k := by
  obtain ⟨l, hl⟩ := aside_posts_manifest hk s old
  exact blob_of_aside (s := { s with measLog := l }) hl

/-- They keep the memories. -/
theorem memories_posts_manifest (s : State) (old : Nat) :
    (s.posts [.twin old, .measured, .retrainUp, .lost]).sram = s.sram ∧ (s.posts [.twin old, .measured, .retrainUp, .lost]).dram = s.dram := by
  obtain ⟨l, hl⟩ := aside_posts_manifest (k := R.manifest) ⟨by decide, by decide, by decide⟩ s old
  exact memories_of_aside (s := { s with measLog := l }) hl

theorem blob_withManifest (s : State) (data : List Byte) : (s.withManifest data).blob R.manifest = data
    ∧ (s.withManifest data).blob R.rankTable = [] ∧ (s.withManifest data).blob R.routeTable = [] := by
  simp [State.withManifest, show R.manifest ≠ R.routeTable by decide, show R.manifest ≠ R.rankTable by decide]

/-- A command whose own write is taken with nothing to follow answers 0. -/
theorem rowWrite_wOk {s t : State} {src : OdSrc} {k k' : Nat} {data : List Byte} {f : List Byte → State → WriteRes}
    (h : s.takes src k data = true) (hl : lockedRange (k / 65536) = false) (hk : k ∉ txnKeys)
    (hplace : regKey (k / 65536) (k / 256 % 256) = k)
    (hown : ((writers0 ++ writers1 ++ writers2).find? fun w => w.1 == k) = some (k', f)) (hf : f data s = t.wOk) :
    s.rowWrite src k data = .next t.ok := by
  rw [rowWrite_taken h hl hk hplace hown, hf]
  rfl

/-- Where the own write is taken, its side effects follow. -/
theorem rowWrite_posts {s t : State} {l : List PostOp} {src : OdSrc} {k k' : Nat} {data : List Byte} {f : List Byte → State → WriteRes}
    (h : s.takes src k data = true) (hl : lockedRange (k / 65536) = false) (hk : k ∉ txnKeys)
    (hplace : regKey (k / 65536) (k / 256 % 256) = k)
    (hown : ((writers0 ++ writers1 ++ writers2).find? fun w => w.1 == k) = some (k', f)) (hf : f data s = t.wOk l) :
    s.rowWrite src k data = .next (t.posts l).ok := by
  rw [rowWrite_taken h hl hk hplace hown, hf]
  rfl

/-- Settles O37: each command is its entry's own write, with what follows it. -/
theorem writeTaken : Obligations.WriteTaken := by
  unfold Obligations.WriteTaken
  intro src data s
  refine ⟨fun index sub e hfind hblock hl h hw hk hsub => exec_odWrite_plain hfind hblock hl h hw hk hsub, fun h => ?_, fun h => ?_,
    fun h => ?_, fun h => ?_, fun h => ?_, fun h => ?_, fun h hroute => ?_, fun h hup hgiven => ?_, fun h hdata => ?_, fun h hchip => ?_⟩
  · exact rowWrite_wOk h (by decide) (by decide) (by decide) (k' := regKey 0x2103 1) (f := writeAlertClear) rfl rfl
  · exact rowWrite_wOk h (by decide) (by decide) (by decide) (k' := R.logClear) (f := writeLogClear) rfl rfl
  · exact rowWrite_wOk h (by decide) (by decide) (by decide) (k' := R.testLock) (f := writeTestLock) rfl
      (congrArg (State.wOk ·) (lockTest_eq s))
  · exact rowWrite_wOk h (by decide) (by decide) (by decide) (k' := R.quoteNonce) (f := writeQuoteNonce) rfl rfl
  · exact rowWrite_wOk h (by decide) (by decide) (by decide) (k' := R.leakPeriodMs 0) (f := writeLeakPeriod) rfl rfl
  · refine (rowWrite_taken h (by decide) (by decide) (by decide) (k' := R.rankTable) (f := writeRankTable) rfl).trans (congrArg _ ?_)
    rw [writeRankTable_cases]
    split
    · simp only [State.wBad, posts_nil]
    · split <;> simp only [State.wOk, State.wBad, posts_nil, State.ok]
  · have hwrite := writeRouteTable_derived hroute
    exact rowWrite_wOk h (by decide) (by decide) (by decide) (k' := R.routeTable) (f := writeRouteTable) rfl hwrite
  · refine (rowWrite_posts h (by decide) (by decide) (by decide) (k' := R.manifest) (f := writeManifest) rfl
      (writeManifest_valid (.inl rfl))).trans ?_
    rw [posts_withManifest_nil hup hgiven]
    rfl
  · refine ⟨_, rowWrite_posts h (by decide) (by decide) (by decide) (k' := R.manifest) (f := writeManifest) rfl
      (writeManifest_valid hdata), rfl, ?_⟩
    obtain ⟨hman, hrank, hroute⟩ := blob_withManifest s data
    obtain ⟨hsram, hdram⟩ := memories_posts_manifest (s.withManifest data) s.twin
    have hblob {k : Nat} (hk : topologyKeeps k) := blob_posts_manifest hk (s.withManifest data) s.twin
    have hlinks : ∀ p < 32, s.reg (R.linkState p) = 7 → bit (s.reg R.portEnable) p = true →
        ((s.withManifest data).posts [.twin s.twin, .measured, .retrainUp, .lost]).reg (R.linkState p) = 2 :=
      fun p hp hlink hen => linkState_posts_manifest (s.withManifest data) s.twin hp hlink hen
    generalize (s.withManifest data).posts [.twin s.twin, .measured, .retrainUp, .lost] = t at *
    exact ⟨(hblob ⟨by decide, by decide, by decide⟩).trans hman, (hblob ⟨by decide, by decide, by decide⟩).trans hrank,
      (hblob ⟨by decide, by decide, by decide⟩).trans hroute, hsram, hdram, hlinks⟩
  · have hexec : exec (.chipNumberWrite src data) s = .next ((s.setReg R.chipNumber (leNat data)).posts [.twin s.twin, .retrainUp]).ok :=
      rowWrite_posts h (by decide) (by decide) (by decide) (k' := R.chipNumber) (f := writeChipNumber) rfl (writeChipNumber_valid hchip)
    rw [hexec]
    refine ⟨⟨_, rfl, rfl, ?_⟩, fun hup hgiven => ?_⟩
    · have haside := aside_posts_chipNumber (k := R.chipNumber) ⟨by decide, by decide, by decide⟩
        (s.setReg R.chipNumber (leNat data)) s.twin
      have hchipNumber := (reg_of_aside haside).trans (by simp : (s.setReg R.chipNumber (leNat data)).reg R.chipNumber = leNat data)
      obtain ⟨hsram, hdram⟩ := memories_of_aside haside
      generalize (s.setReg R.chipNumber (leNat data)).posts [.twin s.twin, .retrainUp] = t at *
      exact ⟨hchipNumber, hsram, hdram⟩
    · have hup' : ∀ p < 32, (s.setReg R.chipNumber (leNat data)).reg (R.linkState p) ≠ 7 := fun p hp => by
        rw [reg_setReg, if_neg (by simp only [R.linkState, R.chipNumber, regKey]; omega)]
        exact hup p hp
      have hgiven' : (s.setReg R.chipNumber (leNat data)).reg R.custodyGiven = 0 := by
        rw [reg_setReg, if_neg (by decide)]
        exact hgiven
      rw [posts_chipNumber, post_twin_idle hgiven', post_retrainUp_idle hup']

end Sys2Proof.Machine
end

section
/-! The end of a boot (R509, R567, R568, R570). -/

namespace Sys2Proof.Machine

/-! ## What the boot's later steps keep -/

/-- `t` has `s`'s power state, boot and register `k`, and `s`'s measurement log with more at its end. -/
structure Grows (k : Nat) (s t : State) : Prop where
  power : t.power = s.power
  boot : t.boot = s.boot
  reg : ∀ d, Tab.get d t.regs k = Tab.get d s.regs k
  log : ∃ l, t.measLog = s.measLog ++ l

namespace Grows
variable {k : Nat}

theorem of_aside {s t : State} (h : t.aside k = s.aside k) : Grows k s t where
  power := congrArg Aside.power h
  boot := congrArg Aside.boot h
  reg := congrFun (congrArg Aside.reg h)
  log := ⟨[], (congrArg Aside.measLog h).trans (List.append_nil _).symm⟩

theorem refl (s : State) : Grows k s s := of_aside rfl

theorem trans {s t u : State} (h1 : Grows k s t) (h2 : Grows k t u) : Grows k s u where
  power := h2.power.trans h1.power
  boot := h2.boot.trans h1.boot
  reg := fun d => (h2.reg d).trans (h1.reg d)
  log := by
    obtain ⟨l1, h1⟩ := h1.log
    obtain ⟨l2, h2⟩ := h2.log
    exact ⟨l1 ++ l2, by rw [h2, h1, List.append_assoc]⟩

theorem each {α : Type} {f : State → α → State} (h : ∀ t x, Grows k t (f t x)) (l : List α) (s : State) : Grows k s (s.each l f) := by
  induction l generalizing s with
  | nil => exact refl s
  | cons x l ih => exact (h s x).trans (ih (f s x))

/-- A register, a BLOB register and the log's end. -/
theorem setReg {j : Nat} (h : k ≠ j) (s : State) (v : Nat) : Grows k s (s.setReg j v) := of_aside (aside_setReg h s v)

theorem setBlob (j : Nat) (s : State) (l : List Byte) : Grows k s (s.setBlob j l) := ⟨rfl, rfl, fun _ => rfl, [], (List.append_nil _).symm⟩

theorem setDom (d : Nat) (s : State) (x : Dom) : Grows k s (s.setDom d x) := of_aside rfl

theorem event (h : k ∉ logRegs) (s : State) (code unit detail : Nat) : Grows k s (s.event code unit detail) :=
  of_aside (aside_event s code unit detail h)

theorem measure1 (s : State) (kind version : Nat) (digest : List Byte) : Grows k s (s.measure1 kind version digest) := by
  refine ⟨rfl, rfl, fun _ => rfl, ?_⟩
  unfold State.measure1
  dsimp only
  split
  · exact ⟨_, rfl⟩
  · exact ⟨[], (List.append_nil _).symm⟩

end Grows

/-- The registers in which a boot leaves its result. -/
def bootRegs : List Nat := [R.runningBank, R.firmwareVersion, R.bootTimeMs, R.resetCause]

/-- The registers that grade, configuration, domains and the end of a job set on the way to Kindled. -/
def bootSets : List Nat := faultRegs ++ [R.gradeState, R.gradeRecordVersion, R.gradeId, R.goodCoresMin, R.rowRepairs, R.configSlots,
  R.frameReference, R.domainState 0, R.domainState 1, R.slewRemaining, R.endCause, R.activeClause, R.lostNoticeChip]

theorem bootRegs_not_mem_bootSets : ∀ k ∈ bootRegs, k ∉ bootSets := by decide

theorem bootRegs_not_mem_portKeys : ∀ k ∈ bootRegs, ∀ p < 32, k ∉ portKeys p := by decide

section
variable {k : Nat} (hk : k ∉ bootSets)
include hk

theorem not_mem_faultRegs : k ∉ faultRegs := fun h => hk (List.mem_append_left _ h)

theorem ne_of_mem_bootSets {j : Nat} (hj : j ∈ bootSets) : k ≠ j := fun h => hk (h ▸ hj)

theorem grows_setReg_of_mem {j : Nat} (hj : j ∈ bootSets) (s : State) (v : Nat) : Grows k s (s.setReg j v) :=
  .setReg (ne_of_mem_bootSets hk hj) s v

theorem grows_event (s : State) (code unit detail : Nat) : Grows k s (s.event code unit detail) :=
  .event (not_mem_logRegs (not_mem_faultRegs hk)) s code unit detail

/-- The grade record, or GRADE_INVALID. -/
theorem grows_applyGrade (s : State) : Grows k s s.applyGrade := by
  have hinvalid (t : State) (v : Nat) : Grows k t (((t.setReg R.gradeState v).event 0x1080 0 0).noteCoreFault 0x1080 none) :=
    ((grows_setReg_of_mem hk (by decide) t v).trans (grows_event hk _ _ _ _)).trans
      (.of_aside (aside_noteCoreFault (not_mem_faultRegs hk) _ _ _))
  have hmasks (t : State) (body : List Byte) :
      Grows k t (t.each (List.range 16) fun u r => u.setBlob (R.goodMask r) (gradeMask body r)) := .each (fun u r => .setBlob _ u _) _ t
  have hshown (t : State) (a b c d : Nat) : Grows k t ((((t.setReg R.gradeId a).setReg R.gradeRecordVersion b).setReg
      R.goodCoresMin c).setReg R.rowRepairs d) :=
    (((grows_setReg_of_mem hk (by decide) t a).trans (grows_setReg_of_mem hk (by decide) _ b)).trans
      (grows_setReg_of_mem hk (by decide) _ c)).trans (grows_setReg_of_mem hk (by decide) _ d)
  unfold State.applyGrade
  extract_lets v body fewest s1 s2 s3
  have hs3 : Grows k s s3 := ((Grows.measure1 s _ _ _).trans (hmasks s1 body)).trans (hshown s2 _ _ _ _)
  split
  · refine ((grows_setReg_of_mem hk (by decide) s v).trans ((grows_setReg_of_mem hk (by decide) _ 0).trans
      (grows_event hk _ _ _ _))).trans (.of_aside (aside_noteCoreFault (not_mem_faultRegs hk) _ _ _))
  · split
    · exact hs3.trans (hinvalid s3 3)
    · exact hs3.trans (grows_setReg_of_mem hk (by decide) s3 0)

/-- The configuration records. -/
theorem grows_applyConfig (s : State) : Grows k s s.applyConfig := by
  have hcfg (t : State) (c : Tab (List Byte)) : Grows k t { t with cfg := c } :=
    ⟨rfl, rfl, fun _ => rfl, [], (List.append_nil _).symm⟩
  unfold State.applyConfig
  refine ((hcfg s []).trans (grows_setReg_of_mem hk (by decide) _ 0)).trans (.each (fun t n => ?_) _ _)
  dsimp only
  split
  · exact .refl t
  · split
    · exact grows_event hk t _ _ _
    · exact ((Grows.measure1 t _ _ _).trans (hcfg _ _)).trans (grows_setReg_of_mem hk (by decide) _ _)

/-- A domain's start. -/
theorem grows_domTo {d : Nat} (hd : d ∈ [0, 1]) (s : State) (st : Nat) : Grows k s (s.domTo d st) := by
  have hset : R.domainState d ∈ bootSets := by
    revert d
    decide
  unfold State.domTo
  exact (Grows.setDom d s _).trans (grows_setReg_of_mem hk hset _ st)

theorem grows_lockDomain {d : Nat} (hd : d ∈ [0, 1]) (s : State) : Grows k s (s.lockDomain d) := by
  have hset : R.domainState d ∈ bootSets := by
    revert d
    decide
  have hacq (x : Dom) : Grows k s ((s.setDom d x).setReg (R.domainState d) 2) :=
    (Grows.setDom d s x).trans (grows_setReg_of_mem hk hset _ 2)
  have hswitch (t : State) (x : Option Nat) : Grows k t { t with switchTo := x } := .of_aside rfl
  have hfollow (t : State) : Grows k t { t.setReg R.frameReference d with lastDom := d } :=
    (grows_setReg_of_mem hk (by decide) t d).trans (.of_aside rfl)
  have hstep (t : State) (x : Option Nat) : Grows k t { t with stepPending := x } := .of_aside rfl
  unfold State.lockDomain
  extract_lets first dom s1 f sel followed s2
  have hs1 : Grows k s s1 := hacq _
  split
  · split
    · exact hs1.trans (hswitch s1 _)
    · exact hs1
  · split
    · have hs2 : Grows k s s2 := hs1.trans (hfollow s1)
      split
      · exact hs2.trans (hstep s2 _)
      · exact hs2.trans (grows_setReg_of_mem hk (by decide) s2 _)
    · exact hs1

theorem grows_startDomains (s : State) : Grows k s s.startDomains := by
  have htime (t : State) (x : Int) : Grows k t (t.setTime x) := .of_aside rfl
  have hone (t : State) {d : Nat} (hd : d ∈ [0, 1]) : Grows k t (match t.reg (R.role d) with
      | 1 => (t.domTo d 2).lockDomain d
      | 2 => t.domTo d 1
      | _ => t.domTo d 0) := by
    split
    · exact (grows_domTo hk hd t 2).trans (grows_lockDomain hk hd _)
    · exact grows_domTo hk hd t 1
    · exact grows_domTo hk hd t 0
  unfold State.startDomains
  exact (((htime s _).trans (grows_setReg_of_mem hk (by decide) _ 2)).trans (hone _ (by decide))).trans (hone _ (by decide))

theorem grows_finishJob (s : State) : Grows k s s.finishJob := by
  have hclock (t : State) (x : Option Nat) : Grows k t { t with kClock := x } := .of_aside rfl
  have hregion (t : State) (r : Nat) (f : Region → Region) : Grows k t (t.modRegion r f) := .of_aside rfl
  have hretune (t : State) : Grows k t t.retune := by
    unfold State.retune
    split
    · exact .refl t
    · exact (hclock t _).trans (.each (fun u r => hregion u r _) _ _)
  have hidle (t : State) (c : Nat) : Grows k t (((t.setReg R.jobState 0).setReg R.endCause c).setReg R.activeClause 0xFF) :=
    ((grows_setReg_of_mem hk (by decide) t 0).trans (grows_setReg_of_mem hk (by decide) _ c)).trans
      (grows_setReg_of_mem hk (by decide) _ 0xFF)
  have hended (t : State) : Grows k t { t with endPending := none } := .of_aside rfl
  unfold State.finishJob
  split
  · exact .refl s
  · exact ((hidle s _).trans ((hended _).trans (grows_event hk _ _ _ _))).trans (hretune _)

end

/-! ## Bank tried and firmware started -/

/-- A bank that failed, in the log and on the service UART (R24). -/
def State.badBank (s : State) (x : Nat × Nat) : State :=
  (s.event 0x8001 x.1 (recDetail (s.bank x.1) x.2)).uartLine [BitVec.ofNat 8 x.1, BitVec.ofNat 8 x.2]

/-- The part once the boot ROM has tried its banks. -/
def State.tried (s : State) : State := s.rebuildRollback.each s.rebuildRollback.chooseBank.2 State.badBank

theorem aside_event_zero (s : State) (code unit detail : Nat) : (s.event code unit detail).aside 0 = s.aside 0 :=
  aside_event s _ _ _ (by decide)

theorem bank_event (s : State) (code unit detail : Nat) : (s.event code unit detail).bank = s.bank := by
  obtain ⟨e, l, r, g, n, h, -⟩ := logEntry_cases s code 0 unit detail
  unfold State.event
  rw [h]
  rfl

/-- The boot ROM's tries leave power, memories and banks. -/
theorem aside_tried (s : State) : s.tried.aside 0 = s.aside 0 := by
  have hrollback : s.rebuildRollback.aside 0 = s.aside 0 := by
    unfold State.rebuildRollback
    exact aside_ite rfl (aside_event_zero _ _ _ _)
  have hbad (t : State) (x : Nat × Nat) : (t.badBank x).aside 0 = t.aside 0 := aside_event_zero t _ _ _
  exact (aside_each (fun t x _ => hbad t x) _).trans hrollback

theorem bank_tried (s : State) : s.tried.bank = s.bank := by
  have hrollback : s.rebuildRollback.bank = s.bank := by
    unfold State.rebuildRollback
    split
    · rfl
    · exact bank_event _ _ _ _
  exact (each_keeps State.bank State.badBank _ _ fun t x _ => bank_event t _ _ _).trans hrollback

/-- The part once the boot ROM has measured itself and the firmware and named the bank. -/
def State.measuredBoot (s : State) (b ms : Nat) : State :=
  let r := s.bank b
  let s1 := { s.setBlob R.measRegister (zeros 48) with measLog := [], measCount := 0 }
  let s2 := (((s1.measure1 1 0 Config.romDigest.toList).measure1 2 (field r 8 8) (sha384 r)).uartLine [BitVec.ofNat 8 b, 0]).uartLine
    Config.romDigest.toList |>.uartLine (sha384 r)
  ((s2.setReg R.runningBank b).setReg R.firmwareVersion (field r 8 4)).setReg R.bootTimeMs (ms % 2 ^ 32)

theorem regs_measuredBoot (s : State) (b ms d : Nat) : Tab.get d (s.measuredBoot b ms).regs R.runningBank = b
    ∧ Tab.get d (s.measuredBoot b ms).regs R.firmwareVersion = field (s.bank b) 8 4
    ∧ Tab.get d (s.measuredBoot b ms).regs R.bootTimeMs = ms % 2 ^ 32 := by
  have h1 : R.runningBank ≠ R.firmwareVersion := by decide
  have h2 : R.runningBank ≠ R.bootTimeMs := by decide
  have h3 : R.firmwareVersion ≠ R.bootTimeMs := by decide
  simp only [State.measuredBoot, State.setReg, tab_get_set, h1, h2, h3, if_true, if_false, and_self]

theorem measLog_measuredBoot (s : State) (b ms : Nat) : (s.measuredBoot b ms).measLog
    = [toLE 2 0 ++ toLE 2 1 ++ toLE 8 0 ++ zeros 4 ++ Config.romDigest.toList,
      toLE 2 1 ++ toLE 2 2 ++ toLE 8 (field (s.bank b) 8 8) ++ zeros 4 ++ sha384 (s.bank b)] := rfl

/-- A part that comes to Kindled, its banks and minimum versions shown. -/
def State.kindledNow (s : State) : State := { s.showBanks.showMins with power := .kindled, boot := .none, bootCause := 255 }

theorem regs_kindledNow (s : State) : s.kindledNow.regs = s.regs := rfl

theorem measLog_kindledNow (s : State) : s.kindledNow.measLog = s.measLog := rfl

/-- The measured part in Kindled with its records applied. -/
def State.kindledOn (s : State) (b ms : Nat) : State := (s.measuredBoot b ms).applyGrade.applyConfig.kindledNow

theorem power_kindledOn (s : State) (b ms : Nat) : (s.kindledOn b ms).power = .kindled := rfl

theorem boot_kindledOn (s : State) (b ms : Nat) : (s.kindledOn b ms).boot = .none := rfl

/-- And with its domains, ports and the job that the reset ended. -/
def State.started (s : State) : State := (s.startDomains.retrainAll (List.range 32)).finishJob

/-- The reset's cause kept and logged. -/
def State.toldCause (s : State) (cause : Nat) : State :=
  let s7 := if cause = 255 then s else s.setReg R.resetCause cause
  let s8 := if cause = 1 ∨ cause = 2 ∨ cause = 3 then s7.event 0x7060 0xFF noDetail else s7
  (if cause = 3 then s8.event 0x7063 0xFF noDetail else s8).sendOwedLost

theorem bootFirmware_eq (s : State) (b cause ms : Nat) : s.bootFirmware b cause ms = (s.kindledOn b ms).started.toldCause cause := rfl

section
variable {k : Nat} (hk : k ∈ bootRegs)
include hk

theorem regs_kindledOn (s : State) (b ms d : Nat) : Tab.get d (s.kindledOn b ms).regs k = Tab.get d (s.measuredBoot b ms).regs k := by
  have hsets := bootRegs_not_mem_bootSets k hk
  rw [State.kindledOn, regs_kindledNow]
  exact ((grows_applyGrade hsets (s.measuredBoot b ms)).trans (grows_applyConfig hsets _)).reg d

theorem grows_started (s : State) : Grows k s s.started :=
  have hsets := bootRegs_not_mem_bootSets k hk
  ((grows_startDomains hsets s).trans (.of_aside (aside_retrainAll (not_mem_faultRegs hsets)
    (fun p hp => bootRegs_not_mem_portKeys k hk p (List.mem_range.mp hp)) _))).trans (grows_finishJob hsets _)

/-- The cause's events and the lost custody copy's report. -/
theorem grows_toldCause_from (s : State) (cause : Nat) :
    Grows k (if cause = 255 then s else s.setReg R.resetCause cause) (s.toldCause cause) := by
  have hsets := bootRegs_not_mem_bootSets k hk
  have hmaybe (c : Prop) [Decidable c] (t : State) (code : Nat) : Grows k t (if c then t.event code 0xFF noDetail else t) := by
    split
    · exact grows_event hsets t _ _ _
    · exact .refl t
  exact ((hmaybe _ _ 0x7060).trans (hmaybe _ _ 0x7063)).trans (.of_aside (aside_sendOwedLost
    (not_mem_logRegs (not_mem_faultRegs hsets)) (ne_of_mem_bootSets hsets (by decide)) _))

theorem grows_toldCause (h : k ≠ R.resetCause) (s : State) (cause : Nat) : Grows k s (s.toldCause cause) := by
  refine Grows.trans ?_ (grows_toldCause_from hk s cause)
  split
  · exact .refl s
  · exact .setReg h s cause

end

theorem resetCause_toldCause {cause : Nat} (h : cause ≠ 255) (s : State) : (s.toldCause cause).reg R.resetCause = cause := by
  refine ((grows_toldCause_from (k := R.resetCause) (by decide) s cause).reg _).trans ?_
  rw [if_neg h]
  exact (tab_get_set _ _ _ _ _).trans (if_pos rfl)

theorem measLog_kindledOn (s : State) (b ms : Nat) : ∃ l, (s.kindledOn b ms).measLog = (s.measuredBoot b ms).measLog ++ l := by
  have hsets := bootRegs_not_mem_bootSets R.runningBank (by decide)
  rw [State.kindledOn, measLog_kindledNow]
  exact ((grows_applyGrade hsets (s.measuredBoot b ms)).trans (grows_applyConfig hsets _)).log

/-- The registers of the boot's result, but for its cause, stay from the bank's naming on. -/
theorem regs_bootFirmware {k : Nat} (hk : k ∈ bootRegs) (h : k ≠ R.resetCause) (s : State) (b cause ms d : Nat) :
    Tab.get d (s.bootFirmware b cause ms).regs k = Tab.get d (s.measuredBoot b ms).regs k := by
  rw [bootFirmware_eq, (grows_toldCause hk h _ cause).reg, (grows_started hk _).reg, regs_kindledOn hk]

theorem power_boot_bootFirmware (s : State) (b cause ms : Nat) :
    (s.bootFirmware b cause ms).power = .kindled ∧ (s.bootFirmware b cause ms).boot = .none := by
  have hgrows : Grows R.runningBank (s.kindledOn b ms) ((s.kindledOn b ms).started.toldCause cause) :=
    (grows_started (by decide) _).trans (grows_toldCause (by decide) (by decide) _ cause)
  rw [bootFirmware_eq, hgrows.power, hgrows.boot]
  exact ⟨power_kindledOn s b ms, boot_kindledOn s b ms⟩

theorem measLog_bootFirmware (s : State) (b cause ms : Nat) :
    ∃ l, (s.bootFirmware b cause ms).measLog = (s.measuredBoot b ms).measLog ++ l := by
  have hgrows : Grows R.runningBank (s.kindledOn b ms) ((s.kindledOn b ms).started.toldCause cause) :=
    (grows_started (by decide) _).trans (grows_toldCause (by decide) (by decide) _ cause)
  obtain ⟨l1, hl1⟩ := measLog_kindledOn s b ms
  obtain ⟨l2, hl2⟩ := hgrows.log
  exact ⟨l1 ++ l2, by rw [bootFirmware_eq, hl2, hl1, List.append_assoc]⟩

/-- What a boot on bank `b` shows. -/
theorem reg_bootFirmware (s : State) (b cause ms : Nat) : (s.bootFirmware b cause ms).reg R.runningBank = b
    ∧ (s.bootFirmware b cause ms).reg R.bootTimeMs = ms % 2 ^ 32 ∧ (s.bootFirmware b cause ms).reg R.firmwareVersion = field (s.bank b) 8 4 := by
  have hvalues := regs_measuredBoot s b ms
  refine ⟨?_, ?_, ?_⟩ <;> unfold State.reg <;> rw [regs_bootFirmware (by decide) (by decide)]
  · exact (hvalues _).1
  · exact (hvalues _).2.2
  · exact (hvalues _).2.1

/-! ## BOOT_COMPLETE -/

section
variable {s : State} {cause : Nat} (hboot : s.boot = .running cause) (hgo : ¬ (s.power = .banked ∧ ¬ s.refclk = true))
include hboot hgo

theorem execBootComplete_some {b : Nat} (hrun : s.rebuildRollback.chooseBank.1 = some b) (ms : Nat) :
    execBootComplete ms s = .next (s.tried.bootFirmware b cause ms) := by
  simp only [execBootComplete, hboot, if_neg hgo, hrun]
  rfl

theorem execBootComplete_none (hrun : s.rebuildRollback.chooseBank.1 = none) (ms : Nat) :
    execBootComplete ms s = .next { s.tried with boot := .stopped } := by
  simp only [execBootComplete, hboot, if_neg hgo, hrun]
  rfl

end

/-- Settles O32: the banks' tries leave power, memories and banks, and from the bank's naming on the boot keeps what it has recorded. -/
theorem bootCompletes : Obligations.BootCompletes := by
  unfold Obligations.BootCompletes
  intro cause ms s hboot
  refine ⟨fun hbanked hclk => ?_, fun hclk => ?_⟩
  · show execBootComplete ms s = _
    simp only [execBootComplete, hboot]
    exact if_pos ⟨hbanked, by simp [hclk]⟩
  · have hgo : ¬ (s.power = .banked ∧ ¬ s.refclk = true) := fun ⟨h1, h2⟩ => h2 (hclk h1)
    cases hrun : s.rebuildRollback.chooseBank.1 with
    | none =>
      have haside := aside_tried s
      obtain ⟨hsram, hdram⟩ := memories_of_aside haside
      exact ⟨_, execBootComplete_none hboot hgo hrun ms, rfl, congrArg Aside.power haside, hsram, hdram⟩
    | some b =>
      obtain ⟨hpower, hnone⟩ := power_boot_bootFirmware s.tried b cause ms
      obtain ⟨hbank, htime, hversion⟩ := reg_bootFirmware s.tried b cause ms
      obtain ⟨l, hlog⟩ := measLog_bootFirmware s.tried b cause ms
      rw [bank_tried] at hversion
      rw [measLog_measuredBoot, bank_tried] at hlog
      refine ⟨_, execBootComplete_some hboot hgo hrun ms, hpower, hnone, hbank, htime, hversion, fun hc => ?_, l, hlog⟩
      rw [bootFirmware_eq]
      exact resetCause_toldCause hc _

end Sys2Proof.Machine
end

section
/-! Loads and stores at issue: the bank access that an L slot's operation makes (R66, R134, R144). -/

namespace Sys2Proof.Machine

/-! ## Byte masks -/

/-- A sum of distinct powers of two has the bits of the powers. -/
theorem testBit_foldl_two_pow (p : Nat → Bool) (n i : Nat) :
    ((List.range n).foldl (fun a j => if p j then a + 2 ^ j else a) 0).testBit i = (decide (i < n) && p i) := by
  suffices h : ∀ n, (List.range n).foldl (fun a j => if p j then a + 2 ^ j else a) 0 < 2 ^ n
      ∧ ∀ i, ((List.range n).foldl (fun a j => if p j then a + 2 ^ j else a) 0).testBit i = (decide (i < n) && p i) from (h n).2 i
  intro n
  induction n with
  | zero => simp
  | succ n ih =>
    obtain ⟨hlt, hbit⟩ := ih
    simp only [List.range_succ, List.foldl_append, List.foldl_cons, List.foldl_nil]
    generalize (List.range n).foldl (fun a j => if p j then a + 2 ^ j else a) 0 = x at hlt hbit
    cases hp : p n
    · refine ⟨by simp only [Bool.false_eq_true, if_false, pow_succ]; omega, fun i => ?_⟩
      simp only [Bool.false_eq_true, if_false, hbit]
      by_cases hi : i = n
      · simp [hi, hp]
      · simp [show i < n + 1 ↔ i < n by omega]
    · refine ⟨by simp only [if_true, pow_succ]; omega, fun i => ?_⟩
      simp only [if_true, Nat.add_comm x]
      by_cases hi : i = n
      · subst hi
        rw [Nat.testBit_two_pow_add_eq, Nat.testBit_lt_two_pow hlt]
        simp [hp]
      · rcases Nat.lt_or_gt_of_ne hi with h | h
        · rw [Nat.testBit_two_pow_add_gt h, hbit]
          simp [h, Nat.lt_succ_of_lt h]
        · have : 2 ^ n + x < 2 ^ i := by
            have := Nat.pow_le_pow_right (n := 2) (by omega) (show n + 1 ≤ i by omega)
            rw [pow_succ] at this
            omega
          rw [Nat.testBit_lt_two_pow this]
          simp [show ¬ i < n + 1 by omega]

/-! ## The access of an L slot -/

/-- An issued bundle's access joins those that wait in its region. -/
theorem exec_bank {i : Instr} {core : CoreId} {b : BitVec 256} (hb : asBundle i = some (core, b)) {s : State}
    (h : s.canIssue core.val b = true) : ∃ t, exec i s = .next t ∧ (t.region (core.val / 64)).bank
      = (s.region (core.val / 64)).bank ++ (runL (s.ctx core.val b .l)).toList := by
  obtain ⟨sc, he⟩ := exec_runs hb h
  exact ⟨_, he, ((runIssue_region s core.val b sc (core.val / 64)).2).trans (if_pos rfl)⟩

/-- The L slot's operation by its code. -/
theorem runL_withSlot (s : State) (c : Nat) (rest : BitVec 256) (w : BitVec 58) :
    runL (s.ctx c (withSlot rest .l 1 w) .l) = opLd (s.ctx c (withSlot rest .l 1 w) .l)
      ∧ runL (s.ctx c (withSlot rest .l 2 w) .l) = opSt (s.ctx c (withSlot rest .l 2 w) .l)
      ∧ runL (s.ctx c (withSlot rest .l 3 w) .l) = opLdw (s.ctx c (withSlot rest .l 3 w) .l)
      ∧ runL (s.ctx c (withSlot rest .l 4 w) .l) = opLdws (s.ctx c (withSlot rest .l 4 w) .l) := by
  have hop (op : Nat) (h : op < 64) : (s.ctx c (withSlot rest .l op w) .l).x.op = op := slotOf_op rest .l op w h
  refine ⟨?_, ?_, ?_, ?_⟩ <;> simp only [runL, hop _ (by decide : 1 < 64), hop _ (by decide : 2 < 64), hop _ (by decide : 3 < 64),
    hop _ (by decide : 4 < 64)]

/-- An operation that its predicate lets access memory adds its access, and one that is off none. -/
theorem joins_of_toList {l l' : List BankAcc} {p : Bool} {a : BankAcc} {P : BankAcc → Prop}
    (h : l' = l ++ (if p then some a else none).toList) (hP : P a) : if p then ∃ x, l' = l ++ [x] ∧ P x else l' = l := by
  cases p
  · simpa using h
  · exact ⟨a, by simpa using h, hP⟩

/-- A store's byte enables are those of the lanes that are on. -/
theorem mask_opSt (on : BitVec 64) (n i : Nat) (hi : i < 256) :
    (BitVec.ofNat 256 ((List.range n).foldl (fun a i => if on.getLsbD (i / 4) then a + 2 ^ i else a) 0)).getLsbD i
      = (decide (i < n) && on.getLsbD (i / 4)) := by
  rw [BitVec.getLsbD_ofNat, testBit_foldl_two_pow (fun i => on.getLsbD (i / 4)) n i]
  simp [hi]

/-- Settles O5: each operation's access is the one that `runL` gives, which joins its region's bank. -/
theorem loadsAndStores : Obligations.LoadsAndStores := by
  unfold Obligations.LoadsAndStores
  intro core w rest s
  obtain ⟨h1, h2, h3, h4⟩ := runL_withSlot s core.val rest w
  refine ⟨fun h => ?_, fun h => ?_, fun h => ?_, fun h => ?_⟩
  · obtain ⟨t, he, hbank⟩ := exec_bank (i := .ld core w rest) rfl h
    exact ⟨t, he, joins_of_toList (hbank.trans (by rw [h1]; rfl)) ⟨rfl, rfl, rfl, rfl, rfl, rfl, rfl, rfl, nofun⟩⟩
  · obtain ⟨t, he, hbank⟩ := exec_bank (i := .st core w rest) rfl h
    exact ⟨t, he, joins_of_toList (hbank.trans (by rw [h2]; rfl)) ⟨rfl, rfl, rfl, rfl, rfl, rfl, rfl, rfl,
      fun _ i hi => mask_opSt _ _ i hi⟩⟩
  · obtain ⟨t, he, hbank⟩ := exec_bank (i := .ldw core w rest) rfl h
    exact ⟨t, he, joins_of_toList (hbank.trans (by rw [h3]; rfl)) ⟨rfl, rfl, rfl, rfl, rfl, rfl, rfl, rfl, nofun⟩⟩
  · obtain ⟨t, he, hbank⟩ := exec_bank (i := .ldws core w rest) rfl h
    exact ⟨t, he, joins_of_toList (hbank.trans (by rw [h4]; rfl)) ⟨rfl, rfl, rfl, rfl, rfl, rfl, rfl, rfl, nofun⟩⟩

end Sys2Proof.Machine
end

section
/-! What the issue of a bundle leaves alone: in its core, in the other cores, and outside the regions (R131, R139, R140, R143, R154). -/

namespace Sys2Proof.Machine

/-! ## The core -/

/-- A core `k` that differs from `n` at most in what an M slot's operation of code `m` and a C slot's of code `c` change. -/
structure Core.Kept (m c : Nat) (n k : Core) : Prop where
  regs : k.v = n.v ∧ k.a = n.a ∧ k.p = n.p ∧ k.tile = n.tile
  loaded : k.imem = n.imem ∧ k.windows = n.windows ∧ k.sendBind = n.sendBind ∧ k.landBind = n.landBind
  stallBeats : k.stallBeats = n.stallBeats
  acc : m = 0 → k.acc = n.acc
  halted : c ≠ 4 → k.halted = n.halted
  flags : c ≠ 11 → c ≠ 13 → k.flags = n.flags ∧ k.wf = n.wf
  step : c ≠ 13 → k.step = n.step ∧ k.restartPc = n.restartPc ∧ k.restartLoops = n.restartLoops
  send : c ≠ 5 → k.send = n.send
  land : c ≠ 6 → k.land = n.land
  farq : c ∉ [7, 8, 9, 10, 13] → k.farq = n.farq

theorem Core.Kept.trans {m c : Nat} {n k l : Core} (h : Core.Kept m c n k) (h' : Core.Kept m c k l) : Core.Kept m c n l := by
  obtain ⟨hr, hl, hb, ha, hh, hf, hs, hse, hla, hq⟩ := h
  obtain ⟨hr', hl', hb', ha', hh', hf', hs', hse', hla', hq'⟩ := h'
  constructor
  · simp [hr, hr']
  · simp [hl, hl']
  · exact hb'.trans hb
  · exact fun h => (ha' h).trans (ha h)
  · exact fun h => (hh' h).trans (hh h)
  · exact fun h1 h2 => ⟨(hf' h1 h2).1.trans (hf h1 h2).1, (hf' h1 h2).2.trans (hf h1 h2).2⟩
  · intro h
    simp [hs h, hs' h]
  · exact fun h => (hse' h).trans (hse h)
  · exact fun h => (hla' h).trans (hla h)
  · exact fun h => (hq' h).trans (hq h)

/-- Results to come, the scoreboard and the loops are no part of it. -/
theorem Core.Kept.open (m c : Nat) (n : Core) (p : List Pend) (sc : List (SbUnit × Nat)) (l : List Loop) :
    Core.Kept m c n { n with pend := p, score := sc, loops := l } := by
  constructor <;> simp

theorem kept_runM (c : Nat) (o : OpCtx) (n : Core) : Core.Kept o.x.op c n (runM o n) := by
  by_cases h : o.x.op = 0
  · rw [runM_nop o n h]
    exact .open _ _ _ _ _ _
  · obtain ⟨p, a, sc, he⟩ := runM_eq o n
    rw [he]
    constructor <;> simp [h]

theorem kept_runV (m c : Nat) (o : OpCtx) (n : Core) : Core.Kept m c n (runV o n) := by
  obtain ⟨p, he⟩ := runV_eq o n
  rw [he]
  exact .open _ _ _ _ _ _

theorem kept_runC (m : Nat) (o : OpCtx) (n : Core) : Core.Kept m o.x.op n (runC o n).core := by
  have hpend (x : CtlOut) (p : List Pend) (l : List Loop) (h : x.core = { n with pend := p, loops := l }) :
      Core.Kept m o.x.op n x.core := h ▸ .open _ _ _ _ n.score _
  unfold runC
  split
  case h_1 => unfold opAop; dsimp only; split <;> exact hpend _ _ _ rfl
  case h_2 => unfold opLoop; dsimp only; split <;> exact hpend _ _ _ rfl
  case h_3 => exact hpend _ _ _ rfl
  case h_4 hop => unfold opHalt; split <;> constructor <;> simp [hop, OpCtx.next]
  case h_5 hop =>
    obtain ⟨l, he⟩ : ∃ l, (opSend o n).core = { n with send := l } := ⟨_, rfl⟩
    rw [he]
    constructor <;> simp [hop]
  case h_6 hop =>
    unfold opRecv; dsimp only
    split
    · exact hpend _ _ _ rfl
    · split <;> constructor <;> simp [hop, OpCtx.next, Core.later]
  case h_7 hop => constructor <;> simp [hop, opFld, OpCtx.farReq, OpCtx.next]
  case h_8 hop => constructor <;> simp [hop, opFst, OpCtx.farReq, OpCtx.next]
  case h_9 hop => constructor <;> simp [hop, opFeng, OpCtx.farReq, OpCtx.next]
  case h_10 hop => constructor <;> simp [hop, opWait, OpCtx.next]
  case h_11 hop =>
    unfold opFlags; dsimp only
    split
    · split <;> constructor <;> simp [hop, OpCtx.next, Core.later]
    · exact hpend _ _ _ rfl
  case h_12 => unfold opSread; dsimp only; split <;> exact hpend _ _ _ rfl
  case h_13 hop => unfold opStep; split <;> constructor <;> simp [hop, OpCtx.next]
  case h_14 => exact hpend _ _ _ rfl

/-- Only a STEP notes a restart point. -/
theorem stepped_runC (o : OpCtx) (n : Core) (h : o.x.op ≠ 13) : (runC o n).stepped = false := by
  unfold runC
  split
  case h_2 => unfold opLoop; dsimp only; split <;> rfl
  case h_6 =>
    unfold opRecv; dsimp only
    split
    · rfl
    · split <;> rfl
  case h_11 => unfold opFlags; dsimp only; split <;> rfl
  case h_13 hop => exact absurd hop h
  all_goals rfl

/-- What a bundle can change of its core. -/
theorem kept_runBundle (s : State) (c : Nat) (b : BitVec 256) (sc : List (SbUnit × Nat)) :
    Core.Kept (slotOf b .m).op (slotOf b .c).op (s.core c) (s.runBundle c b sc).1 := by
  have hops : Core.Kept (slotOf b .m).op (slotOf b .c).op (s.core c) (s.afterOps c b sc).core :=
    (((Core.Kept.open _ _ (s.core c) _ sc _).trans (kept_runM _ (s.ctx c b .m) _)).trans (kept_runV _ _ (s.ctx c b .v) _)).trans
      (kept_runC _ (s.ctx c b .c) _)
  have hstep : (slotOf b .c).op ≠ 13 → (s.afterOps c b sc).stepped = false := stepped_runC (s.ctx c b .c) _
  refine hops.trans ?_
  rw [runBundle_fields]
  constructor <;> simp
  intro h
  simp [hstep h]

theorem issued_runBundle (s : State) (c : Nat) (b : BitVec 256) (sc : List (SbUnit × Nat)) : (s.runBundle c b sc).1.issued = true := by
  rw [runBundle_fields]

/-- Without a far operation the core after the issue is the core after the bundle. -/
theorem core_runIssue_of_not_far {s : State} {c : Nat} {b : BitVec 256} (h : (slotOf b .c).op ∉ [7, 8, 9]) (sc : List (SbUnit × Nat)) :
    (s.runIssue c b sc).core c = (s.runBundle c b sc).1 := by
  have hx : (s.ctx c b .c).x = slotOf b .c := rfl
  have hnone (k : Core) : (s.ctx c b .c).newest k = none := if_neg (by rw [hx]; simpa using h)
  simp only [State.runIssue, hnone, core_joinBank, core_setCore, if_true]

/-! ## Requests of other parts -/

/-- A noted far request marks only requests that wait for their banks. -/
theorem reqLost_noteFar (s : State) (c q : Nat) (r : FarReq) :
    ∃ l, (s.noteFar c q r).reqLost = s.reqLost ++ l ∧ ∀ k ∈ l, ∃ y ∈ s.bgDone, y.1 = k := by
  obtain ⟨f, g, he⟩ := noteFar_eq s c q r
  rw [he]
  split
  · exact ⟨[], by simp⟩
  · dsimp only
    split
    · refine ⟨_, rfl, fun k hk => ?_⟩
      obtain ⟨y, hy, rfl⟩ := List.mem_map.mp hk
      exact ⟨y, (List.mem_filter.mp hy).1, rfl⟩
    · exact ⟨[], (List.append_nil _).symm, by simp⟩

theorem reqLost_runIssue (s : State) (c : Nat) (b : BitVec 256) (sc : List (SbUnit × Nat)) :
    ∃ l, (s.runIssue c b sc).reqLost = s.reqLost ++ l ∧ ∀ k ∈ l, ∃ y ∈ s.bgDone, y.1 = k := by
  simp only [State.runIssue]
  generalize (s.runBundle c b sc).1 = k
  obtain ⟨l1, h1⟩ := setCore_regions s c k
  obtain ⟨l2, h2⟩ := joinBank_regions (s.setRegions l1 s.chans s.palaz s.reqLost) (c / 64) (s.runBundle c b sc).2
  rw [h1, h2, setRegions_setRegions]
  split
  · exact reqLost_noteFar (s.setRegions l2 s.chans s.palaz s.reqLost) _ _ _
  · exact ⟨[], (List.append_nil _).symm, by simp⟩

theorem halted_of_canIssue {s : State} {c : Nat} {b : BitVec 256} (h : s.canIssue c b = true) : (s.core c).halted = false := by
  simp only [State.canIssue, Bool.and_eq_true, Bool.not_eq_true'] at h
  obtain ⟨⟨⟨⟨⟨⟨-, -⟩, -⟩, hhalt⟩, -⟩, -⟩, -⟩ := h
  exact hhalt

/-- Settles O11: outside the regions by `runIssue_frame`, in the regions by `runIssue_region`, and in its own core by what each slot keeps. -/
theorem issueFrame : Obligations.IssueFrame := by
  unfold Obligations.IssueFrame
  intro i core b s hb h c op
  obtain ⟨sc, he⟩ := exec_runs hb h
  obtain ⟨hout, hchans, hstacks, hmarks⟩ := runIssue_frame s core.val b sc
  have hcore := core_runIssue s core.val b sc
  have hissued := issued_runBundle s core.val b sc
  obtain ⟨⟨hv, ha, hp, htile⟩, ⟨himem, hwin, hsend', hland'⟩, hstall, hacc, hhalt, hflags, hstep, hsend, hland, hfarq⟩ :=
    kept_runBundle s core.val b sc
  refine ⟨s.runIssue core.val b sc, he, hout, reqLost_runIssue s core.val b sc, hchans, hstacks, hmarks,
    (congrArg Core.v hcore).trans hv, (congrArg Core.a hcore).trans ha, (congrArg Core.p hcore).trans hp,
    (congrArg Core.tile hcore).trans htile, (congrArg Core.imem hcore).trans himem, (congrArg Core.windows hcore).trans hwin,
    (congrArg Core.sendBind hcore).trans hsend', (congrArg Core.landBind hcore).trans hland',
    (congrArg Core.stallBeats hcore).trans hstall, (congrArg Core.issued hcore).trans hissued,
    fun hm => (congrArg Core.acc hcore).trans (hacc hm),
    fun h4 => (congrArg Core.halted hcore).trans ((hhalt h4).trans (halted_of_canIssue h)),
    fun h11 h13 => ⟨(congrArg Core.flags hcore).trans (hflags h11 h13).1, (congrArg Core.wf hcore).trans (hflags h11 h13).2⟩,
    fun h13 => ?_, fun h5 => (congrArg Core.send hcore).trans (hsend h5), fun h6 => (congrArg Core.land hcore).trans (hland h6),
    fun hf => ?_, fun c' _ hc => core_runIssue_other s core.val b sc c' hc, fun r _ => ?_⟩
  · obtain ⟨h1, h2, h3⟩ := hstep h13
    exact ⟨(congrArg Core.step hcore).trans h1, (congrArg Core.restartPc hcore).trans h2, (congrArg Core.restartLoops hcore).trans h3⟩
  · have hfar : (slotOf b .c).op ∉ [7, 8, 9] := fun hmem => hf (List.mem_append_left [10, 13] hmem)
    exact (congrArg Core.farq (core_runIssue_of_not_far hfar sc)).trans (hfarq hf)
  · obtain ⟨hrest, hbank⟩ := runIssue_region s core.val b sc r
    refine ⟨?_, fun hr => hbank.trans (if_neg hr)⟩
    exact congrArg (fun x : Region => { x with cores := (s.region r).cores, bank := (s.region r).bank }) hrest

end Sys2Proof.Machine
end

section
/-! The bridges between regions and to the spine: a flit's way into a bridge and out of it (R73, R75, R76, R145, R146, R177). -/

namespace Sys2Proof.Machine

/-! ## A send stream's head -/

/-- The head of a send stream that has reached the tail's beat. -/
theorem sendHead_cons {s : State} {c st : Nat} {f : SFlit} {tl : List SFlit} (h : Tab.get [] (s.core c).send st = f :: tl)
    (hr : f.ready ≤ (s.region (c / 64)).beat) : s.sendHead c st = some f := by
  simp [State.sendHead, h, hr]

theorem core_popSend (s : State) (c st k : Nat) : (s.popSend c st).core k
    = if k = c then { s.core c with send := Tab.set (s.core c).send st (Tab.get [] (s.core c).send st).tail } else s.core k := by
  rw [State.popSend, core_modCore]
  by_cases h : k = c <;> simp [h]

theorem region_popSend (s : State) (c st q : Nat) : ∃ l, (s.popSend c st).region q = { s.region q with cores := l } := by
  rw [State.popSend, modCore_eq, region_setCore]
  split
  · exact ⟨_, rfl⟩
  · exact ⟨(s.region q).cores, rfl⟩

theorem core_modRegion_of_cores (s : State) (r c : Nat) (f : Region → Region) (hf : ∀ x, (f x).cores = x.cores) :
    (s.modRegion r f).core c = s.core c := by
  unfold State.core
  rw [region_modRegion]
  split
  · rw [hf]
  · rfl

/-! ## The spine bridge -/

/-- The state once a stream's head has left for the spine bridge, which has counted it. -/
def State.towardSpine (s : State) (c st : Nat) : State :=
  (s.popSend c st).modRegion (c / 64) fun x => { x with spineCtr := x.spineCtr + 1 }

theorem core_towardSpine (s : State) (c st k : Nat) : (s.towardSpine c st).core k = (s.popSend c st).core k :=
  core_modRegion_of_cores _ _ _ _ (by exact fun _ => rfl)

theorem region_towardSpine (s : State) (c st : Nat) : ∃ l, (s.towardSpine c st).region (c / 64)
    = { s.region (c / 64) with cores := l, spineCtr := (s.region (c / 64)).spineCtr + 1 } := by
  obtain ⟨l, h⟩ := region_popSend s c st (c / 64)
  exact ⟨l, by rw [State.towardSpine, region_modRegion, if_pos rfl, h]⟩

/-- A flit with its place in the spine bridge. -/
def State.inSpine (s : State) (c st : Nat) (f : SFlit) : State :=
  (s.towardSpine c st).modRegion (c / 64) fun x =>
    { x with bridgeOut := x.bridgeOut ++ [{ core := c, stream := st, payload := f.payload, ready := s.now }] }

theorem core_inSpine (s : State) (c st : Nat) (f : SFlit) (k : Nat) : (s.inSpine c st f).core k = (s.popSend c st).core k :=
  (core_modRegion_of_cores _ _ _ _ (by exact fun _ => rfl)).trans (core_towardSpine s c st k)

/-- A flit that missed its send deadline is dropped (R177). -/
def State.lateDropped (s : State) (c st : Nat) : State :=
  { s.towardSpine c st with lateDebt := Tab.set s.lateDebt (8 * c + st) (Tab.get 0 s.lateDebt (8 * c + st) - 1) }

/-- A head that may enter the spine bridge does, or is dropped late. -/
theorem spineEnter_head {s : State} {c st : Nat} {f : SFlit} (hbind : bits (Tab.get 0 (s.core c).sendBind st).toNat 2 0 = 1)
    (hroom : (s.region (c / 64)).bridgeOut.length < 64) (hrate : (s.region (c / 64)).spineCtr < 4) (hf : s.sendHead c st = some f) :
    s.spineEnter c st = if Tab.get 0 s.lateDebt (8 * c + st) ≠ 0 then s.lateDropped c st else s.inSpine c st f := by
  have hgo : ¬ (bits (Tab.get 0 (s.core c).sendBind st).toNat 2 0 ≠ 1 ∨ 64 ≤ (s.region (c / 64)).bridgeOut.length
      ∨ 4 ≤ (s.region (c / 64)).spineCtr) := by omega
  simp only [State.spineEnter, if_neg hgo, hf]
  rfl

/-- Settles O22: the stream loses its head, the bridge counts it, and takes it where it is not late. -/
theorem spineBridge : Obligations.SpineBridge := by
  unfold Obligations.SpineBridge
  intro core stream s f tl c x late hbind hroom hrate hsend hready
  have henter : exec (.spineBridgeEntry core stream) s
      = .next (if late ≠ 0 then s.lateDropped c stream.val else s.inSpine c stream.val f) :=
    congrArg Host.Outcome.next (spineEnter_head hbind hroom hrate (sendHead_cons hsend hready))
  obtain ⟨l, hregion⟩ := region_towardSpine s c stream.val
  have hcore : Tab.get [] ((s.popSend c stream.val).core c).send stream.val = tl := by
    rw [core_popSend, if_pos rfl]
    simp [hsend]
  by_cases hlate : late = 0
  · rw [if_neg (fun h => h hlate)] at henter
    refine ⟨_, henter, ?_, ?_, ?_, rfl, rfl, rfl⟩
    · rw [core_inSpine, hcore]
    · rw [State.inSpine, region_modRegion, if_pos rfl, hregion]
    · rw [if_pos hlate, State.inSpine, region_modRegion, if_pos rfl, hregion]
      exact ⟨_, rfl, rfl, rfl, rfl⟩
  · rw [if_pos hlate] at henter
    refine ⟨_, henter, ?_, congrArg Region.spineCtr hregion, ?_, rfl, rfl, rfl⟩
    · exact (congrArg (fun k : Core => Tab.get [] k.send stream.val) (core_towardSpine s c stream.val c)).trans hcore
    rw [if_neg hlate]
    exact ⟨(congrArg Region.bridgeOut hregion :), (tab_get_set _ _ _ _ _).trans (if_pos rfl)⟩

/-! ## Out of a neighbour bridge -/

/-- The state once a flit that region `t` reads from its bridge from `r` has landed. -/
def State.landed (s : State) (r t : Nat) (f : BFlit) (rest : List BFlit) : State :=
  (s.modRegion t fun x => { x with bridgeIn := Tab.set x.bridgeIn r rest }).modCore f.core fun k =>
    { k with land := Tab.set k.land f.stream (Tab.get [] (s.core f.core).land f.stream ++ [{ payload := f.payload, ready := f.ready }]) }

/-- A flit may land: its beat has come and its stream has room. -/
def State.mayLand (s : State) (t : Nat) (f : BFlit) : Prop :=
  f.ready ≤ (s.region t).beat ∧ (Tab.get [] (s.core f.core).land f.stream).length < 8

theorem bridgeDeliver_nil {s : State} {r t : Nat} (h : Tab.get [] (s.region t).bridgeIn r = []) (n : Nat) :
    s.bridgeDeliver r t n = s := by
  cases n with
  | zero => rfl
  | succ n => rw [State.bridgeDeliver, h]

theorem bridgeDeliver_waits {s : State} {r t : Nat} {f : BFlit} {rest : List BFlit} (h : Tab.get [] (s.region t).bridgeIn r = f :: rest)
    (hf : ¬ s.mayLand t f) (n : Nat) : s.bridgeDeliver r t n = s := by
  cases n with
  | zero => rfl
  | succ n =>
    rw [State.bridgeDeliver, h]
    exact if_pos (by unfold State.mayLand at hf; omega)

theorem bridgeDeliver_lands {s : State} {r t : Nat} {f : BFlit} {rest : List BFlit} (h : Tab.get [] (s.region t).bridgeIn r = f :: rest)
    (hf : s.mayLand t f) (n : Nat) : s.bridgeDeliver r t (n + 1) = (s.landed r t f rest).bridgeDeliver r t n := by
  rw [State.bridgeDeliver, h]
  exact if_neg (by unfold State.mayLand at hf; omega)

/-- A flit that lands changes its core's landing stream and the bridge. -/
theorem core_landed (s : State) (r t : Nat) (f : BFlit) (rest : List BFlit) (c : Nat) : (s.landed r t f rest).core c
    = if c = f.core then { s.core c with
          land := Tab.set (s.core c).land f.stream
            (Tab.get [] (s.core f.core).land f.stream ++ [{ payload := f.payload, ready := f.ready }]) }
      else s.core c := by
  rw [State.landed, core_modCore, core_modRegion_of_cores]
  exact fun _ => rfl

theorem landed_keeps (s : State) (r t : Nat) (f : BFlit) (rest : List BFlit) :
    (s.landed r t f rest).regs = s.regs ∧ (s.landed r t f rest).sram = s.sram ∧ (s.landed r t f rest).dram = s.dram := ⟨rfl, rfl, rfl⟩

theorem region_landed (s : State) (r t : Nat) (f : BFlit) (rest : List BFlit) (q : Nat) : ∃ l, (s.landed r t f rest).region q
    = { s.region q with cores := l, bridgeIn := if q = t then Tab.set (s.region q).bridgeIn r rest else (s.region q).bridgeIn } := by
  rw [State.landed, modCore_eq, region_setCore, region_modRegion]
  split <;> split <;> exact ⟨_, rfl⟩

/-- Landing flits leaves send streams and registers. -/
theorem bridgeDeliver_keeps (r t n : Nat) (s : State) (c : Nat) :
    ((s.bridgeDeliver r t n).core c).send = (s.core c).send ∧ (s.bridgeDeliver r t n).regs = s.regs := by
  induction n generalizing s with
  | zero => exact ⟨rfl, rfl⟩
  | succ n ih =>
    cases hq : Tab.get [] (s.region t).bridgeIn r with
    | nil => rw [bridgeDeliver_nil hq]; exact ⟨rfl, rfl⟩
    | cons f rest =>
      by_cases hf : s.mayLand t f
      · rw [bridgeDeliver_lands hq hf]
        obtain ⟨h1, h2⟩ := ih (s.landed r t f rest)
        refine ⟨h1.trans ?_, h2⟩
        rw [core_landed]
        split <;> rfl
      · rw [bridgeDeliver_waits hq hf]; exact ⟨rfl, rfl⟩

/-! ## Into a neighbour bridge -/

theorem neighbour_ne {r q : Nat} (h : q ∈ neighboursOf r) : q ≠ r := by
  unfold neighboursOf at h
  simp only [List.mem_append] at h
  rcases h with ((h | h) | h) | h
  all_goals
    split at h
    · simp only [List.mem_cons, List.not_mem_nil, or_false] at h
      omega
    · simp at h

/-- The flit that a stream's head becomes in its neighbour bridge. -/
def State.bridgeFlit (s : State) (c st : Nat) (f : SFlit) : BFlit :=
  let bind := (Tab.get 0 (s.core c).sendBind st).toNat
  { core := bits bind 12 3, stream := bits bind 15 13, payload := f.payload
    ready := if s.native then (s.region (c / 64)).beat + 6 else 0 }

/-- The state once the head has entered the bridge of region `t`. -/
def State.bridged (s : State) (c st t : Nat) (f : SFlit) : State :=
  ((s.popSend c st).modRegion (c / 64) fun x => { x with sent := t :: x.sent }).modRegion t fun x =>
    { x with bridgeIn := Tab.set x.bridgeIn (c / 64) (Tab.get [] (s.region t).bridgeIn (c / 64) ++ [s.bridgeFlit c st f]) }

theorem bridgeMove_head {s : State} {c st : Nat} (hlo : 2 ≤ bits (Tab.get 0 (s.core c).sendBind st).toNat 2 0)
    (hhi : bits (Tab.get 0 (s.core c).sendBind st).toNat 2 0 ≤ 5) {t : Nat}
    (ht : neighbour (c / 64) (bits (Tab.get 0 (s.core c).sendBind st).toNat 2 0) = t)
    (hfree : t ∉ (s.region (c / 64)).sent) (hroom : (Tab.get [] (s.region t).bridgeIn (c / 64)).length < 16) {f : SFlit}
    (hf : s.sendHead c st = some f) : s.bridgeMove c st = s.bridged c st t f := by
  have hgo : ¬ (bits (Tab.get 0 (s.core c).sendBind st).toNat 2 0 < 2 ∨ 5 < bits (Tab.get 0 (s.core c).sendBind st).toNat 2 0
      ∨ (s.region (c / 64)).sent.contains t = true ∨ 16 ≤ (Tab.get [] (s.region t).bridgeIn (c / 64)).length) := by
    simp only [List.contains_iff_mem, hfree, false_or]
    omega
  unfold State.bridgeMove
  simp only [ht, if_neg hgo, hf]
  rfl

theorem bridgeMove_full {s : State} {c st t : Nat} (ht : neighbour (c / 64) (bits (Tab.get 0 (s.core c).sendBind st).toNat 2 0) = t)
    (h : t ∈ (s.region (c / 64)).sent ∨ 16 ≤ (Tab.get [] (s.region t).bridgeIn (c / 64)).length) : s.bridgeMove c st = s := by
  unfold State.bridgeMove
  simp only [ht]
  exact if_pos (by simpa using .inr (.inr h))

section
variable {s : State} {c st t : Nat} {f : SFlit} (hne : t ≠ c / 64)
include hne

theorem region_bridged (q : Nat) : ∃ l, (s.bridged c st t f).region q = { s.region q with
    cores := l
    sent := if q = c / 64 then t :: (s.region q).sent else (s.region q).sent
    bridgeIn := if q = t then Tab.set (s.region q).bridgeIn (c / 64) (Tab.get [] (s.region t).bridgeIn (c / 64) ++ [s.bridgeFlit c st f])
      else (s.region q).bridgeIn } := by
  obtain ⟨l, hpop⟩ := region_popSend s c st q
  refine ⟨l, ?_⟩
  rw [State.bridged, region_modRegion, region_modRegion, hpop]
  by_cases h1 : q = t
  · have h2 : ¬ q = c / 64 := fun h => hne (h1.symm.trans h)
    simp [h1, hne]
  · by_cases h2 : q = c / 64 <;> simp [h1, h2, Ne.symm hne]

theorem queue_bridged : Tab.get [] ((s.bridged c st t f).region t).bridgeIn (c / 64)
    = Tab.get [] (s.region t).bridgeIn (c / 64) ++ [s.bridgeFlit c st f] := by
  obtain ⟨l, h⟩ := region_bridged (s := s) (st := st) (f := f) hne t
  rw [h]
  simp

end

theorem bridged_keeps (s : State) (c st t : Nat) (f : SFlit) :
    (s.bridged c st t f).regs = s.regs ∧ (s.bridged c st t f).sram = s.sram ∧ (s.bridged c st t f).dram = s.dram := ⟨rfl, rfl, rfl⟩

theorem core_bridged (s : State) (c st t : Nat) (f : SFlit) (k : Nat) : (s.bridged c st t f).core k = (s.popSend c st).core k := by
  rw [State.bridged, core_modRegion_of_cores, core_modRegion_of_cores]
  all_goals exact fun _ => rfl

theorem land_bridged (s : State) (c st t : Nat) (f : SFlit) (k : Nat) : ((s.bridged c st t f).core k).land = (s.core k).land := by
  rw [core_bridged, core_popSend]
  split
  · next h => rw [h]
  · rfl

/-- In its bridge a flit may land where it may in the state before. -/
theorem mayLand_bridged {s : State} {c st t : Nat} {f : SFlit} (hne : t ≠ c / 64) (b : BFlit) :
    (s.bridged c st t f).mayLand t b ↔ s.mayLand t b := by
  obtain ⟨l, h⟩ := region_bridged (s := s) (st := st) (f := f) hne t
  simp only [State.mayLand, land_bridged, h]

/-- Settles O21: the head enters by `bridgeMove`, and `bridgeDeliver` lands it at once, or leaves it behind what waits. -/
theorem neighbourBridge : Obligations.NeighbourBridge := by
  unfold Obligations.NeighbourBridge
  intro core stream s f tl c r bind q to' queue l ready b hlo hhi hq hto hsend hready
  have hne : q ≠ c / 64 := neighbour_ne hq
  have hexec : exec (.neighbourBridgeTransfer core stream) s = .next ((s.bridgeMove c stream.val).bridgeDeliver r q 16) := rfl
  have hflit : s.bridgeFlit c stream.val f = b := by
    simp only [State.bridgeFlit, b, ready, State.native, decide_eq_true_eq]
    rw [← hto]
  have hpop (k : Nat) : (s.popSend c stream.val).core k
      = if k = c then { s.core c with send := Tab.set (s.core c).send stream.val tl } else s.core k := by
    rw [core_popSend, hsend]
    rfl
  refine ⟨fun hfree hroom hhead => ?_, fun hfull => ?_⟩
  · rw [hexec, bridgeMove_head hlo hhi rfl hfree hroom (sendHead_cons hsend hready)]
    have hqueue := queue_bridged (s := s) (st := stream.val) (f := f) hne
    rw [hflit] at hqueue
    have hsent : Tab.get [] ((s.bridged c stream.val q f).core c).send stream.val = tl := by
      rw [core_bridged, hpop, if_pos rfl]
      simp
    obtain ⟨lr, hr⟩ := region_bridged (s := s) (st := stream.val) (f := f) hne r
    obtain ⟨hregs, hsram, hdram⟩ := bridged_keeps s c stream.val q f
    have hcto : c ≠ to' := by omega
    by_cases hnow : queue = [] ∧ ready ≤ (s.region q).beat ∧ l.length < 8
    · obtain ⟨hempty, hbeat, hspace⟩ := hnow
      have hland : (s.bridged c stream.val q f).mayLand q b := (mayLand_bridged hne b).mpr ⟨hbeat, hspace⟩
      have hqueue' : Tab.get [] ((s.bridged c stream.val q f).region q).bridgeIn r = b :: [] := by
        rw [hqueue]
        exact congrArg (· ++ [b]) hempty
      obtain ⟨lq, hlq⟩ := region_landed (s.bridged c stream.val q f) r q b [] q
      have hdone : Tab.get [] (((s.bridged c stream.val q f).landed r q b []).region q).bridgeIn r = [] := by
        rw [hlq]
        simp
      rw [bridgeDeliver_lands hqueue' hland 15, bridgeDeliver_nil hdone]
      obtain ⟨hregs', hsram', hdram'⟩ := landed_keeps (s.bridged c stream.val q f) r q b []
      refine ⟨_, rfl, ?_, ?_, ?_, hregs'.trans hregs, hsram'.trans hsram, hdram'.trans hdram⟩
      · rw [core_landed, if_neg hcto, hsent]
      · obtain ⟨lr', hr'⟩ := region_landed (s.bridged c stream.val q f) r q b [] r
        rw [hr', hr]
        simp [r]
      · rw [if_pos ⟨hempty, hbeat, hspace⟩]
        refine ⟨?_, hdone⟩
        rw [core_landed, if_pos rfl]
        simp only [land_bridged, tab_get_set, if_true, b, l]
    · have hstay : ((s.bridged c stream.val q f).bridgeDeliver r q 16) = s.bridged c stream.val q f := by
        cases hqu : queue with
        | nil =>
          have hqueue' : Tab.get [] ((s.bridged c stream.val q f).region q).bridgeIn r = b :: [] := by
            rw [hqueue]
            exact congrArg (· ++ [b]) hqu
          exact bridgeDeliver_waits hqueue' (fun hl => hnow ⟨hqu, (mayLand_bridged hne b).mp hl⟩) 16
        | cons x rest =>
          have hqueue' : Tab.get [] ((s.bridged c stream.val q f).region q).bridgeIn r = x :: (rest ++ [b]) := by
            rw [hqueue]
            exact congrArg (· ++ [b]) hqu
          refine bridgeDeliver_waits hqueue' (fun hl => ?_) 16
          obtain ⟨h1, h2⟩ := (mayLand_bridged hne x).mp hl
          have := hhead x (by simp [hqu])
          omega
      rw [hstay]
      refine ⟨_, rfl, hsent, ?_, ?_, hregs, hsram, hdram⟩
      · rw [hr]
        simp [r]
      · rw [if_neg hnow]
        exact ⟨by rw [land_bridged], hqueue⟩
  · rw [hexec, bridgeMove_full rfl hfull]
    obtain ⟨h1, h2⟩ := bridgeDeliver_keeps r q 16 s c
    exact ⟨_, rfl, by rw [h1, hsend], h2⟩

end Sys2Proof.Machine
end

section
/-! Writes to SRAM: what stands in its bytes and check bits after them, and nothing else changed (R379). -/

namespace Sys2Proof.Machine

/-! ## Bytes of a bit vector -/

theorem getD_toLE (n x j : Nat) : (toLE n x).getD j 0 = if j < n then BitVec.ofNat 8 (x / 256 ^ j) else 0 := by
  induction n generalizing x j with
  | zero => simp [toLE]
  | succ n ih =>
    cases j with
    | zero => simp [toLE]
    | succ j =>
      rw [toLE, List.getD_cons_succ, ih, Nat.div_div_eq_div_mul, pow_succ']
      simp only [Nat.succ_lt_succ_iff]

@[simp] theorem length_bytesOf {w : Nat} (n : Nat) (x : BitVec w) : (bytesOf n x).length = n := length_toLE n _

theorem getD_bytesOf {w : Nat} (n : Nat) (x : BitVec w) {j : Nat} (h : j < n) : (bytesOf n x).getD j 0 = x.extractLsb' (8 * j) 8 := by
  rw [bytesOf, getD_toLE, if_pos h]
  apply BitVec.eq_of_toNat_eq
  rw [BitVec.toNat_ofNat, BitVec.extractLsb'_toNat, Nat.shiftRight_eq_div_pow, pow_mul]
  rfl

/-- A mask's bits as a list. -/
theorem getD_map_range {α : Type} (f : Nat → α) (n : Nat) (d : α) {j : Nat} (h : j < n) : ((List.range n).map f).getD j d = f j := by
  simp [List.getD_eq_getElem?_getD, h]

/-! ## States that differ in SRAM alone -/

/-- `t` is `s` but for the SRAM and its check bits. -/
def State.SramOnly (s t : State) : Prop := t = { s with sram := t.sram, sramChk := t.sramChk }

theorem State.SramOnly.trans {s t u : State} (h : s.SramOnly t) (h' : t.SramOnly u) : s.SramOnly u :=
  Eq.trans h' (congrArg (fun x : State => { x with sram := u.sram, sramChk := u.sramChk }) h)

theorem State.SramOnly.region {s t : State} (h : s.SramOnly t) (r : Nat) : t.region r = s.region r := by
  rw [h]
  rfl

/-- `t` is `s` but for the SRAM bytes in `p`, which hold those of `v` with their check bits; its memories are canonical. -/
structure State.SramSet (s t : State) (p : Nat → Prop) (v : Nat → Byte) : Prop where
  only : s.SramOnly t
  ok : t.memoryOk = true
  hit : ∀ a, p a → t.sram.read a = v a ∧ t.sramChk.read a = sramCheck (v a)
  miss : ∀ a, ¬ p a → t.sram.read a = s.sram.read a ∧ t.sramChk.read a = s.sramChk.read a

namespace State.SramSet

theorem refl {s : State} (h : s.memoryOk = true) (v : Nat → Byte) : s.SramSet s (fun _ => False) v :=
  ⟨rfl, h, fun _ => False.elim, fun _ _ => ⟨rfl, rfl⟩⟩

theorem trans {s t u : State} {p q : Nat → Prop} {v : Nat → Byte} (h : s.SramSet t p v) (h' : t.SramSet u q v) :
    s.SramSet u (fun a => p a ∨ q a) v := by
  refine ⟨h.only.trans h'.only, h'.ok, fun a ha => ?_, fun a ha => ?_⟩
  · by_cases hq : q a
    · exact h'.hit a hq
    · rw [(h'.miss a hq).1, (h'.miss a hq).2]
      exact h.hit a (ha.resolve_right hq)
  · rw [(h'.miss a fun hq => ha (.inr hq)).1, (h'.miss a fun hq => ha (.inr hq)).2]
    exact h.miss a fun hp => ha (.inl hp)

theorem congr {s t : State} {p q : Nat → Prop} {v w : Nat → Byte} (h : s.SramSet t p v) (hp : ∀ a, p a ↔ q a)
    (hv : ∀ a, p a → v a = w a) : s.SramSet t q w :=
  ⟨h.only, h.ok, fun a ha => by rw [← hv a ((hp a).mpr ha)]; exact h.hit a ((hp a).mpr ha), fun a ha => h.miss a (mt (hp a).mp ha)⟩

/-- A fold of such writes. -/
theorem each {α : Type} {s : State} {f : State → α → State} {l : List α} {p : α → Nat → Prop} {v : Nat → Byte} (h : s.memoryOk = true)
    (hf : ∀ t, s.SramOnly t → t.memoryOk = true → ∀ x ∈ l, t.SramSet (f t x) (p x) v) :
    s.SramSet (s.each l f) (fun a => ∃ x ∈ l, p x a) v := by
  suffices key : ∀ l' ⊆ l, ∀ t, s.SramOnly t → t.memoryOk = true → t.SramSet (t.each l' f) (fun a => ∃ x ∈ l', p x a) v from
    key l (List.Subset.refl l) s rfl h
  intro l'
  induction l' with
  | nil => exact fun _ t _ ht => (refl ht v).congr (by simp) (fun _ => False.elim)
  | cons x l' ih =>
    intro hsub t hts ht
    have hx := hf t hts ht x (hsub (by simp))
    refine (hx.trans (ih (fun y hy => hsub (by simp [hy])) (f t x) (hts.trans hx.only) hx.ok)).congr (fun a => ?_) (fun _ _ => rfl)
    simp

/-- The bytes after the writes. -/
theorem read {s t : State} {p : Nat → Prop} [DecidablePred p] {v : Nat → Byte} (h : s.SramSet t p v) (a : Nat) :
    t.sram.read a = (if p a then v a else s.sram.read a)
      ∧ t.sramChk.read a = if p a then sramCheck (v a) else s.sramChk.read a := by
  by_cases ha : p a
  · simp only [if_pos ha]
    exact h.hit a ha
  · simp only [if_neg ha]
    exact h.miss a ha

end State.SramSet

/-! ## The writes -/

/-- A byte string's write. -/
theorem sramSet_writeSram {s : State} (h : s.memoryOk = true) (off : Nat) (d : List Byte) :
    s.SramSet (s.writeSram off d) (fun a => off ≤ a ∧ a < off + d.length) fun a => d.getD (a - off) 0 := by
  obtain ⟨hsram, hchk, -, -⟩ := (memoryOk_iff s).mp h
  have hread (a : Nat) : (s.writeSram off d).sram.read a = _ := read_writeN hsram off d a
  have hreadChk (a : Nat) : (s.writeSram off d).sramChk.read a = _ := read_writeN hchk off (d.map sramCheck) a
  refine ⟨rfl, memoryOk_writeSram h off d, fun a ha => ?_, fun a ha => ?_⟩
  · rw [hread, hreadChk, List.length_map, if_pos ha, if_pos ha]
    have hlt : a - off < d.length := by omega
    exact ⟨rfl, by simp [List.getD_eq_getElem?_getD, hlt]⟩
  · rw [hread, hreadChk, List.length_map, if_neg ha, if_neg ha]
    exact ⟨rfl, rfl⟩

/-- A word's write by its enabled bytes. -/
theorem sramSet_writePart {s : State} (h : s.memoryOk = true) (off : Nat) {d : List Byte} {en : List Bool} (hd : d.length = 64)
    (hen : en.length = 64) : s.SramSet (s.writePart 0 off d en).2
      (fun a => off ≤ a ∧ a < off + 64 ∧ en.getD (a - off) false = true) fun a => d.getD (a - off) 0 := by
  unfold State.writePart
  split
  · next hall =>
    refine (sramSet_writeSram h off d).congr (fun a => ?_) fun _ _ => rfl
    rw [hd]
    refine ⟨fun ha => ⟨ha.1, ha.2, ?_⟩, fun ha => ⟨ha.1, ha.2.1⟩⟩
    have hlt : a - off < en.length := by omega
    rw [List.getD_eq_getElem?_getD, List.getElem?_eq_getElem hlt]
    exact List.all_eq_true.mp hall _ (List.getElem_mem hlt)
  · rw [if_pos rfl]
    have hbyte : ∀ t, s.SramOnly t → t.memoryOk = true → ∀ i ∈ List.range 64,
        t.SramSet (if en.getD i false then t.writeSram (off + i) [d.getD i 0] else t)
          (fun a => en.getD i false = true ∧ a = off + i) fun a => d.getD (a - off) 0 := by
      intro t _ ht i _
      split
      · next hi =>
        refine (sramSet_writeSram ht (off + i) [d.getD i 0]).congr (fun a => ?_) fun a ha => ?_
        · simp only [hi, List.length_singleton, true_and]
          omega
        · simp only [List.length_singleton] at ha
          obtain rfl : a = off + i := by omega
          simp
      · next hi => exact (State.SramSet.refl ht fun a => d.getD (a - off) 0).congr (fun a => ⟨False.elim, fun ha => hi ha.1⟩) fun _ => False.elim
    refine (State.SramSet.each h hbyte).congr (fun a => ?_) fun _ _ => rfl
    constructor
    · rintro ⟨i, hi, he, rfl⟩
      have := List.mem_range.mp hi
      exact ⟨by omega, by omega, by simpa using he⟩
    · rintro ⟨h1, h2, h3⟩
      exact ⟨a - off, List.mem_range.mpr (by omega), h3, by omega⟩

/-! ## What is outstanding -/

/-- What a test that the default fails finds at a key stands in the table. -/
theorem any_of_tab_get {α : Type} {d : α} {t : Tab α} {k : Nat} {f : α → Bool} (hd : f d = false) (hk : f (Tab.get d t k) = true) :
    t.any (fun x => f x.2) = true := by
  induction t with
  | nil => simp [Tab.get, hd] at hk
  | cons x t ih =>
    obtain ⟨j, w⟩ := x
    by_cases hj : j = k
    · simp_all [Tab.get]
    · have : Tab.get d ((j, w) :: t) k = Tab.get d t k := by simp [Tab.get, hj]
      simp [ih (this ▸ hk)]

/-- A table's values under a test that its default fails: one more stored value tests as the one it replaces. -/
theorem any_tab_set {α : Type} {d : α} {t : Tab α} {k : Nat} {v : α} {f : α → Bool} (hd : f d = false) (hv : f v = f (Tab.get d t k)) :
    (Tab.set t k v).any (fun x => f x.2) = t.any fun x => f x.2 := by
  induction t with
  | nil => simpa [Tab.set, Tab.get, hd] using hv
  | cons x t ih =>
    obtain ⟨j, w⟩ := x
    by_cases hj : j = k
    · have hw : f v = f w := by simpa [Tab.get, hj] using hv
      simp [Tab.set, hj, hw]
    · have hget : Tab.get d ((j, w) :: t) k = Tab.get d t k := by simp [Tab.get, hj]
      rw [hget] at hv
      simp only [Tab.set, hj, if_false]
      split
      · cases hfv : f v with
        | false => simp [hfv]
        | true => simp [hfv, any_of_tab_get hd (hv ▸ hfv)]
      · simp [ih hv]

end Sys2Proof.Machine
end

section
/-! Bank beats: a store or a load alone in its beat, and a tier's oldest background write (R65, R66, R70, R72, R126). -/

namespace Sys2Proof.Machine

/-! ## What is outstanding -/

theorem bgTouches_sramOnly {s t : State} (h : s.SramOnly t) (lo hi : Nat) : t.bgTouches lo hi = s.bgTouches lo hi := by
  rw [h]
  rfl

theorem anyClash_sramOnly {s t : State} (h : s.SramOnly t) (x : List (Nat × Nat × Nat × Bool)) : t.anyClash x = s.anyClash x := by
  rw [h]
  rfl

/-- Whether one of a region's far requests is outstanding and clashes with some ranges. -/
def Region.clashes (x : List (Nat × Nat × Nat × Bool)) (y : Region) : Bool :=
  y.cores.any fun c => c.2.farq.any fun f => f.2.entries.any fun q => !q.done && clash q.spans x

theorem anyClash_modRegion {s : State} {f : Region → Region} (hf : ∀ y, (f y).cores = y.cores) (r : Nat) (x : List (Nat × Nat × Nat × Bool)) :
    (s.modRegion r f).anyClash x = s.anyClash x := by
  have h : (Tab.set s.regions r (f (s.region r))).any (fun y => y.2.clashes x) = s.regions.any fun y => y.2.clashes x :=
    any_tab_set (d := ({} : Region)) rfl (by simp only [Region.clashes, hf]; rfl)
  exact congrArg (fun b => b || _ || _ || _) h

theorem bgTouches_modRegion {s : State} {f : Region → Region} (hf : ∀ y, (f y).bg = y.bg ∧ (f y).bgWaiting = y.bgWaiting) (r lo hi : Nat) :
    (s.modRegion r f).bgTouches lo hi = s.bgTouches lo hi := by
  unfold State.bgTouches
  rw [region_modRegion]
  split
  · simp only [hf]
  · rfl

/-! ## Stores -/

theorem storeWord_of_quiet {s : State} {a : BankAcc} {i : Nat}
    (hq : s.bgTouches (a.off + 64 * i) (a.off + 64 * i + 64) = false ∧ s.anyClash [(0, a.off + 64 * i, a.off + 64 * i + 64, true)] = false) :
    s.storeWord a i = (s.writePart 0 (a.off + 64 * i) (bytesOf 64 (a.data.extractLsb' (512 * i) 512))
      ((List.range 64).map fun j => a.mask.getLsbD (64 * i + j))).2 := by
  simp [State.storeWord, hq.1, hq.2]

/-- A byte of a word of a store's data. -/
theorem getD_bytesOf_word (d : Vec) (i : Nat) {j : Nat} (h : j < 64) :
    (bytesOf 64 (d.extractLsb' (512 * i) 512)).getD j 0 = vbyte d (64 * i + j) := by
  rw [getD_bytesOf 64 _ h, vbyte]
  apply BitVec.eq_of_getLsbD_eq
  intro k hk
  simp only [BitVec.getLsbD_extractLsb', hk, decide_true, Bool.true_and]
  rw [show 8 * (64 * i + j) + k = 512 * i + (8 * j + k) by omega]
  simp only [show 8 * j + k < 512 by omega, decide_true, Bool.true_and]

/-- A store's word with nothing outstanding on it writes its enabled bytes. -/
theorem sramSet_storeWord {s : State} (h : s.memoryOk = true) {a : BankAcc} {i : Nat}
    (hq : s.bgTouches (a.off + 64 * i) (a.off + 64 * i + 64) = false ∧ s.anyClash [(0, a.off + 64 * i, a.off + 64 * i + 64, true)] = false) :
    s.SramSet (s.storeWord a i) (fun x => a.off + 64 * i ≤ x ∧ x < a.off + 64 * i + 64 ∧ a.mask.getLsbD (x - a.off) = true)
      fun x => vbyte a.data (x - a.off) := by
  rw [storeWord_of_quiet hq]
  refine (sramSet_writePart h _ (length_bytesOf 64 _) (by simp)).congr (fun x => ?_) fun x hx => ?_
  · refine and_congr_right fun h1 => and_congr_right fun h2 => ?_
    rw [getD_map_range _ 64 _ (by omega), show 64 * i + (x - (a.off + 64 * i)) = x - a.off by omega]
  · obtain ⟨h1, h2, -⟩ := hx
    rw [getD_bytesOf_word _ _ (by omega), show 64 * i + (x - (a.off + 64 * i)) = x - a.off by omega]

/-- Words of a store with nothing outstanding on them. -/
theorem sramSet_storeWords {s : State} (h : s.memoryOk = true) {a : BankAcc} {l : List Nat}
    (hq : ∀ i ∈ l, s.bgTouches (a.off + 64 * i) (a.off + 64 * i + 64) = false
      ∧ s.anyClash [(0, a.off + 64 * i, a.off + 64 * i + 64, true)] = false) :
    s.SramSet (s.each l fun t i => t.storeWord a i)
      (fun x => ∃ i ∈ l, a.off + 64 * i ≤ x ∧ x < a.off + 64 * i + 64 ∧ a.mask.getLsbD (x - a.off) = true)
      fun x => vbyte a.data (x - a.off) := by
  refine State.SramSet.each h fun t hst ht i hi => sramSet_storeWord ht ?_
  rw [bgTouches_sramOnly hst, anyClash_sramOnly hst]
  exact hq i hi

/-- The bytes a store's words enable are those its mask enables. -/
theorem mem_words_iff {a : BankAcc} {n : Nat} (hk : a.kind = .st) (hn : a.size = 64 * n) (x : Nat) :
    (∃ i ∈ a.words, a.off + 64 * i ≤ x ∧ x < a.off + 64 * i + 64 ∧ a.mask.getLsbD (x - a.off) = true)
      ↔ a.off ≤ x ∧ x < a.off + a.size ∧ a.mask.getLsbD (x - a.off) = true := by
  have hdiv : a.size / 64 = n := by omega
  constructor
  · rintro ⟨i, hi, h1, h2, h3⟩
    have := List.mem_range.mp (List.mem_filter.mp hi).1
    exact ⟨by omega, by omega, h3⟩
  · rintro ⟨h1, h2, h3⟩
    refine ⟨(x - a.off) / 64, List.mem_filter.mpr ⟨List.mem_range.mpr (by omega), ?_⟩, by omega, by omega, h3⟩
    simp only [hk, ne_eq, not_true_eq_false, decide_false, Bool.false_or, List.any_eq_true]
    exact ⟨(x - a.off) % 64, List.mem_range.mpr (by omega), by rw [Nat.div_add_mod]; exact h3⟩

/-! ## A region's next access -/

theorem lostWords_alone (a : BankAcc) : lostWords a [] [] = [] := by simp [lostWords]

/-- The state of a bank beat that has taken its accesses from the queue. -/
def State.withBank (s : State) (r : Nat) (l : List BankAcc) : State := s.modRegion r fun y => { y with bank := l }

theorem anyClash_withBank (s : State) (r : Nat) (l : List BankAcc) (x : List (Nat × Nat × Nat × Bool)) :
    (s.withBank r l).anyClash x = s.anyClash x := anyClash_modRegion (by exact fun _ => rfl) r x

theorem bgTouches_withBank (s : State) (r : Nat) (l : List BankAcc) (lo hi : Nat) :
    (s.withBank r l).bgTouches lo hi = s.bgTouches lo hi := bgTouches_modRegion (by exact fun _ => ⟨rfl, rfl⟩) r lo hi

theorem core_withBank (s : State) (r : Nat) (l : List BankAcc) (c : Nat) : (s.withBank r l).core c = s.core c :=
  core_modRegion_of_cores _ _ _ _ (by exact fun _ => rfl)

theorem region_withBank (s : State) (r : Nat) (l : List BankAcc) : (s.withBank r l).region r = { s.region r with bank := l } := by
  rw [State.withBank, region_modRegion, if_pos rfl]

/-- The accesses that are due leave the queue and take their beat. -/
theorem bankBeat_due {s : State} {r : Nat} {due later : List BankAcc} (hb : s.bankBeats r = true) (hx : (s.region r).bank = due ++ later)
    (hd : ∀ a ∈ due, a.due ≤ (s.region r).beat + (s.region r).drain) (hl : ∀ b ∈ later, (s.region r).beat + (s.region r).drain < b.due) :
    s.bankBeat r = (s.withBank r later).bankGroup r [] due := by
  have h1 : (s.region r).bank.filter (fun a => a.due ≤ (s.region r).beat + (s.region r).drain) = due := by
    rw [hx, List.filter_append, List.filter_eq_self.mpr (fun a ha => by simpa using hd a ha),
      List.filter_eq_nil_iff.mpr (fun b hb => by simpa using hl b hb), List.append_nil]
  have h2 : (s.region r).bank.filter (fun a => (s.region r).beat + (s.region r).drain < a.due) = later := by
    rw [hx, List.filter_append, List.filter_eq_nil_iff.mpr (fun a ha => by simpa using hd a ha),
      List.filter_eq_self.mpr (fun b hb => by simpa using hl b hb), List.nil_append]
  simp only [State.bankBeat, if_pos hb, h1, State.withBank, modRegion_eq, h2]

theorem bankBeat_one {s : State} {r : Nat} {a : BankAcc} {later : List BankAcc} (hb : s.bankBeats r = true)
    (hx : (s.region r).bank = a :: later) (hd : a.due ≤ (s.region r).beat + (s.region r).drain)
    (hl : ∀ b ∈ later, (s.region r).beat + (s.region r).drain < b.due) :
    s.bankBeat r = (s.withBank r later).bankAccess r a [] [] :=
  bankBeat_due (due := [a]) hb hx (by simpa using hd) hl

theorem bankAccess_store_alone (s : State) (r : Nat) {a : BankAcc} (hk : a.kind = .st) :
    s.bankAccess r a [] [] = s.each a.words fun t i => t.storeWord a i := by
  simp [State.bankAccess, lostWords_alone, hk]

/-- Settles O13: the store's words are written one by one, each by its enabled bytes, and what is outstanding stays as it was. -/
theorem storeBeat : Obligations.StoreBeat := by
  unfold Obligations.StoreBeat
  intro r s a later
  refine ⟨fun hb => ?_, fun hb hx hk hd hl hsize _ hok hq => ?_⟩
  · show Host.Outcome.next (s.bankBeat r.val) = _
    rw [State.bankBeat, hb]
    rfl
  · have hn : a.size = 64 * (a.size / 64) := by
      simp only [List.mem_cons, List.not_mem_nil, or_false] at hsize
      omega
    have hset := sramSet_storeWords (s := s.withBank r.val later) (a := a) (l := a.words) hok fun i hi => by
      rw [bgTouches_withBank, anyClash_withBank]
      exact hq i hi
    have hset := hset.congr (mem_words_iff hk hn) fun _ _ => rfl
    refine ⟨_, rfl, ?_⟩
    rw [bankBeat_one hb hx hd hl, bankAccess_store_alone _ _ hk]
    refine ⟨fun x => (hset.read x).1, fun x => (hset.read x).2, ?_, ?_, ?_, ?_, hset.ok⟩
    all_goals rw [hset.only]
    · rfl
    · rfl
    · rfl
    · exact congrArg Region.bank (region_withBank s r.val later)

/-! ## Loads -/

/-- A clean range reads as it stands, and nothing is counted. -/
theorem readSram_clean {s : State} {off n : Nat}
    (h : ∀ i < n, (sramDecode (s.sram.read (off + i)) (s.sramChk.read (off + i))).2 = .clean) :
    s.readSram off n = ((List.range n).map fun i => (sramDecode (s.sram.read (off + i)) (s.sramChk.read (off + i))).1, none, s) := by
  have heach (l : List Nat) (hl : ∀ i ∈ l, i < n) :
      s.each (l.map fun i => (off + i, sramDecode (s.sram.read (off + i)) (s.sramChk.read (off + i)))) (fun t x =>
        match x.2.2 with
        | .clean => t
        | .fixed => t.correct (counterOf 0 x.1) (t.globalAddr 0 x.1)
        | .bad => t.noteBad 0 x.1) = s := by
    induction l with
    | nil => rfl
    | cons i l ih =>
      simp only [State.each, List.map_cons, List.foldl_cons, h i (hl i (by simp))]
      exact ih fun j hj => hl j (by simp [hj])
  unfold State.readSram
  refine Prod.ext ?_ (Prod.ext ?_ ?_)
  · simp
  · simp only [List.find?_map, Option.map_map, Option.map_eq_none_iff, List.find?_eq_none, List.mem_range, Function.comp]
    intro i hi
    simp [h i hi]
  · exact heach _ fun i hi => List.mem_range.mp hi

/-- Words of a load whose bytes are clean and on which nothing is outstanding. -/
theorem loadWords_clean {s : State} {a : BankAcc} (n : Nat) {i : Nat}
    (hc : ∀ j, 64 * i ≤ j → j < 64 * (i + n) → (sramDecode (s.sram.read (a.off + j)) (s.sramChk.read (a.off + j))).2 = .clean)
    (hq : ∀ j, i ≤ j → j < i + n → s.bgTouches (a.off + 64 * j) (a.off + 64 * j + 64) = false
      ∧ s.anyClash [(0, a.off + 64 * j, a.off + 64 * j + 64, false)] = false) :
    s.loadWords a [] i n = ((List.range (64 * n)).map fun j =>
      (sramDecode (s.sram.read (a.off + (64 * i + j))) (s.sramChk.read (a.off + (64 * i + j)))).1, none, s) := by
  induction n generalizing i with
  | zero => rfl
  | succ n ih =>
    have hword : s.loadWord a [] i = s.readSram (a.off + 64 * i) 64 := by
      obtain ⟨h1, h2⟩ := hq i le_rfl (by omega)
      simp [State.loadWord, h1, h2]
    have hread := readSram_clean (s := s) (off := a.off + 64 * i) (n := 64) fun j hj => by
      rw [Nat.add_assoc]
      exact hc _ (by omega) (by omega)
    rw [State.loadWords, hword, hread]
    simp only [ih (i := i + 1) (fun j h1 h2 => hc j (by omega) (by omega)) (fun j h1 h2 => hq j (by omega) (by omega))]
    refine Prod.ext ?_ rfl
    simp only
    rw [show 64 * (n + 1) = 64 + 64 * n by omega, List.range_add, List.map_append, List.map_map]
    simp only [Nat.add_assoc, Function.comp_def, Nat.mul_add, Nat.mul_one]

/-- Every access but a store has a register effect. -/
theorem effect_eq_none {a : BankAcc} {d : List Byte} (h : a.effect d = none) : a.kind = .st := by
  cases hk : a.kind with
  | st => rfl
  | _ => simp [BankAcc.effect, hk] at h

/-- A load alone in its beat: its bytes are on the way to its register. -/
theorem bankAccess_load_alone {s : State} {r : Nat} {a : BankAcc} {n : Nat} {d : List Byte} {e : Effect} (hn : a.size = 64 * n)
    (hload : s.loadWords a [] 0 n = (d, none, s)) (hk : a.kind ≠ .st) (he : a.effect d = some e) :
    s.bankAccess r a [] [] = s.modCore a.core fun k => k.later a.valid e := by
  have hdiv : a.size / 64 = n := by omega
  simp [State.bankAccess, lostWords_alone, hdiv, hload, he]

/-- Settles O14: the words are read one by one with nothing counted, and the bytes are a write that becomes valid at the load's beat. -/
theorem loadBeat : Obligations.LoadBeat := by
  unfold Obligations.LoadBeat
  intro r s a later
  simp only
  intro hb hx hk hd hl _ hsize hclean hq
  obtain ⟨n, hn⟩ : ∃ n, a.size = 64 * n := ⟨a.size / 64, by
    simp only [List.mem_cons, List.not_mem_nil, or_false] at hsize
    omega⟩
  have hwords (j : Nat) (hj : j < n) : j ∈ a.words :=
    List.mem_filter.mpr ⟨List.mem_range.mpr (by omega), by simp [hk]⟩
  have hload := loadWords_clean (s := s.withBank r.val later) (a := a) n (i := 0) (fun j _ hj => hclean j (by omega)) fun j _ hj => by
    rw [bgTouches_withBank, anyClash_withBank]
    exact hq j (hwords j (by omega))
  rw [show 64 * n = a.size from hn.symm] at hload
  simp only [Nat.mul_zero, Nat.zero_add] at hload
  obtain ⟨e, he⟩ := Option.ne_none_iff_exists'.mp (mt effect_eq_none hk)
  refine ⟨_, e, rfl, ?_⟩
  rw [bankBeat_one hb hx hd hl, bankAccess_load_alone hn hload hk he]
  refine ⟨?_, ?_, rfl, rfl, rfl⟩
  · rw [core_modCore, if_pos rfl, core_withBank]
    rfl
  · cases hkind : a.kind with
    | st => exact hk hkind
    | _ =>
      simp only [BankAcc.effect, hkind, Option.some.injEq] at he
      exact he.symm


/-! ## Background writes -/

/-- A write taken from a region's queue, one of its tier that waited in its place. -/
def Region.took (y : Region) (x : BgAcc) (tier : Nat) : Region :=
  match y.bgWaiting.find? fun z => tierOf z.off = tier with
  | some z => { y with bg := y.bg.erase x ++ [z], bgWaiting := y.bgWaiting.erase z }
  | none => { y with bg := y.bg.erase x }

theorem bg_took (y : Region) (x : BgAcc) (tier : Nat) :
    (y.took x tier).bg = y.bg.erase x ++ (y.bgWaiting.find? fun z => tierOf z.off = tier).toList := by
  unfold Region.took
  split
  · next h => rw [h]; rfl
  · next h => rw [h, Option.toList_none, List.append_nil]

theorem bgWaiting_took (y : Region) (x : BgAcc) (tier : Nat) :
    (y.took x tier).bgWaiting = (y.bgWaiting.find? fun z => tierOf z.off = tier).elim y.bgWaiting y.bgWaiting.erase := by
  unfold Region.took
  split
  · next h => rw [h, Option.elim_some]
  · next h => rw [h, Option.elim_none]

theorem bgOne_some {s : State} {r tier : Nat} {x : BgAcc}
    (h : (s.region r).bg.find? (fun x => (s.region r).shortStopTo.isNone ∧ tierOf x.off = tier ∧ s.bankBusy r (bankOf x.off) = false) = some x) :
    s.bgOne r tier = (s.writePart 0 x.off (bytesOf 64 x.data) ((List.range 64).map fun i => x.mask.getLsbD i)).2.modRegion r
      fun y => y.took x tier := by
  rw [State.bgOne, h]
  rfl

theorem bgOne_none {s : State} {r tier : Nat}
    (h : (s.region r).bg.find? (fun x => (s.region r).shortStopTo.isNone ∧ tierOf x.off = tier ∧ s.bankBusy r (bankOf x.off) = false) = none) :
    s.bgOne r tier = s := by
  rw [State.bgOne, h]

/-- A queued word's write by its enabled bytes. -/
theorem sramSet_bgAcc {s : State} (h : s.memoryOk = true) (x : BgAcc) :
    s.SramSet (s.writePart 0 x.off (bytesOf 64 x.data) ((List.range 64).map fun i => x.mask.getLsbD i)).2
      (fun a => x.off ≤ a ∧ a < x.off + 64 ∧ x.mask.getLsbD (a - x.off) = true) fun a => x.data.extractLsb' (8 * (a - x.off)) 8 := by
  refine (sramSet_writePart h _ (length_bytesOf 64 _) (by simp)).congr (fun a => ?_) fun a ha => ?_
  · refine and_congr_right fun h1 => and_congr_right fun h2 => ?_
    rw [getD_map_range _ 64 _ (by omega)]
  · obtain ⟨h1, h2, -⟩ := ha
    rw [getD_bytesOf _ _ (by omega)]

theorem exec_backgroundAccess {s : State} (hs : s.settles) (r : RegionId) (tier : Fin 4) :
    exec (.backgroundAccess r tier) s = .next (s.bgOne r.val tier.val) := settled_of_settles hs (.next (s.bgOne r.val tier.val))

/-- Settles O16: the write found is performed by its enabled bytes, and with none found nothing happens. -/
theorem backgroundWrite : Obligations.BackgroundWrite := by
  unfold Obligations.BackgroundWrite
  intro r tier s x
  refine ⟨fun hfind hstop hok hs => ?_, fun hs hno => ?_⟩
  · have hset := sramSet_bgAcc hok x
    have hone : s.bgOne r.val tier.val = _ := bgOne_some (x := x) (by simpa [hstop, tierOf] using hfind)
    refine ⟨_, exec_backgroundAccess hs r tier, ?_⟩
    rw [hone, region_modRegion, if_pos rfl, hset.only.region]
    refine ⟨bg_took _ _ _, ?_, fun a => (hset.read a).1, ?_, ?_, hset.ok⟩
    · rw [bgWaiting_took]
      show Option.elim ((s.region r.val).bgWaiting.find? fun z => z.off / 64 % 4 = tier.val) _ _ = _
      split
      · next h => rw [h, Option.elim_some]
      · next h => rw [h, Option.elim_none]
    all_goals
      rw [hset.only]
      rfl
  · have hone : s.bgOne r.val tier.val = s := by
      refine bgOne_none (List.find?_eq_none.mpr fun z hz => ?_)
      rcases hno with hstop | hbusy
      · simp [Option.isNone_iff_eq_none, hstop]
      · have := hbusy z hz
        simp_all [tierOf]
    rw [exec_backgroundAccess hs, hone]

end Sys2Proof.Machine
end

section
/-! A core fault of a running job, and the bank conflict that raises one (R68, R162, R163, R549). -/

namespace Sys2Proof.Machine

/-! ## A running job's quench -/

/-- The registers of the present record. -/
def recordRegs : List Nat := [R.replayStep, R.replayAttempt, R.quenchFrame, R.replayFrame, R.quenchOrigin, R.quenchCause]

/-- A running job without a record. -/
def State.unquenched (s : State) : Prop := s.reg R.jobState = 2 ∧ s.qrec = none

theorem reg_sendQuench_of_unquenched {s : State} (hs : s.unquenched) {q : QRec} (hq : s.frame < q.q) {k : Nat} (hk : k ∉ recordRegs) :
    (s.sendQuench q).reg k = s.reg k := by
  obtain ⟨po, st, n, seen, h⟩ := sendQuench_first hs.1 hs.2 hq
  rw [h, reg_showRec_other _ hk]
  rfl

theorem frame_logEntry (s : State) (code kind unit detail : Nat) : (s.logEntry code kind unit detail).frame = s.frame := by
  obtain ⟨e, l, r, g, n, h, -⟩ := logEntry_cases s code kind unit detail
  rw [h]

theorem unquenched_logEntry {s : State} (hs : s.unquenched) (code kind unit detail : Nat) : (s.logEntry code kind unit detail).unquenched := by
  refine ⟨(reg_of_aside (aside_logEntry s code kind unit detail (by decide))).trans hs.1, ?_⟩
  obtain ⟨e, l, r, g, n, h, -⟩ := logEntry_cases s code kind unit detail
  rw [h]
  exact hs.2

/-- A quench originated in a running job changes the registers of the log and of the record alone. -/
theorem reg_originate_of_unquenched {s : State} (hs : s.unquenched) (cause : Nat) (isEnd held : Bool) {k : Nat} (hlog : k ∉ logRegs)
    (hk : k ∉ recordRegs) : (s.originate cause isEnd held).reg k = s.reg k := by
  have hx (b : Bool) : (if b then s.logEntry 0x7072 2 0xFF noDetail else s).unquenched
      ∧ (if b then s.logEntry 0x7072 2 0xFF noDetail else s).frame = s.frame
      ∧ (if b then s.logEntry 0x7072 2 0xFF noDetail else s).reg k = s.reg k := by
    cases b
    · exact ⟨hs, rfl, rfl⟩
    · exact ⟨unquenched_logEntry hs _ _ _ _, frame_logEntry s _ _ _ _, reg_of_aside (aside_logEntry s _ _ _ _ hlog)⟩
  unfold State.originate
  dsimp only
  refine (reg_sendQuench_of_unquenched (hx _).1 ?_ hk).trans (hx _).2.2
  rw [(hx _).2.1]
  exact frame_lt_quenchFrameNow s

theorem sram_originate (s : State) (cause : Nat) (isEnd held : Bool) : (s.originate cause isEnd held).sram = s.sram :=
  congrArg Aside.sram (aside_originate (k := R.freqKhz 0) (by decide) s cause isEnd held)

/-! ## A core fault -/

theorem qrec_event (s : State) (code unit detail : Nat) : (s.event code unit detail).qrec = s.qrec := by
  obtain ⟨e, l, r, g, n, h, -⟩ := logEntry_cases s code 0 unit detail
  rw [State.event, h]

theorem sram_event (s : State) (code unit detail : Nat) : (s.event code unit detail).sram = s.sram := by
  obtain ⟨e, l, r, g, n, h, -⟩ := logEntry_cases s code 0 unit detail
  rw [State.event, h]

/-- A core spared: of the registers only the spares used and the log's counts change, and no record is taken. -/
theorem spare_keeps {s t : State} {c : Nat} (h : s.spare c = some t) :
    t.qrec = s.qrec ∧ t.sram = s.sram ∧ ∀ k, k ∉ logRegs → k ≠ R.sparesUsedJob → t.reg k = s.reg k := by
  unfold State.spare at h
  dsimp only at h
  split at h
  · exact absurd h (by simp)
  · obtain rfl := Option.some.inj h
    generalize hu : State.modCore _ c _ = u
    have hkeep : u.qrec = s.qrec ∧ u.sram = s.sram ∧ u.regs = s.regs ∧ u.cfg = s.cfg := by
      rw [← hu]
      exact ⟨rfl, rfl, rfl, rfl⟩
    obtain ⟨hrec, hsram, hregs, hcfg⟩ := hkeep
    generalize jobDetail _ _ _ = detail
    refine ⟨?_, ?_, fun k hk hne => ?_⟩
    · rw [qrec_event]
      exact hrec
    · rw [sram_event]
      exact hsram
    · rw [reg_event _ _ _ _ _ hk, State.bump, reg_setReg, if_neg hne]
      simp only [State.reg, State.dflt, State.cfgValue, hregs, hcfg]

/-- How a core fault is acted on: a quench originated, where it repeats with the core spared, or with no spare left to log (R549). -/
theorem actOn_core {s : State} {code : Nat} (hact : faultAct code = .core) (detail c pc addr : Nat) :
    ∃ x cause isEnd held, s.actOn code detail (some (c, pc)) addr = x.originate cause isEnd held ∧
      ∃ l, x = { s with faultHist := l } ∨ s.replaying ≠ none ∧ (({ s with faultHist := l } : State).spare c = some x
        ∨ x = (({ s with faultHist := l } : State).logEntry 0x1081 2 (c / 64) detail).noteCoreFault 0x1081 (some (c, pc))) := by
  unfold State.actOn
  simp only [hact]
  split
  · exact ⟨_, _, _, _, rfl, _, .inl rfl⟩
  · split
    · next hseen =>
      have hrep : s.replaying ≠ none := fun h => by simp [State.attemptFor, h] at hseen
      split
      · next h => exact ⟨_, _, _, _, rfl, _, .inr ⟨hrep, .inl h⟩⟩
      · exact ⟨_, _, _, _, rfl, _, .inr ⟨hrep, .inr rfl⟩⟩
    · exact ⟨_, _, _, _, rfl, _, .inl rfl⟩

/-- What a core fault's action leaves of the fault's own entries: the cause and the core, and the fault where no step is replayed. -/
structure State.FaultKept (s t : State) (c : Nat) : Prop where
  sram : t.sram = s.sram
  cause : t.reg R.lastFaultCause = s.reg R.lastFaultCause
  core : s.reg R.lastFaultCore = c → t.reg R.lastFaultCore = c
  fault : s.replaying = none → t.reg R.lastCoreFault = s.reg R.lastCoreFault

theorem faultKept_originate {s x : State} {c : Nat} (h : s.FaultKept x c) (hx : x.unquenched) (cause : Nat) (isEnd held : Bool) :
    s.FaultKept (x.originate cause isEnd held) c where
  sram := (sram_originate x cause isEnd held).trans h.sram
  cause := (reg_originate_of_unquenched hx cause isEnd held (by decide) (by decide)).trans h.cause
  core hc := (reg_originate_of_unquenched hx cause isEnd held (by decide) (by decide)).trans (h.core hc)
  fault hr := (reg_originate_of_unquenched hx cause isEnd held (by decide) (by decide)).trans (h.fault hr)

theorem noteCoreFault_core (s : State) {code : Nat} (h : code / 256 = 0x10) (c pc : Nat) :
    s.noteCoreFault code (some (c, pc)) = (s.setReg R.lastCoreFault code).setReg R.lastFaultCore c := if_pos h

theorem reg_coreNoted (s : State) (code c k : Nat) : ((s.setReg R.lastCoreFault code).setReg R.lastFaultCore c).reg k
    = if k = R.lastFaultCore then c else if k = R.lastCoreFault then code else s.reg k := by
  rw [reg_setReg, reg_setReg]

theorem reg_coreNoted_other (s : State) (code c : Nat) {k : Nat} (h : k ≠ R.lastFaultCore) (h' : k ≠ R.lastCoreFault) :
    ((s.setReg R.lastCoreFault code).setReg R.lastFaultCore c).reg k = s.reg k := by
  rw [reg_coreNoted, if_neg h, if_neg h']

theorem faultKept_of_hist {s t : State} {c : Nat} {l : List (Nat × Nat × Nat × BitVec 64 × Nat)}
    (h : ({ s with faultHist := l } : State).FaultKept t c) : s.FaultKept t c := ⟨h.sram, h.cause, h.core, h.fault⟩

theorem faultKept_spare {s t : State} {c : Nat} (hrep : s.replaying ≠ none) (h : s.spare c = some t) (hs : s.unquenched) :
    s.FaultKept t c ∧ t.unquenched := by
  obtain ⟨hrec, hsram, hreg⟩ := spare_keeps h
  exact ⟨⟨hsram, hreg _ (by decide) (by decide), fun hc => (hreg _ (by decide) (by decide)).trans hc, fun hr => absurd hr hrep⟩,
    (hreg _ (by decide) (by decide)).trans hs.1, hrec.trans hs.2⟩

/-- A core fault noted beside the cause names its core. -/
theorem faultKept_noteCoreFault {s : State} {c : Nat} (hrep : s.replaying ≠ none) (hs : s.unquenched) {code : Nat} (hcore : code / 256 = 0x10)
    (kind unit detail pc : Nat) : s.FaultKept ((s.logEntry code kind unit detail).noteCoreFault code (some (c, pc))) c
      ∧ ((s.logEntry code kind unit detail).noteCoreFault code (some (c, pc))).unquenched := by
  have hlog := unquenched_logEntry hs code kind unit detail
  have hcause : (s.logEntry code kind unit detail).reg R.lastFaultCause = s.reg R.lastFaultCause :=
    reg_of_aside (aside_logEntry s code kind unit detail (by decide))
  have hsram : (s.logEntry code kind unit detail).sram = s.sram :=
    congrArg Aside.sram (aside_logEntry s code kind unit detail (k := R.freqKhz 0) (by decide))
  generalize s.logEntry code kind unit detail = u at *
  rw [noteCoreFault_core u hcore]
  exact ⟨⟨hsram, (reg_coreNoted_other _ _ _ (by decide) (by decide)).trans hcause, fun _ => by simp, fun hr => absurd hr hrep⟩,
    (reg_coreNoted_other _ _ _ (by decide) (by decide)).trans hlog.1, hlog.2⟩

theorem faultKept_actOn {s : State} (hs : s.unquenched) {code : Nat} (hact : faultAct code = .core) (detail c pc addr : Nat) :
    s.FaultKept (s.actOn code detail (some (c, pc)) addr) c := by
  obtain ⟨x, cause, isEnd, held, h, l, hx⟩ := actOn_core hact (s := s) detail c pc addr
  rw [h]
  have hl : ({ s with faultHist := l } : State).unquenched := hs
  have hrep : s.replaying = ({ s with faultHist := l } : State).replaying := rfl
  refine faultKept_of_hist (l := l) ?_
  rw [hrep] at hx
  generalize ({ s with faultHist := l } : State) = u at *
  rcases hx with rfl | ⟨hrep, hspare | rfl⟩
  · exact faultKept_originate ⟨rfl, rfl, id, fun _ => rfl⟩ hl _ _ _
  · obtain ⟨hk, hq⟩ := faultKept_spare hrep hspare hl
    exact faultKept_originate hk hq _ _ _
  · obtain ⟨hk, hq⟩ := faultKept_noteCoreFault (c := c) hrep hl (code := 0x1081) rfl 2 (c / 64) detail pc
    exact faultKept_originate hk hq _ _ _

/-- The first fault of a running job's step, by a core: its cause, named with the core (R162, R163). -/
theorem raise_core {s : State} (hs : s.quiet) {code : Nat} (hact : faultAct code = .core) (hcore : code / 256 = 0x10)
    (unit detail c pc : Nat) :
    (s.raise code unit detail (some (c, pc))).sram = s.sram ∧ (s.raise code unit detail (some (c, pc))).reg R.lastFaultCause = code
      ∧ (s.raise code unit detail (some (c, pc))).reg R.lastFaultCore = c
      ∧ (s.replaying = none → (s.raise code unit detail (some (c, pc))).reg R.lastCoreFault = code) := by
  obtain ⟨hjob, hrec, hfirst, hrun⟩ := hs
  have hraise : s.raise code unit detail (some (c, pc)) = ((s.causeKept code unit detail).noteCoreFault code (some (c, pc))).actOn code detail
      (some (c, pc)) 0 := by
    simp [State.raise, hrun, hjob, hfirst, State.causeKept, State.noteCoreFault, hcore, State.setReg]
  have hjob' := (reg_causeKept s code unit detail (k := R.jobState) (by decide) (by decide)).trans hjob
  have hcause := lastFaultCause_causeKept s code unit detail
  obtain ⟨l, r, g, n, hx⟩ := causeKept_cases s code unit detail
  have hkeep : (s.causeKept code unit detail).qrec = none ∧ (s.causeKept code unit detail).sram = s.sram
      ∧ (s.causeKept code unit detail).replaying = s.replaying := by
    rw [hx]
    exact ⟨hrec, rfl, rfl⟩
  rw [hraise]
  generalize s.causeKept code unit detail = u at *
  obtain ⟨hrec', hsram, hrep⟩ := hkeep
  rw [noteCoreFault_core u hcore]
  have hk := faultKept_actOn (s := (u.setReg R.lastCoreFault code).setReg R.lastFaultCore c)
    ⟨(reg_coreNoted_other _ _ _ (by decide) (by decide)).trans hjob', hrec'⟩ hact detail c pc 0
  refine ⟨hk.sram.trans hsram, (hk.cause.trans (reg_coreNoted_other _ _ _ (by decide) (by decide))).trans hcause, hk.core (by simp),
    fun hr => (hk.fault (hrep.trans hr)).trans ?_⟩
  rw [reg_coreNoted, if_neg (by decide), if_pos rfl]

/-! ## The conflict -/

/-- A store of one whole word has that word. -/
theorem words_whole {a : BankAcc} (hsize : a.size = 64) (hmask : a.mask = BitVec.allOnes 256) : a.words = [0] := by
  have h : ((List.range 64).any fun j => a.mask.getLsbD (64 * 0 + j)) = true :=
    List.any_eq_true.mpr ⟨0, by simp, by rw [hmask]; decide⟩
  have hr : List.range (64 / 64) = [0] := rfl
  rw [BankAcc.words, hsize, hr, List.filter_cons, h]
  simp

/-- A store of one whole word with nothing outstanding on it writes that word. -/
theorem sramSet_storeWhole {s : State} (h : s.memoryOk = true) {a : BankAcc} (hmask : a.mask = BitVec.allOnes 256)
    (hq : s.bgTouches a.off (a.off + 64) = false ∧ s.anyClash [(0, a.off, a.off + 64, true)] = false) :
    s.SramSet (s.storeWord a 0) (fun x => a.off ≤ x ∧ x < a.off + 64) fun x => vbyte a.data (x - a.off) := by
  refine (sramSet_storeWord h (i := 0) hq).congr (fun x => ?_) fun _ _ => rfl
  rw [hmask]
  simp only [Nat.mul_zero, Nat.add_zero, BitVec.getLsbD_allOnes, decide_eq_true_eq]
  omega

theorem quiet_sramOnly {s t : State} (h : s.SramOnly t) (hs : s.quiet) : t.quiet := by
  rw [h]
  exact hs

theorem sram_stopAfter (s : State) (r : Nat) : (s.stopAfter r).sram = s.sram := rfl

theorem reg_stopAfter (s : State) (r k : Nat) : (s.stopAfter r).reg k = s.reg k := rfl

theorem stopping_stopAfter (s : State) (r : Nat) : ((s.stopAfter r).region r).stopping = true := by
  rw [State.stopAfter, region_modRegion, if_pos rfl]

/-- Of two stores of one word each to one bank the lower physical core's is written and the other's core is named. -/
theorem bankGroup_conflict {s : State} {r : Nat} {a b : BankAcc} (hk : a.kind = .st ∧ b.kind = .st) (hwords : a.words = [0] ∧ b.words = [0])
    (hbank : bankOf a.off = bankOf b.off) (hphys : a.phys < b.phys) :
    s.bankGroup r [] [a, b] = ((s.storeWord a 0).raise 0x1002 r (coreDetail b.core (72 * r + b.phys) 2 b.pc b.due)
      (some (b.core, b.pc))).stopAfter r := by
  obtain ⟨hka, hkb⟩ := hk
  obtain ⟨hwa, hwb⟩ := hwords
  have hla : lostWords a [] [b] = [] := by
    simp [lostWords, beats, hwa, show ¬ b.phys < a.phys by omega]
  have hlb : lostWords b [a] [] = [0] := by
    simp [lostWords, beats, hwa, hwb, hphys, hbank]
  have h1 : s.bankAccess r a [] [b] = s.storeWord a 0 := by
    simp [State.bankAccess, hla, hka, hwa, State.each]
  rw [State.bankGroup, h1, State.bankGroup, State.bankGroup]
  simp [State.bankAccess, hlb, hkb, hwb, State.each]

/-- Settles O15: the first store loses nothing and is written; the second loses its word and raises the fault that names its core. -/
theorem bankConflict : Obligations.BankConflict := by
  unfold Obligations.BankConflict
  intro r s a b
  simp only
  intro hb hx hka hkb hda hdb hsa hsb hma hmb halign hblign hne hbank hphys hok hq hjob hrec hfirst hrun
  have hbeat := bankBeat_due (s := s) (r := r.val) (due := [a, b]) (later := []) hb (by simpa using hx) (by simp [hda, hdb]) (by simp)
  rw [bankGroup_conflict ⟨hka, hkb⟩ ⟨words_whole hsa hma, words_whole hsb hmb⟩ hbank hphys] at hbeat
  have hset := sramSet_storeWhole (s := s.withBank r.val []) hok hma (by
    rw [bgTouches_withBank, anyClash_withBank]
    exact hq a (by simp))
  have hquiet : ((s.withBank r.val []).storeWord a 0).quiet := quiet_sramOnly hset.only ⟨hjob, hrec, hfirst, hrun⟩
  have hrep : ((s.withBank r.val []).storeWord a 0).replaying = s.replaying := by
    rw [hset.only]
    rfl
  obtain ⟨hsram, hcause, hcore, hfault⟩ := raise_core hquiet (code := 0x1002) (by decide) (by decide) r.val
    (coreDetail b.core (72 * r.val + b.phys) 2 b.pc b.due) b.core b.pc
  refine ⟨_, rfl, ?_⟩
  rw [hbeat, sram_stopAfter, hsram]
  simp only [reg_stopAfter]
  refine ⟨fun i hi => ?_, fun i hi => ?_, hcause, fun hr => hfault (hrep.trans hr), hcore, stopping_stopAfter _ _⟩
  · rw [(hset.hit (a.off + i) ⟨by omega, by omega⟩).1, Nat.add_sub_cancel_left]
  · exact (hset.miss (b.off + i) (by omega)).1

end Sys2Proof.Machine
end

section
/-! The clock and power entries on an idle part, and the entry to Banked (R60, R426, R428, R432, R446 to R453, R517). -/

namespace Sys2Proof.Machine

/-! ## Units asked for -/

theorem bitsSet_zero (n : Nat) : bitsSet 0 n = [] := by simp [bitsSet]

theorem lt_of_mem_bitsSet {x n i : Nat} (h : i ∈ bitsSet x n) : i < n := List.mem_range.mp (List.mem_filter.mp h).1

theorem lit_of_litList_nil {s : State} (h : s.litList = []) {r : Nat} (hr : r < 16) : (s.region r).lit = false := by
  simpa using List.filter_eq_nil_iff.mp h r (List.mem_range.mpr hr)

theorem awake_of_stacksOn_nil {s : State} (h : s.stacksOn = []) {k : Nat} (hk : k < 12) : (s.stack k).awake = false := by
  simpa using List.filter_eq_nil_iff.mp h k (List.mem_range.mpr hk)

/-- A part with no unit on waits for just the units asked for, before the stacks that an access wakes. -/
theorem askUnits_idle {s : State} (hlit : s.litList = []) (hstk : s.stacksOn = []) (hgrp : s.groupsOn = 0) :
    s.askUnits = { s with
      admitting := s.orderUnits (bitsSet (s.reg R.regionLight) 16) (bitsSet (s.reg R.stackActive) 12) (bitsSet (s.reg R.groupEnable) 8)
        ++ s.admitting.filter PowerUnit.isAccess
      remove := [] } := by
  have h1 : ((bitsSet (s.reg R.regionLight) 16).filter fun r => ¬ (s.region r).lit) = bitsSet (s.reg R.regionLight) 16 :=
    List.filter_eq_self.mpr fun r hr => by simp [lit_of_litList_nil hlit (lt_of_mem_bitsSet hr)]
  have h2 : ((bitsSet (s.reg R.stackActive) 12).filter fun k => ¬ (s.stack k).awake) = bitsSet (s.reg R.stackActive) 12 :=
    List.filter_eq_self.mpr fun k hk => by simp [awake_of_stacksOn_nil hstk (lt_of_mem_bitsSet hk)]
  have h3 : ((bitsSet (s.reg R.groupEnable) 8).filter fun g => ¬ ([] : List Nat).contains g) = bitsSet (s.reg R.groupEnable) 8 :=
    List.filter_eq_self.mpr fun g _ => by simp
  have h4 : s.orderRemoval [] [] [] = [] := by simp [State.orderRemoval]
  unfold State.askUnits
  simp only [h1, h2, hgrp, bitsSet_zero, h3, hlit, hstk, List.filter_nil, h4]

theorem orderUnits_regions {s : State} (hlit : s.litList = []) (l : List Nat) : s.orderUnits l [] [] = l.map .region := by
  cases l <;> simp [State.orderUnits, hlit]

theorem orderUnits_stacks (s : State) (l : List Nat) : s.orderUnits [] l [] = l.map .stack := by
  simp [State.orderUnits]

theorem orderUnits_groups (s : State) (l : List Nat) : s.orderUnits [] [] l = l.map .group := by
  simp [State.orderUnits]

theorem payResets_none {s : State} (h : s.resetOwed = []) : s.payResets = s := by simp [State.payResets, h]

theorem posts_units (s : State) : s.posts [.units] = s.askUnits.payResets := rfl

theorem posts_retune_dark {s : State} (h : s.litList = []) : s.posts [.retune] = s := by
  have hnone : s.toRetune = [] := by rw [State.toRetune, h]; rfl
  show s.retune = s
  rw [State.retune, if_pos (.inr (.inr hnone))]

/-- A write that asks for units on a part with none. -/
theorem posts_units_idle {s : State} {l : List PowerUnit} (hlit : s.litList = []) (hstk : s.stacksOn = []) (hgrp : s.groupsOn = 0)
    (howed : s.resetOwed = [])
    (hl : s.orderUnits (bitsSet (s.reg R.regionLight) 16) (bitsSet (s.reg R.stackActive) 12) (bitsSet (s.reg R.groupEnable) 8) = l) :
    s.posts [.units] = { s with admitting := l ++ s.admitting.filter PowerUnit.isAccess, remove := [] } := by
  rw [posts_units, askUnits_idle hlit hstk hgrp, hl]
  exact payResets_none howed

/-! ## The entry to Banked -/

/-- What every key's value follows from: the configuration in force, and what stands under one key. -/
def State.shown (s : State) (k : Nat) : Tab (List Byte) × (Nat → Nat) := (s.cfg, fun d => Tab.get d s.regs k)

theorem reg_of_shown {s t : State} {k : Nat} (h : t.shown k = s.shown k) : t.reg k = s.reg k := by
  obtain ⟨hc, hr⟩ := Prod.mk.inj h
  simp [State.reg, State.dflt, State.cfgValue, hc, congrFun hr]

theorem shown_of_regs {s t : State} (hc : t.cfg = s.cfg) (hr : t.regs = s.regs) (k : Nat) : t.shown k = s.shown k :=
  Prod.ext hc (funext fun d => congrArg (Tab.get d · k) hr)

section
variable (s : State) (k : Nat)

theorem shown_writeSram (off : Nat) (d : List Byte) : (s.writeSram off d).shown k = s.shown k := rfl
theorem shown_writeStack (off : Nat) (d : List Byte) : (s.writeStack off d).shown k = s.shown k := shown_of_regs rfl rfl k
theorem shown_freeBytes (n : Nat) : (s.freeBytes n).2.shown k = s.shown k := rfl
theorem shown_setBlob (j : Nat) (l : List Byte) : (s.setBlob j l).shown k = s.shown k := rfl
theorem shown_setChan (c : Nat) (x : Chan) : (s.setChan c x).shown k = s.shown k := rfl
theorem shown_setPort (p : Nat) (x : Port) : (s.setPort p x).shown k = s.shown k := rfl
theorem shown_modPort (p : Nat) (f : Port → Port) : (s.modPort p f).shown k = s.shown k := rfl
theorem shown_modRegion (r : Nat) (f : Region → Region) : (s.modRegion r f).shown k = s.shown k := rfl
theorem shown_modStack (j : Nat) (f : Stack → Stack) : (s.modStack j f).shown k = s.shown k := rfl

end

theorem shown_of_aside {s t : State} {k : Nat} (h : t.aside k = s.aside k) : t.shown k = s.shown k :=
  Prod.ext (congrArg Aside.cfg h) (congrArg Aside.reg h)

theorem shown_setReg {k j : Nat} (h : k ≠ j) (s : State) (v : Nat) : (s.setReg j v).shown k = s.shown k := by
  simp [State.shown, State.setReg, h]

theorem shown_each {α : Type} {f : State → α → State} {l : List α} {k : Nat} (h : ∀ t, ∀ x ∈ l, (f t x).shown k = t.shown k) (s : State) :
    (s.each l f).shown k = s.shown k := each_keeps (State.shown · k) f l s h

theorem shown_ite {c : Prop} [Decidable c] {s t u : State} {k : Nat} (ht : t.shown k = s.shown k) (hu : u.shown k = s.shown k) :
    (if c then t else u).shown k = s.shown k := by
  split
  · exact ht
  · exact hu

/-- Free bytes over a range touch no register. -/
theorem shown_scribble (s : State) (k space off n : Nat) : (s.scribble space off n).shown k = s.shown k := by
  unfold State.scribble
  refine shown_ite ((shown_writeSram _ _ _ _).trans (shown_freeBytes s k n)) ?_
  refine (shown_each (fun t i _ => ?_) _).trans (shown_freeBytes s k n)
  exact shown_ite rfl (shown_writeStack t k _ _)

theorem regPer_regKey {index sub i : Nat} (hi : i < 256) : regPer (regKey index sub i) = regPer (regKey index sub) := by
  have h1 : regKey index sub i / 65536 = regKey index sub / 65536 := by unfold regKey; omega
  have h2 : regKey index sub i / 256 % 256 = regKey index sub / 256 % 256 := by unfold regKey; omega
  simp only [regPer, odOfKey, h1, h2]

section
variable {k : Nat} (hk : regPer k = .k)
include hk

/-- A class K register is none of another class. -/
theorem ne_of_regPer {j : Nat} (hj : regPer j ≠ .k) : k ≠ j := fun h => hj (h ▸ hk)

theorem not_mem_faultRegs_of_k : k ∉ faultRegs := fun h => (by decide : ∀ j ∈ faultRegs, regPer j ≠ .k) k h hk

theorem not_mem_portKeys_of_k {p : Nat} (hp : p < 32) : k ∉ portKeys p := by
  have h256 : p < 256 := by omega
  intro h
  simp only [portKeys, R.linkState, R.portMode, R.width, R.lanesGood, R.heldReason, R.pathDelay, R.trainAttempts, R.retrainsJob,
    R.readyOffsetMeasured, R.peerIdentity, List.mem_cons, List.not_mem_nil, or_false] at h
  rcases h with h | h | h | h | h | h | h | h | h | h <;>
  · rw [h, regPer_regKey h256] at hk
    revert hk
    decide

theorem shown_setReg_of {j : Nat} (hj : regPer j ≠ .k) (s : State) (v : Nat) : (s.setReg j v).shown k = s.shown k :=
  shown_setReg (ne_of_regPer hk hj) s v

theorem shown_dropV (s : State) (keep : Nat → Bool) : (s.dropV keep).shown k = s.shown k := by
  have h (d : Nat) := tab_get_filter d s.regs (fun j => decide (regPer j ≠ .v) || liveReg j || keep j) k
  exact Prod.ext rfl (funext fun d => (h d).trans (if_pos (by simp [hk])))

theorem shown_abortDma (s : State) : s.abortDma.shown k = s.shown k := by
  refine shown_each (fun t c hc => ?_) s
  have h256 : c < 256 := by
    have := List.mem_range.mp hc
    omega
  have hset (u : State) (v : Nat) : (u.setReg (R.dmaState c) v).shown k = u.shown k :=
    shown_setReg_of hk (by rw [R.dmaState, regPer_regKey h256]; decide) u v
  have hset' (u : State) (v : Nat) : (u.setReg (R.dmaStatus c) v).shown k = u.shown k :=
    shown_setReg_of hk (by rw [R.dmaStatus, regPer_regKey h256]; decide) u v
  have hlose : (t.loseBytes (t.chan c)).shown k = t.shown k := shown_ite (shown_scribble t k _ _ _) rfl
  refine shown_ite ?_ (shown_ite ?_ rfl)
  · rw [shown_setChan, hset', hset, hlose]
  · rw [shown_setChan, hset]

theorem shown_unload (s : State) : s.unload.shown k = s.shown k := by
  have hset (t : State) (j v : Nat) (hj : regPer j ≠ .k) : (t.setReg j v).shown k = t.shown k := shown_setReg_of hk hj t v
  have hoff (t : State) : (t.each (List.range 32) fun u p => u.setReg (R.readyOffsetAssumed p) 0).shown k = t.shown k := by
    refine shown_each (fun u p hp => hset _ _ _ ?_) t
    have := List.mem_range.mp hp
    rw [R.readyOffsetAssumed, regPer_regKey (by omega)]
    decide
  unfold State.unload
  extract_lets s1 s2 s3
  have h1 : s1.shown k = s.shown k := shown_each (fun t r _ => shown_modRegion t k r _) s
  have h2 : s2.shown k = s1.shown k := by
    rw [hset _ _ _ (by decide), shown_setBlob, shown_setBlob, hset _ _ _ (by decide), hset _ _ _ (by decide), hset _ _ _ (by decide)]
  have h3 : s3.shown k = s.shown k := (hoff s2).trans (h2.trans h1)
  clear_value s3
  exact Eq.trans (b := s3.shown k) (shown_of_regs rfl rfl k) h3

theorem shown_dropScheduled (s : State) : s.dropScheduled.shown k = s.shown k := by
  have hset (t : State) (j v : Nat) (hj : regPer j ≠ .k) : (t.setReg j v).shown k = t.shown k := shown_setReg_of hk hj t v
  unfold State.dropScheduled
  extract_lets s1 s2
  have h1 : s1.shown k = s.shown k := by
    refine shown_each (fun t p _ => shown_ite rfl ?_) s
    exact shown_modPort t k p _
  have h2 : s2.shown k = s.shown k := by
    rw [hset _ R.variantPorts _ (by decide), hset _ R.activeClause _ (by decide), h1]
  clear_value s2
  exact Eq.trans (b := s2.shown k) (shown_of_regs rfl rfl k) h2

theorem shown_stopScrub (s : State) : s.stopScrub.shown k = s.shown k := by
  have hset (t : State) (j v : Nat) (hj : regPer j ≠ .k) : (t.setReg j v).shown k = t.shown k := shown_setReg_of hk hj t v
  unfold State.stopScrub
  split
  · unfold State.endScrub
    extract_lets st s1
    have h1 : s1.shown k = s.shown k := hset _ _ _ (by decide)
    exact (shown_of_aside (aside_event _ _ _ _ (not_mem_logRegs (not_mem_faultRegs_of_k hk)))).trans
      (Eq.trans (b := s1.shown k) (shown_of_regs rfl rfl k) h1)
  · rfl

theorem shown_resetCompute (s : State) : s.resetCompute.shown k = s.shown k := by
  have hcores : s.clearCores.shown k = s.shown k := shown_each (fun t r _ => shown_modRegion t k r _) s
  have hitems (t : State) : t.clearItems.shown k = t.shown k :=
    shown_each (fun t j _ => shown_ite rfl (shown_modStack t k j _)) t
  have hset (t : State) (j v : Nat) (hj : regPer j ≠ .k) : (t.setReg j v).shown k = t.shown k := shown_setReg_of hk hj t v
  unfold State.resetCompute
  extract_lets busy s0 s1
  have h0 : s0.shown k = s.shown k := by
    rw [hset _ R.regionLight _ (by decide), hitems, shown_stopScrub hk, shown_abortDma hk, shown_dropScheduled hk, shown_unload hk, hcores]
  have h1 : s1.shown k = s.shown k := shown_ite ((hset _ _ _ (by decide)).trans h0) h0
  clear_value s1
  exact Eq.trans (b := s1.shown k) (shown_of_regs rfl rfl k) h1

/-- A reset of compute and fabric, where no transaction is open. -/
theorem shown_resetFabric {s : State} (hown : s.reg R.txnOwner = 2) : s.resetFabric.shown k = s.shown k := by
  have hroll : s.rollBack = s := if_pos hown
  unfold State.resetFabric
  rw [hroll]
  extract_lets s1 s2
  have h2 : s2.shown k = s.shown k := (shown_each (fun t p _ => shown_setPort t k p _) s1).trans (shown_resetCompute hk s)
  clear_value s2
  exact Eq.trans (b := s2.shown k) (shown_of_regs rfl rfl k) h2

theorem shown_showAborted (s : State) (l : List Nat) (hl : ∀ c ∈ l, c < 256) : (s.showAborted l).shown k = s.shown k :=
  shown_each (fun t c hc => shown_setReg_of hk (by rw [R.dmaStatus, regPer_regKey (hl c hc)]; decide) t 4) s

theorem ne_ceLevel_of_k {i : Nat} (hi : i < 28) : k ≠ R.ceLevel i := by
  refine ne_of_regPer hk ?_
  rw [R.ceLevel, regPer_regKey (by omega)]
  decide

end

theorem unlitReg_of_k {k : Nat} (hk : regPer k = .k) : unlitReg k = false := by
  have h1 : k ≠ R.governorState := ne_of_regPer hk (by decide)
  have h2 : k / 256 * 256 ≠ R.freqKhz 0 := by
    intro h
    have hkey : k = regKey 0x2401 3 (k % 256) := by
      simp only [R.freqKhz, regKey] at h ⊢
      omega
    rw [hkey, regPer_regKey (by omega)] at hk
    revert hk
    decide
  simp [unlitReg, h1, h2]

theorem shown_zeroLevels {k : Nat} (h : ∀ i < 28, k ≠ R.ceLevel i) (s : State) : s.zeroLevels.shown k = s.shown k :=
  shown_each (fun t i hi => shown_setReg (h i (List.mem_range.mp hi)) t 0) s

/-- Whatever key no port's training and no fault sets, the entry to Banked's last steps keep. -/
theorem shown_portsOff {k : Nat} (hf : k ∉ faultRegs) (hp : ∀ p < 32, k ∉ portKeys p) (s : State) :
    (s.each (List.range 32) fun t p => t.portOff p).shown k = s.shown k :=
  shown_each (fun t p h => shown_of_aside (aside_portOff hf (hp p (List.mem_range.mp h)) t)) s

/-- The part before the units, the memories and the time go. -/
def State.toBanked (s : State) : State :=
  let s1 := ((s.resetFabric.dropV fun _ => false).showAborted s.dmaRunning).lockTest
  let s2 := (if s1.reg R.custodyHeld ≠ 0 then s1.copyGone true else s1).zeroLevels
  let s3 := s2.each (List.range 32) fun t p => t.portOff p
  s3

/-- A register that a cut of the table keeps. -/
theorem reg_of_filter {s t : State} {keep : Nat → Bool} {k : Nat} (hc : t.cfg = s.cfg) (hr : t.regs = s.regs.filter fun x => keep x.1)
    (hk : keep k = true) : t.reg k = s.reg k := by
  refine reg_of_shown (Prod.ext hc (funext fun d => ?_))
  show Tab.get d t.regs k = Tab.get d s.regs k
  rw [hr, tab_get_filter, hk]
  rfl

theorem reg_enterBanked (s : State) {k : Nat} (hk : unlitReg k = false) : s.enterBanked.reg k = s.toBanked.reg k := by
  have hcfg : s.enterBanked.cfg = s.toBanked.cfg ∧ s.enterBanked.regs = s.toBanked.regs.filter fun x => !unlitReg x.1 := by
    unfold State.enterBanked State.toBanked
    extract_lets s1 s2 s3 t1 t2 t3
    have h : t3 = s3 := rfl
    rw [h]
    clear_value s3
    exact ⟨rfl, rfl⟩
  exact reg_of_filter (keep := fun j => !unlitReg j) hcfg.1 hcfg.2 (by simp [hk])

theorem shown_lockTest {k : Nat} (h1 : k ≠ R.testAccess) (h2 : k ≠ R.testScope) (s : State) : s.lockTest.shown k = s.shown k := by
  unfold State.lockTest
  extract_lets s1
  have h : s1.shown k = s.shown k := (shown_setReg h2 _ _).trans (shown_setReg h1 _ _)
  clear_value s1
  exact Eq.trans (b := s1.shown k) (shown_of_regs rfl rfl k) h

theorem shown_copyGone {k : Nat} (h1 : k ≠ R.custodyHeld) (h2 : k ≠ R.heldSource) (s : State) : (s.copyGone true).shown k = s.shown k := by
  unfold State.copyGone
  extract_lets s1 s2
  have h : s1.shown k = s.shown k := by rw [shown_setReg h2, shown_setBlob, shown_setReg h1]
  clear_value s1
  exact Eq.trans (b := s1.shown k) (shown_of_regs rfl rfl k) h

theorem not_mem_portKeys_of_le {k p : Nat} (h : 0x5000 * 65536 ≤ k) (hp : p < 32) : k ∉ portKeys p := by
  simp only [portKeys, R.linkState, R.portMode, R.width, R.lanesGood, R.heldReason, R.pathDelay, R.trainAttempts, R.retrainsJob,
    R.readyOffsetMeasured, R.peerIdentity, regKey, List.mem_cons, List.not_mem_nil, or_false, not_or]
  omega

theorem reg_enterBanked_k {s : State} (hown : s.reg R.txnOwner = 2) {k : Nat} (hk : regPer k = .k) : s.enterBanked.reg k = s.reg k := by
  have hne {j : Nat} (hj : regPer j ≠ .k) : k ≠ j := ne_of_regPer hk hj
  have hrun : ∀ c ∈ s.dmaRunning, c < 256 := fun c hc => by
    have := List.mem_range.mp (List.mem_filter.mp hc).1
    omega
  rw [reg_enterBanked s (unlitReg_of_k hk)]
  refine reg_of_shown ?_
  unfold State.toBanked
  extract_lets s1 s2 s3
  have h1 : s1.shown k = s.shown k := by
    rw [shown_lockTest (hne (by decide)) (hne (by decide)), shown_showAborted hk _ _ hrun, shown_dropV hk, shown_resetFabric hk hown]
  rw [shown_portsOff (not_mem_faultRegs_of_k hk) (fun p hp => not_mem_portKeys_of_k hk hp), shown_zeroLevels fun i => ne_ceLevel_of_k hk]
  exact shown_ite ((shown_copyGone (hne (by decide)) (hne (by decide)) _).trans h1) h1

theorem testAccess_lockTest (s : State) : s.lockTest.reg R.testAccess = 0 := by
  unfold State.lockTest
  show ((s.setReg R.testAccess 0).setReg R.testScope 0).reg R.testAccess = 0
  rw [reg_setReg, if_neg (by decide), reg_setReg, if_pos rfl]

theorem off_enterBanked (s : State) : s.enterBanked.power = .banked ∧ s.enterBanked.sram = [] ∧ s.enterBanked.dram = []
    ∧ s.enterBanked.regions = [] := by
  unfold State.enterBanked
  extract_lets s1 s2 s3
  exact ⟨rfl, rfl, rfl, rfl⟩

theorem testAccess_enterBanked (s : State) : s.enterBanked.reg R.testAccess = 0 := by
  rw [reg_enterBanked s (by decide)]
  unfold State.toBanked
  extract_lets s1 s2 s3
  have h1 : s1.reg R.testAccess = 0 := testAccess_lockTest _
  refine Eq.trans (reg_of_shown (s := s1) ?_) h1
  rw [shown_portsOff (k := R.testAccess) (by decide) fun p hp => not_mem_portKeys_of_le (by decide) hp, shown_zeroLevels fun i hi => ?_]
  · exact shown_ite (shown_copyGone (by decide) (by decide) _) rfl
  · simp only [R.testAccess, R.ceLevel, regKey]
    omega

/-! ## The entries -/

/-- What a taken write's value has passed (R471, R474). -/
theorem valueStatus_of_takes {s : State} {src : OdSrc} {k : Nat} {data : List Byte} (h : s.takes src k data = true) {e : OdEntry}
    (he : odFind (k / 65536) (k / 256 % 256) = some e) : valueStatus e data = 0 := by
  obtain ⟨-, -, -, e', he', hcheck⟩ := takes_cases h
  obtain rfl := Option.some.inj (he.symm.trans he')
  simp only [State.odCheck, he] at hcheck
  split at hcheck
  · simp at hcheck
  · split at hcheck
    · simp at hcheck
    · next h0 => simpa using h0

/-- A failed mask that is taken has its 9 bytes. -/
theorem length_of_takes_failedMask {s : State} {src : OdSrc} {data : List Byte} (h : s.takes src (regKey 0x2201 4) data = true) :
    data.length = 9 := by
  have hv : blobLength (regKey 0x2201 4) data.length = 0 := by
    have := valueStatus_of_takes h (e := ⟨0x2201, 4, .blob, 0, .rwj, .k, 0x0, 0, 0, R.regionSelect⟩) (by decide)
    simp only [valueStatus] at this
    split at this
    · next hne => exact absurd this hne
    · next hne => simpa using hne
  by_contra hne
  simp [blobLength, R.failedMask, regKey, hne] at hv

theorem leNat_lt (d : List Byte) : leNat d < 256 ^ d.length := by
  induction d with
  | nil => simp [leNat]
  | cons b d ih =>
    rw [leNat, List.length_cons, pow_succ]
    have := b.isLt
    omega

theorem writeFailedMask_valid {s : State} {data : List Byte} (hlen : data.length = 9)
    (hgood : ∀ p < 72, bit (leNat data) p = true → bit (s.goodMask (s.reg R.regionSelect)) p = true)
    (hleft : 64 ≤ ((List.range 72).filter fun p => bit (s.goodMask (s.reg R.regionSelect)) p && !bit (leNat data) p).length) :
    writeFailedMask data s = (s.setBlob (R.failedMask (s.reg R.regionSelect)) data).wOk := by
  have hsmall : ¬ 0 < leNat data / 2 ^ 72 := by
    have := leNat_lt data
    rw [hlen] at this
    omega
  have hmarks : ¬ ((bitsSet (leNat data) 72).any fun p => !bit (s.goodMask (s.reg R.regionSelect)) p) = true := by
    rw [List.any_eq_true]
    rintro ⟨p, hp, hbad⟩
    obtain ⟨hp, hbit⟩ := List.mem_filter.mp hp
    simp [hgood p (List.mem_range.mp hp) hbit] at hbad
  have hkeep : (bitsSet (s.goodMask (s.reg R.regionSelect)) 72).filter (fun p => !bit (leNat data) p)
      = (List.range 72).filter fun p => bit (s.goodMask (s.reg R.regionSelect)) p && !bit (leNat data) p := by
    rw [bitsSet, List.filter_filter]
    exact List.filter_congr fun p _ => Bool.and_comm _ _
  unfold writeFailedMask
  dsimp only
  rw [if_neg (by rintro (h | h); exacts [hsmall h, hmarks h]), hkeep, if_neg (by omega)]

/-- Settles O39: each entry's own write, and on a part with nothing on what it asks for is all that waits. -/
theorem powerEntries : Obligations.PowerEntries := by
  unfold Obligations.PowerEntries
  intro src data s
  refine ⟨fun h hlit himg => ?_, fun hlit => ⟨fun h hfew => ?_, fun h => ?_, fun h hcan hstk hgrp hs hg howed hfew => ?_,
    fun hstk hgrp hr hcan howed => ⟨fun h hg => ?_, fun h hs => ?_⟩, fun h hstk hgrp hjob hheld => ?_⟩, fun h hgood hleft => ?_⟩
  · exact rowWrite_wOk h (by decide) (by decide) (by decide) (k' := regKey 0x2400 1) (f := writeClockMode) rfl
      (if_neg (by simp [hlit, himg]))
  · refine (rowWrite_posts h (by decide) (by decide) (by decide) (k' := regKey 0x2400 2) (f := writeFreqChangeMode) rfl
      (if_neg fun hbad => by have := hfew hbad.1; omega)).trans ?_
    rw [posts_retune_dark (s := s.setReg R.freqChangeMode _) hlit]
  · refine (rowWrite_posts h (by decide) (by decide) (by decide) (k' := regKey 0x2401 2) (f := writeTargetStep) rfl rfl).trans ?_
    rw [posts_retune_dark (s := s.setReg (R.targetStep _) _) hlit]
  · refine (rowWrite_posts h (by decide) (by decide) (by decide) (k' := regKey 0x2402 2) (f := writeRegionLight) rfl
      (if_neg fun hbad => ?_)).trans ?_
    · rcases hbad.2 with hb | ⟨hb, hb'⟩
      · exact hb hcan
      · have := hfew hb
        omega
    · rw [posts_units_idle (s := s.setReg R.regionLight (leNat data)) (l := (bitsSet (leNat data) 16).map .region) hlit hstk hgrp howed]
      · rfl
      · rw [reg_setReg, if_pos rfl, reg_setReg, if_neg (by decide), hs, reg_setReg, if_neg (by decide), hg, bitsSet_zero, bitsSet_zero]
        exact orderUnits_regions hlit _
  · refine (rowWrite_posts h (by decide) (by decide) (by decide) (k' := regKey 0x2402 3) (f := writeStackActive) rfl
      (if_neg fun hbad => hbad.2 hcan)).trans ?_
    rw [posts_units_idle (s := s.setReg R.stackActive (leNat data)) (l := (bitsSet (leNat data) 12).map .stack) hlit hstk hgrp howed]
    · rfl
    · rw [reg_setReg, if_neg (by decide), hr, reg_setReg, if_pos rfl, reg_setReg, if_neg (by decide), hg, bitsSet_zero, bitsSet_zero]
      exact orderUnits_stacks _ _
  · refine (rowWrite_posts h (by decide) (by decide) (by decide) (k' := regKey 0x2402 4) (f := writeGroupEnable) rfl
      (if_neg fun hbad => hbad.2 hcan)).trans ?_
    rw [posts_units_idle (s := s.setReg R.groupEnable (leNat data)) (l := (bitsSet (leNat data) 8).map .group) hlit hstk hgrp howed]
    · rfl
    · rw [reg_setReg, if_neg (by decide), hr, reg_setReg, if_neg (by decide), hs, reg_setReg, if_pos rfl, bitsSet_zero, bitsSet_zero]
      exact orderUnits_groups _ _
  · have hown : s.reg R.txnOwner = 2 := by
      obtain ⟨-, -, hown, -⟩ := takes_cases h
      exact hown
    obtain ⟨hpower, hsram, hdram, hregions⟩ := off_enterBanked s
    have hacc := testAccess_enterBanked s
    have hkept (k : Nat) (hk : regPer k = .k) := reg_enterBanked_k hown hk
    have hwrite : writeSleepRequest data s = s.enterBanked.wOk := if_neg (by simp [State.inJob, hjob, hlit, hstk, hgrp, hheld])
    have hexec : exec (.sleepRequest src data) s = .next s.enterBanked.ok :=
      rowWrite_wOk h (by decide) (by decide) (by decide) (k' := regKey 0x2402 5) (f := writeSleepRequest) rfl hwrite
    generalize s.enterBanked = t at *
    exact ⟨t.ok, hexec, hpower, rfl, hsram, hdram, hregions, hacc, hkept⟩
  · exact rowWrite_wOk h (by decide) (by decide) (by decide) (k' := regKey 0x2201 4) (f := writeFailedMask) rfl
      (writeFailedMask_valid (length_of_takes_failedMask h) hgood hleft)

end Sys2Proof.Machine
end

section
/-! What reading the memories counts (R383, R384), and the route of a message of the part's own (R317, R325, R328). -/

namespace Sys2Proof.Machine

/-! ## Counts -/

/-- The first key past those of the entries that name the part, its ports and its routes. -/
def countKeys : Nat := 0x3201 * 65536

/-- `t` is `s` but for what counting corrections changes: counters, the log and the frames that tell of it. -/
structure State.Counted (s t : State) : Prop where
  only : ∃ r l g n e, t = { s with regs := r, log := l, gtx := g, eventsSent := n, rateEvent := e }
  low : ∀ k < countKeys, ∀ d, Tab.get d t.regs k = Tab.get d s.regs k

namespace State.Counted

theorem refl (s : State) : s.Counted s := ⟨⟨_, _, _, _, _, rfl⟩, fun _ _ _ => rfl⟩

theorem trans {s t u : State} (h : s.Counted t) (h' : t.Counted u) : s.Counted u := by
  refine ⟨?_, fun k hk d => (h'.low k hk d).trans (h.low k hk d)⟩
  obtain ⟨r, l, g, n, e, rfl⟩ := h.only
  exact h'.only

theorem each {α : Type} {f : State → α → State} {l : List α} (hf : ∀ t : State, ∀ x ∈ l, t.Counted (f t x)) (s : State) : s.Counted (s.each l f) := by
  induction l generalizing s with
  | nil => exact refl s
  | cons x l ih => exact (hf s x (by simp)).trans (ih (fun t y hy => hf t y (by simp [hy])) (f s x))

theorem reg {s t : State} (h : s.Counted t) {k : Nat} (hk : k < countKeys) : t.reg k = s.reg k := by
  have hr := h.low k hk
  obtain ⟨r, l, g, n, e, rfl⟩ := h.only
  simp only [State.reg, hr]
  rfl

variable {s t : State} (h : s.Counted t)
include h

theorem sram : t.sram = s.sram := by obtain ⟨r, l, g, n, e, rfl⟩ := h.only; rfl
theorem sramChk : t.sramChk = s.sramChk := by obtain ⟨r, l, g, n, e, rfl⟩ := h.only; rfl
theorem dram : t.dram = s.dram := by obtain ⟨r, l, g, n, e, rfl⟩ := h.only; rfl
theorem dramChk : t.dramChk = s.dramChk := by obtain ⟨r, l, g, n, e, rfl⟩ := h.only; rfl
theorem regions : t.regions = s.regions := by obtain ⟨r, l, g, n, e, rfl⟩ := h.only; rfl
theorem palaz : t.palaz = s.palaz := by obtain ⟨r, l, g, n, e, rfl⟩ := h.only; rfl
theorem slots : t.slots = s.slots := by obtain ⟨r, l, g, n, e, rfl⟩ := h.only; rfl
theorem chans : t.chans = s.chans := by obtain ⟨r, l, g, n, e, rfl⟩ := h.only; rfl
theorem ports : t.ports = s.ports := by obtain ⟨r, l, g, n, e, rfl⟩ := h.only; rfl
theorem blobs : t.blobs = s.blobs := by obtain ⟨r, l, g, n, e, rfl⟩ := h.only; rfl
theorem cfg : t.cfg = s.cfg := by obtain ⟨r, l, g, n, e, rfl⟩ := h.only; rfl

end State.Counted

theorem counted_setReg {k : Nat} (hk : countKeys ≤ k) (s : State) (v : Nat) : s.Counted (s.setReg k v) := by
  refine ⟨⟨_, _, _, _, _, rfl⟩, fun j hj d => ?_⟩
  have hne : j ≠ k := by omega
  simp [State.setReg, hne]

theorem counted_logEntry (s : State) (code kind unit detail : Nat) : s.Counted (s.logEntry code kind unit detail) := by
  obtain ⟨e, l, r, g, n, h, -⟩ := logEntry_cases s code kind unit detail
  refine ⟨⟨r, _, g, n, s.rateEvent, h⟩, fun k hk d => regs_logEntry s code kind unit detail (fun hmem => ?_) d⟩
  have hle : ∀ j ∈ logRegs, countKeys ≤ j := by decide
  exact absurd (hle k hmem) (by omega)

theorem counted_event (s : State) (code unit detail : Nat) : s.Counted (s.event code unit detail) := counted_logEntry s code 0 unit detail

theorem countKeys_le_ce (sub i : Nat) : countKeys ≤ regKey 0x5001 sub i := by
  simp only [countKeys, regKey]
  omega

/-- One correction (R383, R384). -/
theorem counted_correct (s : State) (i addr : Nat) : s.Counted (s.correct i addr) := by
  have hset (t : State) (sub v : Nat) : t.Counted (t.setReg (regKey 0x5001 sub i) v) := counted_setReg (countKeys_le_ce sub i) t v
  have hrate (t : State) (e : Tab Nat) : t.Counted { t with rateEvent := e } := ⟨⟨_, _, _, _, _, rfl⟩, fun _ _ _ => rfl⟩
  unfold State.correct
  extract_lets l s1 s2 last
  have h1 : s.Counted s1 := hset s 5 _
  have h2 : s.Counted s2 := h1.trans ((hset s1 2 0).trans (hset _ 7 _))
  clear_value s2
  split
  · exact h1.trans (hset s1 2 l)
  · split
    · exact h2
    · exact h2.trans ((hrate s2 _).trans (counted_event _ _ _ _))

theorem counted_correctN (s : State) (i addr n : Nat) : s.Counted (s.correctN i addr n) := by
  induction n with
  | zero => exact .refl s
  | succ n ih => exact ih.trans (counted_correct _ i addr)

theorem counted_noteBad (s : State) (space off : Nat) : s.Counted (s.noteBad space off) :=
  (counted_setReg (countKeys_le_ce 6 _) s _).trans (counted_setReg (countKeys_le_ce 8 _) _ _)

theorem counted_readSram (s : State) (off n : Nat) : s.Counted (s.readSram off n).2.2 := by
  refine State.Counted.each (fun t x _ => ?_) s
  split
  · exact .refl t
  · exact counted_correct t _ _
  · exact counted_noteBad t _ _

theorem counted_readStack (s : State) (off : Nat) : s.Counted (s.readStack off).2.2 := by
  unfold State.readStack
  dsimp only
  split
  · exact (counted_correctN s _ _ _).trans (counted_noteBad _ _ _)
  · exact counted_correctN s _ _ _

theorem counted_readWord (s : State) (space off : Nat) : s.Counted (s.readWord space off).2.2 := by
  unfold State.readWord
  split
  · exact counted_readSram s off 64
  · exact counted_readStack s off

/-! ## Routes -/

/-- What names the part, its ports and its routes is in `t` as it is in `s`. -/
structure State.Routes (s t : State) : Prop where
  blobs : t.blobs = s.blobs
  cfg : t.cfg = s.cfg
  ports : t.ports = s.ports
  reg : ∀ k < countKeys, t.reg k = s.reg k

namespace State.Routes

theorem trans {s t u : State} (h : s.Routes t) (h' : t.Routes u) : s.Routes u :=
  ⟨h'.blobs.trans h.blobs, h'.cfg.trans h.cfg, h'.ports.trans h.ports, fun k hk => (h'.reg k hk).trans (h.reg k hk)⟩

theorem of_counted {s t : State} (h : s.Counted t) : s.Routes t := ⟨h.blobs, h.cfg, h.ports, fun _ => h.reg⟩

variable {s t : State} (h : s.Routes t)
include h

theorem blob (k : Nat) : t.blob k = s.blob k := by simp only [State.blob, State.cfgValue, h.blobs, h.cfg]

theorem chip : t.chip = s.chip := h.reg _ (by decide)

theorem manifest : t.manifest = s.manifest := h.blob _

theorem routeChoice (q : TxMsg) : t.routeChoice q = s.routeChoice q := by
  have hroute (d : Nat) : t.route d = s.route d := by simp only [State.route, h.blob, h.manifest, h.chip]
  have hgroup (d : Nat) : t.svcGroup d = s.svcGroup d := by simp only [State.svcGroup, h.manifest, h.chip]
  have hvc (g : Nat) (up : Bool) : t.hopVc q g up = s.hopVc q g up := by
    simp only [State.hopVc, State.coords, h.manifest, h.chip]
    rfl
  simp only [State.routeChoice, hroute, hgroup, hvc, h.manifest, h.chip]

theorem offers {p : Nat} (hp : p < 32) (vc : Nat) : t.offers p vc = s.offers p vc := by
  have h1 : R.linkState p < countKeys := by simp only [R.linkState, regKey, countKeys]; omega
  have h2 : R.portMode p < countKeys := by simp only [R.portMode, regKey, countKeys]; omega
  simp only [State.offers, State.port, h.reg _ h1, h.reg _ h2, h.ports]

end State.Routes

/-- A route's ports are ports. -/
theorem lt_of_routeChoice {s : State} {q : TxMsg} {ports : List Nat} {vc g : Nat} (h : s.routeChoice q = some (ports, vc, g)) :
    ∀ p ∈ ports, p < 32 := by
  unfold State.routeChoice at h
  dsimp only at h
  split at h
  · exact absurd h (by simp)
  · split at h
    · obtain ⟨g', hg, hx⟩ := Option.map_eq_some_iff.mp h
      obtain ⟨rfl, -, -⟩ := Prod.mk.inj hx
      have hlt := List.mem_range.mp (List.mem_of_find?_eq_some hg)
      intro p hp
      obtain ⟨i, hi, hpi⟩ := List.mem_filterMap.mp hp
      have hi := List.mem_range.mp hi
      split at hpi
      · obtain rfl := Option.some.inj hpi
        omega
      · exact absurd hpi (by simp)
    · obtain ⟨rfl, -, -⟩ := Prod.mk.inj (Option.some.inj h)
      intro p hp
      obtain ⟨i, hi, rfl⟩ := List.mem_map.mp hp
      have hi := lt_of_mem_bitsSet hi
      have hg : bits (s.route (mf q.msg 2 2 % 4096)) 6 4 < 8 := Nat.mod_lt _ (by decide)
      omega

/-- A message that a route takes is on a port's queue, or waits. -/
theorem offerMsg_of_route {s : State} {q : TxMsg} {ports : List Nat} {vc g : Nat} (h : s.routeChoice q = some (ports, vc, g))
    (ho : ∃ p ∈ ports, s.offers p vc = true) :
    (∃ p r, s.offerMsg q = some { s.modPort p fun x => { x with txq := x.txq ++ [{ q with msg := { q.msg with vc := vc } }] } with
      routeLast := r }) ∨ s.offerMsg q = some { s with waiting := s.waiting ++ [q] } := by
  have hok : ports.filter (fun p => s.offers p vc) ≠ [] := by
    obtain ⟨p, hp, hof⟩ := ho
    exact List.ne_nil_of_mem (List.mem_filter.mpr ⟨hp, hof⟩)
  unfold State.offerMsg
  rw [h]
  dsimp only
  rw [if_neg hok]
  split
  · exact .inl ⟨_, _, rfl⟩
  · exact .inr rfl

/-- A message of the part's own to a chip that its route reaches is on a port's queue, or waits. -/
theorem offerMsg_of_reaches {s t : State} {c chip : Nat} (hr : s.reaches c chip) (h : s.Routes t) {q : TxMsg} (harr : q.arr = none)
    (hvc : q.msg.vc = c) (hdest : mf q.msg 2 2 % 4096 = chip % 4096) :
    ∃ vc, (∃ p r, t.offerMsg q = some { t.modPort p fun x => { x with txq := x.txq ++ [{ q with msg := { q.msg with vc := vc } }] } with
      routeLast := r }) ∨ t.offerMsg q = some { t with waiting := t.waiting ++ [q] } := by
  obtain ⟨ports, vc, g, hroute, p, hp, hof⟩ := hr
  have hq := hroute q harr hvc hdest
  exact ⟨vc, offerMsg_of_route ((h.routeChoice q).trans hq) ⟨p, hp, (h.offers (lt_of_routeChoice hq p hp) vc).trans hof⟩⟩

/-! ## Headers -/

theorem zeros_length (n : Nat) : (zeros n).length = n := by simp [zeros]

/-- A field of a header made of bytes. -/
theorem mf_hdrOf (vc : Nat) (period : Bool) (a b c : List Byte) (units : List (BitVec 512)) (hb : 0 < b.length)
    (hlen : a.length + b.length ≤ 64) :
    mf { vc := vc, period := period, hdr := hdrOf (a ++ (b ++ c)), units := units } a.length b.length = leNat b := by
  obtain ⟨r, hr⟩ : ∃ r, 512 = 8 * a.length + (8 * b.length + r) := ⟨512 - 8 * (a.length + b.length), by omega⟩
  have ha := leNat_lt a
  have hlt := leNat_lt b
  have hpow (n : Nat) : (256 : Nat) ^ n = 2 ^ (8 * n) := by rw [pow_mul]; norm_num
  rw [hpow] at ha hlt
  have hn : 8 * (a.length + b.length) - 1 + 1 - 8 * a.length = 8 * b.length := by omega
  simp only [mf, bits, hdrOf, ofBytes, BitVec.toNat_ofNat, hn]
  rw [leNat_append, leNat_append, hr, Nat.pow_add 2 (8 * a.length), Nat.mod_mul_right_div_self, Nat.add_mul_div_left _ _ (by positivity),
    Nat.div_eq_of_lt ha, Nat.zero_add, Nat.pow_add 2 (8 * b.length), Nat.mod_mul_right_mod, Nat.add_mul_mod_self_left, Nat.mod_eq_of_lt hlt]

/-- The destination of a header with link bytes (R227). -/
theorem dest_linkBytes (vc : Nat) (period : Bool) (us : List (BitVec 512)) (units dest src : Nat) (rest : List Byte) :
    mf { vc := vc, period := period, hdr := hdrOf (linkBytes units dest src ++ rest), units := us } 2 2 = dest % 65536 := by
  have h := mf_hdrOf vc period (toLE 1 units ++ zeros 1) (toLE 2 dest) (toLE 2 src ++ zeros 2 ++ rest) us (by simp) (by simp [zeros_length])
  simp only [List.length_append, length_toLE, zeros_length, leNat_toLE] at h
  simp only [linkBytes, List.append_assoc] at h ⊢
  exact h

theorem dest_reqHdr (vc : Nat) (period : Bool) (us : List (BitVec 512)) (units dest src op ident target n : Nat) :
    mf { vc := vc, period := period, hdr := reqHdr units dest src op ident target n, units := us } 2 2 = dest % 65536 := by
  simp only [reqHdr, List.append_assoc (linkBytes units dest src)]
  exact dest_linkBytes vc period us units dest src _

theorem dest_rspHdr (vc : Nat) (period : Bool) (us : List (BitVec 512)) (units dest src op status ident : Nat) :
    mf { vc := vc, period := period, hdr := rspHdr units dest src op status ident, units := us } 2 2 = dest % 65536 := by
  simp only [rspHdr, List.append_assoc (linkBytes units dest src)]
  exact dest_linkBytes vc period us units dest src _

end Sys2Proof.Machine
end

section
/-! A memory fault changes neither the memories nor the regions, the channels and the stacks (R163, R382, R549). -/

namespace Sys2Proof.Machine

/-- The memories, the regions, the channels and the stacks. -/
structure Body where
  regions : Tab Region
  chans : Tab Chan
  palaz : Tab Stack
  sram : Memory
  sramChk : Memory
  dram : Memory
  dramChk : Memory

/-- That projection of a state. -/
def State.body (s : State) : Body := ⟨s.regions, s.chans, s.palaz, s.sram, s.sramChk, s.dram, s.dramChk⟩

theorem body_setReg (s : State) (k v : Nat) : (s.setReg k v).body = s.body := rfl

theorem body_of_counted {s t : State} (h : s.Counted t) : t.body = s.body := by
  obtain ⟨r, l, g, n, e, rfl⟩ := h.only
  rfl

theorem body_event (s : State) (code unit detail : Nat) : (s.event code unit detail).body = s.body := body_of_counted (counted_event _ _ _ _)

theorem body_ite {c : Prop} [Decidable c] {s t u : State} (ht : t.body = s.body) (hu : u.body = s.body) : (if c then t else u).body = s.body := by
  split
  · exact ht
  · exact hu

theorem body_noteCoreFault (s : State) (code : Nat) (at? : Option (Nat × Nat)) : (s.noteCoreFault code at?).body = s.body := by
  unfold State.noteCoreFault
  exact body_ite rfl rfl

/-- `t` is `s` but for what a quench record and its message change. -/
def State.QuenchOnly (s t : State) : Prop :=
  ∃ r l g n q e j a rm po st fn seen, t = { s with
    regs := r, log := l, gtx := g, eventsSent := n, qrec := q, epoch := e, joinWait := j, admitting := a, remove := rm
    ports := po, msgStamp := st, floodSeq := fn, floodsSeen := seen }

namespace State.QuenchOnly

theorem refl (s : State) : s.QuenchOnly s := ⟨_, _, _, _, _, _, _, _, _, _, _, _, _, rfl⟩

theorem trans {s t u : State} (h : s.QuenchOnly t) (h' : t.QuenchOnly u) : s.QuenchOnly u := by
  obtain ⟨r, l, g, n, q, e, j, a, rm, po, st, fn, seen, rfl⟩ := h
  obtain ⟨r, l, g, n, q, e, j, a, rm, po, st, fn, seen, rfl⟩ := h'
  exact ⟨r, l, g, n, q, e, j, a, rm, po, st, fn, seen, rfl⟩

theorem ite {c : Prop} [Decidable c] {s t u : State} (ht : s.QuenchOnly t) (hu : s.QuenchOnly u) : s.QuenchOnly (if c then t else u) := by
  split
  · exact ht
  · exact hu

end State.QuenchOnly

theorem quenchOnly_logEntry (s : State) (code kind unit detail : Nat) : s.QuenchOnly (s.logEntry code kind unit detail) := by
  obtain ⟨e, l, r, g, n, h, -⟩ := logEntry_cases s code kind unit detail
  rw [h]
  exact ⟨_, _, _, _, _, _, _, _, _, _, _, _, _, rfl⟩

theorem quenchOnly_setReg (s : State) (k v : Nat) : s.QuenchOnly (s.setReg k v) := ⟨_, _, _, _, _, _, _, _, _, _, _, _, _, rfl⟩

theorem quenchOnly_askUnits (s : State) : s.QuenchOnly s.askUnits := ⟨_, _, _, _, _, _, _, _, _, _, _, _, _, rfl⟩

theorem quenchOnly_joinWait (s : State) (j : Option Nat) : s.QuenchOnly { s with joinWait := j } := ⟨_, _, _, _, _, _, _, _, _, _, _, _, _, rfl⟩

theorem quenchOnly_record (s : State) (q : Option QRec) (e : BitVec 2) : s.QuenchOnly { s with qrec := q, epoch := e } :=
  ⟨_, _, _, _, _, _, _, _, _, _, _, _, _, rfl⟩

theorem quenchOnly_showRec {s t : State} (h : s.QuenchOnly t) : s.QuenchOnly t.showRec := by
  obtain ⟨r, hr⟩ := showRec_keeps t
  rw [hr]
  exact h.trans ⟨_, _, _, _, _, _, _, _, _, _, _, _, _, rfl⟩

theorem quenchOnly_takeRecord (s : State) (m : QRec) (ep : BitVec 2) : s.QuenchOnly (s.takeRecord m ep).1 := by
  have hlog (t : State) (h : s.QuenchOnly t) : s.QuenchOnly (t.event 0x7071 0xFF noDetail) := h.trans (quenchOnly_logEntry t _ _ _ _)
  have hrec (q : Option QRec) : s.QuenchOnly ({ s with qrec := q } : State).showRec := quenchOnly_showRec (quenchOnly_record s q s.epoch)
  unfold State.takeRecord
  split
  case h_1 =>
    split
    · split
      · exact ⟨_, _, _, _, _, _, _, _, _, _, _, _, _, rfl⟩
      · have habandon (t : State) : t.QuenchOnly t.abandonStart :=
          (quenchOnly_setReg t _ _).trans ((quenchOnly_setReg _ _ _).trans (quenchOnly_askUnits _))
        dsimp only
        exact ((quenchOnly_setReg s _ _).trans ((quenchOnly_setReg _ _ _).trans ((habandon _).trans (quenchOnly_joinWait _ _)))).trans
          (quenchOnly_logEntry _ _ _ _ _)
    · exact .refl s
  case h_2 hjob =>
    dsimp only
    split
    · rw [if_pos hjob]
      exact .ite (hlog _ (hrec _)) (hrec _)
    · split
      · exact .refl s
      · split
        · dsimp only
          exact hrec _
        · rw [if_neg (by omega : ¬ s.reg R.jobState = 3)]
          exact .ite (hlog _ (hrec _)) (hrec _)
  case h_3 hjob =>
    dsimp only
    split
    · rw [if_neg (by omega : ¬ s.reg R.jobState = 2)]
      exact .refl s
    · split
      · exact .refl s
      · split
        · dsimp only
          exact hrec _
        · dsimp only
          exact quenchOnly_showRec (quenchOnly_record s _ _)
  case h_4 => exact .refl s

theorem quenchOnly_originate (s : State) (cause : Nat) (isEnd held : Bool) : s.QuenchOnly (s.originate cause isEnd held) := by
  have hsend (t : State) (q : QRec) : t.QuenchOnly (t.sendQuench q) := by
    unfold State.sendQuench
    dsimp only
    obtain ⟨po, st, n, seen, h⟩ := flood_cases t [] 2 (({ q with origin := t.chip } : QRec).bytes (t.epochFromQ { q with origin := t.chip }))
    rw [h]
    exact State.QuenchOnly.trans ⟨_, _, _, _, _, _, _, _, _, _, _, _, _, rfl⟩ (quenchOnly_takeRecord _ _ _)
  unfold State.originate
  exact State.QuenchOnly.trans (.ite (quenchOnly_logEntry s _ _ _ _) (.refl s)) (hsend _ _)

theorem body_originate (s : State) (cause : Nat) (isEnd held : Bool) : (s.originate cause isEnd held).body = s.body := by
  obtain ⟨r, l, g, n, q, e, j, a, rm, po, st, fn, seen, h⟩ := quenchOnly_originate s cause isEnd held
  rw [h]
  rfl

/-- The reply slots stay where a fault asks no twin (R312, R551). -/
theorem slots_originate (s : State) (cause : Nat) (isEnd held : Bool) : (s.originate cause isEnd held).slots = s.slots := by
  obtain ⟨r, l, g, n, q, e, j, a, rm, po, st, fn, seen, h⟩ := quenchOnly_originate s cause isEnd held
  rw [h]

theorem body_offerMsg {s t : State} {q : TxMsg} (h : s.offerMsg q = some t) : t.body = s.body := by
  unfold State.offerMsg at h
  split at h
  · exact absurd h (by simp)
  · dsimp only at h
    split at h
    · exact absurd h (by simp)
    · split at h <;> obtain rfl := Option.some.inj h <;> rfl

theorem body_noteDrop (s : State) (q : TxMsg) : (s.noteDrop q).body = s.body := by
  have hleft (t : State) : (t.left q).body = t.body := by
    unfold State.left
    split
    · unfold State.freeHeld
      split <;> rfl
    · rfl
  unfold State.noteDrop
  extract_lets dest s1
  have h1 : s1.body = s.body := (hleft _).trans rfl
  clear_value s1
  exact body_ite h1 ((body_event _ _ _ _).trans h1)

theorem body_askTwin (s : State) (off : Nat) : (s.askTwin off).2.body = s.body := by
  unfold State.askTwin
  dsimp only
  split
  · rfl
  · split
    · exact body_ite rfl rfl
    · split
      · rfl
      · split
        · next h => exact (rfl : State.body _ = _).trans ((body_offerMsg h).trans rfl)
        · exact (body_noteDrop _ _).trans rfl

/-- An uncorrectable word's fault. -/
theorem body_raise_mem (s : State) {code : Nat} (hact : faultAct code = .mem) (unit detail addr : Nat) :
    (s.raise code unit detail none addr).body = s.body := by
  have hlog (kind : Nat) : ((s.logEntry code kind unit detail).noteCoreFault code none).body = s.body :=
    (body_noteCoreFault _ _ _).trans (body_of_counted (counted_logEntry _ _ _ _ _))
  have hcause : (((s.logEntry code 1 unit detail).setReg R.lastFaultCause code).noteCoreFault code none).body = s.body :=
    (body_noteCoreFault _ _ _).trans ((body_setReg _ _ _).trans (body_of_counted (counted_logEntry _ _ _ _ _)))
  have hactOn (t : State) : (t.actOn code detail none addr).body = t.body := by
    unfold State.actOn
    rw [hact]
    dsimp only
    split
    · exact (body_originate _ _ _ _).trans ((body_askTwin _ _).trans rfl)
    · exact (body_originate _ _ _ _).trans rfl
  have hsecond (t : State) : (t.secondMem code addr).body = t.body := by
    unfold State.secondMem
    extract_lets s1
    have h1 : s1.body = t.body := rfl
    have hask := body_askTwin s1 (addr % 2 ^ 48)
    split
    · split
      · next hm => rw [hm] at hask; exact hask.trans h1
      · next hm => rw [hm] at hask; exact (body_originate _ _ _ _).trans (hask.trans h1)
    · exact h1
  unfold State.raise
  split
  · split
    · exact hlog 2
    · exact hcause
  · split
    · exact hlog 0
    · dsimp only
      split
      · split
        · exact (hactOn _).trans (hlog 2)
        · split
          · exact (hsecond _).trans (hlog 2)
          · exact hlog 2
      · exact (hactOn _).trans hcause

theorem body_raiseBad (s : State) (space off : Nat) : (s.raiseBad space off).body = s.body := by
  unfold State.raiseBad
  dsimp only
  split
  · exact body_raise_mem s (by decide) _ _ _
  · exact body_raise_mem s (by decide) _ _ _

/-- A fault of memory that no weight image can have asks no twin, and leaves the reply slots. -/
theorem slots_raise_mem (s : State) {code : Nat} (hact : faultAct code = .mem) (hcode : code ≠ 0x4001) (unit detail addr : Nat) :
    (s.raise code unit detail none addr).slots = s.slots := by
  have hnote (t : State) : (t.noteCoreFault code none).slots = t.slots := by
    unfold State.noteCoreFault
    split <;> rfl
  have hlog (kind : Nat) : ((s.logEntry code kind unit detail).noteCoreFault code none).slots = s.slots :=
    (hnote _).trans (counted_logEntry _ _ _ _ _).slots
  have hcause : (((s.logEntry code 1 unit detail).setReg R.lastFaultCause code).noteCoreFault code none).slots = s.slots :=
    (hnote _).trans ((counted_logEntry s code 1 unit detail).slots)
  have hactOn (t : State) : (t.actOn code detail none addr).slots = t.slots := by
    unfold State.actOn
    rw [hact]
    simp only [hcode, false_and, if_false]
    exact slots_originate _ _ _ _
  have hsecond (t : State) : (t.secondMem code addr).slots = t.slots := by
    unfold State.secondMem
    simp only [hcode, false_and, if_false]
  unfold State.raise
  split
  · split
    · exact hlog 2
    · exact hcause
  · split
    · exact hlog 0
    · dsimp only
      split
      · split
        · exact (hactOn _).trans (hlog 2)
        · split
          · exact (hsecond _).trans (hlog 2)
          · exact hlog 2
      · exact (hactOn _).trans hcause

theorem slots_raiseBad {space : Nat} (h : space ≠ 0) (s : State) (off : Nat) : (s.raiseBad space off).slots = s.slots := by
  unfold State.raiseBad
  dsimp only
  rw [if_neg h]
  exact slots_raise_mem s (by decide) (by decide) _ _ _

end Sys2Proof.Machine
end

section
/-! The far scheduler: its rotation, the wait for free banks, and what sending a request leaves of it (R70, R152, R153, R312). -/

namespace Sys2Proof.Machine

/-! ## A request by its core, queue and tag -/

theorem farReq_of_core {s t : State} {c : Nat} (h : t.core c = s.core c) (q : Nat) (tag : BitVec 16) : t.farReq c q tag = s.farReq c q tag := by
  rw [State.farReq, State.farReq, h]

theorem core_of_regions {s t : State} (h : t.regions = s.regions) (c : Nat) : t.core c = s.core c := by
  simp only [State.core, State.region, h]

/-- The first request of a tag among requests that a map keeps the tags of. -/
theorem find?_tag_map (l : List FarReq) (g : FarReq → FarReq) (hg : ∀ r, (g r).tag = r.tag) (tag : BitVec 16) :
    (l.map g).find? (fun r => r.tag = tag) = (l.find? fun r => r.tag = tag).map g := by
  rw [List.find?_map]
  simp only [Function.comp_def, hg]

theorem farReq_modFar (s : State) (c q : Nat) (tag : BitVec 16) {f : FarReq → FarReq} (hf : ∀ r, (f r).tag = r.tag) :
    (s.modFar c q tag f).farReq c q tag = (s.farReq c q tag).map f := by
  have hmap (l : List FarReq) : (l.map fun r => if r.tag = tag then f r else r).find? (fun r => r.tag = tag)
      = (l.find? fun r => r.tag = tag).map f := by
    rw [find?_tag_map _ _ (fun r => by split <;> simp [hf])]
    cases h : l.find? fun r => r.tag = tag with
    | none => rfl
    | some r =>
      have hr : r.tag = tag := by simpa using List.find?_some h
      simp [hr]
  unfold State.farReq State.modFar
  rw [core_modCore, if_pos rfl, tab_get_set, if_pos rfl]
  exact hmap _

theorem farReq_modFar_some {s : State} {c q : Nat} {tag : BitVec 16} {g : FarReq} (h : s.farReq c q tag = some g) {f : FarReq → FarReq}
    (hf : ∀ r, (f r).tag = r.tag) : (s.modFar c q tag f).farReq c q tag = some (f g) := by
  rw [farReq_modFar s c q tag hf, h]
  rfl

theorem farReq_markClash (s : State) (x : List (Nat × Nat × Nat × Bool)) (c q : Nat) (tag : BitVec 16) :
    (s.markClash x).farReq c q tag = (s.farReq c q tag).map (FarReq.markFar x) := by
  have htag (r : FarReq) : (r.markFar x).tag = r.tag := by
    unfold FarReq.markFar
    split <;> rfl
  unfold State.farReq
  rw [core_markClash, markFar_farq, tab_get_map ({} : FarQ) (fun f : FarQ => f.markFar x) rfl]
  exact find?_tag_map _ _ htag tag

/-- Among requests of different tags one is found by its tag. -/
theorem find?_tag_of_nodup {l : List FarReq} (h : (l.map FarReq.tag).Nodup) {f : FarReq} (hf : f ∈ l) :
    l.find? (fun r => r.tag = f.tag) = some f := by
  induction l with
  | nil => simp at hf
  | cons x l ih =>
    rw [List.map_cons, List.nodup_cons] at h
    rcases List.mem_cons.mp hf with rfl | hf
    · simp
    · have hne : x.tag ≠ f.tag := fun he => h.1 (he ▸ List.mem_map_of_mem hf)
      rw [List.find?_cons_of_neg (by simpa using hne)]
      exact ih h.2 hf

/-! ## Waiting for banks -/

theorem bgTry_ready {s : State} {l : List Nat} (h : ∀ w ∈ l, s.bgReady w = true) (key : List Nat) :
    ∃ b, s.bgTry key l = ({ s with bgDone := b }, true) := by
  unfold State.bgTry
  split
  · exact ⟨s.bgDone, rfl⟩
  · extract_lets had left rest
    have hleft : left = [] := List.filter_eq_nil_iff.mpr fun w hw => by simp [h w hw]
    rw [if_pos hleft]
    exact ⟨_, rfl⟩

/-- With a word that has no free bank, and none had so far, the access waits and has the words whose banks are free. -/
theorem bgTry_waits {s : State} {l key : List Nat} {w : Nat} (hw : w ∈ l) (hbusy : s.bgReady w = false) (hkey : ∀ x ∈ s.bgDone, x.1 ≠ key) :
    ∃ b, s.bgTry key l = ({ s with bgDone := (key, l.filter s.bgReady) :: b }, false) := by
  have hhad : s.bgDone.find? (fun x => x.1 = key) = none := List.find?_eq_none.mpr fun x hx => by simpa using hkey x hx
  have hleft : l.filter (fun w => !([] : List Nat).contains w && !s.bgReady w) ≠ [] :=
    List.ne_nil_of_mem (List.mem_filter.mpr ⟨hw, by simp [hbusy]⟩)
  have hhave : l.filter (fun w => !(l.filter fun w => !([] : List Nat).contains w && !s.bgReady w).contains w) = l.filter s.bgReady := by
    refine List.filter_congr fun x hx => ?_
    cases hr : s.bgReady x <;> simp [hx, hr]
  unfold State.bgTry
  rw [if_neg (List.ne_nil_of_mem hw), hhad]
  simp only [Option.map_none, Option.getD_none]
  rw [if_neg hleft, hhave]
  exact ⟨_, rfl⟩

/-! ## The rotation -/

/-- The scheduler's turn past a queue. -/
def State.turned (s : State) (r i : Nat) : State := s.modRegion r fun y => { y with farTurn := (i + 1) % 256 }

theorem core_turned (s : State) (r i c : Nat) : (s.turned r i).core c = s.core c := core_modRegion_of_cores _ _ _ _ (by exact fun _ => rfl)

theorem region_turned (s : State) (r i q : Nat) : ∃ n, (s.turned r i).region q = { s.region q with farTurn := n } := by
  rw [State.turned, region_modRegion]
  split
  · exact ⟨_, rfl⟩
  · exact ⟨(s.region q).farTurn, rfl⟩

theorem bgTouches_turned (s : State) (r i lo hi : Nat) : (s.turned r i).bgTouches lo hi = s.bgTouches lo hi :=
  bgTouches_modRegion (by exact fun _ => ⟨rfl, rfl⟩) r lo hi

theorem bgReady_turned (s : State) (r i w : Nat) : (s.turned r i).bgReady w = s.bgReady w := by
  have hstalls (q : Nat) : ((s.turned r i).region q).stalls = (s.region q).stalls := by obtain ⟨n, h⟩ := region_turned s r i q; rw [h]
  have hbeat (q : Nat) : ((s.turned r i).region q).beat = (s.region q).beat := by obtain ⟨n, h⟩ := region_turned s r i q; rw [h]
  have hnative : (s.turned r i).native = s.native := rfl
  have hheld (q : Nat) : (s.turned r i).held q = s.held q := by simp only [State.held, hstalls, hbeat, hnative]
  have hclocked (q : Nat) : ((s.turned r i).region q).clocked = (s.region q).clocked := by
    obtain ⟨n, h⟩ := region_turned s r i q; rw [h]; rfl
  have hframe (q : Nat) : ((s.turned r i).region q).frameHeld = (s.region q).frameHeld := by
    obtain ⟨n, h⟩ := region_turned s r i q; rw [h]
  have hbeats (q : Nat) : (s.turned r i).bankBeats q = s.bankBeats q := by simp only [State.bankBeats, hheld, hclocked, hframe]
  have hbusy (q b : Nat) : (s.turned r i).bankBusy q b = s.bankBusy q b := by
    unfold State.bankBusy
    obtain ⟨n, h⟩ := region_turned s r i q
    rw [hbeats, h]
  unfold State.bgReady
  obtain ⟨n, h⟩ := region_turned s r i (w / 2 ^ 30)
  rw [hbusy, bgTouches_turned, h]

theorem slotLive_turned (s : State) (r i : Nat) : (s.turned r i).slotLive = s.slotLive := by
  funext x
  simp only [State.slotLive, bgTouches_turned]
  rfl

/-- What the scheduler does with the request it has taken. -/
theorem exec_farDispatch {r : RegionId} {s : State} {i : Nat} {f : FarReq}
    (h : ((List.range 256).map fun i => ((s.region r.val).farTurn + i) % 256).findSome? (fun i =>
      ((Tab.get {} (s.core (64 * r.val + i / 4)).farq (i % 4) : FarQ).next).map fun f => (i, f)) = some (i, f)) {u : State} {ok : Bool}
    (htry : (s.turned r.val i).bgTry [2, 64 * r.val + i / 4, i % 4, f.tag.toNat, f.sent] f.words = (u, ok)) :
    exec (.farDispatch r) s = .next (if ¬ ok then u else if f.own then u.dispatchOwn (64 * r.val + i / 4) (i % 4) f
      else u.dispatchRemote (64 * r.val + i / 4) (i % 4) f) := by
  show execFarDispatch r s = _
  unfold execFarDispatch
  dsimp only
  rw [h]
  dsimp only
  unfold State.turned at htry
  rw [htry]

/-- The request taken is one of its queue. -/
theorem mem_of_farPick {r : Nat} {s : State} {l : List Nat} {i : Nat} {f : FarReq}
    (h : l.findSome? (fun i => ((Tab.get {} (s.core (64 * r + i / 4)).farq (i % 4) : FarQ).next).map fun f => (i, f)) = some (i, f)) :
    f ∈ (Tab.get {} (s.core (64 * r + i / 4)).farq (i % 4) : FarQ).entries := by
  obtain ⟨j, -, hj⟩ := List.exists_of_findSome?_eq_some h
  obtain ⟨g, hg, hp⟩ := Option.map_eq_some_iff.mp hj
  obtain ⟨rfl, rfl⟩ := Prod.mk.inj hp
  exact List.mem_of_find?_eq_some hg

/-! ## Requests to the part's own memory -/

theorem regions_touchStacks (s : State) (space off n : Nat) : (s.touchStacks space off n).regions = s.regions := by
  have hone (t : State) (k : Nat) : (t.touchStack k).regions = t.regions := by
    unfold State.touchStack
    dsimp only
    split
    · rfl
    · split <;> rfl
  unfold State.touchStacks
  split
  · rfl
  · exact each_keeps State.regions _ _ _ fun t k _ => hone t k

theorem regions_raiseBad (s : State) (space off : Nat) : (s.raiseBad space off).regions = s.regions :=
  congrArg Body.regions (body_raiseBad s space off)

theorem core_bgPush (s : State) (off : Nat) (d : List Byte) (c : Nat) : (s.bgPush off d).core c = s.core c :=
  core_modRegion_of_cores _ _ _ _ fun x => by split <;> rfl

/-- Free bytes for an undefined request leave the regions. -/
theorem core_undefData (s : State) (u : Bool) (n c : Nat) (d : List Byte) : (if u then s.freeBytes n else (d, s)).2.core c = s.core c := by
  cases u
  · rfl
  · exact core_of_regions rfl c

theorem core_ownLoad (s : State) (r : FarReq) (n c : Nat) : (s.ownLoad r n).core c = s.core c := by
  induction n with
  | zero => rfl
  | succ n ih =>
    have hword (t : State) (space off : Nat) : ((t.touchStacks space off 64).readWord space off).2.2.core c = t.core c :=
      (core_of_regions (counted_readWord _ _ _).regions c).trans (core_of_regions (regions_touchStacks t _ _ _) c)
    unfold State.ownLoad
    dsimp only
    split
    · rw [core_of_regions (regions_raiseBad _ _ _) c, hword, ih]
    · rw [core_bgPush, core_undefData, hword, ih]

/-- One word of a store to the part's own memory, after those before it: the model's step, whose own equations Lean does not derive. -/
def FarReq.storeWord (r : FarReq) (n : Nat) (x : State × Bool) : State × Bool :=
  let space := bits r.far.toNat 51 48
  let off := bits r.far.toNat 47 0 + 64 * n
  let (d, bad, t) := x.1.readSram (r.loc + 64 * n) 64
  match bad with
  | some b => (t.raiseBad 0 b, true)
  | none =>
    let (f, u) := if r.undef then t.freeBytes 64 else (d, t)
    ((u.touchStacks space off 64).writeWord space off f, x.2)

theorem ownStore_zero (s : State) (r : FarReq) : s.ownStore r 0 = (s, false) := by with_unfolding_all rfl

theorem ownStore_succ (s : State) (r : FarReq) (n : Nat) : s.ownStore r (n + 1) = r.storeWord n (s.ownStore r n) := by with_unfolding_all rfl

theorem core_ownStore (s : State) (r : FarReq) (n c : Nat) : (s.ownStore r n).1.core c = s.core c := by
  induction n with
  | zero => rw [ownStore_zero]
  | succ n ih =>
    have hword (t : State) (space off : Nat) (d : List Byte) : (t.writeWord space off d).core c = t.core c := by
      unfold State.writeWord
      split
      · exact core_of_regions rfl c
      · exact core_of_regions rfl c
    have hread (t : State) (off : Nat) : (t.readSram off 64).2.2.core c = t.core c := core_of_regions (counted_readSram _ _ _).regions c
    rw [ownStore_succ]
    unfold FarReq.storeWord
    dsimp only
    split
    · rw [core_of_regions (regions_raiseBad _ _ _) c, hread, ih]
    · rw [hword, core_of_regions (regions_touchStacks _ _ _ _) c, core_undefData, hread, ih]

/-- A load or store of the part's own memory is sent whole. -/
theorem dispatchOwn_move {s : State} {c q : Nat} {f : FarReq} (hf : s.farReq c q f.tag = some f) (hk : f.kind ≠ .feng) :
    ∃ g, (s.dispatchOwn c q f).farReq c q f.tag = some g ∧ g.sent = f.len := by
  unfold State.dispatchOwn
  split
  · exact ⟨_, farReq_modFar_some ((farReq_of_core (core_ownLoad s f f.len c) q f.tag).trans hf) (by exact fun _ => rfl), rfl⟩
  · exact ⟨_, farReq_modFar_some ((farReq_of_core (core_ownStore s f f.len c) q f.tag).trans hf) (by exact fun _ => rfl), rfl⟩
  · next h => exact absurd h hk

/-- The bytes that are read, and the first that cannot be, are the memory's. -/
theorem readSram_data {s t : State} (h : t.sram = s.sram) (h' : t.sramChk = s.sramChk) (off n : Nat) :
    (t.readSram off n).1 = (s.readSram off n).1 ∧ (t.readSram off n).2.1 = (s.readSram off n).2.1 := by
  simp only [State.readSram, h, h', and_self]

/-! ## Engine items -/

theorem queueItem_some {s : State} {k : Nat} {i : Item} (h : (Tab.get [] (s.stack k).queues (homeEngine i.bytes)).length < 16) :
    s.queueItem k i = some (s.modStack k fun x =>
      { x with queues := Tab.set x.queues (homeEngine i.bytes) (Tab.get [] (s.stack k).queues (homeEngine i.bytes) ++ [i]) }) :=
  if_neg (by omega)

theorem queueItem_none {s : State} {k : Nat} {i : Item} (h : 16 ≤ (Tab.get [] (s.stack k).queues (homeEngine i.bytes)).length) :
    s.queueItem k i = none := if_pos h

/-- A stack whose engines' items that clash with some ranges are marked. -/
def Stack.mark (k : Stack) (x : List (Nat × Nat × Nat × Bool)) : Stack :=
  { k with queues := k.queues.map fun q => (q.1, q.2.map fun i => if clash i.spans x then { i with undef := true } else i)
           running := k.running.map fun i => (i.1, i.2.map fun i => if clash i.spans x then { i with undef := true } else i) }

theorem stack_markClash (s : State) (x : List (Nat × Nat × Nat × Bool)) (k : Nat) : (s.markClash x).stack k = (s.stack k).mark x :=
  tab_get_map ({} : Stack) (fun y : Stack => y.mark x) rfl s.palaz k

/-- A queue's items but for their marks. -/
theorem unmarked_queue_mark (k : Stack) (x : List (Nat × Nat × Nat × Bool)) (e : Nat) :
    (Tab.get [] (k.mark x).queues e).map Item.unmarked = (Tab.get [] k.queues e).map Item.unmarked := by
  have h := tab_get_map ([] : List Item) (fun l => l.map fun i => if clash i.spans x then { i with undef := true } else i) rfl k.queues e
  have hone (i : Item) : (if clash i.spans x then { i with undef := true } else i : Item).unmarked = i.unmarked := by
    split <;> rfl
  refine (congrArg (List.map Item.unmarked) h).trans ?_
  rw [List.map_map]
  exact List.map_congr_left fun i _ => hone i

theorem stack_modFar (s : State) (c q : Nat) (tag : BitVec 16) (f : FarReq → FarReq) (k : Nat) : (s.modFar c q tag f).stack k = s.stack k := rfl

theorem farReq_modStack (s : State) (k : Nat) (f : Stack → Stack) (c q : Nat) (tag : BitVec 16) :
    (s.modStack k f).farReq c q tag = s.farReq c q tag := rfl

theorem len_markFar (x : List (Nat × Nat × Nat × Bool)) (r : FarReq) : (r.markFar x).len = r.len := by
  unfold FarReq.markFar
  split <;> rfl

/-- An item of the part's own core. -/
def FarReq.toItem (r : FarReq) (c q : Nat) (d : List Byte) : Item := { bytes := ofBytes 512 d, src := .core c q r.tag }

/-- An item in its engine's queue, what it touches marked with it. -/
def State.itemSent (s : State) (c q : Nat) (r : FarReq) (sp : List (Nat × Nat × Nat × Bool)) : State :=
  let rest := s.modFar c q r.tag fun x => { x with done := true }
  let hit := rest.anyClash sp
  (if hit then rest.markClash sp else s).modFar c q r.tag fun x =>
    { x with sent := x.len, outstanding := 1, item := sp, undef := x.undef || hit, done := false }

theorem dispatchOwn_feng {s : State} {f : FarReq} (hk : f.kind = .feng) (hsp : bits f.far.toNat 51 48 = 1) (hu : f.undef = false)
    (hclean : (s.readSram f.loc 64).2.1 = none) (c q : Nat) :
    s.dispatchOwn c q f = match (s.readSram f.loc 64).2.2.queueItem (bits f.far.toNat 47 0 / stackSize)
        (f.toItem c q (s.readSram f.loc 64).1) with
      | some t => t.itemSent c q f (s.itemSpans (ofBytes 512 (s.readSram f.loc 64).1))
      | none => s := by
  unfold State.dispatchOwn
  rw [hk]
  generalize s.readSram f.loc 64 = x at hclean ⊢
  obtain ⟨d, bad, t⟩ := x
  obtain rfl : bad = none := hclean
  simp only [hsp, hu, ne_eq, not_true_eq_false, if_false, Bool.false_eq_true]
  rfl

theorem queue_itemSent (s : State) (c q : Nat) (r : FarReq) (sp : List (Nat × Nat × Nat × Bool)) (k e : Nat) :
    (Tab.get [] ((s.itemSent c q r sp).stack k).queues e).map Item.unmarked = (Tab.get [] (s.stack k).queues e).map Item.unmarked := by
  unfold State.itemSent
  extract_lets rest hit
  rw [stack_modFar]
  split
  · rw [stack_markClash, unmarked_queue_mark]
    rfl
  · rfl

theorem farReq_itemSent {s : State} {c q : Nat} {r : FarReq} (h : s.farReq c q r.tag = some r) (sp : List (Nat × Nat × Nat × Bool)) :
    ∃ g, (s.itemSent c q r sp).farReq c q r.tag = some g ∧ g.sent = r.len ∧ g.outstanding = 1 := by
  unfold State.itemSent
  extract_lets rest hit
  have hrest : rest.farReq c q r.tag = some { r with done := true } := farReq_modFar_some h (by exact fun _ => rfl)
  by_cases hh : hit = true
  · rw [if_pos hh]
    have hm : (rest.markClash sp).farReq c q r.tag = some (FarReq.markFar sp { r with done := true }) := by
      rw [farReq_markClash, hrest]
      rfl
    exact ⟨_, farReq_modFar_some hm (by exact fun _ => rfl), len_markFar sp { r with done := true }, rfl⟩
  · rw [if_neg hh]
    exact ⟨_, farReq_modFar_some h (by exact fun _ => rfl), rfl, rfl⟩

/-- An FENG joins its engine's queue where that has room, and waits otherwise (R395). -/
theorem dispatchOwn_item {s : State} {c q : Nat} {f : FarReq} (hf : s.farReq c q f.tag = some f) (hk : f.kind = .feng)
    (hsp : bits f.far.toNat 51 48 = 1) (hu : f.undef = false) (hclean : (s.readSram f.loc 64).2.1 = none) {k e : Nat} {it : Item}
    (hkk : k = bits f.far.toNat 47 0 / stackSize) (hit : it = f.toItem c q (s.readSram f.loc 64).1) (he : e = homeEngine it.bytes) :
    ((Tab.get [] (s.stack k).queues e).length < 16 →
      (Tab.get [] ((s.dispatchOwn c q f).stack k).queues e).map Item.unmarked = (Tab.get [] (s.stack k).queues e).map Item.unmarked ++ [it]
        ∧ ∃ g, (s.dispatchOwn c q f).farReq c q f.tag = some g ∧ g.sent = f.len ∧ g.outstanding = 1)
      ∧ (16 ≤ (Tab.get [] (s.stack k).queues e).length → s.dispatchOwn c q f = s) := by
  have hcount := counted_readSram s f.loc 64
  rw [dispatchOwn_feng hk hsp hu hclean, ← hkk, ← hit]
  generalize s.itemSpans (ofBytes 512 (s.readSram f.loc 64).1) = sp
  generalize (s.readSram f.loc 64).2.2 = t at hcount ⊢
  have hstack : t.stack k = s.stack k := by rw [State.stack, hcount.palaz]; rfl
  have hreq : t.farReq c q f.tag = some f := (farReq_of_core (core_of_regions hcount.regions c) q f.tag).trans hf
  subst he
  refine ⟨fun hlt => ?_, fun hle => ?_⟩
  · rw [queueItem_some (by rw [hstack]; exact hlt)]
    dsimp only
    refine ⟨?_, farReq_itemSent ((farReq_modStack _ _ _ _ _ _).trans hreq) sp⟩
    rw [queue_itemSent, modStack_eq, stack_setStack, if_pos rfl, hstack, tab_get_set, if_pos rfl, List.map_append]
    have hun : it.unmarked = it := by rw [hit]; rfl
    rw [List.map_singleton, hun]
  · rw [queueItem_none (by rw [hstack]; exact hle)]

/-! ## Messages to other parts -/

/-- What reading the memory and leaving data free changes of nothing that a reply slot or a route depends on. -/
structure State.Looked (s t : State) : Prop where
  routes : s.Routes t
  regions : t.regions = s.regions
  chans : t.chans = s.chans
  slots : t.slots = s.slots

theorem looked_of_counted {s t : State} (h : s.Counted t) : s.Looked t := ⟨.of_counted h, h.regions, h.chans, h.slots⟩

theorem slotLive_of_looked {s t : State} (h : s.Looked t) : t.slotLive = s.slotLive := by
  funext x
  simp only [State.slotLive, State.bgTouches, State.chan, State.region, h.regions, h.chans]

theorem offerMsg_keeps {s t : State} {q : TxMsg} (h : s.offerMsg q = some t) :
    t.regions = s.regions ∧ t.slots = s.slots ∧ t.nextIdent = s.nextIdent := by
  unfold State.offerMsg at h
  split at h
  · exact absurd h (by simp)
  · dsimp only at h
    split at h
    · exact absurd h (by simp)
    · split at h <;> obtain rfl := Option.some.inj h <;> exact ⟨rfl, rfl, rfl⟩

/-- The kind of a far request's reply slot. -/
def FarKind.slotKind : FarKind → Nat
  | .fld => 0
  | .fst => 1
  | .feng => 2

/-- The reply slot that a request's next message holds. -/
def FarReq.slot (r : FarReq) (s : State) (c q : Nat) : ReplySlot :=
  { ident := BitVec.ofNat 32 (s.epoch.toNat * 2 ^ 30 + s.nextIdent % 2 ^ 30), chip := r.chip, core := c, q := q, tag := r.tag
    loc := r.loc + 64 * r.sent, units := min 64 (r.len - r.sent), kind := r.kind.slotKind }

/-- The state in which a request's next message is routed. -/
def State.messageReady (s t : State) (c q : Nat) (r : FarReq) : State :=
  ({ t with nextIdent := s.nextIdent + 1 }.reserve (r.slot s c q)).modFar c q r.tag fun x =>
    { x with sent := x.sent + min 64 (r.len - r.sent), outstanding := x.outstanding + 1 }

/-- The data of a request's next message: none of a load. -/
def FarReq.payload (r : FarReq) (s : State) : List Byte × Option Nat × State :=
  match r.kind with
  | .fld => ([], none, s)
  | _ => s.readSram (r.loc + 64 * r.sent) (64 * min 64 (r.len - r.sent))

/-- A request's next message with its data. -/
def FarReq.message (r : FarReq) (s : State) (d : List Byte) : Msg :=
  let n := min 64 (r.len - r.sent)
  let units := match r.kind with
    | .fld => []
    | _ => (List.range n).map fun i => ofBytes 512 (slice d (64 * i) 64)
  { vc := 1, period := r.period && r.sent == 0
    hdr := reqHdr units.length r.chip s.chip (r.kind.slotKind + 1) (s.epoch.toNat * 2 ^ 30 + s.nextIdent % 2 ^ 30)
      (r.far.toNat % 2 ^ 52 + 64 * r.sent) n
    units := units }

theorem dest_message (r : FarReq) (s : State) (d : List Byte) : mf (r.message s d) 2 2 = r.chip % 65536 := dest_reqHdr _ _ _ _ _ _ _ _ _ _

/-- The state in which a message is routed, sent on. -/
def State.sendsOn (s : State) (m : Msg) : State := (s.newTx m).2.routeMsg (s.newTx m).1

theorem looked_payload (s : State) (r : FarReq) : s.Looked (r.payload s).2.2 := by
  unfold FarReq.payload
  split
  · exact ⟨⟨rfl, rfl, rfl, fun _ _ => rfl⟩, rfl, rfl, rfl⟩
  · exact looked_of_counted (counted_readSram s _ _)

/-- The next message of a request whose data can be read: routed once its slot is held. -/
theorem dispatchRemote_sends {s : State} {f : FarReq} (hslots : s.slotsUsed < 1024) (hclean : (f.payload s).2.1 = none) (c q : Nat) :
    ∃ t d, s.Looked t ∧ s.dispatchRemote c q f = (s.messageReady t c q f).sendsOn (f.message s d) := by
  have hlook := looked_payload s f
  have hfree (t : State) (n : Nat) (h : s.Looked t) : s.Looked (t.freeBytes n).2 :=
    ⟨h.routes.trans ⟨rfl, rfl, rfl, fun _ _ => rfl⟩, h.regions, h.chans, h.slots⟩
  unfold State.dispatchRemote
  rw [if_neg (by omega)]
  unfold FarReq.payload at hclean hlook
  unfold FarReq.message State.messageReady FarReq.slot
  cases hk : f.kind with
  | fld =>
    refine ⟨s, [], ⟨⟨rfl, rfl, rfl, fun _ _ => rfl⟩, rfl, rfl, rfl⟩, ?_⟩
    simp only [if_true, ne_eq, not_true_eq_false, and_false, if_false]
    rfl
  | fst =>
    simp only [hk] at hclean hlook
    simp only [OfNat.ofNat_ne_one, ne_eq, not_false_eq_true, and_true, if_false]
    generalize s.readSram (f.loc + 64 * f.sent) (64 * min 64 (f.len - f.sent)) = x at hclean hlook ⊢
    obtain ⟨d, bad, t⟩ := x
    obtain rfl : bad = none := hclean
    cases hu : f.undef with
    | true => exact ⟨(t.freeBytes (64 * min 64 (f.len - f.sent))).2, (t.freeBytes (64 * min 64 (f.len - f.sent))).1, hfree t _ hlook, rfl⟩
    | false => exact ⟨t, d, hlook, rfl⟩
  | feng =>
    simp only [hk] at hclean hlook
    simp only [OfNat.ofNat_ne_one, ne_eq, not_false_eq_true, and_true, if_false]
    generalize s.readSram (f.loc + 64 * f.sent) (64 * min 64 (f.len - f.sent)) = x at hclean hlook ⊢
    obtain ⟨d, bad, t⟩ := x
    obtain rfl : bad = none := hclean
    cases hu : f.undef with
    | true => exact ⟨(t.freeBytes (64 * min 64 (f.len - f.sent))).2, (t.freeBytes (64 * min 64 (f.len - f.sent))).1, hfree t _ hlook, rfl⟩
    | false => exact ⟨t, d, hlook, rfl⟩

/-- A message that its route reaches is sent on: nothing but queues changes. -/
theorem sendsOn_of_reaches {s t : State} {m : Msg} {chip : Nat} (hr : s.reaches m.vc chip) (h : s.Routes t)
    (hdest : mf m 2 2 % 4096 = chip % 4096) :
    (t.sendsOn m).regions = t.regions ∧ (t.sendsOn m).slots = t.slots ∧ (t.sendsOn m).nextIdent = t.nextIdent := by
  have hroutes : s.Routes (t.newTx m).2 := h.trans ⟨rfl, rfl, rfl, fun _ _ => rfl⟩
  obtain ⟨u, hu⟩ : ∃ u, (t.newTx m).2.offerMsg (t.newTx m).1 = some u := by
    obtain ⟨vc, ⟨p, r, hoff⟩ | hoff⟩ := offerMsg_of_reaches hr hroutes (q := (t.newTx m).1) rfl rfl hdest
    · exact ⟨_, hoff⟩
    · exact ⟨_, hoff⟩
  have hon : t.sendsOn m = u := by
    unfold State.sendsOn State.routeMsg
    rw [hu]
  obtain ⟨h1, h2, h3⟩ := offerMsg_keeps hu
  rw [hon]
  exact ⟨h1, h2, h3⟩

/-- The message is sent under a new identifier, with a slot for its reply (R312). -/
theorem dispatchRemote_sent {s : State} {c q : Nat} {f : FarReq} (hf : s.farReq c q f.tag = some f) (hslots : s.slotsUsed < 1024)
    (hr : s.reaches 1 f.chip) (hclean : (f.payload s).2.1 = none) :
    (∃ g, (s.dispatchRemote c q f).farReq c q f.tag = some g ∧ g.sent = f.sent + min 64 (f.len - f.sent) ∧ g.outstanding = f.outstanding + 1)
      ∧ (s.dispatchRemote c q f).slots = s.slots.filter s.slotLive ++ [f.slot s c q]
      ∧ (s.dispatchRemote c q f).nextIdent = s.nextIdent + 1 := by
  obtain ⟨t, d, hlook, hsends⟩ := dispatchRemote_sends hslots hclean c q
  have hroutes : s.Routes (s.messageReady t c q f) := hlook.routes.trans ⟨rfl, rfl, rfl, fun _ _ => rfl⟩
  have hdest : mf (f.message s d) 2 2 % 4096 = f.chip % 4096 := by
    rw [dest_message]
    omega
  obtain ⟨hregions, hslot, hident⟩ := sendsOn_of_reaches (m := f.message s d) hr hroutes hdest
  have hready : (s.messageReady t c q f).farReq c q f.tag
      = some { f with sent := f.sent + min 64 (f.len - f.sent), outstanding := f.outstanding + 1 } :=
    farReq_modFar_some ((farReq_of_core (core_of_regions hlook.regions c) q f.tag).trans hf) (by exact fun _ => rfl)
  rw [hsends]
  refine ⟨⟨_, (farReq_of_core (core_of_regions hregions c) q f.tag).trans hready, rfl, rfl⟩, hslot.trans ?_, hident⟩
  show t.slots.filter t.slotLive ++ [f.slot s c q] = _
  rw [hlook.slots, slotLive_of_looked hlook]

theorem dispatchRemote_full {s : State} (h : 1024 ≤ s.slotsUsed) (c q : Nat) (f : FarReq) : s.dispatchRemote c q f = s := if_pos h

/-- Settles O17: the request taken waits for its banks, or is sent by its kind. -/
theorem farDispatch : Obligations.FarDispatch := by
  unfold Obligations.FarDispatch
  intro r s i f hpick
  have hmem := mem_of_farPick hpick
  dsimp only
  refine ⟨fun _ hfresh hbusy => ?_, fun hnodup _ hready => ?_⟩
  · obtain ⟨w, hw, hbw⟩ := hbusy
    obtain ⟨b, hb⟩ := bgTry_waits (s := s.turned r.val i) hw (by rw [bgReady_turned]; exact hbw) hfresh
    refine ⟨_, exec_farDispatch hpick hb, congrArg Core.farq (core_turned s r.val i _), rfl, rfl, rfl, rfl, rfl, _,
      List.mem_cons_self .., rfl, fun v => ?_⟩
    simp only [List.mem_filter, bgReady_turned]
  · obtain ⟨b, hb⟩ := bgTry_ready (s := s.turned r.val i) (l := f.words) (fun w hw => by rw [bgReady_turned]; exact hready w hw)
      [2, 64 * r.val + i / 4, i % 4, f.tag.toNat, f.sent]
    refine ⟨_, exec_farDispatch hpick hb, ?_⟩
    have hf : ({ s.turned r.val i with bgDone := b } : State).farReq (64 * r.val + i / 4) (i % 4) f.tag = some f :=
      (farReq_of_core (core_turned s r.val i _) _ _).trans (find?_tag_of_nodup hnodup hmem)
    have hread (off n : Nat) := readSram_data (s := s) (t := { s.turned r.val i with bgDone := b }) rfl rfl off n
    have hreach : s.reaches 1 f.chip → ({ s.turned r.val i with bgDone := b } : State).reaches 1 f.chip := id
    have hlive : ({ s.turned r.val i with bgDone := b } : State).slots.filter ({ s.turned r.val i with bgDone := b } : State).slotLive
        = s.slots.filter s.slotLive :=
      congrArg (List.filter · s.slots) (slotLive_turned s r.val i)
    have hkeep : ({ s.turned r.val i with bgDone := b } : State).palaz = s.palaz ∧ ({ s.turned r.val i with bgDone := b } : State).slots = s.slots
        ∧ ({ s.turned r.val i with bgDone := b } : State).nextIdent = s.nextIdent := ⟨rfl, rfl, rfl⟩
    generalize ({ s.turned r.val i with bgDone := b } : State) = u at *
    obtain ⟨hpalaz, hslots, hident⟩ := hkeep
    have hused : u.slotsUsed = s.slotsUsed := congrArg List.length hlive
    have hstack (k : Nat) : u.stack k = s.stack k := by rw [State.stack, hpalaz]; rfl
    simp only [not_true_eq_false, if_false]
    refine ⟨fun hown hk => ?_, fun hown hk hsp hundef hclean => ?_, fun hown hfree hr hclean => ?_, fun hown hfull => ?_⟩
    · simp only [hown, if_true]
      exact dispatchOwn_move hf hk
    · simp only [hown, if_true]
      obtain ⟨hroom, hwait⟩ := dispatchOwn_item hf hk hsp hundef ((hread _ _).2.trans hclean) rfl rfl rfl
      rw [(hread _ _).1, hstack] at hroom hwait
      refine ⟨hroom, fun hle => ?_⟩
      rw [hwait hle]
      exact ⟨hpalaz, hf⟩
    · simp only [hown, Bool.false_eq_true, if_false]
      have hpayload : (f.payload u).2.1 = none := by
        unfold FarReq.payload
        split
        · rfl
        · next hne => exact (hread _ _).2.trans (hclean hne)
      obtain ⟨hg, hs, hn⟩ := dispatchRemote_sent hf (hused.trans_lt hfree) (hreach hr) hpayload
      refine ⟨hg, _, hs.trans (congrArg (· ++ _) hlive), rfl, rfl, rfl, rfl, ?_, rfl, rfl, hn.trans (congrArg (· + 1) hident)⟩
      cases hk : f.kind <;> simp [FarReq.slot, hk, FarKind.slotKind]
    · simp only [hown, Bool.false_eq_true, if_false]
      rw [dispatchRemote_full (by omega)]
      exact hslots

end Sys2Proof.Machine
end

section
/-! Reads and writes of whole words of the memories, byte by byte (R370, R374, R379). -/

namespace Sys2Proof.Machine

/-! ## Words and their bytes -/

theorem getD_slice (l : List Byte) (o n : Nat) {j : Nat} (h : j < n) : (slice l o n).getD j 0 = l.getD (o + j) 0 := by
  simp [slice, List.getD_eq_getElem?_getD, h]

theorem length_slice (l : List Byte) (o n : Nat) : (slice l o n).length = min n (l.length - o) := by
  simp [slice]

theorem byte_leNat (l : List Byte) (j : Nat) : BitVec.ofNat 8 (leNat l / 256 ^ j) = l.getD j 0 := by
  induction l generalizing j with
  | nil => simp [leNat]
  | cons b l ih =>
    have hb := b.isLt
    cases j with
    | zero =>
      apply BitVec.eq_of_toNat_eq
      simp [leNat, Nat.add_mod, Nat.mod_eq_of_lt hb]
    | succ j =>
      have hdiv : (b.toNat + 256 * leNat l) / 256 = leNat l := by omega
      rw [leNat, pow_succ', ← Nat.div_div_eq_div_mul, hdiv, ih, List.getD_cons_succ]

/-- A byte of a word made of bytes. -/
theorem byte_ofBytes (l : List Byte) {j : Nat} (h : j < 64) : (ofBytes 512 l).extractLsb' (8 * j) 8 = l.getD j 0 := by
  obtain ⟨r, hr⟩ : ∃ r, 512 = 8 * j + (8 + r) := ⟨504 - 8 * j, by omega⟩
  rw [← byte_leNat]
  apply BitVec.eq_of_toNat_eq
  have hpow : (256 : Nat) ^ j = 2 ^ (8 * j) := by rw [pow_mul]; norm_num
  rw [BitVec.extractLsb'_toNat, BitVec.toNat_ofNat, ofBytes, BitVec.toNat_ofNat, Nat.shiftRight_eq_div_pow, hpow, hr,
    Nat.pow_add 2 (8 * j), Nat.mod_mul_right_div_self, Nat.pow_add 2 8, Nat.mod_mul_right_mod]

/-- Words cut out of a byte string, byte by byte. -/
theorem byte_unitsOf (d : List Byte) {n i : Nat} (h : i < 64 * n) :
    (((List.range n).map fun k => ofBytes 512 (slice d (64 * k) 64)).getD (i / 64) 0).extractLsb' (8 * (i % 64)) 8 = d.getD i 0 := by
  have hi : i / 64 < n := by omega
  have hj : i % 64 < 64 := by omega
  rw [getD_map_range _ n 0 hi, byte_ofBytes _ hj, getD_slice _ _ _ hj, show 64 * (i / 64) + i % 64 = i by omega]

theorem length_flatMap_bytesOf (l : List (BitVec 512)) : (l.flatMap fun u => bytesOf 64 u).length = 64 * l.length := by
  induction l with
  | nil => rfl
  | cons u l ih =>
    simp only [List.flatMap_cons, List.length_append, length_bytesOf, ih, List.length_cons]
    omega

/-- Words put one after the other, byte by byte. -/
theorem getD_flatMap_bytesOf (l : List (BitVec 512)) {i : Nat} (h : i < 64 * l.length) :
    (l.flatMap fun u => bytesOf 64 u).getD i 0 = (l.getD (i / 64) 0).extractLsb' (8 * (i % 64)) 8 := by
  induction l generalizing i with
  | nil => simp at h
  | cons u l ih =>
    rw [List.flatMap_cons]
    by_cases hi : i < 64
    · rw [List.getD_append _ _ _ _ (by simpa using hi), getD_bytesOf 64 u hi, Nat.div_eq_of_lt hi, Nat.mod_eq_of_lt hi, List.getD_cons_zero]
    · rw [List.length_cons] at h
      rw [List.getD_append_right _ _ _ _ (by simpa using hi), length_bytesOf, ih (by omega), show i / 64 = (i - 64) / 64 + 1 by omega,
        List.getD_cons_succ, show (i - 64) % 64 = i % 64 by omega]

/-! ## Clean reads -/

theorem sramDecode_clean {d c : Byte} (h : (sramDecode d c).2 = .clean) : (sramDecode d c).1 = d := by
  unfold sramDecode at h ⊢
  dsimp only at h ⊢
  split at h
  · split at h
    · exact absurd h (by simp)
    · split at h <;> exact absurd h (by simp)
  · next hodd =>
    rw [if_neg hodd]
    split <;> rfl

/-- Bytes of SRAM that are clean are read as they stand, and nothing is counted. -/
theorem readSram_stored {s : State} {off n : Nat}
    (h : ∀ i < n, (sramDecode (s.sram.read (off + i)) (s.sramChk.read (off + i))).2 = .clean) :
    s.readSram off n = ((List.range n).map fun i => s.sram.read (off + i), none, s) := by
  rw [readSram_clean h, List.map_congr_left fun i hi => sramDecode_clean (h i (List.mem_range.mp hi))]

theorem readWords_stored {s : State} {off n : Nat}
    (h : ∀ i < 64 * n, (sramDecode (s.sram.read (off + i)) (s.sramChk.read (off + i))).2 = .clean) :
    s.readWords 0 off n = ((List.range (64 * n)).map fun i => s.sram.read (off + i), none, s) := by
  induction n generalizing off with
  | zero => rfl
  | succ n ih =>
    have hw : s.readWord 0 off = ((List.range 64).map fun i => s.sram.read (off + i), none, s) :=
      readSram_stored fun i hi => h i (by omega)
    have hrest := ih (off := off + 64) fun i hi => by
      have := h (64 + i) (by omega)
      rwa [← Nat.add_assoc] at this
    rw [State.readWords, hw]
    dsimp only
    rw [hrest]
    dsimp only
    rw [show 64 * (n + 1) = 64 + 64 * n by omega, List.range_add, List.map_append, List.map_map]
    simp only [Function.comp_def, Nat.add_assoc]

/-! ## Writes of words -/

/-- Words of SRAM written. -/
theorem sramSet_writeWords {s : State} (h : s.memoryOk = true) (off : Nat) (d : List Byte) {n : Nat} (hd : d.length = 64 * n) :
    s.SramSet (s.writeWords 0 off d) (fun a => off ≤ a ∧ a < off + d.length) fun a => d.getD (a - off) 0 := by
  have hword : ∀ t, s.SramOnly t → t.memoryOk = true → ∀ i ∈ List.range n,
      t.SramSet (t.writeWord 0 (off + 64 * i) (slice d (64 * i) 64))
        (fun a => off + 64 * i ≤ a ∧ a < off + 64 * i + 64) fun a => d.getD (a - off) 0 := by
    intro t _ ht i hi
    have hi := List.mem_range.mp hi
    have hlen : (slice d (64 * i) 64).length = 64 := by rw [length_slice]; omega
    refine (sramSet_writeSram ht (off + 64 * i) (slice d (64 * i) 64)).congr (fun a => by rw [hlen]) fun a ha => ?_
    rw [hlen] at ha
    rw [getD_slice _ _ _ (by omega)]
    congr 1
    omega
  have hfold : s.writeWords 0 off d = s.each (List.range n) fun t i => t.writeWord 0 (off + 64 * i) (slice d (64 * i) 64) := by
    unfold State.writeWords
    rw [hd, Nat.mul_div_cancel_left _ (by decide : 0 < 64)]
    rfl
  rw [hfold]
  refine (State.SramSet.each h hword).congr (fun a => ⟨?_, fun ha => ?_⟩) fun _ _ => rfl
  · rintro ⟨i, hi, h1, h2⟩
    have := List.mem_range.mp hi
    omega
  · exact ⟨(a - off) / 64, List.mem_range.mpr (by omega), by omega, by omega⟩

/-- Words of the stacks written: their bytes, and no others. -/
theorem dram_writeWords {s : State} (h : s.memoryOk = true) (off : Nat) (d : List Byte) {n : Nat} (hd : d.length = 64 * n) (a : Nat) :
    (s.writeWords 1 off d).dram.read a = if off ≤ a ∧ a < off + d.length then d.getD (a - off) 0 else s.dram.read a := by
  have key (m : Nat) : ∀ t : State, t.memoryOk = true → m ≤ n →
      ((List.range m).foldl (fun t i => t.writeWord 1 (off + 64 * i) (slice d (64 * i) 64)) t).memoryOk = true
      ∧ ((List.range m).foldl (fun t i => t.writeWord 1 (off + 64 * i) (slice d (64 * i) 64)) t).dram.read a
        = if off ≤ a ∧ a < off + 64 * m then d.getD (a - off) 0 else t.dram.read a := by
    induction m with
    | zero => exact fun t ht _ => ⟨ht, by rw [if_neg (by omega)]; rfl⟩
    | succ m ih =>
      intro t ht hm
      obtain ⟨hok, hread⟩ := ih t ht (by omega)
      have hlen : (slice d (64 * m) 64).length = 64 := by rw [length_slice]; omega
      rw [List.range_succ, List.foldl_append, List.foldl_cons, List.foldl_nil]
      refine ⟨memoryOk_writeWord hok _ _ _, (dram_writeStack hok (off + 64 * m) (slice d (64 * m) 64) a).trans ?_⟩
      rw [hread, hlen]
      by_cases h1 : off + 64 * m ≤ a ∧ a < off + 64 * m + 64
      · rw [if_pos h1, if_pos (by omega), getD_slice _ _ _ (by omega)]
        congr 1
        omega
      · rw [if_neg h1]
        by_cases h2 : off ≤ a ∧ a < off + 64 * m
        · rw [if_pos h2, if_pos (by omega)]
        · rw [if_neg h2, if_neg (by omega)]
  rw [hd]
  have := (key n s h (le_refl n)).2
  unfold State.writeWords
  rwa [hd, Nat.mul_div_cancel_left _ (by decide : 0 < 64)]

/-- A write of words changes its space's memory alone. -/
theorem writeWords_keeps {β : Type} (P : State → β) (space off : Nat) (d : List Byte) (s : State)
    (h : ∀ (t : State) (o : Nat) (w : List Byte), P (t.writeWord space o w) = P t) : P (s.writeWords space off d) = P s :=
  each_keeps P (fun t i => t.writeWord space (off + 64 * i) (slice d (64 * i) 64)) (List.range (d.length / 64)) s fun t _ _ => h t _ _

end Sys2Proof.Machine
end

section
/-! A reply of the part: where it goes, and what it leaves alone (R312, R313, R315, R328, R329). -/

namespace Sys2Proof.Machine

/-! ## A reply for another part -/

/-- The channel of a reply's first hop is one of a reply's (R327). -/
theorem classOf_hopVc {s : State} {q : TxMsg} (hvc : q.msg.vc = 3) (g : Nat) (up : Bool) : classOf (s.hopVc q g up) = 3 := by
  unfold State.hopVc
  extract_lets m lo
  have hlo : lo = 3 := congrArg classOf hvc
  clear_value lo
  subst hlo
  split
  · rfl
  · next d x cross same _ =>
    clear_value cross same
    rw [hvc]
    cases cross
    · cases same <;> rfl
    · rfl

theorem classOf_routeChoice {s : State} {q : TxMsg} {ports : List Nat} {vc g : Nat} (h : s.routeChoice q = some (ports, vc, g))
    (hvc : q.msg.vc = 3) : classOf vc = 3 := by
  unfold State.routeChoice at h
  dsimp only at h
  split at h
  · exact absurd h (by simp)
  · rw [if_neg (by rw [hvc]; decide)] at h
    obtain ⟨-, hx⟩ := Prod.mk.inj (Option.some.inj h)
    obtain ⟨rfl, -⟩ := Prod.mk.inj hx
    exact classOf_hopVc hvc _ _

theorem chip_lt (m : Msg) : mf m 4 2 < 65536 := by
  have h : mf m 4 2 < 2 ^ 16 := Nat.mod_lt _ (by decide)
  omega

/-- A reply that the route takes is queued on a port, or waits, on a channel of replies (R313, R328). -/
theorem offerMsg_reply {s t : State} {chip : Nat} (hr : s.reaches 3 chip) (h : s.Routes t) (stamp : Nat) {r : Msg} (hvc : r.vc = 3)
    (hdest : mf r 2 2 % 4096 = chip % 4096) :
    ∃ u v, t.offerMsg ⟨stamp, none, false, r⟩ = some u ∧ classOf v = 3
      ∧ ((∃ p q, q ∈ (u.port p).txq ∧ q.msg = { r with vc := v }) ∨ ∃ q ∈ u.waiting, q.msg = { r with vc := v }) := by
  obtain ⟨ports, vc, g, hroute, p, hp, hof⟩ := hr
  have hq := hroute ⟨stamp, none, false, r⟩ rfl hvc hdest
  rcases offerMsg_of_route ((h.routeChoice _).trans hq) ⟨p, hp, (h.offers (lt_of_routeChoice hq p hp) vc).trans hof⟩ with ⟨o, l, hoff⟩ | hoff
  · refine ⟨_, vc, hoff, classOf_routeChoice hq hvc, .inl ⟨o, ⟨stamp, none, false, { r with vc := vc }⟩, ?_, rfl⟩⟩
    simp [State.port, State.modPort, State.setPort]
  · refine ⟨_, 3, hoff, rfl, .inr ⟨_, List.mem_append_right _ (List.mem_singleton_self _), ?_⟩⟩
    obtain ⟨v, b, d, us⟩ := r
    obtain rfl : v = 3 := hvc
    rfl

/-- A reply to a request of a part that the route reaches is on its way out (R313, R328). -/
theorem replied_reply {s t : State} {m : Msg} (hr : s.reaches 3 (mf m 4 2)) (h : s.Routes t) (hfar : mf m 4 2 ≠ s.chip)
    (hop : mf m 8 1 = 1 ∨ mf m 8 1 = 2 ∨ mf m 8 1 = 3) (port status : Nat) (units : List (BitVec 512)) :
    s.replied (t.reply port m status units) m status units := by
  unfold State.reply
  extract_lets op dest r
  have hop' : op = 0x80 + mf m 8 1 := by
    show (match mf m 8 1 with | 2 => 0x82 | 3 => 0x83 | _ => 0x81) = _
    rcases hop with hop | hop | hop <;> rw [hop] <;> rfl
  have hhdr : r.hdr = rspHdr units.length (mf m 4 2) s.chip (0x80 + mf m 8 1) status (mf m 12 4) := by rw [← hop', ← h.chip]
  have hdest : mf r 2 2 % 4096 = mf m 4 2 % 4096 := by rw [dest_rspHdr, Nat.mod_eq_of_lt (chip_lt m)]
  have hvc : r.vc = 3 := rfl
  have hunits : r.units = units := rfl
  have hroutes : s.Routes (t.newTx r).2 := h.trans ⟨rfl, rfl, rfl, fun _ _ => rfl⟩
  clear_value r
  obtain ⟨u, v, hoff, hv, hout⟩ := offerMsg_reply hr hroutes t.msgStamp hvc hdest
  have hoff : (t.newTx r).2.offerMsg (t.newTx r).1 = some u := hoff
  rw [h.chip, if_neg hfar]
  dsimp only
  rw [hoff]
  exact ⟨{ r with vc := v }, hv, hhdr, hunits, hout⟩

/-- A reply for another part leaves the memories, the regions, the channels and the stacks. -/
theorem body_reply {s : State} {m : Msg} (hfar : mf m 4 2 ≠ s.chip) (port status : Nat) (units : List (BitVec 512)) :
    (s.reply port m status units).body = s.body := by
  unfold State.reply
  extract_lets op dest r
  rw [if_neg hfar]
  have hnew : (s.newTx r).2.body = s.body := rfl
  dsimp only
  split
  · next h => exact (body_offerMsg h).trans hnew
  · exact (body_noteDrop _ _).trans hnew

end Sys2Proof.Machine
end

section
/-! A request of another part as its sink takes it: the wait for banks, and the service once it has had them (R70, R314, R408). -/

namespace Sys2Proof.Machine

/-! ## Taking a request -/

/-- The state with a message of its own stamp taken. -/
def State.stamped (s : State) : State := { s with msgStamp := s.msgStamp + 1 }

/-- A message that does not wait in a class buffer is taken as it comes, and has nothing to leave. -/
theorem takeMsg_new {s : State} {p : Nat} {m : Msg} (hperiod : m.period = false) (hnew : ∀ x ∈ (s.port p).held, x.2 ≠ m) :
    s.takeMsg p m = some (⟨s.msgStamp, some p, false, m⟩, s.stamped) := by
  have hfind : (s.port p).held.find? (fun x => x.2 = m) = none := List.find?_eq_none.mpr fun x hx => by simpa using hnew x hx
  unfold State.takeMsg
  rw [hfind]
  simp only [hperiod, Bool.false_eq_true, false_and, if_false]
  rfl

theorem left_new (s : State) (stamp p : Nat) (m : Msg) : s.left ⟨stamp, some p, false, m⟩ = s := rfl

/-- The wait for banks does not look at the message stamp. -/
theorem bgTry_stamped (s : State) (key l : List Nat) : s.stamped.bgTry key l = ((s.bgTry key l).1.stamped, (s.bgTry key l).2) := by
  have hready (w : Nat) : s.stamped.bgReady w = s.bgReady w := rfl
  have hdone : s.stamped.bgDone = s.bgDone := rfl
  unfold State.bgTry
  simp only [hready, hdone]
  split
  · rfl
  · split <;> rfl

/-- What is undefined of a request does not depend on the stamp. -/
theorem reqLoses_stamped (s : State) (p : Nat) (m : Msg) : s.stamped.reqLoses p m = s.reqLoses p m := rfl

/-- A REQ that has had its banks is served. -/
theorem reqIn_served {s u v : State} {p : Nat} {m : Msg} (hclass : classOf m.vc = 1) (hme : mf m 2 2 = s.chip) (hperiod : m.period = false)
    (hnew : ∀ x ∈ (s.port p).held, x.2 ≠ m) (htry : s.bgTry (reqKey p m) (s.reqWords m) = (u, true))
    (hserve : u.stamped.serveReq p m = some v) : s.reqIn p m = v := by
  have htry' : s.stamped.bgTry (reqKey p m) (s.reqWords m) = (u.stamped, true) := by rw [bgTry_stamped, htry]
  unfold State.reqIn
  rw [if_neg (by simp [hclass, State.forMe, hme]), takeMsg_new hperiod hnew]
  dsimp only
  rw [htry']
  simp only [not_true_eq_false, if_false, hserve, left_new]

theorem reqIn_waits {s u : State} {p : Nat} {m : Msg} (hclass : classOf m.vc = 1) (hme : mf m 2 2 = s.chip) (hperiod : m.period = false)
    (hnew : ∀ x ∈ (s.port p).held, x.2 ≠ m) (htry : s.bgTry (reqKey p m) (s.reqWords m) = (u, false)) :
    s.reqIn p m = s.reqWaits p m u.bgDone := by
  have htry' : s.stamped.bgTry (reqKey p m) (s.reqWords m) = (u.stamped, false) := by rw [bgTry_stamped, htry]
  unfold State.reqIn
  rw [if_neg (by simp [hclass, State.forMe, hme]), takeMsg_new hperiod hnew]
  dsimp only
  rw [htry']
  simp only [Bool.false_eq_true, not_false_eq_true, if_true]
  rfl

/-- An SVC request that has had its banks is served. -/
theorem svcIn_served {s u : State} {p : Nat} {m : Msg} (hvc : m.vc = 5) (hme : mf m 2 2 = s.chip) (hperiod : m.period = false)
    (hnew : ∀ x ∈ (s.port p).held, x.2 ≠ m) (htry : s.bgTry (reqKey p m) (s.reqWords m) = (u, true)) :
    s.svcIn p m = u.stamped.serveSvc p m := by
  have htry' : s.stamped.bgTry (reqKey p m) (s.reqWords m) = (u.stamped, true) := by rw [bgTry_stamped, htry]
  unfold State.svcIn
  rw [if_neg (by simp [hvc, State.forMe, hme]), takeMsg_new hperiod hnew]
  dsimp only
  rw [htry']
  simp only [if_true, left_new]

theorem svcIn_waits {s u : State} {p : Nat} {m : Msg} (hvc : m.vc = 5) (hme : mf m 2 2 = s.chip) (hperiod : m.period = false)
    (hnew : ∀ x ∈ (s.port p).held, x.2 ≠ m) (htry : s.bgTry (reqKey p m) (s.reqWords m) = (u, false)) :
    s.svcIn p m = s.reqWaits p m u.bgDone := by
  have htry' : s.stamped.bgTry (reqKey p m) (s.reqWords m) = (u.stamped, false) := by rw [bgTry_stamped, htry]
  unfold State.svcIn
  rw [if_neg (by simp [hvc, State.forMe, hme]), takeMsg_new hperiod hnew]
  dsimp only
  rw [htry']
  simp only [Bool.false_eq_true, if_false]
  rfl

/-- A RSP of its op is taken by its slot. -/
theorem rspIn_taken {s : State} {p op : Nat} {m : Msg} (hclass : classOf m.vc = 3) (hme : mf m 2 2 = s.chip) (hop : mf m 8 1 = op)
    (hperiod : m.period = false) (hnew : ∀ x ∈ (s.port p).held, x.2 ≠ m) : s.rspIn p m op = s.stamped.replyIn p m := by
  unfold State.rspIn
  rw [if_neg (by simp [hclass, State.forMe, hme, hop]), takeMsg_new hperiod hnew]
  simp only [left_new]

/-! ## Waiting -/

/-- What a request's wait changes: the accesses that wait, and the marks of what it clashes with. -/
theorem reqWaits_keeps (s : State) (p : Nat) (m : Msg) (l : List (List Nat × List Nat)) :
    (s.reqWaits p m l).bgDone = l ∧ { s.reqWaits p m l with
      bgDone := s.bgDone, reqLost := s.reqLost, chans := s.chans, palaz := s.palaz, regions := s.regions } = s := by
  unfold State.reqWaits
  dsimp only
  split
  · exact ⟨rfl, rfl⟩
  · exact ⟨rfl, rfl⟩

theorem reqWaits_new {s : State} {p : Nat} {m : Msg} (hkey : ∀ y ∈ s.bgDone, y.1 ≠ reqKey p m) (l : List (List Nat × List Nat)) :
    if s.anyClash (hdrSpans m.hdr.toNat) = true then reqKey p m ∈ (s.reqWaits p m l).reqLost else s.reqWaits p m l = { s with bgDone := l } := by
  have hany : (s.bgDone.any fun y => y.1 == reqKey p m) = false :=
    List.any_eq_false.mpr fun y hy => by simpa using hkey y hy
  unfold State.reqWaits
  dsimp only
  rw [hany]
  split
  · next h =>
    rw [h]
    exact List.mem_append_right _ (List.mem_singleton_self _)
  · next h =>
    simp only [h, Bool.not_false, Bool.or_true, if_true]

/-- The words of a request inside the windows that it needs. -/
theorem reqWords_open {s : State} {m : Msg} (hok : malformedReq m = false) (hop : mf m 8 1 = 1 ∨ mf m 8 1 = 2) (hmay : s.mayTouch m = true) :
    s.reqWords m = sramWords (bits (mf m 16 8) 51 48) (bits (mf m 16 8) 47 0) (64 * mf m 24 1) := by
  unfold State.reqWords
  rw [if_neg]
  simp only [hok, hmay, Bool.false_eq_true, not_true_eq_false, or_false, false_or]
  omega

/-- A request inside its windows may touch space 0. -/
theorem mayTouch_space0 {s : State} {m : Msg} (hspace : bits (mf m 16 8) 51 48 = 0)
    (hfrom : m.vc = 5 ∨ bits (mf m 12 4) 31 30 = s.epoch.toNat)
    (hwin : inWindows s.exports 0 (bits (mf m 16 8) 47 0) (64 * mf m 24 1) (mf m 8 1 != 1) = true) : s.mayTouch m = true := by
  unfold State.mayTouch
  simp only [hspace, zero_ne_one, false_and, and_false, if_false, hwin, Bool.and_true, Bool.or_eq_true, beq_iff_eq, decide_eq_true_eq]
  exact hfrom

theorem space_of_mem_sramWords {space off n w : Nat} (h : w ∈ sramWords space off n) : space = 0 := by
  unfold sramWords at h
  by_contra hne
  simp [hne] at h

theorem sramWords_other {space : Nat} (h : space ≠ 0) (off n : Nat) : sramWords space off n = [] := if_pos (.inl h)

end Sys2Proof.Machine
end

section
/-! The service of a request: its reads and writes, and what it is answered with (R314, R382, R391, R408). -/

namespace Sys2Proof.Machine

/-! ## What stays before the answer -/

/-- `t` has the routes of `s` and its memories. -/
structure State.Stored (s t : State) : Prop where
  routes : s.Routes t
  sram : t.sram = s.sram
  sramChk : t.sramChk = s.sramChk
  dram : t.dram = s.dram
  dramChk : t.dramChk = s.dramChk

namespace State.Stored

theorem refl (s : State) : s.Stored s := ⟨⟨rfl, rfl, rfl, fun _ _ => rfl⟩, rfl, rfl, rfl, rfl⟩

theorem trans {s t u : State} (h : s.Stored t) (h' : t.Stored u) : s.Stored u :=
  ⟨h.routes.trans h'.routes, h'.sram.trans h.sram, h'.sramChk.trans h.sramChk, h'.dram.trans h.dram, h'.dramChk.trans h.dramChk⟩

theorem of_counted {s t : State} (h : s.Counted t) : s.Stored t := ⟨.of_counted h, h.sram, h.sramChk, h.dram, h.dramChk⟩

theorem ok {s t : State} (h : s.Stored t) (hs : s.memoryOk = true) : t.memoryOk = true := by
  rw [memoryOk_iff] at hs ⊢
  rwa [h.sram, h.sramChk, h.dram, h.dramChk]

end State.Stored

theorem stored_freeBytes (s : State) (n : Nat) : s.Stored (s.freeBytes n).2 := ⟨⟨rfl, rfl, rfl, fun _ _ => rfl⟩, rfl, rfl, rfl, rfl⟩

theorem stored_stamped (s : State) : s.Stored s.stamped := ⟨⟨rfl, rfl, rfl, fun _ _ => rfl⟩, rfl, rfl, rfl, rfl⟩

theorem stored_bgDone (s : State) (b : List (List Nat × List Nat)) : s.Stored { s with bgDone := b } :=
  ⟨⟨rfl, rfl, rfl, fun _ _ => rfl⟩, rfl, rfl, rfl, rfl⟩

theorem stored_markClash (s : State) (x : List (Nat × Nat × Nat × Bool)) : s.Stored (s.markClash x) :=
  ⟨⟨rfl, rfl, rfl, fun _ _ => rfl⟩, rfl, rfl, rfl, rfl⟩

theorem stored_reqMeets (s : State) (p : Nat) (m : Msg) : s.Stored (s.reqMeets p m) := by
  have hlost (t : State) (l : List (List Nat)) : t.Stored { t with reqLost := l } := ⟨⟨rfl, rfl, rfl, fun _ _ => rfl⟩, rfl, rfl, rfl, rfl⟩
  unfold State.reqMeets
  dsimp only
  split
  · exact (stored_markClash s _).trans (hlost _ _)
  · exact hlost s _

theorem stored_touchStack (s : State) (k : Nat) : s.Stored (s.touchStack k) := by
  unfold State.touchStack
  dsimp only
  split
  · exact ⟨⟨rfl, rfl, rfl, fun _ _ => rfl⟩, rfl, rfl, rfl, rfl⟩
  · split <;> exact ⟨⟨rfl, rfl, rfl, fun _ _ => rfl⟩, rfl, rfl, rfl, rfl⟩

theorem stored_each {α : Type} {f : State → α → State} {l : List α} (hf : ∀ t : State, ∀ x ∈ l, t.Stored (f t x)) (s : State) :
    s.Stored (s.each l f) := by
  induction l generalizing s with
  | nil => exact .refl s
  | cons x l ih => exact (hf s x (by simp)).trans (ih (fun t y hy => hf t y (by simp [hy])) (f s x))

theorem stored_touchStacks (s : State) (space off n : Nat) : s.Stored (s.touchStacks space off n) := by
  unfold State.touchStacks
  split
  · exact .refl s
  · exact stored_each (fun t k _ => stored_touchStack t k) s

theorem exports_of_stored {s t : State} (h : s.Stored t) : t.exports = s.exports := by
  simp only [State.exports, h.routes.blob]

/-! ## What an answer is -/

/-- A write or an item carries its units. -/
theorem units_of_wellformed {m : Msg} (h : malformedReq m = false) (hop : mf m 8 1 ≠ 1) : m.units.length = mf m 24 1 := by
  unfold malformedReq at h
  simp only [Bool.or_eq_false_iff, Bool.and_eq_false_iff, bne_eq_false_iff_eq] at h
  omega

theorem count_of_wellformed {m : Msg} (h : malformedReq m = false) : 0 < mf m 24 1 := by
  unfold malformedReq at h
  simp only [Bool.or_eq_false_iff, beq_eq_false_iff_ne] at h
  omega

theorem count_of_item {m : Msg} (h : malformedReq m = false) (hop : mf m 8 1 = 3) : mf m 24 1 = 1 := by
  unfold malformedReq at h
  simp only [Bool.or_eq_false_iff, Bool.and_eq_false_iff, bne_eq_false_iff_eq, beq_eq_false_iff_ne, ne_eq] at h
  omega

/-! ## Service by op -/

/-- An item as a request of another part brings it. -/
def State.remoteItem (s : State) (m : Msg) : Item :=
  { bytes := m.units.headD 0, src := .remote (mf m 4 2) (BitVec.ofNat 32 (mf m 12 4)) m.vc, spans := s.itemSpans (m.units.headD 0)
    undef := s.anyClash (s.itemSpans (m.units.headD 0)) }

section
variable {s : State} {p : Nat} {m : Msg} (hepoch : bits (mf m 12 4) 31 30 = s.epoch.toNat) (hok : malformedReq m = false)
include hepoch hok

theorem serveReq_denied (hop : mf m 8 1 = 1)
    (hwin : inWindows s.exports (bits (mf m 16 8) 51 48) (bits (mf m 16 8) 47 0) (64 * mf m 24 1) false = false) :
    s.serveReq p m = some (s.deny p m) := by
  unfold State.serveReq
  simp [hepoch, hok, hop, hwin]

theorem serveReq_read (hop : mf m 8 1 = 1)
    (hwin : inWindows s.exports (bits (mf m 16 8) 51 48) (bits (mf m 16 8) 47 0) (64 * mf m 24 1) false = true) :
    s.serveReq p m = some (s.serveRead p m (bits (mf m 16 8) 51 48) (bits (mf m 16 8) 47 0) (mf m 24 1)) := by
  unfold State.serveReq
  simp [hepoch, hok, hop, hwin]

theorem serveReq_write (hop : mf m 8 1 = 2)
    (hwin : inWindows s.exports (bits (mf m 16 8) 51 48) (bits (mf m 16 8) 47 0) (64 * mf m 24 1) true = true) :
    s.serveReq p m = some (s.serveWrite p m (bits (mf m 16 8) 51 48) (bits (mf m 16 8) 47 0)) := by
  unfold State.serveReq
  simp [hepoch, hok, hop, hwin]

theorem serveReq_item (hop : mf m 8 1 = 3) (hspace : bits (mf m 16 8) 51 48 = 1)
    (hwin : inWindows s.exports 1 (bits (mf m 16 8) 47 0) 64 true = true) :
    s.serveReq p m = (if s.anyClash (s.itemSpans (m.units.headD 0)) then s.markClash (s.itemSpans (m.units.headD 0)) else s).queueItem
      (bits (mf m 16 8) 47 0 / stackSize) (s.remoteItem m) := by
  have hwin' : inWindows s.exports 1 (bits (mf m 16 8) 47 0) (64 * mf m 24 1) true = true := by rw [count_of_item hok hop]; exact hwin
  unfold State.serveReq
  simp [hepoch, hok, hop, hspace, hwin', State.remoteItem]

end

/-- A read of clean words of SRAM is answered with them, or with free ones where they are undefined. -/
theorem serveRead_stored {s : State} {p : Nat} {m : Msg} {off n : Nat}
    (h : ∀ i < 64 * n, (sramDecode (s.sram.read (off + i)) (s.sramChk.read (off + i))).2 = .clean) :
    ∃ t u, s.serveRead p m 0 off n = t.reply p m 0 u ∧ s.Stored t ∧ u.length = n
      ∧ (s.reqLoses p m = false → ∀ i < 64 * n, (u.getD (i / 64) 0).extractLsb' (8 * (i % 64)) 8 = s.sram.read (off + i)) := by
  have hread : s.readUnits 0 off n
      = ((List.range n).map fun i => ofBytes 512 (slice ((List.range (64 * n)).map fun i => s.sram.read (off + i)) (64 * i) 64), none, s) := by
    have htouch : s.touchStacks 0 off (64 * n) = s := if_pos (.inl (by decide))
    unfold State.readUnits
    rw [htouch, readWords_stored h]
  unfold State.serveRead
  rw [hread]
  dsimp only
  split
  · next hloses =>
    refine ⟨_, _, rfl, (stored_reqMeets s p m).trans (stored_freeBytes _ _), by simp, fun hl => ?_⟩
    rw [hl] at hloses
    exact absurd hloses (by decide)
  · refine ⟨_, _, rfl, stored_reqMeets s p m, by simp, fun _ i hi => ?_⟩
    rw [byte_unitsOf _ hi, getD_map_range _ _ _ hi]

/-- A write's words, or free ones where they are undefined, are written before it is answered. -/
theorem serveWrite_words (s : State) (p : Nat) (m : Msg) (space off : Nat) :
    ∃ t d, s.serveWrite p m space off = (t.writeWords space off d).reply p m 0 [] ∧ s.Stored t ∧ d.length = 64 * m.units.length
      ∧ (s.reqLoses p m = false → d = m.units.flatMap fun u => bytesOf 64 u) := by
  have hstored := (stored_touchStacks s space off (64 * m.units.length)).trans (stored_reqMeets _ p m)
  unfold State.serveWrite
  dsimp only
  cases h : s.reqLoses p m
  · exact ⟨_, _, rfl, hstored, length_flatMap_bytesOf _, fun _ => rfl⟩
  · refine ⟨_, _, rfl, hstored.trans (stored_freeBytes _ _), by simp [State.freeBytes], fun hl => absurd hl (by decide)⟩

theorem routes_writeWords (s : State) (space off : Nat) (d : List Byte) : s.Routes (s.writeWords space off d) := by
  have hword (t : State) (o : Nat) (w : List Byte) : ∃ a b c e,
      t.writeWord space o w = { t with sram := a, sramChk := b, dram := c, dramChk := e } := by
    unfold State.writeWord
    split
    · exact ⟨_, _, _, _, rfl⟩
    · exact ⟨_, _, _, _, rfl⟩
  have hkeep {β : Type} (P : State → β) (hP : ∀ (t : State) a b c e, P { t with sram := a, sramChk := b, dram := c, dramChk := e } = P t) :
      P (s.writeWords space off d) = P s :=
    writeWords_keeps P space off d s fun t o w => by obtain ⟨a, b, c, e, h⟩ := hword t o w; rw [h]; exact hP t a b c e
  exact ⟨hkeep State.blobs (by exact fun _ _ _ _ _ => rfl), hkeep State.cfg (by exact fun _ _ _ _ _ => rfl),
    hkeep State.ports (by exact fun _ _ _ _ _ => rfl), fun k _ => hkeep (State.reg · k) (by exact fun _ _ _ _ _ => rfl)⟩

end Sys2Proof.Machine
end

section
/-! What faults, dropped messages and asked repairs change of the registers, and how much they log (R163, R329, R540, R551). -/

namespace Sys2Proof.Machine

/-- The registers that a fault or a dropped message can change. -/
def dropRegs : List Nat := faultRegs ++ [R.routeDrops, R.routeDropLast]

theorem not_mem_faultRegs_of_drop {k : Nat} (hk : k ∉ dropRegs) : k ∉ faultRegs := fun h => hk (List.mem_append_left _ h)

theorem ne_of_mem_dropRegs {k j : Nat} (hk : k ∉ dropRegs) (hj : j ∈ dropRegs) : k ≠ j := fun h => hk (h ▸ hj)

/-- `t` has the registers of `s` but for those of faults and drops, and at most `n` log entries more: an entry with less than
4,096 − `n` after it is still there. -/
structure State.Tells (n : Nat) (s t : State) : Prop where
  reg : ∀ k, k ∉ dropRegs → t.reg k = s.reg k
  log : ∀ a e b, s.log = a ++ e :: b → b.length + n < 4096 → ∃ a' b', t.log = a' ++ e :: b' ∧ b'.length ≤ b.length + n

namespace State.Tells

theorem of_log {s t : State} (hl : t.log = s.log) (hr : ∀ k, k ∉ dropRegs → t.reg k = s.reg k) (n : Nat) : Tells n s t :=
  ⟨hr, fun a e b h _ => ⟨a, b, hl.trans h, by omega⟩⟩

/-- A step that leaves the log and the registers alone. -/
theorem of_keeps {s t : State} (h : (t.log, t.regs, t.cfg) = (s.log, s.regs, s.cfg)) (n : Nat) : Tells n s t := by
  obtain ⟨hl, hrest⟩ := Prod.mk.inj h
  obtain ⟨hr, hc⟩ := Prod.mk.inj hrest
  exact of_log hl (fun k _ => by simp only [State.reg, State.dflt, State.cfgValue, hr, hc]) n

theorem refl (s : State) (n : Nat) : Tells n s s := of_keeps rfl n

theorem trans {s t u : State} {n m k : Nat} (h : Tells n s t) (h' : Tells m t u) (hk : n + m ≤ k) : Tells k s u := by
  refine ⟨fun j hj => (h'.reg j hj).trans (h.reg j hj), fun a e b hb hlt => ?_⟩
  obtain ⟨a1, b1, h1, hb1⟩ := h.log a e b hb (by omega)
  obtain ⟨a2, b2, h2, hb2⟩ := h'.log a1 e b1 h1 (by omega)
  exact ⟨a2, b2, h2, by omega⟩

/-- A step that logs nothing comes before or after. -/
theorem after {s t u : State} {n : Nat} (h : Tells n t u) (h' : Tells 0 s t) : Tells n s u := h'.trans h (by omega)

theorem ite {c : Prop} [Decidable c] {s t u : State} {n : Nat} (ht : Tells n s t) (hu : Tells n s u) : Tells n s (if c then t else u) := by
  split
  · exact ht
  · exact hu

/-- The last entry is still there. -/
theorem logged {s t : State} {n : Nat} (h : Tells n s t) (hn : n < 4096) {l : List LogEntry} {e : LogEntry} (hl : s.log = l ++ [e]) : e ∈ t.log := by
  obtain ⟨a, b, ht, -⟩ := h.log l e [] hl (by simpa using hn)
  rw [ht]
  simp

end State.Tells

open State (Tells)

theorem tells_setReg (s : State) {j : Nat} (hj : j ∈ dropRegs) (v n : Nat) : Tells n s (s.setReg j v) :=
  .of_log (by rfl) (fun k hk => reg_of_aside (aside_setReg (ne_of_mem_dropRegs hk hj) s v)) n

theorem tells_logEntry (s : State) (code kind unit detail : Nat) : Tells 1 s (s.logEntry code kind unit detail) := by
  refine ⟨fun k hk => reg_of_aside (aside_logEntry s _ _ _ _ (not_mem_logRegs (not_mem_faultRegs_of_drop hk))), fun a e b h hlt => ?_⟩
  obtain ⟨x, hx⟩ : ∃ x, (s.logEntry code kind unit detail).log = (if 4096 ≤ s.log.length then s.log.drop 1 else s.log) ++ [x] := by
    unfold State.logEntry
    extract_lets x full s1 s2 s3
    have h1 : s1.log = (if 4096 ≤ s.log.length then s.log.drop 1 else s.log) ++ [x] := rfl
    have h3 : s3.log = s1.log := by
      show (if full then s2.bump R.logOverwritten 32 else s2).log = _
      split <;> rfl
    have hsend : (s3.sendEvent x).log = s3.log := by
      rcases sendEvent_cases s3 x with h | ⟨n, g, h⟩
      · rw [h]
        rfl
      · rw [h]
    exact ⟨x, hsend.trans (h3.trans h1)⟩
  rw [hx, h]
  cases a with
  | nil =>
    rw [if_neg (by simp only [List.nil_append, List.length_cons]; omega)]
    exact ⟨[], b ++ [x], by simp, by simp⟩
  | cons y a =>
    split
    · exact ⟨a, b ++ [x], by simp, by simp⟩
    · exact ⟨y :: a, b ++ [x], by simp, by simp⟩

theorem tells_event (s : State) (code unit detail : Nat) : Tells 1 s (s.event code unit detail) := tells_logEntry s code 0 unit detail

theorem tells_noteCoreFault (s : State) (code : Nat) (at? : Option (Nat × Nat)) : Tells 0 s (s.noteCoreFault code at?) := by
  unfold State.noteCoreFault
  split
  · exact (tells_setReg _ (by decide) _ 0).after (tells_setReg s (by decide) _ 0)
  · exact .refl s 0

theorem tells_showRec (s : State) : Tells 0 s s.showRec := by
  refine .of_log ?_ (fun k hk => reg_of_aside (aside_showRec (not_mem_faultRegs_of_drop hk) s)) 0
  obtain ⟨r, h⟩ := showRec_keeps s
  rw [h]

theorem tells_takeRecord (s : State) (m : QRec) (ep : BitVec 2) : Tells 1 s (s.takeRecord m ep).1 := by
  have hrec {t : State} (h : (t.log, t.regs, t.cfg) = (s.log, s.regs, s.cfg)) : Tells 0 s t.showRec := (tells_showRec t).after (.of_keeps h 0)
  have hshown (t : State) (h : Tells 0 s t) : Tells 1 s t := h.trans (.refl t 1) (by omega)
  have hlog (t : State) (h : Tells 0 s t) : Tells 1 s (t.event 0x7071 0xFF noDetail) := (tells_event t _ _ _).after h
  unfold State.takeRecord
  split
  case h_1 =>
    split
    · split
      · exact .of_keeps (by rfl) 1
      · refine (tells_event _ _ _ _).after (.of_log (by rfl) (fun k hk => ?_) 0)
        have hk := not_mem_faultRegs_of_drop hk
        refine (reg_of_aside (aside_abandonStart hk ((s.setReg R.jobState 0).setReg R.joinStep 0xFFFFFFFFFFFFFFFF))).trans (reg_of_aside ?_)
        rw [aside_setReg (ne_of_mem_faultRegs hk (by decide)), aside_setReg (ne_of_mem_faultRegs hk (by decide))]
    · exact .refl s 1
  case h_2 hjob =>
    dsimp only
    split
    · rw [if_pos hjob]
      exact .ite (hlog _ (hrec (by rfl))) (hshown _ (hrec (by rfl)))
    · split
      · exact .refl s 1
      · split
        · dsimp only
          exact hshown _ (hrec (by rfl))
        · rw [if_neg (by omega : ¬ s.reg R.jobState = 3)]
          exact .ite (hlog _ (hrec (by rfl))) (hshown _ (hrec (by rfl)))
  case h_3 hjob =>
    dsimp only
    split
    · rw [if_neg (by omega : ¬ s.reg R.jobState = 2)]
      exact .refl s 1
    · split
      · exact .refl s 1
      · split
        · dsimp only
          exact hshown _ (hrec (by rfl))
        · dsimp only
          exact hshown _ (hrec (by rfl))
  case h_4 => exact .refl s 1

theorem tells_sendQuench (s : State) (q : QRec) : Tells 1 s (s.sendQuench q) := by
  unfold State.sendQuench
  dsimp only
  refine (tells_takeRecord _ _ _).after ?_
  obtain ⟨po, st, n, seen, h⟩ := flood_cases s [] 2 (({ q with origin := s.chip } : QRec).bytes (s.epochFromQ { q with origin := s.chip }))
  rw [h]
  exact .of_keeps (by rfl) 0

theorem tells_originate (s : State) (cause : Nat) (isEnd held : Bool) : Tells 2 s (s.originate cause isEnd held) := by
  unfold State.originate
  extract_lets own st a limit q s1
  have h1 : Tells 1 s s1 := .ite (tells_logEntry s _ _ _ _) (.refl s 1)
  clear_value s1
  exact h1.trans (tells_sendQuench s1 _) (by omega)

theorem tells_noteDrop (s : State) (q : TxMsg) : Tells 1 s (s.noteDrop q) := by
  unfold State.noteDrop
  extract_lets dest s1
  have hleft (t : State) : Tells 0 t (t.left q) := by
    unfold State.left State.freeHeld
    split
    · split
      · exact .refl t 0
      · exact .of_keeps (by rfl) 0
    · exact .refl t 0
  have h1 : Tells 0 s s1 := (hleft _).after ((tells_setReg _ (by decide) _ 0).after (tells_setReg s (by decide) _ 0))
  clear_value s1
  refine .ite (h1.trans (.refl s1 1) (by omega)) ((tells_event _ _ _ _).after (h1.trans (.of_keeps (by rfl) 0) (by omega)))

theorem tells_offerMsg {s t : State} {q : TxMsg} (h : s.offerMsg q = some t) : Tells 0 s t := by
  unfold State.offerMsg at h
  split at h
  · exact absurd h (by simp)
  · dsimp only at h
    split at h
    · exact absurd h (by simp)
    · split at h <;> obtain rfl := Option.some.inj h <;> exact .of_keeps (by rfl) 0

theorem tells_askTwin (s : State) (off : Nat) : Tells 1 s (s.askTwin off).2 := by
  unfold State.askTwin
  dsimp only
  split
  · exact .refl s 1
  · split
    · exact .ite (.refl s 1) (.of_keeps (by rfl) 1)
    · split
      · exact .of_keeps (by rfl) 1
      · split
        · next h => exact ((tells_offerMsg h).after (.of_keeps (by rfl) 0)).trans (.of_keeps (by rfl) 1) (by omega)
        · exact (tells_noteDrop _ _).after (.of_keeps (by rfl) 0)

/-- A fault that leads to a replay or is of memory. -/
theorem tells_raise (s : State) {code : Nat} (hact : faultAct code = .replay ∨ faultAct code = .mem) (unit detail addr : Nat) :
    Tells 4 s (s.raise code unit detail none addr) := by
  have hlog (kind : Nat) : Tells 1 s ((s.logEntry code kind unit detail).noteCoreFault code none) :=
    (tells_logEntry s _ _ _ _).trans (tells_noteCoreFault _ _ _) (by omega)
  have hcause : Tells 1 s (((s.logEntry code 1 unit detail).setReg R.lastFaultCause code).noteCoreFault code none) :=
    (tells_logEntry s _ _ _ _).trans ((tells_noteCoreFault _ _ _).after (tells_setReg _ (by decide) _ 0)) (by omega)
  have hmore {t : State} (h : Tells 1 s t) : Tells 4 s t := h.trans (.refl t 0) (by omega)
  have hactOn (t : State) : Tells 3 t (t.actOn code detail none addr) := by
    have hrep (l : List Nat) : Tells 0 t { t with repaired := l } := .of_keeps (by rfl) 0
    unfold State.actOn
    rcases hact with hact | hact
    · rw [hact]
      exact (tells_originate t _ _ _).trans (.refl _ 1) (by omega)
    · rw [hact]
      dsimp only
      split
      · exact ((tells_askTwin _ _).after (hrep _)).trans (tells_originate _ _ _ _) (by omega)
      · exact (hrep _).trans (tells_originate _ _ _ _) (by omega)
  have hactOn' (t : State) : Tells 3 t ({ t with firstFault := true }.actOn code detail none addr) := (hactOn _).after (.of_keeps (by rfl) 0)
  have hsecond (t : State) : Tells 3 t (t.secondMem code addr) := by
    unfold State.secondMem
    extract_lets s1
    have h1 : Tells 0 t s1 := .of_keeps (by rfl) 0
    have hask := tells_askTwin s1 (addr % 2 ^ 48)
    split
    · split
      · next hm => rw [hm] at hask; exact h1.trans hask (by omega)
      · next hm => rw [hm] at hask; exact (hask.after h1).trans (tells_originate _ _ _ _) (by omega)
    · exact h1.trans (.refl _ 0) (by omega)
  unfold State.raise
  split
  · split
    · exact hmore (hlog 2)
    · exact hmore (hcause.trans (.of_keeps (by rfl) 0) (by omega))
  · split
    · exact hmore (hlog 0)
    · dsimp only
      split
      · split
        · exact (hlog 2).trans (hactOn _) (by omega)
        · split
          · exact (hlog 2).trans (hsecond _) (by omega)
          · exact hmore (hlog 2)
      · exact (hcause.trans (hactOn' _) (by omega))

/-! ## A refusal -/

theorem tells_holdRecord (s : State) : Tells 1 s s.holdRecord := by
  unfold State.holdRecord
  split
  · exact tells_sendQuench s _
  · exact .refl s 1

theorem tells_nextRepair (s : State) : Tells 2 s s.nextRepair := by
  unfold State.nextRepair
  split
  · exact .refl s 2
  · next w rest _ =>
    have h0 : Tells 0 s { s with repairWait := rest } := .of_keeps (by rfl) 0
    have hask := (tells_askTwin { s with repairWait := rest } w).after h0
    split
    · next hm => rw [hm] at hask; exact hask.trans (.refl _ 0) (by omega)
    · next hm =>
      rw [hm] at hask
      exact hask.trans ((tells_holdRecord _).after (.of_keeps (by rfl) 0)) (by omega)

theorem tells_repairFail (s : State) : Tells 3 s s.repairFail := by
  unfold State.repairFail
  split
  · exact ((tells_holdRecord _).after (.of_keeps (by rfl) 0)).trans (tells_nextRepair _) (by omega)
  · exact .refl s 3

/-- A channel's change. -/
theorem tells_modChan (s : State) (c : Nat) (f : Chan → Chan) (n : Nat) : Tells n s (s.modChan c f) := .of_keeps (by rfl) n

/-- A refusal taken at its source. -/
theorem tells_replyIn {m : Msg} (hst : mf m 9 1 ≠ 0) (s : State) (port : Nat) : Tells 4 s (s.replyIn port m) := by
  unfold State.replyIn
  dsimp only
  split
  · exact .refl s 4
  · next x _ =>
    simp only [hst, false_and, if_false, decide_false, Bool.false_eq_true]
    have h1 : Tells 0 s { s with slots := s.slots.erase x } := .of_keeps (by rfl) 0
    have hmod (t : State) (c : Nat) (f : Chan → Chan) (h : Tells 0 s t) : Tells 4 s (t.modChan c f) := h.trans (tells_modChan t c f 4) (by omega)
    have hmod' (t : State) (c d : Nat) (f g : Chan → Chan) (h : Tells 0 s t) : Tells 4 s ((t.modChan c f).modChan d g) :=
      hmod _ _ _ (h.trans (tells_modChan t c f 0) (by omega))
    generalize ({ s with slots := s.slots.erase x } : State) = t at h1 ⊢
    split
    · split
      · exact h1.trans (.refl t 4) (by omega)
      · refine (tells_raise _ (.inl (by decide)) _ _ _).after (h1.trans (.of_keeps (by rfl) 0) (by omega))
    · split
      · exact hmod _ _ _ h1
      · split
        · exact hmod _ _ _ h1
        · split
          · unfold State.edgeIn
            exact hmod' _ _ _ _ _ h1
          · split
            · split
              · next hm => exact absurd hm hst
              · exact h1.trans (tells_repairFail t) (by omega)
            · exact h1.trans (.of_keeps (by rfl) 4) (by omega)

end Sys2Proof.Machine
end

section
/-! Requests of other parts and their replies (R312 to R315, R408, R539). -/

namespace Sys2Proof.Machine

open State (Tells)

/-! ## A request denied -/

/-- The status of a RSP header (R313). -/
theorem status_rspHdr (vc : Nat) (period : Bool) (us : List (BitVec 512)) (units dest src op status ident : Nat) :
    mf { vc := vc, period := period, hdr := rspHdr units dest src op status ident, units := us } 9 1 = status % 256 := by
  have h := mf_hdrOf vc period (linkBytes units dest src ++ toLE 1 op) (toLE 1 status)
    (zeros 2 ++ (toLE 4 ident ++ (zeros 8 ++ (toLE 1 units ++ zeros 39)))) us (by simp) (by simp [linkBytes, zeros_length])
  simp only [List.length_append, length_toLE, zeros_length, linkBytes, leNat_toLE] at h
  simp only [rspHdr, linkBytes, List.append_assoc] at h ⊢
  exact h

/-- A refusal changes no register but those of faults and drops, wherever it goes. -/
theorem tells_reply_denied (s : State) (p : Nat) (m : Msg) {status : Nat} (h : status % 256 ≠ 0) : Tells 4 s (s.reply p m status []) := by
  unfold State.reply
  extract_lets op dest r
  have hst : mf r 9 1 ≠ 0 := by rwa [status_rspHdr]
  have hnew : Tells 0 s (s.newTx r).2 := .of_keeps (by rfl) 0
  clear_value r
  split
  · exact tells_replyIn hst s p
  · dsimp only
    split
    · next ho => exact ((tells_offerMsg ho).after hnew).trans (.refl _ 4) (by omega)
    · exact ((tells_noteDrop _ _).after hnew).trans (.refl _ 3) (by omega)

/-- A denied request is counted and logged (R314). -/
theorem deny_counted (s : State) (p : Nat) (m : Msg) :
    (s.deny p m).reg R.remoteDenied = (s.reg R.remoteDenied + 1) % 2 ^ 32 ∧ (s.deny p m).reg R.remoteDeniedLast = mf m 4 2
      ∧ (s.deny p m).logged 0x2031 p (fabDetail s.slot s.clauseNumber) := by
  obtain ⟨e, l, r, g, n, he, hcode, -, hunit, hdetail, hreg⟩ := logEntry_cases
    ((s.bump R.remoteDenied 32).setReg R.remoteDeniedLast (mf m 4 2)) 0x2031 0 p (fabDetail s.slot s.clauseNumber)
  have hreg' (k : Nat) (hk : k ∉ logRegs) := reg_event ((s.bump R.remoteDenied 32).setReg R.remoteDeniedLast (mf m 4 2)) 0x2031 p
    (fabDetail s.slot s.clauseNumber) k hk
  have htells : Tells 4 _ (s.deny p m) := tells_reply_denied (((s.bump R.remoteDenied 32).setReg R.remoteDeniedLast (mf m 4 2)).event 0x2031 p
    (fabDetail s.slot s.clauseNumber)) p m (status := 1) (by decide)
  refine ⟨?_, ?_, e, htells.logged (by decide) (l := l) (congrArg State.log he), hcode, hunit, hdetail⟩
  · rw [htells.reg _ (by decide), hreg' _ (by decide), reg_setReg, if_neg (by decide), State.bump, reg_setReg, if_pos rfl]
  · rw [htells.reg _ (by decide), hreg' _ (by decide), reg_setReg, if_pos rfl]

/-- What a denied request leaves before it is answered. -/
theorem deny_reply (s : State) (p : Nat) (m : Msg) : ∃ t, s.deny p m = t.reply p m 1 [] ∧ s.Stored t :=
  ⟨_, rfl, .of_counted ((counted_setReg (by decide) s _).trans ((counted_setReg (by decide) _ _).trans (counted_event _ _ _ _)))⟩

/-! ## The answer to another part -/

section
variable {s t : State} {m : Msg} (hs : s.Routes t) (hfar : mf m 4 2 ≠ s.chip)
include hs hfar

theorem sram_reply (p status : Nat) (u : List (BitVec 512)) : (t.reply p m status u).sram = t.sram :=
  congrArg Body.sram (body_reply (by rw [hs.chip]; exact hfar) p status u)

theorem dram_reply (p status : Nat) (u : List (BitVec 512)) : (t.reply p m status u).dram = t.dram :=
  congrArg Body.dram (body_reply (by rw [hs.chip]; exact hfar) p status u)

theorem memoryOk_reply (h : t.memoryOk = true) (p status : Nat) (u : List (BitVec 512)) : (t.reply p m status u).memoryOk = true := by
  have hb := body_reply (s := t) (by rw [hs.chip]; exact hfar) p status u
  rw [memoryOk_iff] at h ⊢
  have h1 : (t.reply p m status u).sramChk = t.sramChk := congrArg Body.sramChk hb
  have h2 : (t.reply p m status u).dramChk = t.dramChk := congrArg Body.dramChk hb
  rwa [sram_reply hs hfar, dram_reply hs hfar, h1, h2]

end

end Sys2Proof.Machine
end

section
/-! Requests of other parts from their sink to their answers, and the answers at their source (R312 to R315, R391, R408). -/

namespace Sys2Proof.Machine

/-! ## Banks -/

/-- A request whose words have free banks has had them. -/
theorem reqTry_ready {s : State} {m : Msg}
    (h : ∀ w ∈ sramWords (bits (mf m 16 8) 51 48) (bits (mf m 16 8) 47 0) (64 * mf m 24 1), s.bgReady w = true) (p : Nat) :
    ∃ b, s.bgTry (reqKey p m) (s.reqWords m) = ({ s with bgDone := b }, true) := by
  refine bgTry_ready (fun w hw => ?_) _
  unfold State.reqWords at hw
  split at hw
  · exact absurd hw List.not_mem_nil
  · exact h w hw

/-- A request to another space than SRAM needs none. -/
theorem reqTry_other {s : State} {m : Msg} (h : bits (mf m 16 8) 51 48 ≠ 0) (p : Nat) : s.bgTry (reqKey p m) (s.reqWords m) = (s, true) := by
  refine if_pos ?_
  unfold State.reqWords
  rw [sramWords_other h]
  exact ite_self _

/-- A denied request needs none. -/
theorem reqTry_denied {s : State} {m : Msg} (h : s.mayTouch m = false) (p : Nat) : s.bgTry (reqKey p m) (s.reqWords m) = (s, true) := by
  refine if_pos ?_
  unfold State.reqWords
  simp [h]

/-- A request inside its windows that finds a bank taken waits. -/
theorem reqTry_waits {s : State} {p : Nat} {m : Msg}
    (hbusy : ∃ w ∈ sramWords (bits (mf m 16 8) 51 48) (bits (mf m 16 8) 47 0) (64 * mf m 24 1), s.bgReady w = false)
    (hkey : ∀ y ∈ s.bgDone, y.1 ≠ reqKey p m) (hok : malformedReq m = false) (hop : mf m 8 1 = 1 ∨ mf m 8 1 = 2)
    (hwin : inWindows s.exports (bits (mf m 16 8) 51 48) (bits (mf m 16 8) 47 0) (64 * mf m 24 1) (decide (mf m 8 1 = 2)) = true)
    (hfrom : m.vc = 5 ∨ bits (mf m 12 4) 31 30 = s.epoch.toNat) :
    ∃ l b, s.bgTry (reqKey p m) (s.reqWords m) = ({ s with bgDone := (reqKey p m, l) :: b }, false) := by
  obtain ⟨w, hw, hbw⟩ := hbusy
  have hspace := space_of_mem_sramWords hw
  have hwrite : (mf m 8 1 != 1) = decide (mf m 8 1 = 2) := by rcases hop with h | h <;> rw [h] <;> rfl
  rw [hspace, ← hwrite] at hwin
  rw [reqWords_open hok hop (mayTouch_space0 hspace hfrom hwin)]
  obtain ⟨b, hb⟩ := bgTry_waits hw hbw hkey
  exact ⟨_, b, hb⟩

/-! ## The aperture and the custody area -/

section
variable {s : State} {p : Nat} {m : Msg} (hok : malformedReq m = false)
include hok

theorem serveSvc_aperture (hop : mf m 8 1 = 1) (hspace : bits (mf m 16 8) 51 48 = 3) (hend : bits (mf m 16 8) 47 0 + 64 * mf m 24 1 ≤ 0x30000) :
    s.serveSvc p m = s.reply p m 0 ((List.range (mf m 24 1)).map fun i => ofBytes 512 (s.aperture (bits (mf m 16 8) 47 0 + 64 * i))) := by
  unfold State.serveSvc
  simp [hok, hop, hspace, Nat.not_lt.mpr hend]

theorem serveSvc_custody (hop : mf m 8 1 = 2) (hspace : bits (mf m 16 8) 51 48 = 1)
    (hend : bits (mf m 16 8) 47 0 + 64 * mf m 24 1 ≤ 0x400000000) :
    s.serveSvc p m = if s.custodyOpen m then s.serveWrite p m 1 (bits (mf m 16 8) 47 0) else s.reply p m 1 [] := by
  have hlt : bits (mf m 16 8) 47 0 < custodySize := by
    have := count_of_wellformed hok
    unfold custodySize
    omega
  unfold State.serveSvc
  simp only [hok, hop, hspace, hlt]
  cases s.custodyOpen m <;> rfl

end

/-- The area is open to the twin's writes while a copy is being received. -/
theorem custodyOpen_twin {s : State} {m : Msg} (hop : mf m 8 1 = 2) (hend : bits (mf m 16 8) 47 0 + 64 * mf m 24 1 ≤ 0x400000000)
    (htwin : mf m 4 2 = s.twin) (hset : s.twin ≠ 0xFFFF) (hjob : s.reg R.jobState = 0) (hheld : s.reg R.custodyHeld = 1) :
    s.custodyOpen m = true := by
  unfold State.custodyOpen State.inJob
  simp [hop, htwin, hset, hjob, hheld, custodySize, hend]

theorem custodyOpen_other {s : State} {m : Msg} (h : mf m 4 2 ≠ s.twin) : s.custodyOpen m = false := by
  unfold State.custodyOpen
  simp [h]

/-! ## Replies -/

theorem pushWords_keeps (l : List (BitVec 512)) (s : State) (loc : Nat) (undef : Bool) :
    (∀ c, (s.pushWords loc undef l).core c = s.core c) ∧ (s.pushWords loc undef l).slots = s.slots
      ∧ (s.pushWords loc undef l).dram = s.dram := by
  induction l generalizing s loc with
  | nil => exact ⟨fun _ => rfl, rfl, rfl⟩
  | cons w l ih =>
    unfold State.pushWords
    cases undef
    · obtain ⟨h1, h2, h3⟩ := ih (s.bgPush loc (bytesOf 64 w)) (loc + 64)
      exact ⟨fun c => (h1 c).trans (core_bgPush s _ _ c), h2, h3⟩
    · obtain ⟨h1, h2, h3⟩ := ih ((s.freeBytes 64).2.bgPush loc (s.freeBytes 64).1) (loc + 64)
      exact ⟨fun c => (h1 c).trans ((core_bgPush _ _ _ c).trans (core_of_regions rfl c)), h2, h3⟩

/-- A reply without a fault for the one far request that has a slot. -/
theorem replyIn_done {s : State} {m : Msg} {x : ReplySlot} (hslots : s.slots = [x]) (hans : x.answered = false) (hkind : x.kind < 3)
    (hident : x.ident = BitVec.ofNat 32 (mf m 12 4)) (hchip : x.chip = mf m 4 2) (hepoch : bits (mf m 12 4) 31 30 = s.epoch.toNat)
    (hst : mf m 9 1 = 0) (p : Nat) :
    ∃ t : State, s.replyIn p m = t.modFar x.core x.q x.tag (fun r => { r with outstanding := r.outstanding - 1 })
      ∧ (∀ c, t.core c = s.core c) ∧ t.slots = (if x.kind = 0 then [{ x with answered := true }] else []) ∧ t.dram = s.dram := by
  have hslot : s.slotFor m = some x := by
    unfold State.slotFor
    rw [hslots]
    simp [hans, hident, hchip]
  have hid : (BitVec.ofNat 32 (mf m 12 4)).toNat = mf m 12 4 := by
    have : mf m 12 4 < 2 ^ 32 := Nat.mod_lt _ (by decide)
    rw [BitVec.toNat_ofNat, Nat.mod_eq_of_lt this]
  unfold State.replyIn
  rw [hslot]
  dsimp only
  generalize ({ x with answered := true } : ReplySlot) = y
  simp only [hst, hid, hepoch, true_and, ne_eq, not_true_eq_false, if_false, if_true, show x.kind ≤ 2 by omega]
  by_cases hk : x.kind = 0
  · simp only [hk, true_or, decide_true, if_true]
    obtain ⟨h1, h2, h3⟩ := pushWords_keeps (m.units.take x.units) { s with slots := s.slots.replace x y } x.loc
      (match s.farReq x.core x.q x.tag with | some r => r.undef | none => false)
    refine ⟨_, rfl, fun c => (h1 c).trans rfl, h2.trans ?_, h3⟩
    show s.slots.replace x y = _
    rw [hslots]
    simp
  · have hk3 : ¬ x.kind = 3 := by omega
    simp only [hk, hk3, or_self, decide_false, Bool.false_eq_true, if_false]
    refine ⟨_, rfl, fun c => rfl, ?_, rfl⟩
    show s.slots.erase x = _
    rw [hslots]
    simp

/-! ## Requests from sink to answer -/

/-- A request that finds a bank taken waits, and is undefined where another access touches its bytes. -/
theorem reqWaits_waits {s : State} {p : Nat} {m : Msg} (hkey : ∀ y ∈ s.bgDone, y.1 ≠ reqKey p m) (l : List Nat) (b : List (List Nat × List Nat)) :
    (∃ y ∈ (s.reqWaits p m ((reqKey p m, l) :: b)).bgDone, y.1 = reqKey p m)
      ∧ { s.reqWaits p m ((reqKey p m, l) :: b) with
          bgDone := s.bgDone, reqLost := s.reqLost, chans := s.chans, palaz := s.palaz, regions := s.regions } = s
      ∧ (if s.anyClash (hdrSpans m.hdr.toNat) = true then reqKey p m ∈ (s.reqWaits p m ((reqKey p m, l) :: b)).reqLost
         else s.reqWaits p m ((reqKey p m, l) :: b) = { s with bgDone := (s.reqWaits p m ((reqKey p m, l) :: b)).bgDone }) := by
  obtain ⟨hdone, hrest⟩ := reqWaits_keeps s p m ((reqKey p m, l) :: b)
  refine ⟨⟨_, hdone ▸ List.mem_cons_self .., rfl⟩, hrest, ?_⟩
  have := reqWaits_new hkey ((reqKey p m, l) :: b)
  rwa [hdone]

section
variable {s : State} {p : Nat} {m : Msg} (hme : mf m 2 2 = s.chip) (hperiod : m.period = false) (hnew : ∀ x ∈ (s.port p).held, x.2 ≠ m)
  (hclass : classOf m.vc = 1) (hepoch : bits (mf m 12 4) 31 30 = s.epoch.toNat) (hok : malformedReq m = false)
include hme hperiod hnew hclass hepoch hok

/-- A read of clean words of SRAM, once its banks have been free. -/
theorem reqIn_read (hop : mf m 8 1 = 1) (hspace : bits (mf m 16 8) 51 48 = 0)
    (hready : ∀ w ∈ sramWords (bits (mf m 16 8) 51 48) (bits (mf m 16 8) 47 0) (64 * mf m 24 1), s.bgReady w = true)
    (hwin : inWindows s.exports 0 (bits (mf m 16 8) 47 0) (64 * mf m 24 1) false = true)
    (hclean : ∀ i < 64 * mf m 24 1, (sramDecode (s.sram.read (bits (mf m 16 8) 47 0 + i)) (s.sramChk.read (bits (mf m 16 8) 47 0 + i))).2 = .clean) :
    ∃ t u, s.reqIn p m = t.reply p m 0 u ∧ s.Stored t ∧ u.length = mf m 24 1
      ∧ (s.undisturbed p m → ∀ i < 64 * mf m 24 1,
          (u.getD (i / 64) 0).extractLsb' (8 * (i % 64)) 8 = s.sram.read (bits (mf m 16 8) 47 0 + i)) := by
  obtain ⟨b, htry⟩ := reqTry_ready hready p
  have hstored : s.Stored ({ s with bgDone := b } : State).stamped := (stored_bgDone s b).trans (stored_stamped _)
  obtain ⟨t, u, hserve, ht, hlen, hbytes⟩ := serveRead_stored (s := ({ s with bgDone := b } : State).stamped) (p := p) (m := m)
    (off := bits (mf m 16 8) 47 0) (n := mf m 24 1) (by rw [hstored.sram, hstored.sramChk]; exact hclean)
  have hreq := serveReq_read (s := ({ s with bgDone := b } : State).stamped) (p := p) hepoch hok hop
    (by rw [exports_of_stored hstored, hspace]; exact hwin)
  rw [hspace, hserve] at hreq
  refine ⟨t, u, reqIn_served hclass hme hperiod hnew htry hreq, hstored.trans ht, hlen, fun hapart i hi => ?_⟩
  unfold State.undisturbed at hapart
  rw [htry] at hapart
  rw [hbytes ((reqLoses_stamped _ p m).trans hapart) i hi, hstored.sram]

/-- A write inside its windows, once its banks have been free. -/
theorem reqIn_write (hop : mf m 8 1 = 2) (hspace : bits (mf m 16 8) 51 48 = 0)
    (hready : ∀ w ∈ sramWords (bits (mf m 16 8) 51 48) (bits (mf m 16 8) 47 0) (64 * mf m 24 1), s.bgReady w = true)
    (hwin : inWindows s.exports 0 (bits (mf m 16 8) 47 0) (64 * mf m 24 1) true = true) :
    ∃ t d, s.reqIn p m = (t.writeWords 0 (bits (mf m 16 8) 47 0) d).reply p m 0 [] ∧ s.Stored t ∧ d.length = 64 * mf m 24 1
      ∧ (s.undisturbed p m → d = m.units.flatMap fun u => bytesOf 64 u) := by
  obtain ⟨b, htry⟩ := reqTry_ready hready p
  have hstored : s.Stored ({ s with bgDone := b } : State).stamped := (stored_bgDone s b).trans (stored_stamped _)
  obtain ⟨t, d, hserve, ht, hlen, hbytes⟩ := serveWrite_words ({ s with bgDone := b } : State).stamped p m 0 (bits (mf m 16 8) 47 0)
  have hreq := serveReq_write (s := ({ s with bgDone := b } : State).stamped) (p := p) hepoch hok hop
    (by rw [exports_of_stored hstored, hspace]; exact hwin)
  rw [hspace, hserve] at hreq
  rw [units_of_wellformed hok (by omega)] at hlen
  refine ⟨t, d, reqIn_served hclass hme hperiod hnew htry hreq, hstored.trans ht, hlen, fun hapart => hbytes ?_⟩
  unfold State.undisturbed at hapart
  rw [htry] at hapart
  exact (reqLoses_stamped _ p m).trans hapart

/-- A read outside the windows is denied. -/
theorem reqIn_denied (hop : mf m 8 1 = 1) (hvc : m.vc ≠ 5)
    (hwin : inWindows s.exports (bits (mf m 16 8) 51 48) (bits (mf m 16 8) 47 0) (64 * mf m 24 1) false = false) :
    s.reqIn p m = s.stamped.deny p m := by
  have hmay : s.mayTouch m = false := by
    unfold State.mayTouch
    simp [hvc, hop, hwin]
  exact reqIn_served hclass hme hperiod hnew (reqTry_denied hmay p) (serveReq_denied hepoch hok hop hwin)

/-- An item joins its engine's queue, what it touches being marked. -/
theorem reqIn_item (hop : mf m 8 1 = 3) (hspace : bits (mf m 16 8) 51 48 = 1)
    (hwin : inWindows s.exports 1 (bits (mf m 16 8) 47 0) 64 true = true)
    (hroom : (Tab.get [] (s.stack (bits (mf m 16 8) 47 0 / stackSize)).queues (homeEngine (m.units.headD 0))).length < 16) :
    ∃ q, Tab.get [] ((s.reqIn p m).stack (bits (mf m 16 8) 47 0 / stackSize)).queues (homeEngine (m.units.headD 0)) = q ++ [s.remoteItem m]
      ∧ q.map Item.unmarked
        = (Tab.get [] (s.stack (bits (mf m 16 8) 47 0 / stackSize)).queues (homeEngine (m.units.headD 0))).map Item.unmarked
      ∧ (s.anyClash (s.itemSpans (m.units.headD 0)) = false →
          q = Tab.get [] (s.stack (bits (mf m 16 8) 47 0 / stackSize)).queues (homeEngine (m.units.headD 0)))
      ∧ (s.reqIn p m).dram = s.dram ∧ (s.reqIn p m).sram = s.sram := by
  have hreq := serveReq_item (s := s.stamped) (p := p) hepoch hok hop hspace hwin
  have hspans : s.stamped.itemSpans (m.units.headD 0) = s.itemSpans (m.units.headD 0) := rfl
  have hany : s.stamped.anyClash (s.itemSpans (m.units.headD 0)) = s.anyClash (s.itemSpans (m.units.headD 0)) := rfl
  have hitem : s.stamped.remoteItem m = s.remoteItem m := rfl
  have hbytes : homeEngine (s.remoteItem m).bytes = homeEngine (m.units.headD 0) := rfl
  rw [hspans, hany, hitem] at hreq
  generalize bits (mf m 16 8) 47 0 / stackSize = k at *
  generalize hmarked : (if s.anyClash (s.itemSpans (m.units.headD 0)) = true then s.stamped.markClash (s.itemSpans (m.units.headD 0))
    else s.stamped) = u at hreq
  obtain ⟨hsame, hclean, hdram, hsram⟩ : (Tab.get [] (u.stack k).queues (homeEngine (m.units.headD 0))).map Item.unmarked
      = (Tab.get [] (s.stack k).queues (homeEngine (m.units.headD 0))).map Item.unmarked
      ∧ (s.anyClash (s.itemSpans (m.units.headD 0)) = false → u.stack k = s.stack k) ∧ u.dram = s.dram ∧ u.sram = s.sram := by
    subst hmarked
    split
    · next h =>
      refine ⟨?_, fun hn => absurd (hn ▸ h) (by decide), rfl, rfl⟩
      rw [stack_markClash, unmarked_queue_mark]
      rfl
    · exact ⟨rfl, fun _ => rfl, rfl, rfl⟩
  have hlen : (Tab.get [] (u.stack k).queues (homeEngine (m.units.headD 0))).length < 16 := by
    have := congrArg List.length hsame
    rw [List.length_map, List.length_map] at this
    omega
  rw [queueItem_some (by rw [hbytes]; exact hlen), hbytes] at hreq
  rw [reqIn_served hclass hme hperiod hnew (reqTry_other (by omega) p) hreq]
  refine ⟨_, ?_, hsame, fun h => by rw [hclean h], hdram, hsram⟩
  rw [stack_modStack, if_pos rfl, tab_get_set, if_pos rfl]

end

section
variable {s : State} {p : Nat} {m : Msg} (hme : mf m 2 2 = s.chip) (hperiod : m.period = false) (hnew : ∀ x ∈ (s.port p).held, x.2 ≠ m)
  (hvc : m.vc = 5) (hok : malformedReq m = false)
include hme hperiod hnew hvc hok

/-- The status aperture is read. -/
theorem svcIn_aperture (hop : mf m 8 1 = 1) (hspace : bits (mf m 16 8) 51 48 = 3) (hend : bits (mf m 16 8) 47 0 + 64 * mf m 24 1 ≤ 0x30000) :
    s.svcIn p m = s.stamped.reply p m 0
      ((List.range (mf m 24 1)).map fun i => ofBytes 512 (s.aperture (bits (mf m 16 8) 47 0 + 64 * i))) :=
  (svcIn_served hvc hme hperiod hnew (reqTry_other (by omega) p)).trans (serveSvc_aperture hok hop hspace hend)

/-- A write to the custody area that is open. -/
theorem svcIn_custody (hop : mf m 8 1 = 2) (hspace : bits (mf m 16 8) 51 48 = 1)
    (hend : bits (mf m 16 8) 47 0 + 64 * mf m 24 1 ≤ 0x400000000) (hopen : s.custodyOpen m = true) :
    ∃ t d, s.svcIn p m = (t.writeWords 1 (bits (mf m 16 8) 47 0) d).reply p m 0 [] ∧ s.Stored t ∧ d.length = 64 * mf m 24 1
      ∧ (s.undisturbed p m → d = m.units.flatMap fun u => bytesOf 64 u) := by
  have htry := reqTry_other (s := s) (m := m) (by omega) p
  obtain ⟨t, d, hserve, ht, hlen, hbytes⟩ := serveWrite_words s.stamped p m 1 (bits (mf m 16 8) 47 0)
  have hsvc := (svcIn_served hvc hme hperiod hnew htry).trans (serveSvc_custody hok hop hspace hend)
  have hopen' : s.stamped.custodyOpen m = true := hopen
  rw [if_pos hopen', hserve] at hsvc
  rw [units_of_wellformed hok (by omega)] at hlen
  refine ⟨t, d, hsvc, (stored_stamped s).trans ht, hlen, fun hapart => hbytes ?_⟩
  unfold State.undisturbed at hapart
  rw [htry] at hapart
  exact hapart

/-- One to the area that is closed is refused. -/
theorem svcIn_closed (hop : mf m 8 1 = 2) (hspace : bits (mf m 16 8) 51 48 = 1)
    (hend : bits (mf m 16 8) 47 0 + 64 * mf m 24 1 ≤ 0x400000000) (hclosed : s.custodyOpen m = false) :
    s.svcIn p m = s.stamped.reply p m 1 [] := by
  have hsvc := (svcIn_served hvc hme hperiod hnew (reqTry_other (by omega) p)).trans (serveSvc_custody hok hop hspace hend)
  have hclosed' : s.stamped.custodyOpen m = false := hclosed
  rwa [hclosed', if_neg (by decide)] at hsvc

end

/-! ## The obligation -/

/-- The bytes of a write's words. -/
theorem read_written {f : Nat → Byte} {d : List Byte} {off n a : Nat} {l : List (BitVec 512)} {old : Byte} (hlen : d.length = 64 * n)
    (hunits : l.length = n) (hread : f a = if off ≤ a ∧ a < off + d.length then d.getD (a - off) 0 else old) :
    ((a < off ∨ off + 64 * n ≤ a) → f a = old)
      ∧ (d = l.flatMap (fun u => bytesOf 64 u) → off ≤ a → a < off + 64 * n →
          f a = (l.getD ((a - off) / 64) 0).extractLsb' (8 * ((a - off) % 64)) 8) := by
  rw [hlen] at hread
  refine ⟨fun h => hread.trans (if_neg (by omega)), fun hd h1 h2 => ?_⟩
  rw [hread, if_pos ⟨h1, h2⟩, hd, getD_flatMap_bytesOf _ (by omega)]

theorem exec_reqRead {port : PortId} {m : Msg} (s : State) (hop : mf m 8 1 = 1) : exec (.reqRead port m) s = .next (s.reqIn port.val m) :=
  if_neg (by omega : ¬ (mf m 8 1 = 2 ∨ mf m 8 1 = 3))

theorem exec_reqWrite {port : PortId} {m : Msg} (s : State) (hop : mf m 8 1 = 2) : exec (.reqWrite port m) s = .next (s.reqIn port.val m) :=
  if_pos hop

theorem exec_reqEngineItem {port : PortId} {m : Msg} (s : State) (hop : mf m 8 1 = 3) :
    exec (.reqEngineItem port m) s = .next (s.reqIn port.val m) := if_pos hop

theorem exec_svcRead {port : PortId} {m : Msg} (s : State) (hop : mf m 8 1 = 1) : exec (.svcRead port m) s = .next (s.svcIn port.val m) :=
  if_neg (by omega : ¬ mf m 8 1 = 2)

theorem exec_svcWrite {port : PortId} {m : Msg} (s : State) (hop : mf m 8 1 = 2) : exec (.svcWrite port m) s = .next (s.svcIn port.val m) :=
  if_pos hop

theorem exec_rsp (k : Fin 3) (port : PortId) (m : Msg) (s : State) :
    exec (match k with | 0 => .rspReadData port m | 1 => .rspWriteDone port m | 2 => .rspEngineDone port m) s
      = .next (s.rspIn port.val m (0x81 + k.val)) := by
  fin_cases k <;> rfl

theorem classOf_req {vc : Nat} (h : vc = 1 ∨ vc = 2) : classOf vc = 1 := by
  rcases h with rfl | rfl <;> rfl

theorem classOf_rsp {vc : Nat} (h : vc = 3 ∨ vc = 4) : classOf vc = 3 := by
  rcases h with rfl | rfl <;> rfl

/-- Settles O53: each request and reply by what its sink does with it, and where the answer goes. -/
theorem remoteRequests : Obligations.RemoteRequests := by
  unfold Obligations.RemoteRequests
  intro port m s hme hperiod hnew hmem
  dsimp only
  have hreply {t : State} (ht : s.Stored t) (status : Nat) (u : List (BitVec 512)) (hop : mf m 8 1 = 1 ∨ mf m 8 1 = 2 ∨ mf m 8 1 = 3) :
      mf m 4 2 ≠ s.chip → s.reaches 3 (mf m 4 2) → s.replied (t.reply port.val m status u) m status u :=
    fun hfar hr => replied_reply hr ht.routes hfar hop _ _ _
  refine ⟨fun hbusy hkey hwin hok => ?_, fun ⟨⟨hvc, hepoch, hok⟩, hready⟩ hop hspace hwin hclean => ?_,
    fun ⟨hvc, hepoch, hok⟩ hop hwin => ?_, fun ⟨⟨hvc, hepoch, hok⟩, hready⟩ hop hspace hwin hfar => ?_,
    fun ⟨⟨hvc, hepoch, hok⟩, _⟩ hop hspace hwin hroom => ?_, fun hvc hok hop hspace hend => ?_,
    fun hvc hok hop hspace hend hfar => ⟨fun ⟨htwin, hset, hjob, hheld⟩ => ?_, fun hother => ?_⟩,
    fun x k hvc hslots hans hkind hop hident hchip hepoch hst g hg => ?_⟩
  · refine ⟨fun ⟨hvc, hepoch, _⟩ hop => ?_, fun ⟨hvc, hepoch, _⟩ hop => ?_, fun hvc hop => ?_, fun hvc hop => ?_⟩
    · obtain ⟨l, b, htry⟩ := reqTry_waits hbusy hkey hok (.inl hop) hwin (.inr hepoch)
      exact ⟨_, by rw [exec_reqRead s hop, reqIn_waits (classOf_req hvc) hme hperiod hnew htry], reqWaits_waits hkey l b⟩
    · obtain ⟨l, b, htry⟩ := reqTry_waits hbusy hkey hok (.inr hop) hwin (.inr hepoch)
      exact ⟨_, by rw [exec_reqWrite s hop, reqIn_waits (classOf_req hvc) hme hperiod hnew htry], reqWaits_waits hkey l b⟩
    · obtain ⟨l, b, htry⟩ := reqTry_waits hbusy hkey hok (.inl hop) hwin (.inl hvc)
      exact ⟨_, by rw [exec_svcRead s hop, svcIn_waits hvc hme hperiod hnew htry], reqWaits_waits hkey l b⟩
    · obtain ⟨l, b, htry⟩ := reqTry_waits hbusy hkey hok (.inr hop) hwin (.inl hvc)
      exact ⟨_, by rw [exec_svcWrite s hop, svcIn_waits hvc hme hperiod hnew htry], reqWaits_waits hkey l b⟩
  · obtain ⟨t, u, hreq, ht, hlen, hbytes⟩ := reqIn_read hme hperiod hnew (classOf_req hvc) hepoch hok hop hspace hready hwin hclean
    refine ⟨_, u, exec_reqRead s hop, fun hfar => ?_, hlen, hbytes, ?_⟩
    · rw [hreq, sram_reply ht.routes hfar, dram_reply ht.routes hfar]
      exact ⟨ht.sram, ht.dram⟩
    · rw [hreq]
      exact hreply ht 0 u (.inl hop)
  · have hreq := reqIn_denied hme hperiod hnew (classOf_req hvc) hepoch hok hop (by omega) hwin
    obtain ⟨t, hdeny, ht⟩ := deny_reply s.stamped port.val m
    have ht := (stored_stamped s).trans ht
    obtain ⟨hcount, hlast, hlog⟩ := deny_counted s.stamped port.val m
    refine ⟨_, exec_reqRead s hop, by rw [hreq]; exact hcount, by rw [hreq]; exact hlast, by rw [hreq]; exact hlog, fun hfar => ?_, ?_⟩
    · rw [hreq, hdeny, sram_reply ht.routes hfar, dram_reply ht.routes hfar]
      exact ⟨ht.sram, ht.dram⟩
    · rw [hreq, hdeny]
      exact hreply ht 1 [] (.inl hop)
  · obtain ⟨t, d, hreq, ht, hlen, hbytes⟩ := reqIn_write hme hperiod hnew (classOf_req hvc) hepoch hok hop hspace hready hwin
    have hset := sramSet_writeWords (ht.ok hmem) (bits (mf m 16 8) 47 0) d hlen
    have hroutes := ht.routes.trans (routes_writeWords t 0 (bits (mf m 16 8) 47 0) d)
    have hread (a : Nat) := read_written (f := (t.writeWords 0 (bits (mf m 16 8) 47 0) d).sram.read) (a := a) hlen
      (units_of_wellformed hok (by omega)) (hset.read a).1
    refine ⟨_, exec_reqWrite s hop, ?_⟩
    rw [hreq, sram_reply hroutes hfar, dram_reply hroutes hfar]
    refine ⟨fun a ha => ?_, fun hapart a h1 h2 => (hread a).2 (hbytes hapart) h1 h2, ?_, memoryOk_reply hroutes hfar hset.ok _ _ _,
      fun _ hr => replied_reply hr hroutes hfar (.inr (.inl hop)) _ _ _⟩
    · rw [(hread a).1 ha, ht.sram]
    · rw [hset.only]
      exact ht.dram
  · obtain ⟨q, hq, hsame, hclean, hdram, hsram⟩ := reqIn_item hme hperiod hnew (classOf_req hvc) hepoch hok hop hspace hwin hroom
    refine ⟨_, exec_reqEngineItem s hop, ?_, fun h => ?_, ?_, hdram, hsram⟩
    · rw [hq, List.map_append, hsame]
      rfl
    · rw [hq, hclean h]
      rfl
    · rw [hq, List.getLast?_concat]
      rfl
  · have hsvc := svcIn_aperture hme hperiod hnew hvc hok hop hspace hend
    have ht := stored_stamped s
    refine ⟨_, exec_svcRead s hop, fun hfar => ?_, ?_⟩
    · rw [hsvc, sram_reply ht.routes hfar, dram_reply ht.routes hfar]
      exact ⟨ht.sram, ht.dram⟩
    · rw [hsvc]
      exact hreply ht 0 _ (.inl hop)
  · obtain ⟨t, d, hsvc, ht, hlen, hbytes⟩ := svcIn_custody hme hperiod hnew hvc hok hop hspace hend
      (custodyOpen_twin hop hend htwin hset hjob hheld)
    have hroutes := ht.routes.trans (routes_writeWords t 1 (bits (mf m 16 8) 47 0) d)
    have hread (a : Nat) := read_written (f := (t.writeWords 1 (bits (mf m 16 8) 47 0) d).dram.read) (a := a) hlen
      (units_of_wellformed hok (by omega)) (dram_writeWords (ht.ok hmem) _ d hlen a)
    have hsram : (t.writeWords 1 (bits (mf m 16 8) 47 0) d).sram = s.sram :=
      (writeWords_keeps State.sram 1 _ d t (by exact fun _ _ _ => rfl)).trans ht.sram
    refine ⟨_, exec_svcWrite s hop, ?_⟩
    rw [hsvc, sram_reply hroutes hfar, dram_reply hroutes hfar]
    refine ⟨hsram, memoryOk_reply hroutes hfar (memoryOk_writeWords (ht.ok hmem) _ _ _) _ _ _,
      fun _ hr => replied_reply hr hroutes hfar (.inr (.inl hop)) _ _ _, fun a ha => ?_, fun hapart a h1 h2 => (hread a).2 (hbytes hapart) h1 h2⟩
    rw [(hread a).1 ha, ht.dram]
  · have hsvc := svcIn_closed hme hperiod hnew hvc hok hop hspace hend (custodyOpen_other hother)
    have ht := stored_stamped s
    refine ⟨_, exec_svcWrite s hop, ?_⟩
    rw [hsvc, sram_reply ht.routes hfar, dram_reply ht.routes hfar]
    exact ⟨ht.dram, ht.sram, hreply ht 1 [] (.inr (.inl hop))⟩
  · have hrsp := rspIn_taken (classOf_rsp hvc) hme hop hperiod hnew
    obtain ⟨t, hin, hcore, hslot, hdram⟩ := replyIn_done (s := s.stamped) hslots hans (by omega) hident hchip hepoch hst port.val
    have hfar : t.farReq x.core x.q x.tag = some g := (farReq_of_core (hcore _) _ _).trans hg
    refine ⟨_, exec_rsp k port m s, ?_⟩
    rw [hrsp, hin]
    refine ⟨hslot.trans ?_, _, farReq_modFar_some hfar (by exact fun _ => rfl), rfl, rfl, rfl, hdram⟩
    rw [hkind]
    fin_cases k <;> rfl

end Sys2Proof.Machine
end

section
/-! The commands of the DMA channels and the timers (R412, R414, R416, R417, R419). -/

namespace Sys2Proof.Machine

theorem chan_modChan (s : State) (c : Nat) (f : Chan → Chan) (q : Nat) : (s.modChan c f).chan q = if q = c then f (s.chan q) else s.chan q := by
  rw [modChan_eq, chan_setChan]
  split
  · next h => rw [h]
  · rfl

theorem reg_modChan (s : State) (c : Nat) (f : Chan → Chan) (k : Nat) : (s.modChan c f).reg k = s.reg k := rfl

theorem reg_chanIdle (s : State) (c status k : Nat) :
    (s.chanIdle c status).reg k = if k = R.dmaStatus c then status else if k = R.dmaState c then 0 else s.reg k := by
  show ((s.setReg (R.dmaState c) 0).setReg (R.dmaStatus c) status).reg k = _
  rw [reg_setReg, reg_setReg]

/-- Entries of one channel are different registers. -/
theorem dmaKey_ne {a b : Nat} (h : a ≠ b) (c : Nat) : regKey 0x6001 a c ≠ regKey 0x6001 b c := by
  simp only [regKey]
  omega

theorem reg_chanIdle_state (s : State) (c status : Nat) : (s.chanIdle c status).reg (R.dmaState c) = 0 := by
  have hne : R.dmaState c ≠ R.dmaStatus c := dmaKey_ne (by decide) c
  rw [reg_chanIdle, if_neg hne, if_pos rfl]

theorem reg_chanIdle_status (s : State) (c status : Nat) : (s.chanIdle c status).reg (R.dmaStatus c) = status := by
  rw [reg_chanIdle, if_pos rfl]

theorem reg_chanRun (s : State) (c k : Nat) : (s.chanRun c).reg k = if k = R.dmaState c then 2 else s.reg k := by
  show (s.setReg (R.dmaState c) 2).reg k = _
  rw [reg_setReg]

theorem chan_chanRun (s : State) (c : Nat) : (s.chanRun c).chan c = { s.chan c with busy := false, credit := true } := by
  rw [State.chanRun, chan_modChan, if_pos rfl]
  rfl

/-- A write of start is accepted (R412, R414). -/
theorem dmaStart_idle {s : State} {c : Nat} (hc : c = s.reg R.channelSelect) (hidle : s.reg (R.dmaState c) = 0)
    (hcount : s.reg (R.dmaDescCount c) ≠ 0) (data : List Byte) :
    ∃ t : State, writeDmaStart data s = t.wOk ∧ (t.chan c).addr = s.reg (R.dmaHead c) ∧ (t.chan c).busy = false ∧ t.reg (R.descDone c) = 0
      ∧ t.reg (R.dmaState c) = (if s.reg (R.dmaTrigger c) = 0 then 2 else 1) ∧ (t.chan c).credit = decide (s.reg (R.dmaTrigger c) = 0) := by
  unfold writeDmaStart
  rw [← hc, if_neg (by simpa using hidle)]
  extract_lets s1 s2
  have hchan : s1.chan c = { addr := s.reg (R.dmaHead c) } := by simp [s1]
  have hreg (k : Nat) : s1.reg k = if k = R.descDone c then 0 else s.reg k := by
    show (s.setReg (R.descDone c) 0).reg k = _
    rw [reg_setReg]
  clear_value s1
  have hds : R.descDone c ≠ R.dmaState c := dmaKey_ne (by decide) c
  by_cases ht : s.reg (R.dmaTrigger c) = 0
  · have hempty : s2.emptyChain c = false := by
      show (s1.chanRun c).emptyChain c = false
      have hne : R.dmaDescCount c ≠ R.dmaState c := dmaKey_ne (by decide) c
      have hne' : R.dmaDescCount c ≠ R.descDone c := dmaKey_ne (by decide) c
      unfold State.emptyChain
      rw [reg_chanRun s1 c (R.dmaDescCount c), if_neg hne, hreg, if_neg hne']
      simp [hcount]
    refine ⟨s1.chanRun c, ?_, ?_, ?_, ?_, ?_, ?_⟩
    · rw [if_neg (not_not.mpr ht), hempty]
      rfl
    · rw [chan_chanRun, hchan]
    · rw [chan_chanRun]
    · rw [reg_chanRun, if_neg hds, hreg, if_pos rfl]
    · rw [reg_chanRun, if_pos rfl, if_pos ht]
    · rw [chan_chanRun]
      simp [ht]
  · refine ⟨s1.setReg (R.dmaState c) 1, ?_, ?_, ?_, ?_, ?_, ?_⟩
    · simp only [ht, ne_eq, not_false_eq_true, if_true]
    · rw [chan_setReg, hchan]
    · rw [chan_setReg, hchan]
    · rw [reg_setReg, if_neg hds, hreg, if_pos rfl]
    · rw [reg_setReg, if_pos rfl, if_neg ht]
    · rw [chan_setReg, hchan]
      simp [ht]

/-- A write of stop takes an armed channel back (R417). -/
theorem dmaStop_armed {s : State} {c : Nat} (hc : c = s.reg R.channelSelect) (harmed : s.reg (R.dmaState c) = 1) (data : List Byte) :
    writeDmaStop data s = (s.chanIdle c 3).wOk := by
  unfold writeDmaStop
  rw [← hc]
  dsimp only
  rw [harmed]
  rfl

/-- One to a channel that runs a descriptor is noted, and the events of its slot do not count (R417, R419). -/
theorem dmaStop_running {s : State} {c : Nat} (hc : c = s.reg R.channelSelect) (hrun : s.reg (R.dmaState c) = 2)
    (hbusy : (s.chan c).busy = true) (data : List Byte) :
    ∃ t : State, writeDmaStop data s = t.wOk ∧ t.reg (R.dmaState c) = 2
      ∧ (∃ a n, t.chan c = { s.chan c with stopReq := true, stopAt := some s.now, evAt := a, evCount := n })
      ∧ t.reg (R.eventsIgnored c) = s.reg (R.eventsIgnored c) - if (s.chan c).evAt = some s.now then (s.chan c).evCount else 0 := by
  have hne : R.dmaState c ≠ R.eventsIgnored c := dmaKey_ne (by decide) c
  have hwrite : writeDmaStop data s = ((s.unignore c).modChan c fun x => { x with stopReq := true, stopAt := some s.now }).wOk := by
    unfold writeDmaStop
    rw [← hc]
    dsimp only
    rw [hrun, hbusy]
    rfl
  refine ⟨_, hwrite, ?_, ?_, ?_⟩
  · rw [reg_modChan]
    unfold State.unignore
    dsimp only
    split
    · rw [reg_modChan, reg_setReg, if_neg hne, hrun]
    · exact hrun
  · unfold State.unignore
    dsimp only
    split
    · rw [chan_modChan, if_pos rfl, chan_modChan, if_pos rfl, chan_setReg]
      exact ⟨none, 0, rfl⟩
    · rw [chan_modChan, if_pos rfl]
      exact ⟨(s.chan c).evAt, (s.chan c).evCount, rfl⟩
  · rw [reg_modChan]
    unfold State.unignore
    dsimp only
    split
    · rw [reg_modChan, reg_setReg, if_pos rfl]
    · rw [Nat.sub_zero]

/-- A write of a timer's enable (R416). -/
theorem timerEnable_on {s : State} {i : Nat} (hi : i = s.reg R.timerSelect) {data : List Byte} (hdata : leNat data = 1) :
    ∃ t : State, writeTimerEnable data s = t.wOk ∧ t.reg (R.timerEnable i) = 1 ∧ t.reg (R.timerFires i) = 0
      ∧ Tab.get none t.timerNext i = some (s.reg (R.timerStartFrame i) * 4096 + s.reg (R.timerStartSlot i)) := by
  have hne : R.timerEnable i ≠ R.timerFires i := by
    simp only [R.timerEnable, R.timerFires, regKey]
    omega
  unfold writeTimerEnable
  rw [← hi]
  dsimp only
  rw [if_neg (by omega)]
  refine ⟨_, rfl, ?_, ?_, ?_⟩
  · show ((s.setReg (R.timerEnable i) 1).setReg (R.timerFires i) 0).reg _ = _
    rw [reg_setReg, if_neg hne, reg_setReg, if_pos rfl]
  · show ((s.setReg (R.timerEnable i) 1).setReg (R.timerFires i) 0).reg _ = _
    rw [reg_setReg, if_pos rfl]
  · rw [tab_get_set, if_pos rfl]

end Sys2Proof.Machine
end

section
/-! Trigger events of the DMA channels: what an event does to the channel it reaches and to every other (R413 to R416, R419). -/

namespace Sys2Proof.Machine

/-! ## One event -/

/-- The registers of channel `c` that its own events and ends can change. -/
def eventRegs (c : Nat) : List Nat := [R.dmaState c, R.dmaStatus c, R.eventsIgnored c]

/-- `t` is `s` but for what channel `c`'s events and ends change. -/
structure State.Moved (c : Nat) (s t : State) : Prop where
  chan : ∀ q, q ≠ c → t.chan q = s.chan q
  reg : ∀ k, k ∉ eventRegs c → k ∉ logRegs → t.reg k = s.reg k
  sram : t.sram = s.sram
  dram : t.dram = s.dram
  timerNext : t.timerNext = s.timerNext

namespace State.Moved

theorem refl (c : Nat) (s : State) : Moved c s s := ⟨fun _ _ => rfl, fun _ _ _ => rfl, rfl, rfl, rfl⟩

theorem trans {c : Nat} {s t u : State} (h : Moved c s t) (h' : Moved c t u) : Moved c s u :=
  ⟨fun q hq => (h'.chan q hq).trans (h.chan q hq), fun k hk hl => (h'.reg k hk hl).trans (h.reg k hk hl), h'.sram.trans h.sram,
    h'.dram.trans h.dram, h'.timerNext.trans h.timerNext⟩

end State.Moved

open State (Moved)

theorem moved_modChan (s : State) (c : Nat) (f : Chan → Chan) : Moved c s (s.modChan c f) :=
  ⟨fun q hq => by rw [chan_modChan, if_neg hq], fun _ _ _ => rfl, rfl, rfl, rfl⟩

theorem moved_setReg (s : State) {c k : Nat} (hk : k ∈ eventRegs c) (v : Nat) : Moved c s (s.setReg k v) :=
  ⟨fun _ _ => rfl, fun j hj _ => by rw [reg_setReg, if_neg (ne_of_mem_of_not_mem hk hj).symm], rfl, rfl, rfl⟩

theorem moved_event (s : State) (c code unit detail : Nat) : Moved c s (s.event code unit detail) := by
  have hreg (k : Nat) (hl : k ∉ logRegs) := reg_event s code unit detail k hl
  obtain ⟨e, l, r, g, n, h, -⟩ := logEntry_cases s code 0 unit detail
  have h : s.event code unit detail = _ := h
  rw [h] at hreg ⊢
  exact ⟨fun _ _ => rfl, fun k _ hl => hreg k hl, rfl, rfl, rfl⟩

theorem moved_ignoreEvent (s : State) (c : Nat) : Moved c s (s.ignoreEvent c) := by
  unfold State.ignoreEvent
  exact (moved_setReg s (k := R.eventsIgnored c) (by simp [eventRegs]) _).trans (moved_modChan _ c _)

theorem moved_dropEvent (s : State) (c : Nat) : Moved c s (s.dropEvent c) := by
  unfold State.dropEvent
  extract_lets s1
  have h1 : Moved c s s1 := moved_ignoreEvent s c
  clear_value s1
  split
  · exact h1
  · exact h1.trans ((⟨fun _ _ => rfl, fun _ _ _ => rfl, rfl, rfl, rfl⟩ : Moved c s1 { s1 with dmaOverflowFrame := some s.frame }).trans
      (moved_event _ c _ _ _))

theorem moved_chanRun (s : State) (c : Nat) : Moved c s (s.chanRun c) :=
  (moved_setReg s (k := R.dmaState c) (by simp [eventRegs]) _).trans (moved_modChan _ c _)

theorem moved_chanIdle (s : State) (c status : Nat) : Moved c s (s.chanIdle c status) :=
  (moved_setReg s (k := R.dmaState c) (by simp [eventRegs]) _).trans
    ((moved_setReg _ (k := R.dmaStatus c) (by simp [eventRegs]) _).trans (moved_modChan _ c fun _ => {}))

theorem moved_eventTo (s : State) (c : Nat) : Moved c s (s.eventTo c) := by
  unfold State.eventTo
  dsimp only
  split
  · exact moved_chanRun s c
  · split
    · exact .refl c s
    · split
      · exact moved_ignoreEvent s c
      · split
        · exact moved_dropEvent s c
        · exact moved_modChan s c _
  · exact .refl c s

/-- An event that reaches an idle channel does nothing. -/
theorem eventTo_idle {s : State} {c : Nat} (h : s.reg (R.dmaState c) = 0) : s.eventTo c = s := by
  unfold State.eventTo
  dsimp only
  rw [h]
  rfl

theorem eventTo_armed {s : State} {c : Nat} (h : s.reg (R.dmaState c) = 1) : s.eventTo c = s.chanRun c := by
  unfold State.eventTo
  dsimp only
  rw [h]
  rfl

/-- No entry of a channel is one of the log's. -/
theorem dmaKey_not_logged {sub c : Nat} (hsub : sub < 256) (hc : c < 64) : regKey 0x6001 sub c ∉ logRegs := by
  simp only [logRegs, R.logCount, R.logNextSeq, R.logOverwritten, R.eventsUnsent, regKey, List.mem_cons, List.not_mem_nil, or_false, not_or]
  omega

theorem reg_ignoreEvent (s : State) (c k : Nat) (hk : k ≠ R.eventsIgnored c) : (s.ignoreEvent c).reg k = s.reg k := by
  show (s.bump (R.eventsIgnored c) 32).reg k = _
  rw [State.bump, reg_setReg, if_neg hk]

theorem chan_ignoreEvent (s : State) (c : Nat) : ∃ a n, (s.ignoreEvent c).chan c = { s.chan c with evAt := a, evCount := n } := by
  unfold State.ignoreEvent
  dsimp only
  rw [chan_modChan, if_pos rfl, State.bump, chan_setReg]
  exact ⟨_, _, rfl⟩

/-- An event that reaches a running channel is counted there. -/
theorem eventTo_running {s : State} {c : Nat} (hc : c < 64) (h : s.reg (R.dmaState c) = 2) :
    (s.eventTo c).reg (R.dmaState c) = 2
      ∧ ∃ a n p, (s.eventTo c).chan c = { s.chan c with evAt := a, evCount := n, pending := p } := by
  have hreg := (reg_ignoreEvent s c (R.dmaState c) (dmaKey_ne (by decide) c)).trans h
  obtain ⟨a, n, hchan⟩ := chan_ignoreEvent s c
  unfold State.eventTo
  dsimp only
  rw [h]
  simp only
  split
  · exact ⟨h, (s.chan c).evAt, (s.chan c).evCount, (s.chan c).pending, rfl⟩
  · split
    · exact ⟨hreg, a, n, (s.chan c).pending, hchan⟩
    · split
      · unfold State.dropEvent
        generalize s.ignoreEvent c = t at hreg hchan ⊢
        dsimp only
        split
        · exact ⟨hreg, a, n, (s.chan c).pending, hchan⟩
        · refine ⟨(reg_event _ _ _ _ _ (dmaKey_not_logged (by decide) hc)).trans hreg, a, n, (s.chan c).pending, ?_⟩
          obtain ⟨e, l, r, g, m, hl, -⟩ := logEntry_cases { t with dmaOverflowFrame := some s.frame } 0x6003 0 c
            (dmaDetail 0 (s.reg (R.currentDesc c)))
          rw [State.event, hl]
          exact hchan
      · refine ⟨h, (s.chan c).evAt, (s.chan c).evCount, (s.chan c).pending + 1, ?_⟩
        rw [chan_modChan, if_pos rfl]

/-! ## Events delivered -/

/-- What an event does to one channel on its way to all of them: it reaches those it triggers, and an empty chain ends at once. -/
def State.triggered (n kind src : Nat) (t : State) (c : Nat) : State :=
  if t.reg (R.dmaTrigger c) = kind ∧ t.reg (R.dmaTriggerSource c) = src then
    if (t.eventTo c).emptyChain c then ((t.eventTo c).chanIdle c 0).deliver n 3 c else t.eventTo c
  else t

theorem deliver_succ (s : State) (n kind src : Nat) : s.deliver (n + 1) kind src = s.each (List.range 64) (State.triggered n kind src) := rfl

/-- What holds before a fold of steps that keep it holds after it. -/
theorem each_of_keeps {α : Type} {P : State → Prop} {f : State → α → State} {l : List α} (h : ∀ t : State, ∀ x ∈ l, P t → P (f t x)) {s : State}
    (hs : P s) : P (s.each l f) := by
  induction l generalizing s with
  | nil => exact hs
  | cons x l ih => exact ih (fun t y hy => h t y (by simp [hy])) (h s x (by simp) hs)

/-- What one event of a kind or of a chain keeps, and the end of a chain of no descriptors, is kept by an event to every channel that it
triggers. -/
theorem deliver_keeps {P : State → Prop} {kind : Nat}
    (hevent : ∀ t : State, ∀ c < 64, t.reg (R.dmaTrigger c) = kind ∨ t.reg (R.dmaTrigger c) = 3 → P t → P (t.eventTo c))
    (hidle : ∀ t : State, ∀ c < 64, P t → t.emptyChain c = true → P (t.chanIdle c 0)) (n src : Nat) {s : State} (h : P s) :
    P (s.deliver n kind src) := by
  induction n generalizing s kind src with
  | zero => exact h
  | succ n ih =>
    rw [deliver_succ]
    refine each_of_keeps (fun t c hc ht => ?_) h
    have hc := List.mem_range.mp hc
    unfold State.triggered
    split
    · next hmatch =>
      have ht' := hevent t c hc (.inl hmatch.1) ht
      split
      · next he => exact ih (fun u q hq hk hu => hevent u q hq (.inr (by omega)) hu) c (hidle _ c hc ht' he)
      · exact ht'
    · exact ht

/-- An event leaves the memories, the timers and all registers but those of channels' states. -/
structure State.Sent (s t : State) : Prop where
  reg : ∀ k, (∀ c < 64, k ∉ eventRegs c) → k ∉ logRegs → t.reg k = s.reg k
  sram : t.sram = s.sram
  dram : t.dram = s.dram
  timerNext : t.timerNext = s.timerNext

theorem sent_trans_moved {s t u : State} {c : Nat} (hc : c < 64) (h : s.Sent t) (h' : Moved c t u) : s.Sent u :=
  ⟨fun k hk hl => (h'.reg k (hk c hc) hl).trans (h.reg k hk hl), h'.sram.trans h.sram, h'.dram.trans h.dram, h'.timerNext.trans h.timerNext⟩

theorem sent_deliver (s : State) (n kind src : Nat) : s.Sent (s.deliver n kind src) :=
  deliver_keeps (P := s.Sent) (fun t c hc _ ht => sent_trans_moved hc ht (moved_eventTo t c))
    (fun t c hc ht _ => sent_trans_moved hc ht (moved_chanIdle t c 0)) n src ⟨fun _ _ _ => rfl, rfl, rfl, rfl⟩

/-- An entry of one channel is another register than those that another channel's events change. -/
theorem dmaKey_not_mem_eventRegs {sub a c : Nat} (ha : a < 64) (hc : c < 64) (hne : a ≠ c) : regKey 0x6001 sub a ∉ eventRegs c := by
  simp only [eventRegs, R.dmaState, R.dmaStatus, R.eventsIgnored, regKey, List.mem_cons, List.not_mem_nil, or_false, not_or]
  omega

/-- An entry of a channel that is not its state, its status or its count of events. -/
theorem dmaEntry_not_mem_eventRegs {sub : Nat} (h : sub ≠ 1 ∧ sub ≠ 9 ∧ sub ≠ 14) {a c : Nat} (ha : a < 64) (hc : c < 64) :
    regKey 0x6001 sub a ∉ eventRegs c := by
  simp only [eventRegs, R.dmaState, R.dmaStatus, R.eventsIgnored, regKey, List.mem_cons, List.not_mem_nil, or_false, not_or]
  omega

/-- A channel that is idle stays so, with its status. -/
theorem deliver_idle {s : State} {c : Nat} (hc : c < 64) (h : s.reg (R.dmaState c) = 0) (n kind src : Nat) :
    (s.deliver n kind src).reg (R.dmaState c) = 0 ∧ (s.deliver n kind src).reg (R.dmaStatus c) = s.reg (R.dmaStatus c) := by
  have hother {t u : State} {q : Nat} (hq : q < 64) (hne : c ≠ q) (hm : Moved q t u)
      (ht : t.reg (R.dmaState c) = 0 ∧ t.reg (R.dmaStatus c) = s.reg (R.dmaStatus c)) :
      u.reg (R.dmaState c) = 0 ∧ u.reg (R.dmaStatus c) = s.reg (R.dmaStatus c) :=
    ⟨(hm.reg _ (dmaKey_not_mem_eventRegs hc hq hne) (dmaKey_not_logged (by decide) hc)).trans ht.1,
      (hm.reg _ (dmaKey_not_mem_eventRegs hc hq hne) (dmaKey_not_logged (by decide) hc)).trans ht.2⟩
  refine deliver_keeps (P := fun t => t.reg (R.dmaState c) = 0 ∧ t.reg (R.dmaStatus c) = s.reg (R.dmaStatus c)) (fun t q hq _ ht => ?_)
    (fun t q hq ht he => ?_) n src ⟨h, rfl⟩
  · by_cases hne : c = q
    · subst hne
      rwa [eventTo_idle ht.1]
    · exact hother hq hne (moved_eventTo t q) ht
  · have hne : c ≠ q := by
      rintro rfl
      simp [State.emptyChain, ht.1] at he
    exact hother hq hne (moved_chanIdle t q 0) ht

/-- What a running channel with descriptors keeps while events are delivered. -/
structure State.Runs (s : State) (c : Nat) (x : Chan) : Prop where
  state : s.reg (R.dmaState c) = 2
  count : s.reg (R.dmaDescCount c) ≠ 0
  chan : ∃ a n p, s.chan c = { x with evAt := a, evCount := n, pending := p }

theorem runs_of_moved {s t : State} {c q : Nat} {x : Chan} (hc : c < 64) (hq : q < 64) (hne : c ≠ q) (h : s.Runs c x) (hm : Moved q s t) :
    t.Runs c x :=
  ⟨(hm.reg _ (dmaKey_not_mem_eventRegs hc hq hne) (dmaKey_not_logged (by decide) hc)).trans h.state,
    fun h0 => h.count ((hm.reg _ (dmaKey_not_mem_eventRegs hc hq hne) (dmaKey_not_logged (by decide) hc)).symm.trans h0),
    by rw [hm.chan c hne]; exact h.chan⟩

theorem runs_eventTo {s : State} {c : Nat} {x : Chan} (hc : c < 64) (h : s.Runs c x) : (s.eventTo c).Runs c x := by
  obtain ⟨hstate, a, n, p, hchan⟩ := eventTo_running hc h.state
  obtain ⟨a', n', p', hx⟩ := h.chan
  refine ⟨hstate, fun h0 => h.count (((moved_eventTo s c).reg _ (dmaEntry_not_mem_eventRegs (by decide) hc hc)
    (dmaKey_not_logged (by decide) hc)).symm.trans h0), a, n, p, ?_⟩
  rw [hchan, hx]

theorem deliver_running {s : State} {c : Nat} {x : Chan} (hc : c < 64) (h : s.Runs c x) (n kind src : Nat) : (s.deliver n kind src).Runs c x := by
  refine deliver_keeps (P := fun t => t.Runs c x) (fun t q hq _ ht => ?_) (fun t q hq ht he => ?_) n src h
  · by_cases hne : c = q
    · subst hne
      exact runs_eventTo hc ht
    · exact runs_of_moved hc hq hne ht (moved_eventTo t q)
  · have hne : c ≠ q := by
      rintro rfl
      simp [State.emptyChain, ht.count] at he
    exact runs_of_moved hc hq hne ht (moved_chanIdle t q 0)

/-- What an armed channel that an event triggers, and no chain's, keeps until the event reaches it. -/
structure State.Armed (s : State) (c kind src : Nat) : Prop where
  state : s.reg (R.dmaState c) = 1
  count : s.reg (R.dmaDescCount c) ≠ 0
  trigger : s.reg (R.dmaTrigger c) = kind
  source : s.reg (R.dmaTriggerSource c) = src

theorem armed_of_moved {s t : State} {c q kind src : Nat} (hc : c < 64) (hq : q < 64) (hne : c ≠ q) (h : s.Armed c kind src) (hm : Moved q s t) :
    t.Armed c kind src := by
  have hreg {sub : Nat} (hsub : sub < 256) : t.reg (regKey 0x6001 sub c) = s.reg (regKey 0x6001 sub c) :=
    hm.reg _ (dmaKey_not_mem_eventRegs hc hq hne) (dmaKey_not_logged hsub hc)
  exact ⟨(hreg (by decide)).trans h.state, fun h0 => h.count ((hreg (by decide)).symm.trans h0), (hreg (by decide)).trans h.trigger,
    (hreg (by decide)).trans h.source⟩

/-- A step of the fold at another channel. -/
theorem triggered_armed {s : State} {c q kind src : Nat} (hk : kind ≠ 3) (hc : c < 64) (hq : q < 64) (hne : c ≠ q) (h : s.Armed c kind src)
    (n : Nat) : (s.triggered n kind src q).Armed c kind src := by
  have h1 := armed_of_moved hc hq hne h (moved_eventTo s q)
  unfold State.triggered
  split
  · split
    · refine deliver_keeps (P := fun t => t.Armed c kind src) (fun t r hr htrig ht => ?_) (fun t r hr ht he => ?_) n q
        (armed_of_moved hc hq hne h1 (moved_chanIdle _ q 0))
      · have hcr : c ≠ r := by
          rintro rfl
          exact hk (ht.trigger.symm.trans (by omega))
        exact armed_of_moved hc hr hcr ht (moved_eventTo t r)
      · have hcr : c ≠ r := by
          rintro rfl
          simp [State.emptyChain, ht.state] at he
        exact armed_of_moved hc hr hcr ht (moved_chanIdle t r 0)
    · exact h1
  · exact h

/-- A step of the fold at a running channel, or at another. -/
theorem triggered_running {s : State} {c q : Nat} {x : Chan} (hc : c < 64) (hq : q < 64) (h : s.Runs c x) (n kind src : Nat) :
    (s.triggered n kind src q).Runs c x := by
  have h1 : (s.eventTo q).Runs c x := by
    by_cases hne : c = q
    · subst hne
      exact runs_eventTo hc h
    · exact runs_of_moved hc hq hne h (moved_eventTo s q)
  unfold State.triggered
  split
  · split
    · next he =>
      have hne : c ≠ q := by
        rintro rfl
        simp [State.emptyChain, h1.count] at he
      exact deliver_running hc (runs_of_moved hc hq hne h1 (moved_chanIdle _ q 0)) n 3 q
    · exact h1
  · exact h

/-- An armed channel that an event other than a chain's triggers runs after it (R413, R416). -/
theorem deliver_starts {s : State} {c kind src : Nat} (hk : kind ≠ 3) (hc : c < 64) (h : s.Armed c kind src) (n : Nat) :
    (s.deliver (n + 1) kind src).reg (R.dmaState c) = 2 := by
  have hsplit : List.range 64 = List.range c ++ c :: (List.range (63 - c)).map (c + 1 + ·) := by
    have h64 : 64 = (c + 1) + (63 - c) := by omega
    rw [h64, List.range_add, List.range_succ, List.append_assoc]
    simp
  have hbefore : (s.each (List.range c) (State.triggered n kind src)).Armed c kind src :=
    each_of_keeps (P := fun t => t.Armed c kind src) (fun t q hq ht => by
      have := List.mem_range.mp hq
      exact triggered_armed hk hc (by omega) (by omega) ht n) h
  rw [deliver_succ, hsplit, State.each, List.foldl_append, List.foldl_cons]
  generalize hb : List.foldl (State.triggered n kind src) s (List.range c) = u
  have hu : u.Armed c kind src := hb ▸ hbefore
  have hrun : (u.triggered n kind src c).Runs c ((u.chanRun c).chan c) := by
    have hcount : (u.chanRun c).reg (R.dmaDescCount c) = u.reg (R.dmaDescCount c) := by
      have hne : R.dmaDescCount c ≠ R.dmaState c := dmaKey_ne (by decide) c
      rw [reg_chanRun, if_neg hne]
    have hempty : (u.chanRun c).emptyChain c = false := by simp [State.emptyChain, hcount, hu.count]
    unfold State.triggered
    rw [if_pos ⟨hu.trigger, hu.source⟩, eventTo_armed hu.state, hempty, if_neg (by decide)]
    exact ⟨by rw [reg_chanRun, if_pos rfl], by rw [hcount]; exact hu.count, _, _, _, rfl⟩
  exact (each_of_keeps (P := fun t => t.Runs c ((u.chanRun c).chan c)) (fun t q hq ht => by
    obtain ⟨j, hj, rfl⟩ := List.mem_map.mp hq
    have := List.mem_range.mp hj
    exact triggered_running hc (by omega) ht n kind src) hrun).state

end Sys2Proof.Machine
end

section
/-! Descriptors fetched, and the bytes of a local segment moved (R399, R402, R404, R407, R409, R421). -/

namespace Sys2Proof.Machine

/-! ## Reading a range -/

theorem counted_readDramWords (n : Nat) (s : State) (lo : Nat) : s.Counted (s.readDramWords lo n).2.2 := by
  induction n with
  | zero => exact .refl s
  | succ n ih => exact ih.trans (counted_readStack _ _)

theorem stored_readRange (s : State) (a n : Nat) : s.Stored (s.readRange a n).2.2 := by
  unfold State.readRange
  dsimp only
  split
  · exact .of_counted (counted_readSram s _ n)
  · exact (stored_touchStacks s _ _ _).trans (.of_counted (counted_readDramWords _ _ _))
  · exact .refl s

/-- A range of clean bytes of SRAM. -/
theorem readRange_stored {s : State} {a n : Nat} (hspace : bits a 51 48 = 0)
    (h : ∀ j < n, (sramDecode (s.sram.read (bits a 47 0 + j)) (s.sramChk.read (bits a 47 0 + j))).2 = .clean) :
    s.readRange a n = ((List.range n).map fun i => s.sram.read (bits a 47 0 + i), [], s) := by
  have hbad : (List.range n).filter (fun i => (sramDecode (s.sram.read (bits a 47 0 + i)) (s.sramChk.read (bits a 47 0 + i))).2 = .bad) = [] :=
    List.filter_eq_nil_iff.mpr fun i hi => by simp [h i (List.mem_range.mp hi)]
  unfold State.readRange
  rw [hspace]
  dsimp only
  rw [readSram_stored h, hbad]
  rfl

/-! ## Writing a range -/

/-- A word of a range written by its bytes inside the range. -/
theorem sramSet_rangeWord {s : State} (h : s.memoryOk = true) (off : Nat) (d : List Byte) (i : Nat) :
    s.SramSet (s.writePart 0 (off / 64 * 64 + 64 * i)
        (slice (zeros (off - off / 64 * 64) ++ d) (64 * i) 64
          ++ zeros (64 - (slice (zeros (off - off / 64 * 64) ++ d) (64 * i) 64).length))
        ((List.range 64).map fun j => decide (off ≤ off / 64 * 64 + 64 * i + j ∧ off / 64 * 64 + 64 * i + j < off + d.length))).2
      (fun a => off / 64 * 64 + 64 * i ≤ a ∧ a < off / 64 * 64 + 64 * i + 64 ∧ off ≤ a ∧ a < off + d.length) fun a => d.getD (a - off) 0 := by
  have hslice : (slice (zeros (off - off / 64 * 64) ++ d) (64 * i) 64).length ≤ 64 := by rw [length_slice]; omega
  refine (sramSet_writePart h _ (by rw [List.length_append, zeros_length]; omega) (by simp)).congr (fun a => ?_) (fun a ha => ?_)
  · constructor
    · rintro ⟨h1, h2, h3⟩
      rw [getD_map_range _ _ _ (by omega), decide_eq_true_eq] at h3
      omega
    · rintro ⟨h1, h2, h3, h4⟩
      refine ⟨h1, h2, ?_⟩
      rw [getD_map_range _ _ _ (by omega), decide_eq_true_eq]
      omega
  · obtain ⟨h1, h2, h3⟩ := ha
    rw [getD_map_range _ _ _ (by omega), decide_eq_true_eq] at h3
    have hlen : a - (off / 64 * 64 + 64 * i) < (slice (zeros (off - off / 64 * 64) ++ d) (64 * i) 64).length := by
      rw [length_slice, List.length_append, zeros_length]
      omega
    rw [List.getD_append _ _ _ _ hlen, getD_slice _ _ _ (by omega), List.getD_append_right _ _ _ _ (by rw [zeros_length]; omega), zeros_length]
    congr 1
    omega

theorem writePart_sram_ok (s : State) (off : Nat) (d : List Byte) (en : List Bool) : (s.writePart 0 off d en).1 = true := by
  unfold State.writePart
  split
  · rfl
  · rfl

/-- A range of SRAM written: its bytes, and no others. -/
theorem sramSet_writeRange {s : State} (h : s.memoryOk = true) (off : Nat) (d : List Byte) :
    ∃ t, s.writeRange 0 off d = (t, 0) ∧ s.SramSet t (fun a => off ≤ a ∧ a < off + d.length) fun a => d.getD (a - off) 0 := by
  have hfold (l : List Nat) (t : State) : l.foldl (fun (r : State × Nat) i =>
      let u := slice (zeros (off - off / 64 * 64) ++ d) (64 * i) 64
      let en := (List.range 64).map fun j => decide (off ≤ off / 64 * 64 + 64 * i + j ∧ off / 64 * 64 + 64 * i + j < off + d.length)
      let (ok, t) := r.1.writePart 0 (off / 64 * 64 + 64 * i) (u ++ zeros (64 - u.length)) en
      (t, if ok then r.2 else 2)) (t, 0)
      = (t.each l fun t i => (t.writePart 0 (off / 64 * 64 + 64 * i)
        (slice (zeros (off - off / 64 * 64) ++ d) (64 * i) 64
          ++ zeros (64 - (slice (zeros (off - off / 64 * 64) ++ d) (64 * i) 64).length))
        ((List.range 64).map fun j => decide (off ≤ off / 64 * 64 + 64 * i + j ∧ off / 64 * 64 + 64 * i + j < off + d.length))).2, 0) := by
    induction l generalizing t with
    | nil => rfl
    | cons i l ih =>
      rw [List.foldl_cons]
      dsimp only
      rw [writePart_sram_ok, if_pos rfl, ih]
      rfl
  refine ⟨_, hfold _ s, ?_⟩
  refine (State.SramSet.each h fun t _ ht i _ => sramSet_rangeWord ht off d i).congr (fun a => ?_) fun _ _ => rfl
  constructor
  · rintro ⟨i, -, -, -, h3, h4⟩
    exact ⟨h3, h4⟩
  · rintro ⟨h3, h4⟩
    refine ⟨(a - off / 64 * 64) / 64, List.mem_range.mpr ?_, by omega, by omega, h3, h4⟩
    unfold ceilDiv
    omega

/-! ## A piece of a local transfer -/

/-- The channels where some ranges are marked: only the bytes a channel has yet to move that they touch. -/
theorem chan_markClash (s : State) (x : List (Nat × Nat × Nat × Bool)) (c : Nat) :
    ∃ l, (s.markClash x).chan c = { s.chan c with clash := l } := by
  have hget := tab_get_map ({} : Chan) (fun y : Chan => { y with clash := common x y.spans ++ y.clash }) (by
    have hspans : ({} : Chan).spans = [] := rfl
    have hcommon : common x [] = [] := by induction x with
      | nil => rfl
      | cons a x ih => exact ih
    show ({ clash := common x ({} : Chan).spans ++ [] } : Chan) = {}
    rw [hspans, hcommon]
    rfl) s.chans c
  refine ⟨common x (s.chan c).spans ++ (s.chan c).clash, ?_⟩
  exact hget

theorem chan_of_sramOnly {s t : State} (h : s.SramOnly t) (c : Nat) : t.chan c = s.chan c := by
  rw [h]
  rfl

/-- Bytes put at their destination in SRAM, every one of them defined, by a segment that does not fail. -/
theorem putSegment_sram {s : State} (h : s.memoryOk = true) {c : Nat} {d : Desc} (hspace : bits d.dst 51 48 = 0) (hclash : (s.chan c).clash = [])
    (o : Nat) (l : List Byte) (bad : Nat → Bool) :
    ∃ t u : State, s.putSegment c d o l bad false = (t, 0) ∧ u.SramSet t (fun a => bits d.dst 47 0 + o ≤ a ∧ a < bits d.dst 47 0 + o + l.length)
        (fun a => l.getD (a - (bits d.dst 47 0 + o)) 0)
      ∧ u.chan c = s.chan c ∧ u.sram = s.sram ∧ u.dram = s.dram := by
  have hfree : s.freeWhere (s.chan c) d o l = (l, s) := if_pos hclash
  obtain ⟨k, hk⟩ := chan_markClash s [(0, bits d.dst 47 0 + o, bits d.dst 47 0 + o + l.length, true)] c
  unfold State.putSegment
  dsimp only
  rw [hfree, hspace]
  dsimp only
  have hedges (t : State) (off n : Nat) : t.badEdges 0 off n = [] := if_pos (by decide)
  rw [hedges, if_pos (by decide)]
  have hu : ((s.markClash [(0, bits d.dst 47 0 + o, bits d.dst 47 0 + o + l.length, true)]).modChan c
      fun y => { y with clash := (s.chan c).clash }).chan c = s.chan c := by
    rw [chan_modChan, if_pos rfl, hk]
  have hmem : ((s.markClash [(0, bits d.dst 47 0 + o, bits d.dst 47 0 + o + l.length, true)]).modChan c
      fun y => { y with clash := (s.chan c).clash }).memoryOk = true := h
  have hsram : ((s.markClash [(0, bits d.dst 47 0 + o, bits d.dst 47 0 + o + l.length, true)]).modChan c
      fun y => { y with clash := (s.chan c).clash }).sram = s.sram := rfl
  have hdram : ((s.markClash [(0, bits d.dst 47 0 + o, bits d.dst 47 0 + o + l.length, true)]).modChan c
      fun y => { y with clash := (s.chan c).clash }).dram = s.dram := rfl
  generalize ((s.markClash [(0, bits d.dst 47 0 + o, bits d.dst 47 0 + o + l.length, true)]).modChan c
      fun y => { y with clash := (s.chan c).clash }) = u at *
  obtain ⟨t, ht, hset⟩ := sramSet_writeRange hmem (bits d.dst 47 0 + o) l
  exact ⟨t, u, ht, hset, hu, hsram, hdram⟩

/-- What a local transfer moves: its pattern, or its clean source bytes (R402, R404). -/
def State.pieceBytes (s : State) (d : Desc) (o n : Nat) : List Byte :=
  if d.fill then patternBytes d.pattern (d.dst + o) n else (List.range n).map fun j => s.sram.read (bits (d.src + o) 47 0 + j)

theorem length_pieceBytes (s : State) (d : Desc) (o n : Nat) : (s.pieceBytes d o n).length = n := by
  unfold State.pieceBytes patternBytes
  split <;> simp

theorem getD_pieceBytes (s : State) (d : Desc) (o : Nat) {n j : Nat} (h : j < n) : (s.pieceBytes d o n).getD j 0
    = if d.fill then BitVec.ofNat 8 (d.pattern / 256 ^ ((d.dst + o + j) % 8)) else s.sram.read (bits (d.src + o) 47 0 + j) := by
  unfold State.pieceBytes patternBytes
  split
  · rw [getD_map_range _ _ _ h]
  · rw [getD_map_range _ _ _ h]

theorem transferBytes_clean {s : State} {d : Desc} {o n : Nat} (h : d.fill = false → bits (d.src + o) 51 48 = 0
    ∧ ∀ j < n, (sramDecode (s.sram.read (bits (d.src + o) 47 0 + j)) (s.sramChk.read (bits (d.src + o) 47 0 + j))).2 = .clean) :
    s.transferBytes d o n = (s.pieceBytes d o n, [], s) := by
  unfold State.transferBytes State.pieceBytes
  split
  · rfl
  · next hf =>
    obtain ⟨hspace, hclean⟩ := h (by simpa using hf)
    exact readRange_stored hspace hclean

/-- A piece of a local transfer between clean bytes of SRAM is moved, and nothing else. -/
theorem movePiece_sram {s : State} (h : s.memoryOk = true) {c : Nat} {d : Desc} {o n : Nat} (hspace : bits d.dst 51 48 = 0)
    (hclash : (s.chan c).clash = []) (hsrc : d.fill = false → bits (d.src + o) 51 48 = 0
      ∧ ∀ j < n, (sramDecode (s.sram.read (bits (d.src + o) 47 0 + j)) (s.sramChk.read (bits (d.src + o) 47 0 + j))).2 = .clean) :
    ∃ t, s.movePiece c d o n 0 = (t, 0) ∧ t.chan c = s.chan c ∧ t.dram = s.dram ∧ t.memoryOk = true
      ∧ (∀ j < n, t.sram.read (bits d.dst 47 0 + o + j) = (s.pieceBytes d o n).getD j 0)
      ∧ ∀ a, a < bits d.dst 47 0 + o ∨ bits d.dst 47 0 + o + n ≤ a → t.sram.read a = s.sram.read a := by
  have htouch : s.touchStacks (bits d.dst 51 48) (bits d.dst 47 0 + o) n = s := if_pos (.inl (by omega))
  obtain ⟨t, u, hput, hset, hchan, hsram, hdram⟩ := putSegment_sram h hspace hclash o (s.pieceBytes d o n) fun i => ([] : List Nat).contains i
  have hmove : s.movePiece c d o n 0 = (t, 0) := by
    unfold State.movePiece
    rw [transferBytes_clean hsrc]
    dsimp only
    rw [htouch]
    have hfails : (([] : List Nat) != [] || 0 != 0) = false := rfl
    rw [hfails, hput]
    rfl
  refine ⟨t, hmove, (chan_of_sramOnly hset.only c).trans hchan, ?_, hset.ok, fun j hj => ?_, fun a ha => ?_⟩
  · rw [hset.only]
    exact hdram
  · rw [(hset.hit _ ⟨by omega, by rw [length_pieceBytes]; omega⟩).1]
    congr 1
    omega
  · rw [(hset.miss a (by rw [length_pieceBytes]; omega)).1, hsram]

end Sys2Proof.Machine
end

section
/-! A channel's turn and the ends of its segments (R405, R407, R409, R421). -/

namespace Sys2Proof.Machine

/-! ## The turn -/

theorem segSize_pos (d : Desc) : 0 < d.segSize := Nat.two_pow_pos d.seg

/-- The segment a channel works on, by the bytes it has sent (R405). -/
theorem segment_of_sent {d : Desc} {i sent : Nat} (hlo : (d.segRange i).1 ≤ sent) (hhi : sent < (d.segRange i).1 + (d.segRange i).2) :
    sent / d.segSize = i ∧ min d.len ((i + 1) * d.segSize) = (d.segRange i).1 + (d.segRange i).2 ∧ sent < d.len := by
  unfold Desc.segRange at hlo hhi ⊢
  dsimp only at hlo hhi ⊢
  have hpos := segSize_pos d
  have hmul : (i + 1) * d.segSize = i * d.segSize + d.segSize := by ring
  have hdiv : sent / d.segSize = i := Nat.div_eq_of_lt_le hlo (by omega)
  exact ⟨hdiv, by omega, by omega⟩

/-- The bytes of one turn. -/
def Desc.turnBytes (d : Desc) (i sent : Nat) : Nat := min (4096 - (d.dst + sent) % 64) ((d.segRange i).1 + (d.segRange i).2 - sent)

section
variable {s : State} {c i : Nat} {x : Chan} (hx : s.chan c = x) (hbusy : x.busy = true)
  (hsrc : (descFields x.desc).srcRemote = false) (hdst : (descFields x.desc).dstRemote = false)
  (hlo : ((descFields x.desc).segRange i).1 ≤ x.sent)
  (hhi : x.sent < ((descFields x.desc).segRange i).1 + ((descFields x.desc).segRange i).2) (hopen : ∀ y ∈ x.segDone, y.1 ≠ i)
include hx hbusy hsrc hdst hlo hhi hopen

/-- A channel of a local transfer waits for the banks of its next piece. -/
theorem localTurn_waits {u : State} (htry : s.bgTry [3, c] ((descFields x.desc).words x.sent ((descFields x.desc).turnBytes i x.sent)) = (u, false)) :
    s.localTurn c = u := by
  obtain ⟨hseg, hfin, hlen⟩ := segment_of_sent hlo hhi
  have hany : (x.segDone.any fun y => decide (y.1 = i)) = false := List.any_eq_false.mpr fun y hy => by simpa using hopen y hy
  unfold State.localTurn
  dsimp only
  rw [hx, if_neg (by simp [hbusy, hsrc, hdst, hlen]), hseg, hany, hfin, if_neg (by decide)]
  unfold Desc.turnBytes at htry
  rw [htry]
  rfl

/-- It moves the piece once they have been free. -/
theorem localTurn_moves {u t : State}
    (htry : s.bgTry [3, c] ((descFields x.desc).words x.sent ((descFields x.desc).turnBytes i x.sent)) = (u, true)) (hbad : Tab.get 0 x.segBad i = 0)
    (hmove : u.movePiece c (descFields x.desc) x.sent ((descFields x.desc).turnBytes i x.sent) 0 = (t, 0)) :
    ∃ l, s.localTurn c = t.modChan c fun y => { y with sent := x.sent + (descFields x.desc).turnBytes i x.sent, was := y.was ++ l } := by
  obtain ⟨hseg, hfin, hlen⟩ := segment_of_sent hlo hhi
  have hany : (x.segDone.any fun y => decide (y.1 = i)) = false := List.any_eq_false.mpr fun y hy => by simpa using hopen y hy
  refine ⟨[(x.sent, s.rawBytes (bits (descFields x.desc).dst 51 48) (bits (descFields x.desc).dst 47 0 + x.sent)
    ((descFields x.desc).turnBytes i x.sent))], ?_⟩
  unfold State.localTurn
  dsimp only
  rw [hx, if_neg (by simp [hbusy, hsrc, hdst, hlen]), hseg, hany, hfin, if_neg (by decide), hbad]
  unfold Desc.turnBytes at htry hmove ⊢
  rw [htry]
  dsimp only
  rw [hmove]
  rfl

end

/-- The channel whose turn it is has no message to send for a local transfer. -/
theorem dmaPumps_local {s : State} {c : Nat} (hsrc : (descFields (s.chan c).desc).srcRemote = false)
    (hdst : (descFields (s.chan c).desc).dstRemote = false) (hnext : s.dmaNext = some c) :
    s.dmaPumps = { s.localTurn c with dmaTurn := (c + 1) % 64 } := by
  have hpump : s.dmaPump c = s := by
    unfold State.dmaPump
    dsimp only
    exact if_pos (.inr (.inl (by simp [hsrc, hdst])))
  unfold State.dmaPumps
  rw [hnext]
  dsimp only
  rw [hpump]

/-! ## The commands -/

theorem exec_dmaSegmentDone {s : State} (hs : s.settles) (ch : ChanId) (seg : Fin 64) (reason : Byte) :
    exec (.dmaSegmentDone ch seg reason) s = dmaSegmentDoneNow ch seg reason s := settled_of_settles hs _

theorem exec_dmaRemoteTimeout {s : State} (hs : s.settles) (ch : ChanId) (seg : Fin 64) :
    exec (.dmaRemoteTimeout ch seg) s = dmaRemoteTimeoutNow ch seg s := settled_of_settles hs _

theorem exec_descriptorFetch {s : State} (hs : s.settles) (ch : ChanId) : exec (.descriptorFetch ch) s = descriptorFetchNow ch s :=
  settled_of_settles hs _

theorem exec_descriptorComplete {s : State} (hs : s.settles) (ch : ChanId) : exec (.descriptorComplete ch) s = descriptorCompleteNow ch s :=
  settled_of_settles hs _

/-- A segment that fails by no reason of the command's ends with its own. -/
theorem endLocal_zero (s : State) (c : Nat) (d : Desc) (i : Nat) : ∃ w : Chan → List (Nat × List Byte), s.endLocal c d i 0
    = s.modChan c fun y => { y with segDone := Tab.set y.segDone i (Tab.get 0 (s.chan c).segBad i), was := w y } := by
  refine ⟨fun y => y.was.filter fun g => g.1 / d.segSize ≠ i, ?_⟩
  unfold State.endLocal
  dsimp only
  rw [if_neg (by simp)]
  congr 1
  funext y
  split
  · rfl
  · next h => rw [not_not.mp h]

section
variable {s : State} {ch : ChanId} {seg : Fin 64} {x : Chan} (hx : s.chan ch.val = x) (hbusy : x.busy = true)
  (hseg : seg.val < (descFields x.desc).segs) (hopen : ∀ y ∈ x.segDone, y.1 ≠ seg.val)
include hx hbusy hseg hopen

/-- The command's step for a local segment. -/
theorem segmentDone_local (hsrc : (descFields x.desc).srcRemote = false) (hdst : (descFields x.desc).dstRemote = false) {u : State}
    (hu : (if x.sent < ((descFields x.desc).segRange seg.val).1 + ((descFields x.desc).segRange seg.val).2 ∧ s.dmaNext = some ch.val
      then s.dmaPumps else s) = u) :
    dmaSegmentDoneNow ch seg 0 s
      = if (u.chan ch.val).sent < ((descFields x.desc).segRange seg.val).1 + ((descFields x.desc).segRange seg.val).2 then .next u
        else .next (u.endLocal ch.val (descFields x.desc) seg.val 0) := by
  have hany : (x.segDone.any fun y => decide (y.1 = seg.val)) = false := List.any_eq_false.mpr fun y hy => by simpa using hopen y hy
  unfold dmaSegmentDoneNow
  dsimp only
  rw [hx, if_neg (by simp only [hbusy, hany, not_true_eq_false, Bool.false_eq_true, or_false, false_or]; omega), if_neg (by simp [hsrc, hdst]), hu]
  rfl

/-- A remote segment of a local source, all sent and answered, ends. -/
theorem segmentDone_remote (hsrc : (descFields x.desc).srcRemote = false) (hdst : (descFields x.desc).dstRemote = true)
    (hend : ((descFields x.desc).segRange seg.val).1 + ((descFields x.desc).segRange seg.val).2 ≤ x.sent) (hout : Tab.get 0 x.segOut seg.val = 0) :
    dmaSegmentDoneNow ch seg 0 s = .next (s.modChan ch.val fun y => { y with
      edges := [], segOut := Tab.set y.segOut seg.val 0, segDone := Tab.set y.segDone seg.val (Tab.get 0 x.segBad seg.val) }) := by
  have hany : (x.segDone.any fun y => decide (y.1 = seg.val)) = false := List.any_eq_false.mpr fun y hy => by simpa using hopen y hy
  have htry : s.bgTry [4, ch.val, seg.val] ((descFields x.desc).landWords ((descFields x.desc).segRange seg.val).1
      ((descFields x.desc).segRange seg.val).2) = (s, true) := if_pos (by simp [Desc.landWords, hsrc])
  unfold dmaSegmentDoneNow
  dsimp only
  rw [hx, if_neg (by simp only [hbusy, hany, not_true_eq_false, Bool.false_eq_true, or_false, false_or]; omega), if_pos (.inr hdst), htry]
  dsimp only
  rw [if_neg (by omega), if_neg (by decide)]
  unfold State.endRemote
  rw [hsrc]
  by_cases hbad : Tab.get 0 x.segBad seg.val = 0
  · simp [hbad]
  · simp [hbad]

end

end Sys2Proof.Machine
end

section
/-! What a write of a range leaves alone, a damaged word that it fills in part included (R370, R378, R382, R402). -/

namespace Sys2Proof.Machine

open State (Tells)

/-! ## Folds of writes -/

theorem writePart_keeps {β : Type} (P : State → β) {space off : Nat} (hword : ∀ (t : State) (d : List Byte), P (t.writeWord space off d) = P t)
    (hbyte : ∀ (t : State) (o : Nat) (d : List Byte), P (t.writeSram o d) = P t) (hread : ∀ t : State, P (t.readStack off).2.2 = P t)
    (hstack : ∀ (t : State) (d : List Byte), P (t.writeStack off d) = P t) (hbad : space ≠ 0 → ∀ t : State, P (t.raiseBad space off) = P t)
    (s : State) (d : List Byte) (en : List Bool) : P (s.writePart space off d en).2 = P s := by
  unfold State.writePart
  split
  · exact hword s d
  · split
    · refine each_keeps P _ _ s fun t i _ => ?_
      split
      · exact hbyte t _ _
      · rfl
    · next hspace =>
      split
      · dsimp only
        split
        · exact (hbad hspace _).trans (hread s)
        · exact (hstack _ _).trans (hread s)
      · rfl

theorem writeRange_keeps {β : Type} (P : State → β) {space off : Nat} {d : List Byte}
    (h : ∀ (t : State) (i : Nat) (w : List Byte) (en : List Bool), i < ceilDiv (off - off / 64 * 64 + d.length) 64 →
      P (t.writePart space (off / 64 * 64 + 64 * i) w en).2 = P t) (s : State) : P (s.writeRange space off d).1 = P s := by
  have key (l : List Nat) (hl : ∀ i ∈ l, i < ceilDiv (off - off / 64 * 64 + d.length) 64) (r : State × Nat) :
      P (l.foldl (fun (r : State × Nat) i =>
        let u := slice (zeros (off - off / 64 * 64) ++ d) (64 * i) 64
        let en := (List.range 64).map fun j => decide (off ≤ off / 64 * 64 + 64 * i + j ∧ off / 64 * 64 + 64 * i + j < off + d.length)
        let (ok, t) := r.1.writePart space (off / 64 * 64 + 64 * i) (u ++ zeros (64 - u.length)) en
        (t, if ok then r.2 else 2)) r).1 = P r.1 := by
    induction l generalizing r with
    | nil => rfl
    | cons i l ih => exact (ih (fun j hj => hl j (by simp [hj])) _).trans (h r.1 i _ _ (hl i (by simp)))
  exact key _ (fun i hi => List.mem_range.mp hi) (s, 0)

/-! ## The channels -/

theorem chans_writeRange (s : State) (space off : Nat) (d : List Byte) : (s.writeRange space off d).1.chans = s.chans := by
  refine writeRange_keeps State.chans (fun t i w en _ => ?_) s
  refine writePart_keeps State.chans (fun u x => ?_) (fun _ _ _ => rfl) (fun u => (counted_readStack u _).chans) (fun _ _ => rfl)
    (fun _ u => congrArg Body.chans (body_raiseBad u _ _)) t w en
  unfold State.writeWord
  split <;> rfl

/-! ## The registers above those of the correction counters -/

/-- The first key past those of the correction counters. -/
def dmaKeys : Nat := 0x6000 * 65536

section
variable {k : Nat} (hk : dmaKeys ≤ k)
include hk

theorem ne_ceKey {sub i : Nat} (hsub : sub < 256) (hi : i < 65536) : k ≠ regKey 0x5001 sub i := by
  unfold dmaKeys at hk
  simp only [regKey]
  omega

theorem reg_noteBad {off : Nat} (hoff : off < 2 ^ 49) (s : State) : (s.noteBad 1 off).reg k = s.reg k := by
  have hi : counterOf 1 off < 65536 := by
    rw [counterOf, if_neg (by decide)]
    unfold stackSize
    omega
  unfold State.noteBad
  dsimp only
  have h1 : k ≠ R.lastUncorrectable (counterOf 1 off) := ne_ceKey hk (by decide) hi
  have h2 : k ≠ R.uncorrectableTotal (counterOf 1 off) := ne_ceKey hk (by decide) hi
  rw [reg_setReg, if_neg h1, State.bump, reg_setReg, if_neg h2]

variable (hl : k ∉ logRegs)
include hl

theorem reg_correct {i : Nat} (hi : i < 65536) (s : State) (addr : Nat) : (s.correct i addr).reg k = s.reg k := by
  have hset (t : State) {sub : Nat} (hsub : sub < 256) (v : Nat) : (t.setReg (regKey 0x5001 sub i) v).reg k = t.reg k := by
    rw [reg_setReg, if_neg (ne_ceKey hk hsub hi)]
  unfold State.correct
  extract_lets l s1 s2 last
  have h1 : s1.reg k = s.reg k := hset s (by decide) _
  have h2 : s2.reg k = s.reg k := (hset _ (by decide) _).trans ((hset _ (by decide) _).trans h1)
  clear_value s2
  split
  · exact (hset s1 (by decide) l).trans h1
  · split
    · exact h2
    · exact (reg_event _ _ _ _ k hl).trans h2

theorem reg_readStack {off : Nat} (hoff : off < 2 ^ 49) (s : State) : (s.readStack off).2.2.reg k = s.reg k := by
  have hi : counterOf 1 off < 65536 := by
    rw [counterOf, if_neg (by decide)]
    unfold stackSize
    omega
  have hN (n addr : Nat) : (s.correctN (counterOf 1 off) addr n).reg k = s.reg k := by
    induction n with
    | zero => rfl
    | succ n ih => exact (reg_correct hk hl hi _ addr).trans ih
  unfold State.readStack
  dsimp only
  split
  · exact (reg_noteBad hk hoff _).trans (hN _ _)
  · exact hN _ _

/-- A write of a range changes no register but those of the correction counters, of the log, of faults and of drops. -/
theorem reg_writeRange (hd : k ∉ dropRegs) {space off : Nat} {d : List Byte} (hoff : off + d.length < 2 ^ 49) (s : State) :
    (s.writeRange space off d).1.reg k = s.reg k := by
  refine writeRange_keeps (State.reg · k) (fun t i w en hi => ?_) s
  have hlt : off / 64 * 64 + 64 * i < 2 ^ 49 := by
    unfold ceilDiv at hi
    omega
  refine writePart_keeps (State.reg · k) (fun u x => ?_) (fun _ _ _ => rfl) (fun u => reg_readStack hk hl hlt u) (fun _ _ => rfl)
    (fun hspace u => ?_) t w en
  · unfold State.writeWord
    split <;> rfl
  · unfold State.raiseBad
    dsimp only
    exact (tells_raise u (.inr (by rw [if_neg hspace]; decide)) _ _ _).reg k hd

end

/-! ## The reply slots -/

theorem slots_writeRange (s : State) (space off : Nat) (d : List Byte) : (s.writeRange space off d).1.slots = s.slots := by
  refine writeRange_keeps State.slots (fun t i w en _ => ?_) s
  refine writePart_keeps State.slots (fun u x => ?_) (fun _ _ _ => rfl) (fun u => (counted_readStack u _).slots) (fun _ _ => rfl)
    (fun hspace u => slots_raiseBad hspace u _) t w en
  unfold State.writeWord
  split <;> rfl

theorem slots_touchStacks (s : State) (space off n : Nat) : (s.touchStacks space off n).slots = s.slots := by
  have hone (t : State) (k : Nat) : (t.touchStack k).slots = t.slots := by
    unfold State.touchStack
    dsimp only
    split
    · rfl
    · split <;> rfl
  unfold State.touchStacks
  split
  · rfl
  · exact each_keeps State.slots _ _ _ fun t k _ => hone t k

theorem chans_touchStacks (s : State) (space off n : Nat) : (s.touchStacks space off n).chans = s.chans := by
  have hone (t : State) (k : Nat) : (t.touchStack k).chans = t.chans := by
    unfold State.touchStack
    dsimp only
    split
    · rfl
    · split <;> rfl
  unfold State.touchStacks
  split
  · rfl
  · exact each_keeps State.chans _ _ _ fun t k _ => hone t k

theorem reg_touchStacks (s : State) (space off n k : Nat) : (s.touchStacks space off n).reg k = s.reg k := by
  have hone (t : State) (j : Nat) : (t.touchStack j).reg k = t.reg k := by
    unfold State.touchStack
    dsimp only
    split
    · rfl
    · split <;> rfl
  unfold State.touchStacks
  split
  · rfl
  · exact each_keeps (State.reg · k) _ _ _ fun t j _ => hone t j

theorem slots_putSegment (s : State) (c : Nat) (d : Desc) (o : Nat) (l : List Byte) (bad : Nat → Bool) (fails : Bool) :
    (s.putSegment c d o l bad fails).1.slots = s.slots := by
  have hfree : (s.freeWhere (s.chan c) d o l).2.slots = s.slots := by
    unfold State.freeWhere
    split
    · rfl
    · rfl
  have hmark (t : State) (y : List (Nat × Nat × Nat × Bool)) (f : Chan → Chan) : ((t.markClash y).modChan c f).slots = t.slots := rfl
  unfold State.putSegment
  dsimp only
  split
  · exact (slots_writeRange _ _ _ _).trans ((hmark _ _ _).trans hfree)
  · dsimp only
    refine Eq.trans (each_keeps State.slots _ _ _ fun t u _ => ?_) ((hmark _ _ _).trans hfree)
    split
    · rfl
    · split
      · exact slots_writeRange _ _ _ _
      · rfl

theorem slots_landSegment (s : State) (c : Nat) (d : Desc) (i : Nat) (fails : Bool) : (s.landSegment c d i fails).1.slots = s.slots := by
  have hmod (t : State) (f : Chan → Chan) : (t.modChan c f).slots = t.slots := rfl
  unfold State.landSegment
  dsimp only
  rw [hmod, slots_putSegment, slots_touchStacks]

end Sys2Proof.Machine
end

section
/-! Segments that time out, descriptors that end, and timers that fire (R407, R410, R411, R416). -/

namespace Sys2Proof.Machine

/-! ## A segment without its answers -/

theorem bgTry_cases (s : State) (key l : List Nat) : ∃ b ok, s.bgTry key l = ({ s with bgDone := b }, ok) := by
  unfold State.bgTry
  split
  · exact ⟨s.bgDone, true, rfl⟩
  · extract_lets had left rest
    split
    · exact ⟨_, true, rfl⟩
    · exact ⟨_, false, rfl⟩

/-- The state with a segment's answers given up. -/
def State.timedOut (s : State) (c i : Nat) : State :=
  { s with slots := s.slots.filter fun y => ¬ ((y.kind = 3 ∨ y.kind = 4 ∨ y.kind = 7) ∧ y.core = c ∧ y.q = i) }.modChan c fun y =>
    { y with
      sent := max y.sent (((descFields (s.chan c).desc).segRange i).1 + ((descFields (s.chan c).desc).segRange i).2)
      edges := [], segOut := Tab.set y.segOut i 0, segBad := Tab.set y.segBad i 5 }

theorem chan_timedOut (s : State) (c i : Nat) : (s.timedOut c i).chan c = { s.chan c with
    sent := max (s.chan c).sent (((descFields (s.chan c).desc).segRange i).1 + ((descFields (s.chan c).desc).segRange i).2)
    edges := [], segOut := Tab.set (s.chan c).segOut i 0, segBad := Tab.set (s.chan c).segBad i 5 } := by
  rw [State.timedOut, chan_modChan, if_pos rfl]
  rfl

theorem mem_slots_timedOut (s : State) (c i : Nat) (y : ReplySlot) : y ∈ (s.timedOut c i).slots
    ↔ y ∈ s.slots ∧ ¬ ((y.kind = 3 ∨ y.kind = 4 ∨ y.kind = 7) ∧ y.core = c ∧ y.q = i) := by
  have hslots : (s.timedOut c i).slots
      = s.slots.filter fun y => ¬ ((y.kind = 3 ∨ y.kind = 4 ∨ y.kind = 7) ∧ y.core = c ∧ y.q = i) := rfl
  rw [hslots, List.mem_filter, decide_eq_true_eq]

theorem bgReady_timedOut (s : State) (c i w : Nat) : (s.timedOut c i).bgReady w = s.bgReady w := rfl

/-- The end of a remote segment with a reason. -/
theorem endRemote_fails (s : State) (c : Nat) (d : Desc) (i : Nat) {r : Nat} (hr : r ≠ 0) :
    ∃ v : State, s.endRemote c d i r = v.modChan c (fun y => { y with
        edges := [], segOut := Tab.set y.segOut i 0, segDone := Tab.set y.segDone i r })
      ∧ v.slots = s.slots ∧ (d.srcRemote = false → v = s) := by
  unfold State.endRemote
  simp only [hr, if_false]
  cases h : d.srcRemote
  · exact ⟨s, rfl, rfl, fun _ => rfl⟩
  · exact ⟨_, rfl, slots_landSegment _ _ _ _ _, fun h' => absurd h' (by decide)⟩

/-- The command's step for a segment with a message unanswered. -/
theorem remoteTimeout_step {s : State} {ch : ChanId} {seg : Fin 64} (hbusy : (s.chan ch.val).busy = true)
    (hopen : ∀ y ∈ (s.chan ch.val).segDone, y.1 ≠ seg.val) (hout : Tab.get 0 (s.chan ch.val).segOut seg.val ≠ 0)
    (hbad : Tab.get 0 (s.chan ch.val).segBad seg.val = 0) {u : State} {ok : Bool}
    (htry : (s.timedOut ch.val seg.val).bgTry [4, ch.val, seg.val] ((descFields (s.chan ch.val).desc).landWords
      ((descFields (s.chan ch.val).desc).segRange seg.val).1 ((descFields (s.chan ch.val).desc).segRange seg.val).2) = (u, ok)) :
    dmaRemoteTimeoutNow ch seg s = if ok then .next (u.endRemote ch.val (descFields (s.chan ch.val).desc) seg.val 5) else .next u := by
  have hany : ((s.chan ch.val).segDone.any fun y => decide (y.1 = seg.val)) = false :=
    List.any_eq_false.mpr fun y hy => by simpa using hopen y hy
  unfold State.timedOut at htry
  unfold dmaRemoteTimeoutNow
  dsimp only
  rw [if_neg (by simp only [hbusy, hany, not_true_eq_false, Bool.false_eq_true, or_false, false_or]; exact hout),
    if_neg (not_not.mpr hbad), htry]

/-! ## The end of a descriptor -/

section
variable {s : State} {c : Nat} (hc : c < 64)
include hc

theorem dmaKeys_le (sub : Nat) : dmaKeys ≤ regKey 0x6001 sub c := by
  simp only [dmaKeys, regKey]
  omega

theorem dmaKey_not_dropped {sub : Nat} (hsub : sub < 256) : regKey 0x6001 sub c ∉ dropRegs := by
  have hall : ∀ k ∈ dropRegs, k < 0x6001 * 65536 ∨ 0x6002 * 65536 ≤ k := by decide
  intro hmem
  have := hall _ hmem
  simp only [regKey] at this
  omega

/-- Writing a descriptor back changes no register of a channel, and no channel (R399). -/
theorem reg_writeBack {sub : Nat} (hsub : sub < 256) (addr status reason bitmap : Nat) :
    (s.writeBack addr status reason bitmap).reg (regKey 0x6001 sub c) = s.reg (regKey 0x6001 sub c) := by
  have hoff : bits addr 47 0 < 2 ^ 48 := Nat.mod_lt _ (by decide)
  refine (reg_writeRange (dmaKeys_le hc sub) (dmaKey_not_logged hsub hc) (dmaKey_not_dropped hc hsub) ?_ _).trans (reg_touchStacks _ _ _ _ _)
  simp only [List.length_append, length_toLE, zeros_length]
  omega

end

theorem chan_writeBack (s : State) (addr status reason bitmap c : Nat) : (s.writeBack addr status reason bitmap).chan c = s.chan c := by
  have h : (s.writeBack addr status reason bitmap).chans = s.chans := (chans_writeRange _ _ _ _).trans (chans_touchStacks _ _ _ _)
  unfold State.chan
  rw [h]

/-- A descriptor that has ended well, before its events (R410, R411). -/
def State.descEnded (s : State) (c : Nat) (d : Desc) : State :=
  (s.bump (R.descDone c) 32).modChan c fun y => { y with busy := false, credit := false, ran := (s.chan c).ran + 1, addr := d.next }

theorem chan_descEnded (s : State) (c : Nat) (d : Desc) :
    (s.descEnded c d).chan c = { s.chan c with busy := false, credit := false, ran := (s.chan c).ran + 1, addr := d.next } := by
  rw [State.descEnded, chan_modChan, if_pos rfl]
  rfl

theorem reg_descEnded (s : State) (c : Nat) (d : Desc) (k : Nat) :
    (s.descEnded c d).reg k = if k = R.descDone c then (s.reg (R.descDone c) + 1) % 2 ^ 32 else s.reg k := by
  rw [State.descEnded, reg_modChan, State.bump, reg_setReg]

/-- Its event leaves the channel's entries but for its state. -/
theorem reg_descEvent {s : State} {c : Nat} (hc : c < 64) (d : Desc) {sub : Nat} (hsub : sub < 256 ∧ sub ≠ 1 ∧ sub ≠ 9 ∧ sub ≠ 14) (n kind : Nat) :
    ((s.descEnded c d).deliver n kind c).reg (regKey 0x6001 sub c) = (s.descEnded c d).reg (regKey 0x6001 sub c) :=
  (sent_deliver _ n kind c).reg _ (fun _ hq => dmaEntry_not_mem_eventRegs hsub.2 hc hq) (dmaKey_not_logged hsub.1 hc)

section
variable {s : State} {c : Nat} (hc : c < 64) {d : Desc}
include hc

/-- The chain ends with its last descriptor or with a stop (R411, R417). -/
theorem descOk_ends (h : d.last = true ∨ (s.chan c).stopReq = true) :
    (s.descOk c d).reg (R.dmaState c) = 0 ∧ (s.descOk c d).reg (R.dmaStatus c) = (if (s.chan c).stopReq then 3 else 0)
      ∧ (s.descOk c d).reg (R.descDone c) = (s.reg (R.descDone c) + 1) % 2 ^ 32 := by
  have hdone : ((s.descEnded c d).deliver 64 2 c).reg (R.descDone c) = (s.reg (R.descDone c) + 1) % 2 ^ 32 :=
    (reg_descEvent hc d (by decide) 64 2).trans (by rw [reg_descEnded]; exact if_pos rfl)
  have hne1 : R.descDone c ≠ R.dmaStatus c := dmaKey_ne (by decide) c
  have hne2 : R.descDone c ≠ R.dmaState c := dmaKey_ne (by decide) c
  have hidle (t : State) (v : Nat) : (t.chanIdle c v).reg (R.dmaState c) = 0 ∧ (t.chanIdle c v).reg (R.dmaStatus c) = v
      ∧ (t.chanIdle c v).reg (R.descDone c) = t.reg (R.descDone c) :=
    ⟨reg_chanIdle_state t c v, reg_chanIdle_status t c v, by rw [reg_chanIdle, if_neg hne1, if_neg hne2]⟩
  by_cases hstop : (s.chan c).stopReq = true
  · have hok : s.descOk c d = ((s.descEnded c d).deliver 64 2 c).chanIdle c 3 := if_pos hstop
    obtain ⟨h1, h2, h3⟩ := hidle ((s.descEnded c d).deliver 64 2 c) 3
    rw [hok, if_pos hstop]
    exact ⟨h1, h2, h3.trans hdone⟩
  · have hok : s.descOk c d = (((s.descEnded c d).deliver 64 2 c).chanIdle c 0).deliver 64 3 c :=
      (if_neg hstop).trans (if_pos (.inl (h.resolve_right hstop)))
    obtain ⟨h1, h2, h3⟩ := hidle ((s.descEnded c d).deliver 64 2 c) 0
    obtain ⟨h4, h5⟩ := deliver_idle hc h1 64 3 c
    rw [hok, if_neg hstop]
    refine ⟨h4, h5.trans h2, ?_⟩
    exact ((sent_deliver _ 64 3 c).reg _ (fun _ hq => dmaEntry_not_mem_eventRegs (by decide) hc hq) (dmaKey_not_logged (by decide) hc)).trans
      (h3.trans hdone)

/-- The chain goes on with the next descriptor (R411). -/
theorem descOk_next (hlast : d.last = false) (hstop : (s.chan c).stopReq = false) (hpaced : s.reg (R.dmaPaced c) = 0)
    (hrun : s.reg (R.dmaState c) = 2)
    (hcount : s.reg (R.dmaDescCount c) = 0xFFFFFFFF ∨ (s.chan c).ran + 1 < s.reg (R.dmaDescCount c)) :
    (s.descOk c d).reg (R.dmaState c) = 2 ∧ ((s.descOk c d).chan c).addr = d.next ∧ ((s.descOk c d).chan c).busy = false
      ∧ ((s.descOk c d).chan c).credit = true ∧ ((s.descOk c d).chan c).ran = (s.chan c).ran + 1 := by
  have hne1 : R.dmaState c ≠ R.descDone c := dmaKey_ne (by decide) c
  have hne2 : R.dmaDescCount c ≠ R.descDone c := dmaKey_ne (by decide) c
  have hok : s.descOk c d = ((s.descEnded c d).deliver 64 2 c).chanRun c :=
    (if_neg (by simp [hstop])).trans ((if_neg (by simp only [hlast, Bool.false_eq_true, false_or]; omega)).trans (if_pos hpaced))
  have hruns : (s.descEnded c d).Runs c ((s.descEnded c d).chan c) :=
    ⟨by rw [reg_descEnded, if_neg hne1, hrun], by rw [reg_descEnded, if_neg hne2]; omega, _, _, _, rfl⟩
  obtain ⟨-, -, a, n, p, hchan⟩ := deliver_running hc hruns 64 2 c
  rw [hok, reg_chanRun, if_pos rfl, chan_chanRun, hchan, chan_descEnded]
  exact ⟨rfl, rfl, rfl, rfl, rfl⟩

end

end Sys2Proof.Machine
end

section
/-! The DMA channels from their start to their end (R399 to R421). -/

namespace Sys2Proof.Machine

/-! ## Timers -/

theorem exec_dmaTimerFire {s : State} {i : Fin 16} {n : Nat} (hn : Tab.get none s.timerNext i.val = some n)
    (hon : s.reg (R.timerEnable i.val) = 1) (hdue : n ≤ s.frame * 4096 + s.slot) :
    ∃ nxt, exec (.dmaTimerFire i) s
        = .next (({ s with timerNext := Tab.set s.timerNext i.val nxt }.bump (R.timerFires i.val) 32).deliver 64 1 i.val)
      ∧ (s.reg (R.timerPeriod i.val) = 0 → nxt = none) := by
  refine ⟨if s.reg (R.timerPeriod i.val) = 0 then none
    else some (n + ((s.now - n) / s.reg (R.timerPeriod i.val) + 1) * s.reg (R.timerPeriod i.val)), ?_, fun h => if_pos h⟩
  show execDmaTimerFire i s = _
  unfold execDmaTimerFire
  dsimp only
  rw [hn]
  dsimp only
  have hnow : ¬ (s.reg (R.timerEnable i.val) = 0 ∨ s.now < n) := by
    unfold State.now
    omega
  rw [if_neg hnow]

/-- A timer's slot has come (R416). -/
theorem timerFire {s : State} {i : Fin 16} {n : Nat} (hn : Tab.get none s.timerNext i.val = some n)
    (hon : s.reg (R.timerEnable i.val) = 1) (hdue : n ≤ s.frame * 4096 + s.slot) :
    ∃ t, exec (.dmaTimerFire i) s = .next t ∧ t.reg (R.timerFires i.val) = (s.reg (R.timerFires i.val) + 1) % 2 ^ 32
      ∧ (s.reg (R.timerPeriod i.val) = 0 → Tab.get (some n) t.timerNext i.val = none)
      ∧ (∀ c < 64, s.reg (R.dmaTrigger c) = 1 → s.reg (R.dmaTriggerSource c) = i.val → s.reg (R.dmaState c) = 1 →
          s.reg (R.dmaDescCount c) ≠ 0 → t.reg (R.dmaState c) = 2)
      ∧ t.sram = s.sram ∧ t.dram = s.dram := by
  obtain ⟨nxt, hexec, hnxt⟩ := exec_dmaTimerFire hn hon hdue
  have hsent := sent_deliver ({ s with timerNext := Tab.set s.timerNext i.val nxt }.bump (R.timerFires i.val) 32) 64 1 i.val
  have hkey : ∀ c < 64, R.timerFires i.val ∉ eventRegs c := by
    intro c hc
    simp only [eventRegs, R.dmaState, R.dmaStatus, R.eventsIgnored, R.timerFires, regKey, List.mem_cons, List.not_mem_nil, or_false, not_or]
    omega
  have hlog : R.timerFires i.val ∉ logRegs := by
    have hi := i.isLt
    simp only [logRegs, R.logCount, R.logNextSeq, R.logOverwritten, R.eventsUnsent, R.timerFires, regKey, List.mem_cons, List.not_mem_nil,
      or_false, not_or]
    omega
  refine ⟨_, hexec, (hsent.reg _ hkey hlog).trans ?_, fun h => ?_, fun c hc htrig hsrc hst hcount => ?_, hsent.sram, hsent.dram⟩
  · rw [State.bump, reg_setReg, if_pos rfl]
    rfl
  · rw [hsent.timerNext]
    show Tab.get (some n) (Tab.set s.timerNext i.val nxt) i.val = none
    rw [tab_get_set, if_pos rfl, hnxt h]
  · have hreg (sub : Nat) (hsub : sub < 256) :
        ({ s with timerNext := Tab.set s.timerNext i.val nxt }.bump (R.timerFires i.val) 32).reg (regKey 0x6001 sub c)
          = s.reg (regKey 0x6001 sub c) := by
      have hne : regKey 0x6001 sub c ≠ R.timerFires i.val := by
        simp only [R.timerFires, regKey]
        omega
      rw [State.bump, reg_setReg, if_neg hne]
      rfl
    exact deliver_starts (by decide) hc ⟨(hreg 1 (by decide)).trans hst, fun h => hcount ((hreg 3 (by decide)).symm.trans h),
      (hreg 4 (by decide)).trans htrig, (hreg 5 (by decide)).trans hsrc⟩ 63

/-! ## Descriptors -/

/-- A valid descriptor that moves bytes is taken up (R399, R413). -/
theorem descriptorFetch_valid {s : State} {ch : ChanId} {l : List Byte} {t0 : State} (hrun : s.reg (R.dmaState ch.val) = 2)
    (hidle : (s.chan ch.val).busy = false) (hcredit : (s.chan ch.val).credit = true) (haddr : descAddr (s.chan ch.val).addr = true)
    (hready : ∀ w ∈ sramWords (bits (s.chan ch.val).addr 51 48) (bits (s.chan ch.val).addr 47 0) 48, s.bgReady w = true)
    (hread : (s.bgTry [5, ch.val] (sramWords (bits (s.chan ch.val).addr 51 48) (bits (s.chan ch.val).addr 47 0) 48)).1.readRange
      (s.chan ch.val).addr 48 = (l, [], t0))
    (hvalid : (t0.setReg (R.currentDesc ch.val) (s.ownAddr (s.chan ch.val).addr)).descInvalid (descFields (ofBytes 512 l)) = false)
    (hlen : (descFields (ofBytes 512 l)).len ≠ 0) :
    ∃ t : State, descriptorFetchNow ch s = .next t ∧ t.reg (R.currentDesc ch.val) = s.ownAddr (s.chan ch.val).addr
      ∧ (t.chan ch.val).busy = true ∧ (t.chan ch.val).desc = ofBytes 512 l ∧ (t.chan ch.val).segDone = []
      ∧ (t.chan ch.val).sent = 0 ∧ (t.chan ch.val).flagged = false ∧ t.sram = s.sram ∧ t.dram = s.dram := by
  obtain ⟨b, htry⟩ := bgTry_ready hready [5, ch.val]
  rw [htry] at hread
  have hstored : s.Stored t0 := by
    have h := stored_readRange { s with bgDone := b } (s.chan ch.val).addr 48
    rw [hread] at h
    exact (stored_bgDone s b).trans h
  have hfetch : descriptorFetchNow ch s = .next ((t0.setReg (R.currentDesc ch.val) (s.ownAddr (s.chan ch.val).addr)).modChan ch.val fun y =>
      (t0.setReg (R.currentDesc ch.val) (s.ownAddr (s.chan ch.val).addr)).takesUp ch.val { y with busy := true, desc := ofBytes 512 l }) := by
    unfold descriptorFetchNow
    dsimp only
    rw [if_neg (by simp [hrun, hidle, hcredit]), haddr, if_pos rfl, htry]
    dsimp only
    rw [hread]
    dsimp only
    rw [if_neg (by decide), if_neg (by decide), if_neg (by decide), hvalid, if_neg (by decide), if_neg hlen]
  refine ⟨_, hfetch, ?_, ?_⟩
  · rw [reg_modChan, reg_setReg, if_pos rfl]
  · rw [chan_modChan, if_pos rfl]
    exact ⟨rfl, rfl, rfl, rfl, rfl, hstored.sram, hstored.dram⟩

section
variable {s : State} {ch : ChanId} (hbusy : (s.chan ch.val).busy = true)
  (hall : (descFields (s.chan ch.val).desc).segs ≤ (s.chan ch.val).segDone.length)
  (hready : ∀ w ∈ sramWords (bits (s.chan ch.val).addr 51 48) (bits (s.chan ch.val).addr 47 0 + 48) 16, s.bgReady w = true)
include hbusy hall hready

/-- A descriptor whose segments have all ended well. -/
theorem descriptorComplete_ok (hok : ∀ y ∈ (s.chan ch.val).segDone, y.2 = 0) :
    ∃ b, descriptorCompleteNow ch s
      = .next ((({ s with bgDone := b } : State).writeBack (s.chan ch.val).addr 0 0 0).descOk ch.val (descFields (s.chan ch.val).desc)) := by
  obtain ⟨b, htry⟩ := bgTry_ready hready [6, ch.val]
  have hfails : (s.chan ch.val).segDone.filter (fun y => y.2 ≠ 0) = [] := List.filter_eq_nil_iff.mpr fun y hy => by simp [hok y hy]
  refine ⟨b, ?_⟩
  unfold descriptorCompleteNow
  dsimp only
  rw [if_neg (by simp only [hbusy, not_true_eq_false, false_or]; omega), htry, hfails]
  rfl

/-- One with a segment that failed (R407, R410). -/
theorem descriptorComplete_failed (hfail : ∃ y ∈ (s.chan ch.val).segDone, y.2 ≠ 0) :
    ∃ (u : State) (r : Nat), descriptorCompleteNow ch s
      = .next ((u.chanIdle ch.val (if ∃ y ∈ (s.chan ch.val).segDone, y.2 = 0 then 1 else 2)).event 0x6001 ch.val
          (dmaDetail r (s.ownAddr (s.chan ch.val).addr))) := by
  obtain ⟨b, htry⟩ := bgTry_ready hready [6, ch.val]
  obtain ⟨y, hy, hbad⟩ := hfail
  have hfails : (s.chan ch.val).segDone.filter (fun y => y.2 ≠ 0) ≠ [] := List.ne_nil_of_mem (List.mem_filter.mpr ⟨hy, by simpa using hbad⟩)
  have hlen : ((s.chan ch.val).segDone.filter (fun y => y.2 ≠ 0)).length < (s.chan ch.val).segDone.length
      ↔ ∃ y ∈ (s.chan ch.val).segDone, y.2 = 0 := by
    rw [List.length_filter_lt_length_iff_exists]
    simp
  have hend (u : State) (st : Nat) (hst : st ≠ 0) : u.endChain ch.val st = u.chanIdle ch.val st := if_neg hst
  unfold descriptorCompleteNow
  dsimp only
  rw [if_neg (by simp only [hbusy, not_true_eq_false, false_or]; omega), htry]
  dsimp only
  rw [if_neg (by decide), if_neg hfails, hend _ _ (by split <;> decide)]
  simp only [hlen]
  exact ⟨_, _, rfl⟩

end

/-! ## Segments -/

section
variable {s : State} {ch : ChanId} {seg : Fin 64} (hbusy : (s.chan ch.val).busy = true)
  (hseg : seg.val < (descFields (s.chan ch.val).desc).segs) (hopen : ∀ y ∈ (s.chan ch.val).segDone, y.1 ≠ seg.val)
  (hdst : (descFields (s.chan ch.val).desc).dstRemote = false) (hsrc : (descFields (s.chan ch.val).desc).srcRemote = false)
include hbusy hseg hopen hdst hsrc

/-- A local segment whose bytes are all moved ends. -/
theorem segmentDone_ends (hend : ((descFields (s.chan ch.val).desc).segRange seg.val).1 + ((descFields (s.chan ch.val).desc).segRange seg.val).2
      ≤ (s.chan ch.val).sent) :
    ∃ t, dmaSegmentDoneNow ch seg 0 s = .next t
      ∧ Tab.get 0xFF (t.chan ch.val).segDone seg.val = Tab.get 0 (s.chan ch.val).segBad seg.val ∧ { t with chans := s.chans } = s := by
  have hstep := segmentDone_local rfl hbusy hseg hopen hsrc hdst (u := s) (if_neg (by omega))
  rw [if_neg (by omega)] at hstep
  obtain ⟨w, hw⟩ := endLocal_zero s ch.val (descFields (s.chan ch.val).desc) seg.val
  refine ⟨_, hstep, ?_, ?_⟩
  · rw [hw, chan_modChan, if_pos rfl, tab_get_set, if_pos rfl]
  · rw [hw]
    rfl

/-- It waits for its channel's turn. -/
theorem segmentDone_waits_turn (hhi : (s.chan ch.val).sent < ((descFields (s.chan ch.val).desc).segRange seg.val).1
      + ((descFields (s.chan ch.val).desc).segRange seg.val).2) (hnext : s.dmaNext ≠ some ch.val) : dmaSegmentDoneNow ch seg 0 s = .next s := by
  have hstep := segmentDone_local rfl hbusy hseg hopen hsrc hdst (u := s) (if_neg fun h => hnext h.2)
  rwa [if_pos hhi] at hstep

variable (hlo : ((descFields (s.chan ch.val).desc).segRange seg.val).1 ≤ (s.chan ch.val).sent)
  (hhi : (s.chan ch.val).sent < ((descFields (s.chan ch.val).desc).segRange seg.val).1 + ((descFields (s.chan ch.val).desc).segRange seg.val).2)
  (hnext : s.dmaNext = some ch.val)
include hlo hhi hnext

/-- In its turn it waits for its banks. -/
theorem segmentDone_waits_banks (hfresh : ∀ y ∈ s.bgDone, y.1 ≠ [3, ch.val])
    (hbank : ∃ w ∈ (descFields (s.chan ch.val).desc).words (s.chan ch.val).sent
      ((descFields (s.chan ch.val).desc).turnBytes seg.val (s.chan ch.val).sent), s.bgReady w = false) :
    ∃ t, dmaSegmentDoneNow ch seg 0 s = .next t ∧ { t with bgDone := s.bgDone, dmaTurn := s.dmaTurn } = s
      ∧ ∃ y ∈ t.bgDone, y.1 = [3, ch.val] := by
  obtain ⟨w, hw, hbusyBank⟩ := hbank
  obtain ⟨b, htry⟩ := bgTry_waits hw hbusyBank hfresh
  have hturn := localTurn_waits rfl hbusy hsrc hdst hlo hhi hopen htry
  have hpumps := dmaPumps_local hsrc hdst hnext
  rw [hturn] at hpumps
  have hstep := segmentDone_local rfl hbusy hseg hopen hsrc hdst ((if_pos ⟨hhi, hnext⟩).trans hpumps)
  rw [if_pos (by exact hhi)] at hstep
  exact ⟨_, hstep, rfl, _, List.mem_cons_self .., rfl⟩

/-- In its turn, with its banks free, up to 4 KiB of it are moved between clean bytes of SRAM, and it ends with the last (R402, R404, R421). -/
theorem segmentDone_moves (hspace : bits (descFields (s.chan ch.val).desc).dst 51 48 = 0) (hclash : (s.chan ch.val).clash = [])
    (hmem : s.memoryOk = true) (hbad : Tab.get 0 (s.chan ch.val).segBad seg.val = 0) {k : Nat}
    (hk : (descFields (s.chan ch.val).desc).turnBytes seg.val (s.chan ch.val).sent = k)
    (hready : ∀ w ∈ (descFields (s.chan ch.val).desc).words (s.chan ch.val).sent k, s.bgReady w = true)
    (hclean : (descFields (s.chan ch.val).desc).fill = false → bits ((descFields (s.chan ch.val).desc).src + (s.chan ch.val).sent) 51 48 = 0
      ∧ ∀ j < k, (sramDecode (s.sram.read (bits ((descFields (s.chan ch.val).desc).src + (s.chan ch.val).sent) 47 0 + j))
        (s.sramChk.read (bits ((descFields (s.chan ch.val).desc).src + (s.chan ch.val).sent) 47 0 + j))).2 = .clean) :
    ∃ t, dmaSegmentDoneNow ch seg 0 s = .next t
      ∧ (t.chan ch.val).sent = (s.chan ch.val).sent + k ∧ t.dmaTurn = (ch.val + 1) % 64
      ∧ (if (s.chan ch.val).sent + k
            = ((descFields (s.chan ch.val).desc).segRange seg.val).1 + ((descFields (s.chan ch.val).desc).segRange seg.val).2
         then Tab.get 0xFF (t.chan ch.val).segDone seg.val = 0 else (t.chan ch.val).segDone = (s.chan ch.val).segDone)
      ∧ (∀ j < k, t.sram.read (bits (descFields (s.chan ch.val).desc).dst 47 0 + (s.chan ch.val).sent + j)
          = (s.pieceBytes (descFields (s.chan ch.val).desc) (s.chan ch.val).sent k).getD j 0)
      ∧ (∀ a, a < bits (descFields (s.chan ch.val).desc).dst 47 0 + (s.chan ch.val).sent
            ∨ bits (descFields (s.chan ch.val).desc).dst 47 0 + (s.chan ch.val).sent + k ≤ a → t.sram.read a = s.sram.read a)
      ∧ t.dram = s.dram ∧ t.memoryOk = true := by
  have hle : (s.chan ch.val).sent + k
      ≤ ((descFields (s.chan ch.val).desc).segRange seg.val).1 + ((descFields (s.chan ch.val).desc).segRange seg.val).2 := by
    rw [← hk]
    unfold Desc.turnBytes
    omega
  subst hk
  obtain ⟨b, htry⟩ := bgTry_ready hready [3, ch.val]
  obtain ⟨t, hmove, hchan, hdram, hok, hin, hout⟩ := movePiece_sram (s := { s with bgDone := b }) hmem hspace hclash hclean
  obtain ⟨l, hturn⟩ := localTurn_moves rfl hbusy hsrc hdst hlo hhi hopen htry hbad hmove
  have hpumps := dmaPumps_local hsrc hdst hnext
  rw [hturn] at hpumps
  have hstep := segmentDone_local rfl hbusy hseg hopen hsrc hdst ((if_pos ⟨hhi, hnext⟩).trans hpumps)
  have hchan : t.chan ch.val = s.chan ch.val := hchan
  generalize (descFields (s.chan ch.val).desc).turnBytes seg.val (s.chan ch.val).sent = k at *
  set u : State := { t.modChan ch.val (fun y => { y with sent := (s.chan ch.val).sent + k, was := y.was ++ l }) with
    dmaTurn := (ch.val + 1) % 64 } with hu
  have huchan : u.chan ch.val = { s.chan ch.val with sent := (s.chan ch.val).sent + k, was := (s.chan ch.val).was ++ l } := by
    have h := chan_modChan t ch.val (fun y => { y with sent := (s.chan ch.val).sent + k, was := y.was ++ l }) ch.val
    rw [if_pos rfl, hchan] at h
    exact h
  have husram : u.sram = t.sram := rfl
  have hudram : u.dram = t.dram := rfl
  have huturn : u.dmaTurn = (ch.val + 1) % 64 := rfl
  have huok : u.memoryOk = true := hok
  clear_value u
  rw [huchan] at hstep
  by_cases hlast : (s.chan ch.val).sent + k
      = ((descFields (s.chan ch.val).desc).segRange seg.val).1 + ((descFields (s.chan ch.val).desc).segRange seg.val).2
  · rw [if_neg (by simp only; omega)] at hstep
    obtain ⟨w, hw⟩ := endLocal_zero u ch.val (descFields (s.chan ch.val).desc) seg.val
    rw [hw, huchan] at hstep
    refine ⟨_, hstep, ?_, huturn, ?_, fun j hj => ?_, fun a ha => ?_, ?_, huok⟩
    · rw [chan_modChan, if_pos rfl, huchan]
    · rw [if_pos hlast, chan_modChan, if_pos rfl, tab_get_set, if_pos rfl]
      exact hbad
    · exact (congrArg (Memory.read · _) husram).trans (hin j hj)
    · exact (congrArg (Memory.read · _) husram).trans (hout a ha)
    · exact hudram.trans hdram
  · rw [if_pos (by simp only; omega)] at hstep
    refine ⟨u, hstep, by rw [huchan], huturn, ?_, fun j hj => ?_, fun a ha => ?_, hudram.trans hdram, huok⟩
    · rw [if_neg hlast, huchan]
    · rw [husram]
      exact hin j hj
    · rw [husram]
      exact hout a ha

end

/-- A segment that waited too long for an answer (R407). -/
theorem remoteTimeout {s : State} {ch : ChanId} {seg : Fin 64} (hbusy : (s.chan ch.val).busy = true)
    (hopen : ∀ y ∈ (s.chan ch.val).segDone, y.1 ≠ seg.val) (hout : Tab.get 0 (s.chan ch.val).segOut seg.val ≠ 0)
    (hbad : Tab.get 0 (s.chan ch.val).segBad seg.val = 0) {d : Desc} (hd : descFields (s.chan ch.val).desc = d) {o n : Nat}
    (ho : (d.segRange seg.val).1 = o) (hn : (d.segRange seg.val).2 = n) :
    ∃ t : State, dmaRemoteTimeoutNow ch seg s = .next t ∧ Tab.get 1 (t.chan ch.val).segOut seg.val = 0
      ∧ (∀ y, y ∈ t.slots ↔ y ∈ s.slots ∧ ¬ ((y.kind = 3 ∨ y.kind = 4 ∨ y.kind = 7) ∧ y.core = ch.val ∧ y.q = seg.val))
      ∧ (d.srcRemote = false → t.regs = s.regs ∧ t.sram = s.sram)
      ∧ (d.srcRemote = false ∨ (∀ w ∈ d.words o n, s.bgReady w = true) → Tab.get 0 (t.chan ch.val).segDone seg.val = 5)
      ∧ (d.srcRemote = true → (∃ w ∈ d.words o n, s.bgReady w = false) → (∀ y ∈ s.bgDone, y.1 ≠ [4, ch.val, seg.val]) →
          (t.chan ch.val).segDone = (s.chan ch.val).segDone ∧ Tab.get 0 (t.chan ch.val).segBad seg.val = 5 ∧ t.sram = s.sram
            ∧ t.dram = s.dram) := by
  obtain ⟨b, ok, htry⟩ := bgTry_cases (s.timedOut ch.val seg.val) [4, ch.val, seg.val] (d.landWords o n)
  have hready : (d.srcRemote = false ∨ ∀ w ∈ d.words o n, s.bgReady w = true) → ok = true := by
    intro h
    obtain ⟨b', htry'⟩ := bgTry_ready (s := s.timedOut ch.val seg.val) (l := d.landWords o n) (fun w hw => by
      rw [bgReady_timedOut]
      unfold Desc.landWords at hw
      split at hw
      · next hs => exact (h.resolve_left (by rw [hs]; decide)) w hw
      · exact absurd hw List.not_mem_nil) [4, ch.val, seg.val]
    exact (Prod.mk.inj (htry.symm.trans htry')).2
  have hwaits : d.srcRemote = true → (∃ w ∈ d.words o n, s.bgReady w = false) → (∀ y ∈ s.bgDone, y.1 ≠ [4, ch.val, seg.val]) → ok = false := by
    rintro hs ⟨w, hw, hbank⟩ hfresh
    have hland : d.landWords o n = d.words o n := if_pos hs
    obtain ⟨b', htry'⟩ := bgTry_waits (s := s.timedOut ch.val seg.val) (l := d.landWords o n) (key := [4, ch.val, seg.val]) (w := w)
      (by rw [hland]; exact hw) hbank hfresh
    exact (Prod.mk.inj (htry.symm.trans htry')).2
  have hchan : ({ s.timedOut ch.val seg.val with bgDone := b } : State).chan ch.val = (s.timedOut ch.val seg.val).chan ch.val := rfl
  rw [chan_timedOut] at hchan
  have htry' : (s.timedOut ch.val seg.val).bgTry [4, ch.val, seg.val] ((descFields (s.chan ch.val).desc).landWords
      ((descFields (s.chan ch.val).desc).segRange seg.val).1 ((descFields (s.chan ch.val).desc).segRange seg.val).2)
      = ({ s.timedOut ch.val seg.val with bgDone := b }, ok) := by
    rw [hd, ho, hn]
    exact htry
  have hstep := remoteTimeout_step hbusy hopen hout hbad htry'
  have hslots (y : ReplySlot) : y ∈ ({ s.timedOut ch.val seg.val with bgDone := b } : State).slots
      ↔ y ∈ s.slots ∧ ¬ ((y.kind = 3 ∨ y.kind = 4 ∨ y.kind = 7) ∧ y.core = ch.val ∧ y.q = seg.val) := mem_slots_timedOut s ch.val seg.val y
  have hregs : ({ s.timedOut ch.val seg.val with bgDone := b } : State).regs = s.regs := rfl
  have hsram : ({ s.timedOut ch.val seg.val with bgDone := b } : State).sram = s.sram := rfl
  have hdram : ({ s.timedOut ch.val seg.val with bgDone := b } : State).dram = s.dram := rfl
  generalize ({ s.timedOut ch.val seg.val with bgDone := b } : State) = u at *
  rw [hd] at hstep
  cases ok with
  | true =>
    obtain ⟨v, hv, hvslots, hvsame⟩ := endRemote_fails u ch.val d seg.val (r := 5) (by decide)
    rw [if_pos rfl, hv] at hstep
    refine ⟨_, hstep, ?_, fun y => ?_, fun hs => ?_, fun _ => ?_, fun hs hbank hfresh => absurd (hwaits hs hbank hfresh) (by decide)⟩
    · rw [chan_modChan, if_pos rfl, tab_get_set, if_pos rfl]
    · have hvmod : (v.modChan ch.val fun y => { y with
        edges := [], segOut := Tab.set y.segOut seg.val 0, segDone := Tab.set y.segDone seg.val 5 }).slots = v.slots := rfl
      rw [hvmod, hvslots]
      exact hslots y
    · rw [hvsame hs]
      exact ⟨hregs, hsram⟩
    · rw [chan_modChan, if_pos rfl, tab_get_set, if_pos rfl]
  | false =>
    rw [if_neg (by decide)] at hstep
    refine ⟨u, hstep, ?_, hslots, fun _ => ⟨hregs, hsram⟩, fun h => absurd (hready h) (by decide), fun _ _ _ => ⟨?_, ?_, hsram, hdram⟩⟩
    · rw [hchan, tab_get_set, if_pos rfl]
    · rw [hchan]
    · rw [hchan, tab_get_set, if_pos rfl]

/-! ## The obligation -/

theorem exec_dmaStart {s t : State} {src : OdSrc} {data : List Byte} (h : s.takes src (R.dmaStart 0) data = true)
    (hwrite : writeDmaStart data s = t.wOk) : exec (.dmaStart src data) s = .next t.ok :=
  rowWrite_wOk h (by decide) (by decide) (by decide) (k' := R.dmaStart 0) (f := writeDmaStart) rfl hwrite

theorem exec_dmaStop {s t : State} {src : OdSrc} {data : List Byte} (h : s.takes src (R.dmaStop 0) data = true)
    (hwrite : writeDmaStop data s = t.wOk) : exec (.dmaStop src data) s = .next t.ok :=
  rowWrite_wOk h (by decide) (by decide) (by decide) (k' := R.dmaStop 0) (f := writeDmaStop) rfl hwrite

theorem exec_dmaTimerEnable {s t : State} {src : OdSrc} {data : List Byte} (h : s.takes src (R.timerEnable 0) data = true)
    (hwrite : writeTimerEnable data s = t.wOk) : exec (.dmaTimerEnable src data) s = .next t.ok :=
  rowWrite_wOk h (by decide) (by decide) (by decide) (k' := R.timerEnable 0) (f := writeTimerEnable) rfl hwrite

/-- Settles O45: a channel's commands one by one, from its start to the end of its chain. -/
theorem dmaChannels : Obligations.DmaChannels := by
  unfold Obligations.DmaChannels
  intro src data s hs
  refine ⟨fun c hc => ⟨fun h _ hidle hcount => ?_, fun h _ harmed => ?_, fun h _ hrun hbusy => ?_⟩, fun i hi h _ hdata => ?_,
    fun i n hn hon hdue => timerFire hn hon hdue, fun ch l t0 hrun hidle hcredit haddr => ?_, fun ch seg => ?_, fun ch => ?_⟩
  · obtain ⟨t, hwrite, h1, h2, h3, h4, h5⟩ := dmaStart_idle hc hidle hcount data
    exact ⟨t.ok, exec_dmaStart h hwrite, rfl, h1, h2, h3, h4, h5⟩
  · exact ⟨_, exec_dmaStop h (dmaStop_armed hc harmed data), rfl, reg_chanIdle_state s c 3, reg_chanIdle_status s c 3⟩
  · obtain ⟨t, hwrite, h1, h2, h3⟩ := dmaStop_running hc hrun hbusy data
    exact ⟨t.ok, exec_dmaStop h hwrite, rfl, h1, h2, h3⟩
  · obtain ⟨t, hwrite, h1, h2, h3⟩ := timerEnable_on hi hdata
    exact ⟨t.ok, exec_dmaTimerEnable h hwrite, rfl, h1, h2, h3⟩
  · intro words hready hread here hvalid hlen
    rw [exec_descriptorFetch hs]
    exact descriptorFetch_valid hrun hidle hcredit haddr hready hread hvalid hlen
  · intro x d hbusy hseg hopen o n local' at' from' k
    rw [exec_dmaSegmentDone hs, exec_dmaRemoteTimeout hs]
    refine ⟨fun ⟨hdst, hsrc⟩ hend => segmentDone_ends hbusy hseg hopen hdst hsrc hend,
      fun ⟨hdst, hsrc⟩ _ hhi hnext => segmentDone_waits_turn hbusy hseg hopen hdst hsrc hhi hnext,
      fun ⟨hdst, hsrc⟩ hlo hhi hnext => ⟨fun hspace hclash hmem hbad _ hready hclean => ?_, fun hfresh hbank =>
        segmentDone_waits_banks hbusy hseg hopen hdst hsrc hlo hhi hnext hfresh hbank⟩,
      fun hsrc hdst hend hout => ?_, fun hout hbad => remoteTimeout hbusy hopen hout hbad rfl rfl rfl⟩
    · obtain ⟨t, h1, h2, h3, h4, h5, h6⟩ := segmentDone_moves hbusy hseg hopen hdst hsrc hlo hhi hnext hspace hclash hmem hbad (k := k) rfl
        hready hclean
      exact ⟨t, h1, h2, h3, h4, fun j hj => (h5 j hj).trans (getD_pieceBytes s d x.sent hj), h6⟩
    · refine ⟨_, segmentDone_remote rfl hbusy hseg hopen hsrc hdst hend hout, ?_, rfl⟩
      rw [chan_modChan, if_pos rfl, tab_get_set, if_pos rfl]
  · intro x d hbusy hall hrun hready
    rw [exec_descriptorComplete hs]
    have hback (b : List (List Nat × List Nat)) (sub : Nat) (hsub : sub < 256) :
        (({ s with bgDone := b } : State).writeBack x.addr 0 0 0).reg (regKey 0x6001 sub ch.val) = s.reg (regKey 0x6001 sub ch.val) :=
      reg_writeBack (s := { s with bgDone := b }) ch.isLt hsub _ _ _ _
    have hbackChan (b : List (List Nat × List Nat)) : (({ s with bgDone := b } : State).writeBack x.addr 0 0 0).chan ch.val = x :=
      chan_writeBack { s with bgDone := b } _ _ _ _ _
    refine ⟨fun hok hend => ?_, fun hok hlast hstop hpaced hcount => ?_, fun hfail => ?_⟩
    · obtain ⟨b, hstep⟩ := descriptorComplete_ok hbusy hall hready hok
      obtain ⟨h1, h2, h3⟩ := descOk_ends (s := ({ s with bgDone := b } : State).writeBack x.addr 0 0 0) ch.isLt (d := d)
        (by rw [hbackChan]; exact hend)
      rw [hbackChan] at h2
      exact ⟨_, hstep, h1, h2, h3.trans (congrArg (fun v => (v + 1) % 2 ^ 32) (hback b 13 (by decide)))⟩
    · obtain ⟨b, hstep⟩ := descriptorComplete_ok hbusy hall hready hok
      obtain ⟨h1, h2, h3, h4, h5⟩ := descOk_next (s := ({ s with bgDone := b } : State).writeBack x.addr 0 0 0) ch.isLt (d := d) hlast
        (by rw [hbackChan]; exact hstop) ((hback b 6 (by decide)).trans hpaced) ((hback b 1 (by decide)).trans hrun)
        (by rw [hbackChan]; exact (hback b 3 (by decide) : _ = s.reg (R.dmaDescCount ch.val)) ▸ hcount)
      rw [hbackChan] at h5
      exact ⟨_, hstep, h1, h2, h3, h4, h5⟩
    · obtain ⟨u, r, hstep⟩ := descriptorComplete_failed hbusy hall hready hfail
      refine ⟨_, hstep, ?_, ?_, r, logged_event _ _ _ _⟩
      · exact (reg_event _ _ _ _ _ (dmaKey_not_logged (by decide) ch.isLt)).trans (reg_chanIdle_state _ _ _)
      · exact (reg_event _ _ _ _ _ (dmaKey_not_logged (by decide) ch.isLt)).trans (reg_chanIdle_status _ _ _)

end Sys2Proof.Machine
end

section
/-! The V slot's operations at issue: vector results, predicate bits and their flags on the way (R105 to R117, R125, R128 to R130, R134). -/

namespace Sys2Proof.Machine

/-! ## A vector result -/

/-- An operation whose lanes are computed one by one has each lane's result on the way. -/
theorem exec_lanes {i : Instr} {core : CoreId} {b : BitVec 256} (hb : asBundle i = some (core, b)) {s : State}
    (h : s.canIssue core.val b = true) {lat : Nat} {f : OpCtx → Nat → Nat × StFlags}
    (hV : ∀ n, runV (s.ctx core.val b .v) n
      = (s.ctx core.val b .v).put n lat (lanewise (s.ctx core.val b .v).on (f (s.ctx core.val b .v)))) :
    ∃ t, exec i s = .next t ∧ s.lanesComing t core.val b lat f := by
  obtain ⟨sc, he⟩ := exec_runs hb h
  exact ⟨_, he, lanesComing_runIssue s core.val b sc lat f hV⟩

/-- An operation on the whole vector has its result on the way. -/
theorem exec_result {i : Instr} {core : CoreId} {b : BitVec 256} (hb : asBundle i = some (core, b)) {s : State}
    (h : s.canIssue core.val b = true) {lat : Nat} {f : OpCtx → VOut}
    (hV : ∀ n, runV (s.ctx core.val b .v) n = (s.ctx core.val b .v).put n lat (f (s.ctx core.val b .v))) :
    ∃ t, exec i s = .next t ∧ s.resultComing t core.val b lat f := by
  obtain ⟨sc, he⟩ := exec_runs hb h
  exact ⟨_, he, resultComing_runIssue s core.val b sc lat f hV⟩

/-- The operation code that a slot of a command's bundle holds. -/
theorem ctx_withSlot_op (s : State) (c : Nat) (rest : BitVec 256) (u : Slot) {op : Nat} (w : BitVec 58) (h : op < 64) :
    (s.ctx c (withSlot rest u op w) u).x.op = op := slotOf_op rest u op w h

/-- The lane operations by their codes. -/
theorem runV_lanes (s : State) (c : Nat) (rest : BitVec 256) (w : BitVec 58) :
    runV (s.ctx c (withSlot rest .v 1 w) .v) = opFop (s.ctx c (withSlot rest .v 1 w) .v)
      ∧ runV (s.ctx c (withSlot rest .v 3 w) .v) = opIop (s.ctx c (withSlot rest .v 3 w) .v)
      ∧ runV (s.ctx c (withSlot rest .v 8 w) .v) = opSfu (s.ctx c (withSlot rest .v 8 w) .v)
      ∧ runV (s.ctx c (withSlot rest .v 9 w) .v) = opRng (s.ctx c (withSlot rest .v 9 w) .v)
      ∧ runV (s.ctx c (withSlot rest .v 12 w) .v) = opPerm (s.ctx c (withSlot rest .v 12 w) .v) := by
  refine ⟨?_, ?_, ?_, ?_, ?_⟩ <;> (funext n; simp [runV, ctx_withSlot_op])

/-- Settles O1: each operation puts a lane-by-lane result, which `lanesComing_runIssue` finds on the way after the issue. -/
theorem laneOperations : Obligations.LaneOperations := by
  unfold Obligations.LaneOperations
  intro core w rest s
  obtain ⟨hfop, hiop, hsfu, hrng, hperm⟩ := runV_lanes s core.val rest w
  refine ⟨fun h => ?_, fun h => ?_, fun h => ?_, fun h => ?_, fun h => ?_⟩
  · exact exec_lanes (i := .fop core w rest) rfl h (congrFun hfop)
  · exact exec_lanes (i := .iop core w rest) rfl h (congrFun hiop)
  · exact exec_lanes (i := .sfu core w rest) rfl h (congrFun hsfu)
  · exact exec_lanes (i := .rng core w rest) rfl h (congrFun hrng)
  · exact exec_lanes (i := .perm core w rest) rfl h (congrFun hperm)

/-- The conversions and W128 operations by their codes. -/
theorem runV_conversions (s : State) (c : Nat) (rest : BitVec 256) (w : BitVec 58) :
    runV (s.ctx c (withSlot rest .v 5 w) .v) = opCvt (s.ctx c (withSlot rest .v 5 w) .v)
      ∧ runV (s.ctx c (withSlot rest .v 6 w) .v) = opQuant (s.ctx c (withSlot rest .v 6 w) .v)
      ∧ runV (s.ctx c (withSlot rest .v 7 w) .v) = opDequant (s.ctx c (withSlot rest .v 7 w) .v)
      ∧ runV (s.ctx c (withSlot rest .v 10 w) .v) = opWadd (s.ctx c (withSlot rest .v 10 w) .v)
      ∧ runV (s.ctx c (withSlot rest .v 11 w) .v) = opWcvt (s.ctx c (withSlot rest .v 11 w) .v) := by
  refine ⟨?_, ?_, ?_, ?_, ?_⟩ <;> (funext n; simp [runV, ctx_withSlot_op])

/-- Settles O3: each operation puts its whole result, which `resultComing_runIssue` finds on the way after the issue. -/
theorem conversionOperations : Obligations.ConversionOperations := by
  unfold Obligations.ConversionOperations
  intro core w rest s
  obtain ⟨hcvt, hquant, hdequant, hwadd, hwcvt⟩ := runV_conversions s core.val rest w
  refine ⟨fun h => ?_, fun h => ?_, fun h => ?_, fun h => ?_, fun h => ?_⟩
  · exact exec_result (i := .cvt core w rest) rfl h (congrFun hcvt)
  · exact exec_result (i := .quant core w rest) rfl h (congrFun hquant)
  · exact exec_result (i := .dequant core w rest) rfl h (congrFun hdequant)
  · exact exec_result (i := .wadd core w rest) rfl h (congrFun hwadd)
  · exact exec_result (i := .wcvt core w rest) rfl h (congrFun hwcvt)

/-! ## A predicate result -/

/-- Bits packed into a number, the first one lowest, are its bits. -/
theorem testBit_packBits (l : List (Bool × StFlags)) (k : Nat) :
    (l.reverse.foldl (fun (a : Nat) (x : Bool × StFlags) => 2 * a + x.1.toNat) 0).testBit k = (l.getD k (false, 0)).1 := by
  rw [List.foldl_reverse]
  induction l generalizing k with
  | nil => simp
  | cons x l ih =>
    rw [List.foldr_cons, ← Nat.bit_val]
    cases k with
    | zero => simp
    | succ k => rw [Nat.testBit_bit_succ, ih, List.getD_cons_succ]

/-- The predicate register's bits that a lane-by-lane predicate result writes. -/
def OpCtx.predBits (o : OpCtx) (f : Nat → Bool × StFlags) : BitVec 64 :=
  BitVec.ofNat 64 (((List.range 64).map fun k => if o.on.getLsbD k then f k else (false, 0)).reverse.foldl
    (fun a x => 2 * a + x.1.toNat) 0)

theorem getLsbD_predBits (o : OpCtx) (f : Nat → Bool × StFlags) {k : Nat} (hk : k < 64) (hon : o.on.getLsbD k = true) :
    (o.predBits f).getLsbD k = (f k).1 := by
  rw [OpCtx.predBits, BitVec.getLsbD_ofNat, testBit_packBits, List.getD_eq_getElem?_getD]
  simp [hk, hon]

theorem mem_putP (o : OpCtx) (n : Core) (lat : Nat) (f : Nat → Bool × StFlags) :
    (⟨o.beat + lat, .preg (o.x.f 51 49) o.on (o.predBits f)⟩ : Pend) ∈ (o.putP n lat f).pend := by
  obtain ⟨l, v, he, hmem, rfl⟩ := putP_eq o n lat f
  rw [he]
  exact List.mem_append_right _ hmem

/-- A predicate operation has the bits of the lanes that are on, and no other, on the way. -/
theorem exec_bits {i : Instr} {core : CoreId} {b : BitVec 256} (hb : asBundle i = some (core, b)) {s : State}
    (h : s.canIssue core.val b = true) {lat : Nat} {f : OpCtx → Nat → Bool} {g : Nat → Bool × StFlags}
    (hV : ∀ n, runV (s.ctx core.val b .v) n = (s.ctx core.val b .v).putP n lat g)
    (hg : ∀ k, (g k).1 = f (s.ctx core.val b .v) k) : ∃ t, exec i s = .next t ∧ s.bitsComing t core.val b lat f := by
  obtain ⟨sc, he⟩ := exec_runs hb h
  refine ⟨_, he, (s.ctx core.val b .v).predBits g, ?_, fun k hk hon => (getLsbD_predBits _ g hk hon).trans (hg k)⟩
  refine pend_runV s core.val b sc _ (fun n => ?_) (.inl rfl)
  rw [hV]
  exact mem_putP _ n lat g

/-- POP, bit by bit. -/
theorem opPop_eq (o : OpCtx) (n : Core) : opPop o n = o.putP n 1 fun k =>
    (let a := (o.k.preg (o.x.f 46 44)).getLsbD k
     let b := (o.k.preg (o.x.f 41 39)).getLsbD k
     if o.fn = 0 then a && b else if o.fn = 1 then a || b else if o.fn = 2 then a != b else a && !b, 0) := by
  unfold opPop
  dsimp only
  congr 1
  funext k
  split
  case h_1 h => simp [h]
  case h_2 h => simp [h]
  case h_3 h => simp [h]
  case h_4 h0 h1 h2 =>
    simp only [BitVec.getLsbD_and, BitVec.getLsbD_not]
    rw [if_neg h0, if_neg h1, if_neg h2]
    by_cases hk : k < 64
    · simp [hk]
    · simp [BitVec.getLsbD_of_ge _ k (Nat.le_of_not_lt hk)]

/-- The predicate operations by their codes. -/
theorem runV_predicates (s : State) (c : Nat) (rest : BitVec 256) (w : BitVec 58) :
    runV (s.ctx c (withSlot rest .v 2 w) .v) = opFcmp (s.ctx c (withSlot rest .v 2 w) .v)
      ∧ runV (s.ctx c (withSlot rest .v 4 w) .v) = opIcmp (s.ctx c (withSlot rest .v 4 w) .v)
      ∧ runV (s.ctx c (withSlot rest .v 13 w) .v) = opPop (s.ctx c (withSlot rest .v 13 w) .v) := by
  refine ⟨?_, ?_, ?_⟩ <;> (funext n; simp [runV, ctx_withSlot_op])

/-- Settles O2: each operation's predicate result has the bits of the lanes that are on, POP's by `opPop_eq`. -/
theorem predicateOperations : Obligations.PredicateOperations := by
  unfold Obligations.PredicateOperations
  intro core w rest s
  obtain ⟨hfcmp, hicmp, hpop⟩ := runV_predicates s core.val rest w
  refine ⟨fun h => ?_, fun h => ?_, fun h => ?_⟩
  · exact exec_bits (i := .fcmp core w rest) rfl h (congrFun hfcmp) fun _ => rfl
  · exact exec_bits (i := .icmp core w rest) rfl h (congrFun hicmp) fun _ => rfl
  · exact exec_bits (i := .pop core w rest) rfl h (fun n => (congrFun hpop n).trans (opPop_eq _ n)) fun _ => rfl

end Sys2Proof.Machine
end

section
/-! The M slot at issue: what MMA, MCLR and RDOUT do to the accumulators, and RDOUT's result on the way (R88 to R90, R95, R126, R127). -/

namespace Sys2Proof.Machine

/-! ## Accumulators -/

/-- Entries `0` to `n - 1` of a table changed in their order, each from its own value. -/
theorem tab_get_foldl_set {α : Type} (d : α) (f : Nat → α → α) (t : Tab α) (n j : Nat) :
    Tab.get d ((List.range n).foldl (fun m i => Tab.set m i (f i (Tab.get d m i))) t) j
      = if j < n then f j (Tab.get d t j) else Tab.get d t j := by
  induction n with
  | zero => simp
  | succ n ih =>
    rw [List.range_succ, List.foldl_append, List.foldl_cons, List.foldl_nil, tab_get_set]
    by_cases hj : j = n
    · subst hj
      simp [ih]
    · rw [if_neg hj, ih]
      simp [show j < n + 1 ↔ j < n by omega]

/-- An MMA adds its column's products to each accumulator (R89). -/
theorem get_mmaAccs (va : Vec) (t : Tile) (ta tb depth : Nat) (acc : Tab ExAcc) {j : Nat} (hj : j < 32) :
    Tab.get {} (mmaAccs va t ta tb depth acc) j = (Tab.get {} acc j : ExAcc).add (columnTerm va t ta tb depth j) := by
  unfold mmaAccs
  dsimp only
  rw [tab_get_foldl_set {} (fun i (a : ExAcc) => a.add (columnTerm va t ta tb depth i)), if_pos hj]

/-- A readout with clear clears all accumulators, or the fifteen that a W128 readout names (R127). -/
theorem get_readoutClear (acc : Tab ExAcc) (fmt col j : Nat) :
    Tab.get {} (readoutClear acc fmt col) j
      = if fmt ≠ 3 ∨ (col ≤ j ∧ j < col + 15) then ({} : ExAcc) else Tab.get {} acc j := by
  unfold readoutClear
  by_cases hfmt : fmt = 3
  · rw [if_pos hfmt, tab_get_filter {} acc (fun k => decide (k < col ∨ col + 15 ≤ k))]
    by_cases hkeep : j < col ∨ col + 15 ≤ j
    · rw [if_pos (by simpa using hkeep), if_neg (by omega)]
    · rw [if_neg (by simpa using hkeep), if_pos (by omega)]
  · simp [hfmt]

/-! ## The M slot's operations -/

theorem acc_opMma (o : OpCtx) (n : Core) : (opMma o n).acc
    = if o.isOn then mmaAccs (o.k.vreg (o.x.f 53 49)) (o.k.tileAt (o.x.f 48 48)) (o.x.f 47 44) (o.x.f 43 40)
        ((pairDepth (o.x.f 47 44) (o.x.f 43 40)).getD 0) n.acc
      else n.acc := by
  cases hon : o.isOn <;> simp [opMma, hon]

theorem acc_opMclr (o : OpCtx) (n : Core) : (opMclr o n).acc = if o.isOn then [] else n.acc := by
  cases hon : o.isOn <;> simp [opMclr, hon]

theorem acc_opRdout (o : OpCtx) (n : Core) : (opRdout o n).acc
    = if o.isOn ∧ o.x.f 44 44 = 1 then readoutClear n.acc (o.x.f 48 47) (o.x.f 43 39) else n.acc := by
  unfold opRdout
  dsimp only
  by_cases hon : o.isOn = true
  · by_cases hclear : o.x.f 44 44 = 1
    · simp [hon, hclear]
    · simp only [hon, hclear, if_true, if_false, and_false]
      split <;> rfl
  · simp [hon]

/-- RDOUT's result on the way (R95). -/
theorem mem_opRdout (o : OpCtx) (n : Core) (hon : o.isOn = true) : (⟨o.beat + 4, .vreg (o.x.f 53 49) (BitVec.allOnes 2048)
    (readoutVec n.acc (o.x.f 48 47) (o.x.f 43 39) (rndOf (o.x.f 46 45)) (sext 16 (o.x.f 38 23))).1⟩ : Pend) ∈ (opRdout o n).pend := by
  unfold opRdout
  dsimp only
  rw [if_pos hon]
  split <;> split <;> simp [Core.later]

/-! ## After the issue -/

/-- The accumulators after the issue are those the M slot's operation leaves. -/
theorem acc_runIssue (s : State) (c : Nat) (b : BitVec 256) (sc : List (SbUnit × Nat)) :
    ((s.runIssue c b sc).core c).acc = (runM (s.ctx c b .m) { s.core c with score := sc }).acc := by
  have hkept := (kept_runV 0 (s.ctx c b .c).x.op (s.ctx c b .v) (runM (s.ctx c b .m) { s.core c with score := sc })).trans
    (kept_runC 0 (s.ctx c b .c) _)
  have hcore := congrArg Core.acc (core_runIssue s c b sc)
  rw [runBundle_fields] at hcore
  exact hcore.trans (hkept.acc rfl)

/-- A vector result of the M slot is on the way after the issue. -/
theorem pend_runM (s : State) (c : Nat) (b : BitVec 256) (sc : List (SbUnit × Nat)) {p : Pend} (hflag : p.isFlag = false)
    (hp : p ∈ (runM (s.ctx c b .m) { s.core c with score := sc }).pend) : p ∈ ((s.runIssue c b sc).core c).pend := by
  obtain ⟨l, hV⟩ := runV_eq (s.ctx c b .v) (runM (s.ctx c b .m) { s.core c with score := sc })
  apply pend_runIssue
  rw [runBundle_fields]
  refine mem_runC _ _ _ ?_ (.inl hflag)
  rw [hV]
  exact List.mem_append_left _ hp

/-- The M slot's operations by their codes. -/
theorem runM_withSlot (s : State) (c : Nat) (rest : BitVec 256) (w : BitVec 58) :
    runM (s.ctx c (withSlot rest .m 1 w) .m) = opMma (s.ctx c (withSlot rest .m 1 w) .m)
      ∧ runM (s.ctx c (withSlot rest .m 2 w) .m) = opMclr (s.ctx c (withSlot rest .m 2 w) .m)
      ∧ runM (s.ctx c (withSlot rest .m 3 w) .m) = opRdout (s.ctx c (withSlot rest .m 3 w) .m) := by
  refine ⟨?_, ?_, ?_⟩ <;> (funext n; simp [runM, ctx_withSlot_op])

/-- Settles O4: the accumulators after the issue are those of the M slot's operation, which nothing else of the bundle changes. -/
theorem matrixOperations : Obligations.MatrixOperations := by
  unfold Obligations.MatrixOperations
  intro core w rest s
  obtain ⟨hmma, hmclr, hrdout⟩ := runM_withSlot s core.val rest w
  refine ⟨fun h => ?_, fun h => ?_, fun h => ?_⟩
  · obtain ⟨sc, he⟩ := exec_runs (i := .mma core w rest) rfl h
    refine ⟨_, he, fun j hj => ?_⟩
    rw [acc_runIssue, hmma, acc_opMma]
    split
    · exact get_mmaAccs _ _ _ _ _ _ hj
    · rfl
  · obtain ⟨sc, he⟩ := exec_runs (i := .mclr core w rest) rfl h
    refine ⟨_, he, fun j _ => ?_⟩
    rw [acc_runIssue, hmclr, acc_opMclr]
    split <;> rfl
  · obtain ⟨sc, he⟩ := exec_runs (i := .rdout core w rest) rfl h
    refine ⟨_, he, fun hon => ⟨_, pend_runM s core.val _ sc rfl ?_, rfl⟩, fun j _ => ?_⟩
    · rw [hrdout]
      exact mem_opRdout _ { s.core core.val with score := sc } hon
    · rw [acc_runIssue, hrdout, acc_opRdout]
      by_cases hclear : (s.ctx core.val (withSlot rest .m 3 w) .m).isOn ∧ (s.ctx core.val (withSlot rest .m 3 w) .m).x.f 44 44 = 1
      · simp only [hclear, if_true, and_self, true_and]
        exact get_readoutClear _ _ _ _
      · rw [if_neg hclear, if_neg (fun ⟨hon, hbit, _⟩ => hclear ⟨hon, hbit⟩)]

end Sys2Proof.Machine
end

section
/-! The C slot at issue: what its bundle has passed, the core it finds, and the core it leaves (R121, R131, R132, R136, R141, R143). -/

namespace Sys2Proof.Machine

/-! ## The checks that a bundle has passed -/

/-- A bundle that passes its checks breaks no condition of R132, and every slot of it is scheduled (R141). -/
theorem check_passed {s : State} {c : Nat} {b : BitVec 256} {sc : List (SbUnit × Nat)} (h : s.check c b = .inr sc) :
    (s.core c).illegal b = none ∧ (s.core c).schedule b (s.region (c / 64)).beat [.m, .v, .l, .c] (s.core c).score = .inr sc := by
  unfold State.check at h
  dsimp only at h
  split at h
  · cases h
  · next hlegal =>
    refine ⟨hlegal, ?_⟩
    split at h
    · cases h
    · next sc' hsched =>
      rw [hsched]
      repeat' split at h
      all_goals cases h
      rfl

/-- A slot that is scheduled has its flit, or room for it (R141). -/
theorem streamBlocked_of_schedule {k : Core} {b : BitVec 256} {beat : Nat} {us : List Slot} {sc sc' : List (SbUnit × Nat)}
    (h : k.schedule b beat us sc = .inr sc') {u : Slot} (hu : u ∈ us) : k.streamBlocked (slotOf b u) u beat = false := by
  induction us generalizing sc with
  | nil => cases hu
  | cons slot t ih =>
    unfold Core.schedule at h
    dsimp only at h
    split at h
    · cases h
    · split at h
      · cases h
      · split at h
        · cases h
        · next hfree =>
          rcases List.mem_cons.mp hu with rfl | ht
          · simpa using hfree
          · exact ih h ht

theorem staticIllegal_of_illegal {k : Core} {b : BitVec 256} (h : k.illegal b = none) : staticIllegal b k.pc k.sendBind k.landBind = none := by
  unfold Core.illegal at h
  split at h
  · cases h
  · assumption

/-- Each slot of a legal bundle is legal by itself. -/
theorem legal_of_illegal {k : Core} {b : BitVec 256} (h : k.illegal b = none) (u : Slot) :
    (slotOf b u).legal u k.pc k.sendBind k.landBind = true := by
  have hs := staticIllegal_of_illegal h
  unfold staticIllegal at hs
  split at hs
  · cases hs
  · simp only [Option.map_eq_none_iff, List.find?_eq_none, Bool.not_eq_true', Bool.not_eq_false] at hs
    exact hs u (by cases u <;> simp)

/-- A legal LOOP has a body, which ends no later than the body it stands in (R132). -/
theorem loop_of_illegal {k : Core} {b : BitVec 256} (h : k.illegal b = none) (hop : (slotOf b .c).op = 2) :
    1 ≤ (slotOf b .c).f 37 24 ∧ ∀ l ∈ k.loops.head?, k.pc + (slotOf b .c).f 37 24 ≤ l.start + l.len - 1 := by
  have hlegal := legal_of_illegal h .c
  simp only [SlotOp.legal, hop, usedBits, SlotOp.fieldsLegal, Bool.and_eq_true, decide_eq_true_eq] at hlegal
  obtain ⟨-, hbody, -⟩ := hlegal
  refine ⟨hbody, fun l hl => ?_⟩
  unfold Core.illegal at h
  rw [staticIllegal_of_illegal h] at h
  simp only [hop] at h
  split at h
  · cases h
  · cases hloops : k.loops with
    | nil => simp [hloops] at hl
    | cons x t =>
      rw [hloops] at h hl
      obtain rfl : x = l := by simpa using hl
      simp only [ite_eq_right_iff, reduceCtorEq, imp_false] at h
      omega

/-! ## The core that the C slot finds -/

/-- A result to come of an address register. -/
def Pend.isAreg (p : Pend) : Bool :=
  match p.eff with
  | .areg _ _ => true
  | _ => false

/-- A core's results to come of address registers. -/
def Core.aregs (k : Core) : List Pend := k.pend.filter Pend.isAreg

theorem mem_aregs {k : Core} {p : Pend} {r : Nat} {u : BitVec 64} (h : p.eff = .areg r u) : p ∈ k.aregs ↔ p ∈ k.pend := by
  simp [Core.aregs, Pend.isAreg, h]

theorem aregs_later {k : Core} {e : Effect} (h : ∀ r u, e ≠ .areg r u) (valid : Nat) : (k.later valid e).aregs = k.aregs := by
  cases e <;> simp_all [Core.aregs, Core.later, Pend.isAreg]

theorem aregs_put (o : OpCtx) (n : Core) (lat : Nat) (r : VOut) : (o.put n lat r).aregs = n.aregs := by
  unfold OpCtx.put
  dsimp only
  split <;> split <;> simp [aregs_later]

theorem aregs_putP (o : OpCtx) (n : Core) (lat : Nat) (f : Nat → Bool × StFlags) : (o.putP n lat f).aregs = n.aregs := by
  unfold OpCtx.putP
  dsimp only
  split <;> simp [aregs_later]

/-- The V slot gives no result to an address register. -/
theorem aregs_runV (o : OpCtx) (n : Core) : (runV o n).aregs = n.aregs := by
  unfold runV
  split
  case h_2 => exact aregs_putP _ _ _ _
  case h_4 => exact aregs_putP _ _ _ _
  case h_13 => exact aregs_putP _ _ _ _
  case h_14 => rfl
  all_goals exact aregs_put _ _ _ _

theorem aregs_of_pend {k n : Core} (h : k.pend = n.pend) : k.aregs = n.aregs := congrArg (List.filter Pend.isAreg) h

/-- Nor does the M slot. -/
theorem aregs_runM (o : OpCtx) (n : Core) : (runM o n).aregs = n.aregs := by
  unfold runM
  split
  · refine aregs_of_pend ?_
    unfold opMma
    dsimp only
    split <;> rfl
  · refine aregs_of_pend ?_
    unfold opMclr
    dsimp only
    split <;> rfl
  · have hacc (k : Core) (a : Tab ExAcc) : ({ k with acc := a } : Core).aregs = k.aregs := aregs_of_pend rfl
    unfold opRdout
    dsimp only
    split
    · split <;> split <;> simp [hacc, aregs_later]
    · rfl
  · rfl

/-- The two slots' operations change results to come, accumulators and scoreboard. -/
theorem runV_runM_eq (o o' : OpCtx) (n : Core) : ∃ p a sc, runV o' (runM o n) = { n with pend := p, acc := a, score := sc } := by
  obtain ⟨l, a, sc, hm⟩ := runM_eq o n
  obtain ⟨l', hv⟩ := runV_eq o' (runM o n)
  refine ⟨n.pend ++ l ++ l', a, sc, ?_⟩
  rw [hv, hm]

/-- The core as the C slot finds it: the M and the V slot's operations made. -/
def State.beforeCtl (s : State) (c : Nat) (b : BitVec 256) (sc : List (SbUnit × Nat)) : Core :=
  runV (s.ctx c b .v) (runM (s.ctx c b .m) { s.core c with score := sc })

theorem beforeCtl_keeps {α : Type} (f : Core → α) (hf : ∀ n p a sc, f { n with pend := p, acc := a, score := sc } = f n) (s : State) (c : Nat)
    (b : BitVec 256) (sc : List (SbUnit × Nat)) : f (s.beforeCtl c b sc) = f (s.core c) := by
  obtain ⟨p, a, sc', h⟩ := runV_runM_eq (s.ctx c b .m) (s.ctx c b .v) { s.core c with score := sc }
  rw [State.beforeCtl, h]
  exact hf (s.core c) p a sc'

section
variable (s : State) (c : Nat) (b : BitVec 256) (sc : List (SbUnit × Nat))

@[simp] theorem loops_beforeCtl : (s.beforeCtl c b sc).loops = (s.core c).loops := beforeCtl_keeps Core.loops (fun _ _ _ _ => rfl) s c b sc

@[simp] theorem flags_beforeCtl : (s.beforeCtl c b sc).flags = (s.core c).flags := beforeCtl_keeps Core.flags (fun _ _ _ _ => rfl) s c b sc

@[simp] theorem wf_beforeCtl : (s.beforeCtl c b sc).wf = (s.core c).wf := beforeCtl_keeps Core.wf (fun _ _ _ _ => rfl) s c b sc

@[simp] theorem step_beforeCtl : (s.beforeCtl c b sc).step = (s.core c).step := beforeCtl_keeps Core.step (fun _ _ _ _ => rfl) s c b sc

@[simp] theorem halted_beforeCtl : (s.beforeCtl c b sc).halted = (s.core c).halted := beforeCtl_keeps Core.halted (fun _ _ _ _ => rfl) s c b sc

@[simp] theorem send_beforeCtl : (s.beforeCtl c b sc).send = (s.core c).send := beforeCtl_keeps Core.send (fun _ _ _ _ => rfl) s c b sc

@[simp] theorem land_beforeCtl : (s.beforeCtl c b sc).land = (s.core c).land := beforeCtl_keeps Core.land (fun _ _ _ _ => rfl) s c b sc

@[simp] theorem farq_beforeCtl : (s.beforeCtl c b sc).farq = (s.core c).farq := beforeCtl_keeps Core.farq (fun _ _ _ _ => rfl) s c b sc

@[simp] theorem restartPc_beforeCtl : (s.beforeCtl c b sc).restartPc = (s.core c).restartPc :=
  beforeCtl_keeps Core.restartPc (fun _ _ _ _ => rfl) s c b sc

@[simp] theorem restartLoops_beforeCtl : (s.beforeCtl c b sc).restartLoops = (s.core c).restartLoops :=
  beforeCtl_keeps Core.restartLoops (fun _ _ _ _ => rfl) s c b sc

end

theorem aregs_beforeCtl (s : State) (c : Nat) (b : BitVec 256) (sc : List (SbUnit × Nat)) : (s.beforeCtl c b sc).aregs = (s.core c).aregs :=
  (aregs_runV _ _).trans (aregs_runM _ _)

/-! ## The core that it leaves -/

/-- The core after a C slot's operation, with the bodies ended that end at its bundle, and issued. -/
def CtlOut.ended (x : CtlOut) : Core :=
  let e := endBodies x.last x.core.loops x.nxt x.jumped
  { x.core with
    pc := e.1, loops := e.2, issued := true
    restartPc := if x.stepped then e.1 else x.core.restartPc
    restartLoops := if x.stepped then e.2 else x.core.restartLoops }

/-- A bundle that may issue runs its C slot's operation on the core that the slot finds. -/
theorem exec_ctl {i : Instr} {core : CoreId} {b : BitVec 256} (hb : asBundle i = some (core, b)) {s : State}
    (h : s.canIssue core.val b = true) : ∃ t sc, exec i s = .next t ∧ s.check core.val b = .inr sc
      ∧ (t.core core.val).unmarked = (runC (s.ctx core.val b .c) (s.beforeCtl core.val b sc)).ended.unmarked
      ∧ ((slotOf b .c).op ∉ [7, 8, 9] → t.core core.val = (runC (s.ctx core.val b .c) (s.beforeCtl core.val b sc)).ended) := by
  obtain ⟨sc, hcheck, hissue⟩ := issueNow_eq h
  have hended := runBundle_fields s core.val b sc
  exact ⟨s.runIssue core.val b sc, sc, by rw [exec_core _ _ _ _ hb, hissue], hcheck,
    (core_runIssue s core.val b sc).trans (congrArg Core.unmarked hended),
    fun hfar => (core_runIssue_of_not_far hfar sc).trans hended⟩

/-- The same for a command of the C slot, whose operation its code names. -/
theorem exec_withSlot {i : Instr} {core : CoreId} {rest : BitVec 256} {op : Nat} {w : BitVec 58} {f : OpCtx → Core → CtlOut}
    (hb : asBundle i = some (core, withSlot rest .c op w)) {s : State} (h : s.canIssue core.val (withSlot rest .c op w) = true)
    (hop : op < 64 := by decide) (hfar : op ∉ [7, 8, 9] := by decide)
    (hf : ∀ o n, o.x.op = op → runC o n = f o n := by intro o n ho; simp [runC, ho]) :
    ∃ t sc, exec i s = .next t ∧ s.check core.val (withSlot rest .c op w) = .inr sc
      ∧ t.core core.val = (f (s.ctx core.val (withSlot rest .c op w) .c) (s.beforeCtl core.val (withSlot rest .c op w) sc)).ended := by
  obtain ⟨t, sc, he, hcheck, -, hcore⟩ := exec_ctl hb h
  refine ⟨t, sc, he, hcheck, ?_⟩
  rw [← hf _ _ (ctx_withSlot_op s core.val rest .c w hop)]
  exact hcore (by rwa [slotOf_op rest .c op w hop])

end Sys2Proof.Machine
end

section
/-! The control operations: AOP, HALT, FLAGS, SREAD and STEP (R133, R135, R138 to R140, R341). -/

namespace Sys2Proof.Machine

/-! ## Results of address registers -/

/-- Where an operation adds one result of an address register, or with its predicate off nothing, the core has that result on the way, or no new
one of an address register. -/
theorem areg_comes {o : OpCtx} {k n : Core} {r : Nat} {v : BitVec 64} {p : List Pend} (hn : n.aregs = k.aregs)
    (hp : p = if o.isOn then n.pend ++ [⟨o.beat + 1, .areg r v⟩] else n.pend) :
    if o.isOn = true then (⟨o.beat + 1, .areg r v⟩ : Pend) ∈ p else ∀ x ∈ p, ∀ r u, x.eff = .areg r u → x ∈ k.pend := by
  subst hp
  split
  · simp
  · intro x hx r u he
    rwa [← mem_aregs he, ← hn, mem_aregs he]

/-- AOP's value (R125). -/
def OpCtx.aopValue (o : OpCtx) : BitVec 64 :=
  let a := o.k.areg (o.x.f 49 46)
  let x := if o.x.f 37 37 = 1 then BitVec.ofNat 64 (o.x.f 31 0) else o.k.areg (o.x.f 45 42)
  if o.x.f 41 38 = 0 then a + x else if o.x.f 41 38 = 1 then a - x
  else if o.x.f 41 38 = 2 then a <<< (x.toNat % 64) else if o.x.f 41 38 = 3 then a >>> (x.toNat % 64)
  else if o.x.f 41 38 = 4 then a &&& x else if o.x.f 41 38 = 5 then a ||| x else x

theorem pend_opAop (o : OpCtx) (n : Core) : (opAop o n).core.pend
    = if o.isOn then n.pend ++ [⟨o.beat + 1, .areg (o.x.f 53 50) o.aopValue⟩] else n.pend := by
  unfold opAop OpCtx.aopValue
  dsimp only [OpCtx.next]
  split
  · rw [Core.later]
    split <;> simp_all
  · rfl

/-- SREAD's value (R138). -/
def OpCtx.sreadValue (o : OpCtx) : Nat :=
  let n := o.x.f 49 46
  if n = 0 then o.k.step.toNat else if n = 1 then o.beat else if n = 2 then o.c
  else if n = 3 then o.rank else if n = 4 then (o.k.loops.head?.map Loop.idx).getD 0
  else if n = 5 then o.k.stallBeats else o.clock

theorem pend_opSread (o : OpCtx) (n : Core) : (opSread o n).core.pend
    = if o.isOn then n.pend ++ [⟨o.beat + 1, .areg (o.x.f 53 50) (BitVec.ofNat 64 o.sreadValue)⟩] else n.pend := by
  unfold opSread OpCtx.sreadValue
  dsimp only [OpCtx.next]
  split
  · rw [Core.later]
    split
    case h_5 h => cases o.k.loops <;> simp [h]
    all_goals simp_all
  · rfl

/-! ## FLAGS -/

theorem pend_opFlags (o : OpCtx) (n : Core) : (opFlags o n).core.pend
    = if o.isOn then n.pend ++ [⟨o.beat + 1, .areg (o.x.f 53 50) (BitVec.ofNat 64 (o.k.flags.toNat + 256 * o.k.wf.toNat))⟩] else n.pend := by
  unfold opFlags
  rw [Nat.mul_comm 256]
  cases o.isOn
  · rfl
  · by_cases hclear : o.x.f 49 49 = 1 <;> simp [OpCtx.next, Core.later, hclear]

theorem flags_opFlags (o : OpCtx) (n : Core) : (opFlags o n).core.flags = (if o.isOn ∧ o.x.f 49 49 = 1 then 0 else n.flags)
    ∧ (opFlags o n).core.wf = (if o.isOn ∧ o.x.f 49 49 = 1 then 0 else n.wf) := by
  unfold opFlags
  cases o.isOn
  · simp [OpCtx.next]
  · by_cases hclear : o.x.f 49 49 = 1 <;> simp [OpCtx.next, Core.later, hclear]

/-! ## HALT and STEP -/

theorem halted_opHalt (o : OpCtx) (n : Core) : (opHalt o n).core.halted = (o.isOn || n.halted) := by
  unfold opHalt
  cases o.isOn <;> rfl

/-- A far queue at the start of a step: no request is issued in it yet (R140, R151, R316). -/
def FarQ.restarted (f : FarQ) : FarQ := { f with ctr := 0, issued := 0, ranks := [] }

theorem farQ_restarted (t : Tab FarQ) (q : Nat) :
    (Tab.get {} (t.map fun f => (f.1, f.2.restarted)) q : FarQ) = (Tab.get {} t q : FarQ).restarted := tab_get_map {} FarQ.restarted rfl t q

/-- A STEP whose predicate is on, and what it notes as the restart point. -/
theorem ended_opStep_on {o : OpCtx} (h : o.isOn = true) (n : Core) : (opStep o n).ended.step = n.step + 1
    ∧ (opStep o n).ended.flags = 0 ∧ (opStep o n).ended.wf = 0
    ∧ (opStep o n).ended.farq = n.farq.map (fun f => (f.1, f.2.restarted))
    ∧ (opStep o n).ended.restartPc = (opStep o n).ended.pc ∧ (opStep o n).ended.restartLoops = (opStep o n).ended.loops := by
  unfold opStep
  rw [if_pos h]
  exact ⟨rfl, rfl, rfl, rfl, rfl, rfl⟩

theorem ended_opStep_off {o : OpCtx} (h : o.isOn = false) (n : Core) : (opStep o n).ended.step = n.step
    ∧ (opStep o n).ended.flags = n.flags ∧ (opStep o n).ended.wf = n.wf ∧ (opStep o n).ended.farq = n.farq
    ∧ (opStep o n).ended.restartPc = n.restartPc ∧ (opStep o n).ended.restartLoops = n.restartLoops := by
  unfold opStep
  rw [h]
  exact ⟨rfl, rfl, rfl, rfl, rfl, rfl⟩

/-- Settles O6: each operation's core is the one it finds with its own effect, and its result the only new one of an address register. -/
theorem controlOperations : Obligations.ControlOperations := by
  unfold Obligations.ControlOperations
  intro core w rest s c k areg
  have hareg (b : BitVec 256) (sc : List (SbUnit × Nat)) := aregs_beforeCtl s core.val b sc
  refine ⟨fun h => ?_, fun h => ?_, fun h => ?_, fun h => ?_, fun h => ?_⟩
  · obtain ⟨t, sc, he, -, hcore⟩ := exec_withSlot (i := .aop core w rest) (f := opAop) rfl h
    exact ⟨t, he, areg_comes (hareg (withSlot rest .c 1 w) sc) ((congrArg Core.pend hcore).trans (pend_opAop _ _))⟩
  · obtain ⟨t, sc, he, -, hcore⟩ := exec_withSlot (i := .halt core w rest) (f := opHalt) rfl h
    refine ⟨t, he, (congrArg Core.halted hcore).trans ((halted_opHalt _ _).trans ?_)⟩
    rw [halted_beforeCtl, halted_of_canIssue h, Bool.or_false]
  · obtain ⟨t, sc, he, -, hcore⟩ := exec_withSlot (i := .flags core w rest) (f := opFlags) rfl h
    obtain ⟨hflags, hwf⟩ := flags_opFlags (s.ctx core.val (withSlot rest .c 11 w) .c) (s.beforeCtl core.val (withSlot rest .c 11 w) sc)
    rw [flags_beforeCtl] at hflags
    rw [wf_beforeCtl] at hwf
    exact ⟨t, he, areg_comes (hareg (withSlot rest .c 11 w) sc) ((congrArg Core.pend hcore).trans (pend_opFlags _ _)),
      (congrArg Core.flags hcore).trans hflags, (congrArg Core.wf hcore).trans hwf⟩
  · obtain ⟨t, sc, he, -, hcore⟩ := exec_withSlot (i := .sread core w rest) (f := opSread) rfl h
    exact ⟨t, he, areg_comes (hareg (withSlot rest .c 12 w) sc) ((congrArg Core.pend hcore).trans (pend_opSread _ _))⟩
  · obtain ⟨t, sc, he, -, hcore⟩ := exec_withSlot (i := .step core w rest) (f := opStep) rfl h
    refine ⟨t, he, ?_⟩
    cases hon : (s.ctx c (withSlot rest .c 13 w) .c).isOn
    · have hoff := ended_opStep_off hon (s.beforeCtl core.val (withSlot rest .c 13 w) sc)
      rw [← hcore] at hoff
      simp only [step_beforeCtl, flags_beforeCtl, wf_beforeCtl, farq_beforeCtl, restartPc_beforeCtl, restartLoops_beforeCtl] at hoff
      exact ⟨hoff.1, nofun, fun _ => hoff.2⟩
    · obtain ⟨hstep, hflags, hwf, hfarq, hrestart⟩ := ended_opStep_on hon (s.beforeCtl core.val (withSlot rest .c 13 w) sc)
      rw [← hcore] at hstep hflags hwf hfarq hrestart
      rw [step_beforeCtl] at hstep
      refine ⟨hstep, fun _ => ⟨hflags, hwf, fun q _ => ?_, hrestart⟩, nofun⟩
      rw [hfarq, farQ_restarted]
      exact ⟨rfl, rfl⟩

end Sys2Proof.Machine
end

section
/-! Where a core goes on after a bundle: NOP, LOOP, JUMP and the ends of loop bodies (R122, R131, R132, R136). -/

namespace Sys2Proof.Machine

/-! ## The ends of bodies -/

section
variable {last : Nat} {l : Loop} {t : List Loop} (nxt : Nat) (jumped : Bool)

theorem endBodies_inside {t : List Loop} (h : ∀ l ∈ t.head?, l.start + l.len - 1 ≠ last) : endBodies last t nxt jumped = (nxt, t) := by
  cases t with
  | nil => rfl
  | cons l t => rw [endBodies, if_neg (h l rfl)]

theorem endBodies_again (hend : l.start + l.len - 1 = last) (hleft : l.idx + 1 < l.count) :
    endBodies last (l :: t) nxt jumped = (if jumped then nxt else l.start, { l with idx := l.idx + 1 } :: t) := by
  rw [endBodies, if_pos hend, if_pos hleft]

theorem endBodies_closes (hend : l.start + l.len - 1 = last) (hlast : l.count ≤ l.idx + 1) :
    endBodies last (l :: t) nxt jumped = endBodies last t (last + 1) false := by
  rw [endBodies, if_pos hend, if_neg (Nat.not_lt.mpr hlast)]

end

/-! ## The next bundle -/

/-- Every C slot's operation but LOOP falls through, JUMP to its target, and opens no loop. -/
theorem runC_goesOn (o : OpCtx) (n : Core) (h : o.x.op ≠ 2) : (runC o n).last = o.k.pc ∧ (runC o n).core.loops = n.loops
    ∧ (runC o n).nxt = (if o.x.op = 3 then o.x.f 53 41 else o.k.pc + 1) ∧ (runC o n).jumped = decide (o.x.op = 3) := by
  have hnext {k : Core} (hk : k.loops = n.loops) (h3 : o.x.op ≠ 3) : (o.next k).last = o.k.pc ∧ (o.next k).core.loops = n.loops
      ∧ (o.next k).nxt = (if o.x.op = 3 then o.x.f 53 41 else o.k.pc + 1) ∧ (o.next k).jumped = decide (o.x.op = 3) := by
    simp [OpCtx.next, hk, h3]
  unfold runC
  split
  case h_1 hop => exact hnext (by split <;> rfl) (by omega)
  case h_2 hop => exact absurd hop h
  case h_3 hop => simp [opJump, hop]
  case h_4 hop => exact hnext (by split <;> rfl) (by omega)
  case h_5 hop => exact hnext rfl (by omega)
  case h_6 hop =>
    unfold opRecv
    dsimp only
    split
    · exact hnext rfl (by omega)
    · exact hnext (by split <;> rfl) (by omega)
  case h_11 hop =>
    unfold opFlags
    dsimp only
    split
    · exact hnext (by split <;> rfl) (by omega)
    · exact hnext rfl (by omega)
  case h_12 hop => exact hnext (by split <;> rfl) (by omega)
  case h_13 hop =>
    unfold opStep
    split
    · simp [OpCtx.next, hop]
    · exact hnext rfl (by omega)
  case h_14 h3 _ _ _ _ _ _ _ _ _ _ => exact hnext rfl h3
  all_goals exact hnext rfl (by omega)

theorem ended_goesOn (x : CtlOut) : (x.ended.pc, x.ended.loops) = endBodies x.last x.core.loops x.nxt x.jumped := rfl

section
variable {i : Instr} {core : CoreId} {b : BitVec 256} (hb : asBundle i = some (core, b)) {s : State} (h : s.canIssue core.val b = true)
include hb h

/-- Where a core goes on after any operation but LOOP. -/
theorem exec_goesOn (hop : (slotOf b .c).op ≠ 2) : ∃ t, exec i s = .next t ∧ ((t.core core.val).pc, (t.core core.val).loops)
    = endBodies (s.core core.val).pc (s.core core.val).loops
      (if (slotOf b .c).op = 3 then (slotOf b .c).f 53 41 else (s.core core.val).pc + 1) (decide ((slotOf b .c).op = 3)) := by
  obtain ⟨t, sc, he, -, hcore, -⟩ := exec_ctl hb h
  obtain ⟨hlast, hloops, hnxt, hjumped⟩ := runC_goesOn (s.ctx core.val b .c) (s.beforeCtl core.val b sc) hop
  rw [loops_beforeCtl] at hloops
  have hended := ended_goesOn (runC (s.ctx core.val b .c) (s.beforeCtl core.val b sc))
  rw [hlast, hloops, hnxt, hjumped] at hended
  exact ⟨t, he, (Prod.ext (congrArg Core.pc hcore) (congrArg Core.loops hcore)).trans hended⟩

/-- An issued bundle has passed the checks of R132. -/
theorem illegal_of_canIssue : (s.core core.val).illegal b = none := by
  obtain ⟨t, sc, -, hcheck, -⟩ := exec_ctl hb h
  exact (check_passed hcheck).1

end

/-- The loop that a LOOP opens (R136, R137). -/
def OpCtx.opens (o : OpCtx) : Loop :=
  { start := o.k.pc + 1, len := o.x.f 37 24, count := o.x.f 53 38, idx := 0
    limit := if o.x.f 23 20 = 0 then none else some (o.k.areg (o.x.f 23 20)).toNat, off := !o.isOn }

/-- Where a core goes on after a LOOP: into the body, or past it where the count is 0. -/
theorem exec_loop {core : CoreId} {w : BitVec 58} {rest : BitVec 256} {s : State} (h : s.canIssue core.val (withSlot rest .c 2 w) = true) :
    ∃ t, exec (.loop core w rest) s = .next t ∧ ((t.core core.val).pc, (t.core core.val).loops)
      = let o := s.ctx core.val (withSlot rest .c 2 w) .c
        if o.x.f 53 38 = 0 then endBodies (o.k.pc + o.x.f 37 24) o.k.loops (o.k.pc + 1 + o.x.f 37 24) false
        else endBodies o.k.pc (o.opens :: o.k.loops) (o.k.pc + 1) false := by
  obtain ⟨t, sc, he, -, hcore⟩ := exec_withSlot (i := .loop core w rest) (f := opLoop) rfl h
  have hloops : (s.beforeCtl core.val (withSlot rest .c 2 w) sc).loops = (s.ctx core.val (withSlot rest .c 2 w) .c).k.loops :=
    loops_beforeCtl s core.val _ sc
  refine ⟨t, he, ?_⟩
  rw [hcore, ended_goesOn]
  generalize s.ctx core.val (withSlot rest .c 2 w) .c = o at *
  unfold opLoop
  dsimp only
  split
  · rw [hloops]
  · show endBodies _ (_ :: _) _ _ = _
    rw [hloops]
    rfl

/-- Settles O7: the bundle falls through, jumps or opens a body, whose ends `endBodies` takes one by one. -/
theorem sequencingOperations : Obligations.SequencingOperations := by
  unfold Obligations.SequencingOperations
  intro core w rest s c k inBody
  have hinside {last : Nat} (hin : inBody last) (nxt : Nat) (jumped : Bool) : endBodies last k.loops nxt jumped = (nxt, k.loops) :=
    endBodies_inside nxt jumped fun l hl => hin l (List.mem_of_mem_head? hl)
  refine ⟨fun u h hop hin => ?_, fun h => ?_, fun h hin => ?_⟩
  · obtain ⟨t, he, hon⟩ := exec_goesOn (i := .nop core u w rest) rfl h (by omega)
    rw [hinside hin, if_neg (by omega)] at hon
    exact ⟨t, he, Prod.mk.inj hon⟩
  · have hbody : 1 ≤ (slotOf (withSlot rest .c 2 w) .c).f 37 24 :=
      (loop_of_illegal (illegal_of_canIssue (i := .loop core w rest) rfl h) (slotOf_op rest .c 2 w (by decide))).1
    obtain ⟨t, he, hon⟩ := exec_loop h
    refine ⟨t, he, fun hn hin => ?_, fun hn hin => ?_, fun l tl hn hl hend hleft => ?_, fun l tl hn hl hend hlast htl => ?_⟩
    · have hopen : ∀ l ∈ ((s.ctx c (withSlot rest .c 2 w) .c).opens :: k.loops).head?, l.start + l.len - 1 ≠ k.pc := by
        rintro l ⟨⟩
        show k.pc + 1 + (slotOf (withSlot rest .c 2 w) .c).f 37 24 - 1 ≠ k.pc
        omega
      rw [if_neg hn] at hon
      obtain ⟨hpc, hloops⟩ := Prod.mk.inj (hon.trans (endBodies_inside _ _ hopen))
      exact ⟨hpc, _, hloops, rfl, rfl, rfl, rfl, rfl, rfl⟩
    · rw [if_pos hn] at hon
      exact Prod.mk.inj (hon.trans (hinside hin _ _))
    · rw [if_pos hn] at hon
      replace hon := hon.trans (congrArg (endBodies _ · _ _) hl)
      exact Prod.mk.inj (hon.trans (endBodies_again _ _ hend hleft))
    · rw [if_pos hn] at hon
      replace hon := hon.trans (congrArg (endBodies _ · _ _) hl)
      exact Prod.mk.inj (hon.trans ((endBodies_closes _ _ hend hlast).trans (endBodies_inside _ _ htl)))
  · have hop : (slotOf (withSlot rest .c 3 w) .c).op = 3 := slotOf_op rest .c 3 w (by decide)
    obtain ⟨t, he, hon⟩ := exec_goesOn (i := .jump core w rest) rfl h (by omega)
    rw [hinside hin, if_pos hop] at hon
    exact ⟨t, he, Prod.mk.inj hon⟩

/-- Settles O8: a LOOP in a body's last bundle would be illegal; any other operation ends the bodies one by one. -/
theorem loopBodies : Obligations.LoopBodies := by
  unfold Obligations.LoopBodies
  intro i core b s l rest hb h k hloops hend
  have hop : (slotOf b .c).op ≠ 2 := fun hop => by
    obtain ⟨hbody, hfit⟩ := loop_of_illegal (illegal_of_canIssue hb h) hop
    have hlen : k.pc + (slotOf b .c).f 37 24 ≤ l.start + l.len - 1 := hfit l (congrArg List.head? hloops)
    omega
  obtain ⟨t, he, hon⟩ := exec_goesOn hb h hop
  change _ = endBodies k.pc k.loops (if _ then _ else k.pc + 1) _ at hon
  rw [hloops] at hon
  have hclose (hlast : l.count ≤ l.idx + 1) := hon.trans (endBodies_closes _ _ hend hlast)
  refine ⟨hop, t, he, fun hleft => ?_, fun hlast hrest => ?_, fun y tl hlast hrest hy hleft => ?_, fun y tl hlast hrest hy hylast htl => ?_⟩
  · obtain ⟨hpc, hl⟩ := Prod.mk.inj (hon.trans (endBodies_again _ _ hend hleft))
    refine ⟨hpc.trans ?_, hl⟩
    by_cases hjump : (slotOf b .c).op = 3 <;> simp [hjump]
  · exact Prod.mk.inj ((hclose hlast).trans (endBodies_inside _ _ hrest))
  · subst hrest
    exact Prod.mk.inj ((hclose hlast).trans (endBodies_again _ _ hy hleft))
  · subst hrest
    exact Prod.mk.inj ((hclose hlast).trans ((endBodies_closes _ _ hy hylast).trans (endBodies_inside _ _ htl)))

end Sys2Proof.Machine
end

section
/-! SEND and RECV: one flit into a send stream, or out of a landing stream (R135, R145, R148). -/

namespace Sys2Proof.Machine

/-- A send stream after a SEND. -/
theorem get_opSend (o : OpCtx) (n : Core) (i : Nat) : Tab.get [] (opSend o n).ended.send i = Tab.get [] n.send i
    ++ if i = o.x.f 48 46 then [{ payload := if o.isOn then o.k.vreg (o.x.f 53 49) else 0, ready := o.beat + 1 }] else [] := by
  show Tab.get [] (Tab.set n.send (o.x.f 48 46) _) i = _
  rw [tab_get_set]
  by_cases hi : i = o.x.f 48 46
  · rw [if_pos hi, if_pos hi, hi]
  · rw [if_neg hi, if_neg hi, List.append_nil]

/-- A landing stream after a RECV that finds a flit, and the flit's payload on the way where the predicate is on. -/
theorem get_opRecv {o : OpCtx} {n : Core} {f : SFlit} {tl : List SFlit} (h : Tab.get [] n.land (o.x.f 48 46) = f :: tl) :
    (∀ i, Tab.get [] (opRecv o n).ended.land i = if i = o.x.f 48 46 then tl else Tab.get [] n.land i)
      ∧ (o.isOn = true → (⟨o.beat + 2, .vreg (o.x.f 53 49) (BitVec.allOnes 2048) f.payload⟩ : Pend) ∈ (opRecv o n).ended.pend) := by
  have hland : (opRecv o n).ended.land = Tab.set n.land (o.x.f 48 46) tl := by
    unfold opRecv
    simp only [h]
    split <;> rfl
  refine ⟨fun i => by rw [hland, tab_get_set], fun hon => ?_⟩
  unfold opRecv
  simp only [h, hon, if_true]
  exact List.mem_append_right _ (List.mem_singleton.mpr rfl)

/-- A RECV that passes its checks finds a flit (R141, R148). -/
theorem land_of_check {s : State} {c : Nat} {b : BitVec 256} {sc : List (SbUnit × Nat)} (h : s.check c b = .inr sc)
    (hop : (slotOf b .c).op = 6) : ∃ f tl, Tab.get [] (s.core c).land ((slotOf b .c).f 48 46) = f :: tl := by
  have hfree := streamBlocked_of_schedule (check_passed h).2 (u := .c) (by simp)
  cases hland : Tab.get [] (s.core c).land ((slotOf b .c).f 48 46) with
  | nil => simp [Core.streamBlocked, hop, hland] at hfree
  | cons f tl => exact ⟨f, tl, rfl⟩

/-- Settles O9: the streams are those that the C slot's operation leaves, a RECV's not empty by its check. -/
theorem streamOperations : Obligations.StreamOperations := by
  unfold Obligations.StreamOperations
  intro core w rest s c k
  refine ⟨fun h => ?_, fun h => ?_⟩
  · obtain ⟨t, sc, he, -, hcore⟩ := exec_withSlot (i := .send core w rest) (f := opSend) rfl h
    refine ⟨t, he, fun i _ => ?_⟩
    rw [hcore, get_opSend, send_beforeCtl]
    rfl
  · obtain ⟨t, sc, he, hcheck, hcore⟩ := exec_withSlot (i := .recv core w rest) (f := opRecv) rfl h
    obtain ⟨f, tl, hland⟩ := land_of_check hcheck (slotOf_op rest .c 6 w (by decide))
    obtain ⟨hstreams, hpend⟩ := get_opRecv (o := s.ctx core.val (withSlot rest .c 6 w) .c) (n := s.beforeCtl core.val (withSlot rest .c 6 w) sc)
      (by rw [land_beforeCtl]; exact hland)
    rw [← hcore] at hstreams hpend
    rw [land_beforeCtl] at hstreams
    exact ⟨t, f, tl, he, hland, fun i _ => hstreams i, hpend⟩

end Sys2Proof.Machine
end

section
/-! FLD, FST, FENG and WAIT: the far queue's entries taken and freed (R135, R149 to R151, R155). -/

namespace Sys2Proof.Machine

/-! ## The entry that a request takes -/

/-- The request that a far operation makes in its queue (R149 to R151, R316). -/
def OpCtx.request (o : OpCtx) (n : Core) (kind : FarKind) : FarReq :=
  let fq : FarQ := Tab.get {} n.farq (o.x.f 53 52)
  let far := o.k.areg (o.x.f 47 44)
  let rank := bits far.toNat 63 52
  let live := o.isOn && decide (o.x.f 43 32 ≠ 0)
  { kind := kind, tag := fq.ctr, loc := o.c / 64 * 2 ^ 30 + (o.k.areg (o.x.f 51 48)).toNat % 2 ^ 30, far := far, len := o.x.f 43 32
    own := o.chipOf rank == some o.ownChip, chip := (o.chipOf rank).getD 0xFFFF, period := live && fq.ranks.contains rank, done := !live }

/-- The queue after a far operation: the request stands last, and the next tag is one on. -/
theorem farq_farReq (o : OpCtx) (n : Core) (kind : FarKind) : ∃ ranks, (Tab.get {} (o.farReq n kind).ended.farq (o.x.f 53 52) : FarQ)
    = let fq : FarQ := Tab.get {} n.farq (o.x.f 53 52)
      { entries := fq.entries ++ [o.request n kind], ctr := fq.ctr + 1, issued := fq.issued + 1, ranks := ranks } :=
  ⟨_, (tab_get_set _ _ _ _ _).trans (if_pos rfl)⟩

/-- Cores that differ in marks alone have queues that differ in marks alone. -/
theorem farQ_unmarked_of_core {k n : Core} (h : k.unmarked = n.unmarked) (q : Nat) :
    (Tab.get {} k.farq q : FarQ).unmarked = (Tab.get {} n.farq q : FarQ).unmarked := by
  have hget (t : Tab FarQ) : Tab.get {} (t.map fun f => (f.1, f.2.unmarked)) q = (Tab.get {} t q : FarQ).unmarked :=
    tab_get_map {} FarQ.unmarked rfl t q
  rw [← hget, ← hget]
  exact congrArg (Tab.get {} · q) (congrArg Core.farq h)

/-- Where a request stands last in a queue, the same request but for marks stands last in a queue that differs in marks alone. -/
theorem last_of_unmarked {f g : FarQ} (h : f.unmarked = g.unmarked) {l : List FarReq} {r : FarReq} (hg : g.entries = l ++ [r]) :
    ∃ x, f.entries.map FarReq.unmarked = l.map FarReq.unmarked ++ [x.unmarked] ∧ f.entries.getLast? = some x ∧ x.unmarked = r.unmarked := by
  have hmap : f.entries.map FarReq.unmarked = l.map FarReq.unmarked ++ [r.unmarked] := by
    rw [← List.map_singleton, ← List.map_append, ← hg]
    exact congrArg FarQ.entries h
  obtain ⟨l', t, he, -, ht⟩ := List.map_eq_append_iff.mp hmap
  obtain ⟨x, rfl, hx⟩ := List.map_eq_singleton_iff.mp ht
  exact ⟨x, by rw [hmap, hx], by simp [he], hx⟩

/-- A far operation that may issue takes the entry of its request. -/
theorem exec_far {i : Instr} {core : CoreId} {b : BitVec 256} (hb : asBundle i = some (core, b)) {s : State}
    (h : s.canIssue core.val b = true) {kind : FarKind} (hrun : ∀ n, runC (s.ctx core.val b .c) n = (s.ctx core.val b .c).farReq n kind) :
    let o := s.ctx core.val b .c
    let q (t : State) : FarQ := Tab.get {} (t.core core.val).farq (o.x.f 53 52)
    ∃ t, exec i s = .next t ∧ ∃ r : FarReq, (q t).entries.map FarReq.unmarked = (q s).entries.map FarReq.unmarked ++ [r.unmarked]
      ∧ (q t).entries.getLast? = some r
      ∧ r.kind = kind ∧ r.tag = (q s).ctr ∧ (q t).ctr = (q s).ctr + 1 ∧ (q t).issued = (q s).issued + 1
      ∧ r.loc = core.val / 64 * 2 ^ 30 + ((s.core core.val).areg (o.x.f 51 48)).toNat % 2 ^ 30 ∧ r.far = (s.core core.val).areg (o.x.f 47 44)
      ∧ r.len = o.x.f 43 32 ∧ r.done = !(o.isOn && decide (o.x.f 43 32 ≠ 0)) := by
  intro o q
  obtain ⟨t, sc, he, -, hcore, -⟩ := exec_ctl hb h
  have hqueue := farQ_unmarked_of_core hcore (o.x.f 53 52)
  rw [hrun] at hqueue
  obtain ⟨ranks, hfar⟩ := farq_farReq o (s.beforeCtl core.val b sc) kind
  rw [hfar] at hqueue
  obtain ⟨r, hentries, hlast, hr⟩ := last_of_unmarked hqueue rfl
  have htag : r.tag = (Tab.get {} (s.beforeCtl core.val b sc).farq (o.x.f 53 52) : FarQ).ctr := congrArg FarReq.tag hr
  rw [farq_beforeCtl] at hqueue hentries htag
  exact ⟨t, he, r, hentries, hlast, congrArg FarReq.kind hr, htag, congrArg FarQ.ctr hqueue, congrArg FarQ.issued hqueue,
    congrArg FarReq.loc hr, congrArg FarReq.far hr, congrArg FarReq.len hr, congrArg FarReq.done hr⟩

/-! ## The entries that a WAIT frees -/

theorem farq_opWait (o : OpCtx) (n : Core) : (Tab.get {} (opWait o n).ended.farq (o.x.f 53 52) : FarQ)
    = let fq : FarQ := Tab.get {} n.farq (o.x.f 53 52)
      { fq with entries := fq.entries.filter fun r => !(covers (BitVec.ofNat 16 (o.x.f 51 36)) (o.x.f 35 29) r.tag && r.done) } :=
  (tab_get_set _ _ _ _ _).trans (if_pos rfl)

/-- Settles O10: a request's entry is the queue's last after the issue, marks apart, and a WAIT's queue keeps what it does not free. -/
theorem farOperations : Obligations.FarOperations := by
  unfold Obligations.FarOperations
  intro core w rest s c q took
  refine ⟨fun h => ?_, fun h => ?_, fun h => ?_, fun h => ?_⟩
  · exact exec_far (i := .fld core w rest) rfl h fun n => by rw [runC, ctx_withSlot_op _ _ _ _ _ (by decide)]; rfl
  · exact exec_far (i := .fst core w rest) rfl h fun n => by rw [runC, ctx_withSlot_op _ _ _ _ _ (by decide)]; rfl
  · exact exec_far (i := .feng core w rest) rfl h fun n => by rw [runC, ctx_withSlot_op _ _ _ _ _ (by decide)]; rfl
  · obtain ⟨t, sc, he, -, hcore⟩ := exec_withSlot (i := .wait core w rest) (f := opWait) rfl h
    have hqueue := farq_opWait (s.ctx core.val (withSlot rest .c 10 w) .c) (s.beforeCtl core.val (withSlot rest .c 10 w) sc)
    rw [← hcore, farq_beforeCtl] at hqueue
    have hctr := congrArg FarQ.ctr hqueue
    refine ⟨t, he, hctr, fun r => ?_⟩
    have hentries := congrArg (fun f : FarQ => r ∈ f.entries) hqueue
    simp only [List.mem_filter, covers, Bool.not_eq_true', Bool.and_eq_false_iff, decide_eq_false_iff_not] at hentries
    refine (iff_of_eq hentries).trans (and_congr_right fun _ => ?_)
    rw [not_and_or, Bool.not_eq_true]

end Sys2Proof.Machine
end

section
/-! A bundle that fails its check: the fault it raises in a running job, and what that leaves of its core and its region (R132, R141, R143,
R161, R163, R164). -/

namespace Sys2Proof.Machine

/-! ## The fault -/

/-- A bundle that fails its check raises the fault and is not issued. -/
theorem issueNow_failed {s : State} {c : Nat} {b : BitVec 256} {code slot : Nat} (h : s.failsCheck c b code slot) :
    s.issueNow c b = s.issueFault c code slot := by
  obtain ⟨hfree, hcheck⟩ := h
  simp only [Bool.and_eq_true, decide_eq_true_eq, Bool.not_eq_true'] at hfree
  obtain ⟨⟨⟨⟨⟨hissuing, hmapped⟩, hissued⟩, hhalted⟩, hstalls⟩, hback⟩ := hfree
  simp [State.issueNow, State.issueBundle, hissuing, Nat.not_le.mpr hmapped, hissued, hhalted, hstalls, hcheck, hback]

/-- The faults of the checks (R143). -/
theorem code_of_check {s : State} {c : Nat} {b : BitVec 256} {code slot : Nat} (h : s.check c b = .inl (code, slot)) :
    code ∈ [0x1001, 0x1004, 0x1005, 0x1006, 0x1007] := by
  unfold State.check at h
  dsimp only at h
  repeat' split at h
  all_goals cases h
  all_goals decide

theorem core_of_code {code : Nat} (h : code ∈ [0x1001, 0x1004, 0x1005, 0x1006, 0x1007]) : faultAct code = .core ∧ code / 256 = 0x10 := by
  simp only [List.mem_cons, List.not_mem_nil, or_false] at h
  rcases h with rfl | rfl | rfl | rfl | rfl <;> decide

/-! ## What a core fault leaves -/

/-- A core without what an image loads into it (R52). -/
def Core.unloaded (k : Core) : Core := { k with imem := [], windows := [], sendBind := [], landBind := [] }

/-- A core without what an image loads into it, its region's bank accesses, and whether a fault has been raised in its step. -/
structure CoreView where
  core : Core
  bank : List BankAcc
  firstFault : Bool

/-- That view of a state for core `c`. -/
def State.coreView (s : State) (c : Nat) : CoreView := ⟨(s.core c).unloaded, (s.region (c / 64)).bank, s.firstFault⟩

theorem coreView_modRegion (s : State) (r c : Nat) {f : Region → Region} (hcores : ∀ x, (f x).cores = x.cores)
    (hbank : ∀ x, (f x).bank = x.bank) : (s.modRegion r f).coreView c = s.coreView c := by
  have hb : ((s.modRegion r f).region (c / 64)).bank = (s.region (c / 64)).bank := by
    rw [region_modRegion]
    split
    · exact hbank _
    · rfl
  rw [State.coreView, core_modRegion_of_cores s r c f hcores, hb]
  rfl

theorem coreView_modCore (s : State) (c : Nat) (f : Core → Core) :
    (s.modCore c f).coreView c = { s.coreView c with core := (f (s.core c)).unloaded } := by
  rw [State.coreView, core_modCore, if_pos rfl, modCore_eq, region_setCore, if_pos rfl]
  rfl

theorem coreView_quenchOnly {s t : State} (h : s.QuenchOnly t) (c : Nat) : t.coreView c = s.coreView c := by
  obtain ⟨r, l, g, n, q, e, j, a, rm, po, st, fn, seen, rfl⟩ := h
  rfl

theorem quenchOnly_noteCoreFault (s : State) (code : Nat) (at? : Option (Nat × Nat)) : s.QuenchOnly (s.noteCoreFault code at?) :=
  .ite ((quenchOnly_setReg s _ _).trans (quenchOnly_setReg _ _ _)) (.refl s)

/-- Sparing a core changes its number's map and what the image loads (R52). -/
theorem coreView_spare {s t : State} {c : Nat} (h : s.spare c = some t) : t.coreView c = s.coreView c := by
  unfold State.spare at h
  dsimp only at h
  split at h
  · exact absurd h (by simp)
  · obtain rfl := Option.some.inj h
    refine (coreView_quenchOnly ((quenchOnly_setReg _ _ _).trans (quenchOnly_logEntry _ _ 0 _ _)) c).trans ?_
    refine (coreView_modCore _ c _).trans ?_
    have hloaded (k l : Core) :
        ({ k with imem := l.imem, windows := l.windows, sendBind := l.sendBind, landBind := l.landBind } : Core).unloaded = k.unloaded := rfl
    rw [hloaded]
    exact coreView_modRegion _ _ c (fun _ => rfl) fun _ => rfl

theorem coreView_actOn {s : State} {code : Nat} (hact : faultAct code = .core) (detail c pc addr : Nat) :
    (s.actOn code detail (some (c, pc)) addr).coreView c = s.coreView c := by
  obtain ⟨x, cause, isEnd, held, h, l, hx⟩ := actOn_core hact (s := s) detail c pc addr
  have hview : ({ s with faultHist := l } : State).coreView c = s.coreView c := rfl
  rw [h, coreView_quenchOnly (quenchOnly_originate _ _ _ _), ← hview]
  generalize ({ s with faultHist := l } : State) = u at hx
  rcases hx with rfl | ⟨-, hspare | rfl⟩
  · rfl
  · exact coreView_spare hspare
  · exact coreView_quenchOnly ((quenchOnly_logEntry _ _ _ _ _).trans (quenchOnly_noteCoreFault _ _ _)) c

/-! ## The record -/

theorem qrec_showRec (s : State) : s.showRec.qrec = s.qrec := by
  obtain ⟨r, hr⟩ := showRec_keeps s
  rw [hr]

theorem qrec_sendQuench {s : State} (hs : s.unquenched) {q : QRec} (hq : s.frame < q.q) : (s.sendQuench q).qrec.isSome = true := by
  obtain ⟨po, st, n, seen, h⟩ := sendQuench_first hs.1 hs.2 hq
  rw [h, qrec_showRec]
  rfl

/-- A quench originated in a running job without a record makes one. -/
theorem qrec_originate {s : State} (hs : s.unquenched) (cause : Nat) (isEnd held : Bool) : (s.originate cause isEnd held).qrec.isSome = true := by
  have hlogged (b : Bool) : (if b then s.logEntry 0x7072 2 0xFF noDetail else s).unquenched
      ∧ (if b then s.logEntry 0x7072 2 0xFF noDetail else s).frame = s.frame := by
    cases b
    · exact ⟨hs, rfl⟩
    · exact ⟨unquenched_logEntry hs _ _ _ _, frame_logEntry s _ _ _ _⟩
  unfold State.originate
  dsimp only
  refine qrec_sendQuench (hlogged _).1 ?_
  rw [(hlogged _).2]
  exact frame_lt_quenchFrameNow s

theorem qrec_actOn {s : State} (hs : s.unquenched) {code : Nat} (hact : faultAct code = .core) (detail c pc addr : Nat) :
    (s.actOn code detail (some (c, pc)) addr).qrec.isSome = true := by
  obtain ⟨x, cause, isEnd, held, h, l, hx⟩ := actOn_core hact (s := s) detail c pc addr
  rw [h]
  have hl : ({ s with faultHist := l } : State).unquenched := hs
  have hrep : s.replaying = ({ s with faultHist := l } : State).replaying := rfl
  rw [hrep] at hx
  generalize ({ s with faultHist := l } : State) = u at hx hl
  rcases hx with rfl | ⟨hrep, hspare | rfl⟩
  · exact qrec_originate hl _ _ _
  · exact qrec_originate (faultKept_spare hrep hspare hl).2 _ _ _
  · exact qrec_originate (faultKept_noteCoreFault (c := c) hrep hl (code := 0x1081) rfl 2 (c / 64) detail pc).2 _ _ _

/-! ## The first fault of a step, raised by a core -/

/-- It is noted as the cause and with its core, and acted on (R162, R163). -/
theorem raise_atCore {s : State} (hs : s.quiet) {code : Nat} (hcore : code / 256 = 0x10) (unit detail c pc : Nat) :
    s.raise code unit detail (some (c, pc))
      = ((s.causeKept code unit detail).noteCoreFault code (some (c, pc))).actOn code detail (some (c, pc)) 0 := by
  obtain ⟨hjob, -, hfirst, hrun⟩ := hs
  simp [State.raise, hrun, hjob, hfirst, State.causeKept, State.noteCoreFault, hcore, State.setReg]

/-- The state in which it is acted on: no record yet, and its view that of the state before. -/
theorem causeKept_quiet {s : State} (hs : s.quiet) (code unit detail : Nat) (at? : Option (Nat × Nat)) (c : Nat) :
    ((s.causeKept code unit detail).noteCoreFault code at?).unquenched
      ∧ ((s.causeKept code unit detail).noteCoreFault code at?).coreView c = { s.coreView c with firstFault := true } := by
  obtain ⟨hjob, hrec, -, -⟩ := hs
  have hjob' := (reg_causeKept s code unit detail (k := R.jobState) (by decide) (by decide)).trans hjob
  rw [coreView_quenchOnly (quenchOnly_noteCoreFault _ _ _)]
  obtain ⟨l, r, g, n, hx⟩ := causeKept_cases s code unit detail
  refine ⟨?_, by rw [hx]; rfl⟩
  have hrec' : (s.causeKept code unit detail).qrec = none := by
    rw [hx]
    exact hrec
  generalize s.causeKept code unit detail = u at *
  unfold State.noteCoreFault
  split
  · exact ⟨(reg_coreNoted_other u _ _ (by decide) (by decide)).trans hjob', hrec'⟩
  · exact ⟨hjob', hrec'⟩

/-- A core fault leaves its core and its region's accesses, and makes a record. -/
theorem raise_core_keeps {s : State} (hs : s.quiet) {code : Nat} (hact : faultAct code = .core) (hcore : code / 256 = 0x10)
    (unit detail c pc : Nat) : (s.raise code unit detail (some (c, pc))).coreView c = { s.coreView c with firstFault := true }
      ∧ (s.raise code unit detail (some (c, pc))).qrec.isSome = true := by
  obtain ⟨hun, hview⟩ := causeKept_quiet hs code unit detail (some (c, pc)) c
  rw [raise_atCore hs hcore]
  exact ⟨(coreView_actOn hact detail c pc 0).trans hview, qrec_actOn hun hact detail c pc 0⟩

/-! ## The stop -/

theorem coreView_stopAfter (s : State) (r c : Nat) : (s.stopAfter r).coreView c = s.coreView c :=
  coreView_modRegion s r c (fun _ => rfl) fun _ => rfl

/-- Settles O12: the core is marked as issued, its fault is the step's first, and the region stops after the beat. -/
theorem failedCheck : Obligations.FailedCheck := by
  unfold Obligations.FailedCheck
  intro i core b s code slot hb hfails hjob hrec hfirst hrun c
  obtain ⟨hact, h10⟩ := core_of_code (code_of_check hfails.2)
  have hq : (s.modCore c fun k => { k with issued := true }).quiet := ⟨hjob, hrec, hfirst, hrun⟩
  have hexec := (exec_core i core b s hb).trans (congrArg _ (issueNow_failed hfails))
  unfold State.issueFault at hexec
  dsimp only at hexec
  generalize coreDetail _ _ _ _ _ = detail at hexec
  obtain ⟨-, hcause, hcore, hfault⟩ := raise_core hq hact h10 (c / 64) detail c (s.core c).pc
  obtain ⟨hview, hqrec⟩ := raise_core_keeps hq hact h10 (c / 64) detail c (s.core c).pc
  rw [← coreView_stopAfter _ (c / 64), coreView_modCore] at hview
  have hkept {α : Type} (f : Core → α) := congrArg (fun x : CoreView => f x.core) hview
  have hbank := congrArg CoreView.bank hview
  exact ⟨_, hexec, hcause, fun hr => hfault hr, hcore, stopping_stopAfter _ _, congrArg CoreView.firstFault hview, hqrec,
    hkept Core.pc, hkept Core.v, hkept Core.a, hkept Core.p, hkept Core.acc, hkept Core.tile, hkept Core.pend, hbank⟩

end Sys2Proof.Machine
end

section
/-! Stalls and far requests as they end: FAR_REQUEST_COMPLETE, HOLD_END and WAIT_TIMEOUT (R152, R156, R157, R159, R161). -/

namespace Sys2Proof.Machine

/-! ## A request that completes -/

/-- Settles O18: none of the reasons to wait holds, so the request is done. -/
theorem farRequestCompletes : Obligations.FarRequestCompletes := by
  unfold Obligations.FarRequestCompletes
  intro core q tag s r hr hdone hstuck hsent hout hwritten
  have hready : ¬ (r.done = true ∨ r.stuck = true ∨ r.sent < r.len ∨ r.outstanding ≠ 0
      ∨ (r.kind = .fld ∧ s.bgTouches r.loc (r.loc + 64 * r.len) = true)) := by
    rintro (h | h | h | h | ⟨hk, h⟩)
    · simp [hdone] at h
    · simp [hstuck] at h
    · omega
    · exact h hout
    · simp [hwritten hk] at h
  have hexec : exec (.farRequestComplete core q tag) s = .next (s.modFar core.val q.val tag fun x => { x with done := true }) := by
    show execFarRequestComplete core q tag s = _
    simp only [execFarRequestComplete, hr]
    exact if_neg hready
  exact ⟨_, _, hexec, farReq_modFar_some hr fun _ => rfl, rfl, fun c _ hc => (core_modCore _ _ _ _).trans (if_neg hc)⟩

/-! ## A stall that lasts too long -/

/-- A first fault of a step that leads to a replay and names a core: the cause, and no region changes (R162, R163). -/
theorem raise_replay_atCore {s : State} (hs : s.quiet) {code : Nat} (hact : faultAct code = .replay) (hcore : code / 256 = 0x10)
    (unit detail c pc : Nat) : (s.raise code unit detail (some (c, pc))).reg R.lastFaultCause = code
      ∧ (s.raise code unit detail (some (c, pc))).reg R.lastFaultCore = c
      ∧ (s.raise code unit detail (some (c, pc))).regions = s.regions := by
  obtain ⟨hun, -⟩ := causeKept_quiet hs code unit detail (some (c, pc)) c
  have hcause := lastFaultCause_causeKept s code unit detail
  have hregions : (s.causeKept code unit detail).regions = s.regions := by
    obtain ⟨l, r, g, n, hx⟩ := causeKept_cases s code unit detail
    rw [hx]
  have hact' (t : State) : t.actOn code detail (some (c, pc)) 0 = t.originate code false false := by simp only [State.actOn, hact]
  rw [raise_atCore hs hcore, hact']
  generalize s.causeKept code unit detail = u at *
  rw [noteCoreFault_core u hcore] at hun ⊢
  refine ⟨(reg_originate_of_unquenched hun _ _ _ (by decide) (by decide)).trans ?_,
    (reg_originate_of_unquenched hun _ _ _ (by decide) (by decide)).trans ?_, (congrArg Body.regions (body_originate _ _ _ _)).trans hregions⟩
  · exact (reg_coreNoted_other u _ _ (by decide) (by decide)).trans hcause
  · rw [reg_coreNoted, if_pos rfl]

/-- A region whose one stall has lasted too long: stopped, the fault noted as raised. -/
def State.timeOut (s : State) (r : Nat) (x : Stall) : State :=
  s.modRegion r fun y => { y with stopped := true, stalls := [{ x with timedOut := true }] }

section
variable {r : RegionId} {s : State} {x : Stall} (hx : (s.region r.val).stalls = [x])
include hx

theorem execWaitTimeout_late (hend : x.ended = false) (hout : x.timedOut = false) (hlate : s.reg R.waitTimeoutBeats < x.beats) :
    exec (.waitTimeout r) s = .next ((s.timeOut r.val x).raise 0x1008 r.val
      (coreDetail x.core (72 * r.val + (s.region r.val).map.getD (x.core % 64) 0) 3 (s.core x.core).pc (s.region r.val).beat)
      (some (x.core, (s.core x.core).pc))) := by
  show execWaitTimeout r s = _
  simp [execWaitTimeout, hx, Stall.holds, hend, hout, hlate, State.each, State.timeOut, modRegion_eq]

theorem execWaitTimeout_raised (hout : x.timedOut = true) : exec (.waitTimeout r) s = .next s := by
  show execWaitTimeout r s = _
  simp [execWaitTimeout, hx, hout]

end

/-- Settles O20: the one stall is late and not yet reported, so its fault is the step's first. -/
theorem waitTimesOut : Obligations.WaitTimesOut := by
  unfold Obligations.WaitTimesOut
  intro r s x hx hend _ hlate
  refine ⟨fun hout hjob hrec hfirst hrun => ?_, fun hout => execWaitTimeout_raised hx hout⟩
  have hexec := execWaitTimeout_late hx hend hout hlate
  generalize coreDetail _ _ _ _ _ = detail at hexec
  obtain ⟨hcause, hcore, hregions⟩ := raise_replay_atCore (s := s.timeOut r.val x) ⟨hjob, hrec, hfirst, hrun⟩ (code := 0x1008) (by decide)
    (by decide) r.val detail x.core (s.core x.core).pc
  have hregion := congrArg (Tab.get {} · r.val) hregions
  have hout' : (s.timeOut r.val x).region r.val = { s.region r.val with stopped := true, stalls := [{ x with timedOut := true }] } :=
    (region_modRegion _ _ _ _).trans (if_pos rfl)
  replace hregion := hregion.trans hout'
  exact ⟨_, hexec, congrArg Region.stopped hregion, hcause, hcore, congrArg Region.stalls hregion⟩

/-! ## A stall that ends -/

/-- A fold over the first regions that only one of them changes. -/
theorem each_range_once {f : State → Nat → State} {n r : Nat} (hr : r < n) {s : State} (hbefore : ∀ q < n, q ≠ r → f s q = s)
    (hafter : ∀ q < n, q ≠ r → f (f s r) q = f s r) : s.each (List.range n) f = f s r := by
  have hfix {l : List Nat} {t : State} (h : ∀ q ∈ l, f t q = t) : t.each l f = t :=
    each_of_keeps (P := (· = t)) (fun u q hq hu => by rw [hu, h q hq]) rfl
  obtain ⟨before, after, hl⟩ := List.mem_iff_append.mp (List.mem_range.mpr hr)
  have hnodup : (before ++ r :: after).Nodup := hl ▸ List.nodup_range
  have hother {q : Nat} (hq : q ∈ before ∨ q ∈ after) : q < n ∧ q ≠ r := by
    refine ⟨List.mem_range.mp (by rw [hl]; rcases hq with h | h <;> simp [h]), ?_⟩
    rintro rfl
    rcases hq with h | h
    · exact (List.nodup_append.mp hnodup).2.2 q h q (by simp) rfl
    · exact (List.nodup_cons.mp (List.nodup_append.mp hnodup).2.1).1 h
  calc s.each (List.range n) f = ((s.each before f).each [r] f).each after f := by rw [hl]; simp [State.each]
    _ = (f s r).each after f := by rw [hfix fun q hq => hbefore q (hother (.inl hq)).1 (hother (.inl hq)).2]; rfl
    _ = f s r := hfix fun q hq => hafter q (hother (.inr hq)).1 (hother (.inr hq)).2

/-- What the end of a hold does in one region (R157). -/
def State.resumeAt (s : State) (r : Nat) : State :=
  if s.issuing r ∧ (s.region r).stalls ≠ [] then
    (s.modRegion r fun x => { x with stalls := [] }).each (s.region r).stalls fun u x => u.issueBundle x.core x.bundle
  else s

theorem resumeStalls_eq (s : State) : s.resumeStalls = s.each (List.range 16) State.resumeAt := rfl

/-- A region whose stalls still hold does not issue. -/
theorem resumeAt_held {s : State} {q : Nat} (h : ∀ y ∈ (s.region q).stalls, y.ended = false) : s.resumeAt q = s := by
  refine if_neg ?_
  rintro ⟨hissuing, hne⟩
  obtain ⟨y, hy⟩ := List.exists_mem_of_ne_nil _ hne
  have hown : (s.region q).stalls.any Stall.holds = true := List.any_eq_true.mpr ⟨y, hy, by simp [Stall.holds, h y hy]⟩
  simp [State.issuing, State.held, hown] at hissuing

/-- A region with the stalls of a list in place of its own. -/
def State.withStalls (s : State) (r : Nat) (l : List Stall) : State := s.modRegion r fun y => { y with stalls := l }

theorem region_withStalls (s : State) (r : Nat) (l : List Stall) (q : Nat) :
    (s.withStalls r l).region q = if q = r then { s.region q with stalls := l } else s.region q := region_modRegion _ _ _ _

theorem withStalls_withStalls (s : State) (r : Nat) (l l' : List Stall) : (s.withStalls r l).withStalls r l' = s.withStalls r l' := by
  simp only [State.withStalls, modRegion_eq, region_setRegion, if_true]
  simp only [State.setRegion, tab_set_set]

/-- A stall that has ended holds no region. -/
theorem issuing_endedStall (s : State) (r : Nat) (x : Stall) (q : Nat) :
    (s.withStalls r [{ x with ended := true }]).issuing q = (s.withStalls r []).issuing q := by
  have hany (p : Stall → Bool) (i : Nat) : ((s.withStalls r [{ x with ended := true }]).region i).stalls.any (fun t => t.holds && p t)
      = ((s.withStalls r []).region i).stalls.any fun t => t.holds && p t := by
    rw [region_withStalls, region_withStalls]
    split <;> simp [Stall.holds]
  have hown := hany (fun _ => true) q
  simp only [Bool.and_true] at hown
  have hbeat : ((s.withStalls r [{ x with ended := true }]).region q).beat = ((s.withStalls r []).region q).beat := by
    rw [region_withStalls, region_withStalls]
    split <;> rfl
  have hheld : (s.withStalls r [{ x with ended := true }]).held q = (s.withStalls r []).held q := by
    unfold State.held
    rw [hbeat]
    simp only [hany]
    exact congrArg (· || _) hown
  unfold State.issuing
  rw [hheld, region_withStalls, region_withStalls]
  split <;> rfl

/-- A bundle that may issue issues. -/
theorem issueBundle_eq {s : State} {c : Nat} {b : BitVec 256} (h : s.canIssue c b = true) :
    s.issuing (c / 64) = true ∧ ∃ sc, s.issueBundle c b = s.runIssue c b sc := by
  simp only [State.canIssue, Bool.and_eq_true, decide_eq_true_eq, Bool.not_eq_true'] at h
  obtain ⟨⟨⟨⟨⟨⟨hissuing, -⟩, -⟩, hhalted⟩, -⟩, hcheck⟩, hstalls⟩ := h
  refine ⟨hissuing, ?_⟩
  cases hk : s.check c b with
  | inl e => simp [hk] at hcheck
  | inr sc => exact ⟨sc, by simp [State.issueBundle, hhalted, hk, hstalls]⟩

theorem stalls_runIssue (s : State) (c : Nat) (b : BitVec 256) (sc : List (SbUnit × Nat)) (q : Nat) :
    ((s.runIssue c b sc).region q).stalls = (s.region q).stalls := by
  have hrest := congrArg Region.stalls (runIssue_region s c b sc q).1
  exact hrest

/-- HOLD_END on a region whose one stall is over. -/
theorem exec_holdEnd {r : RegionId} {s : State} {x : Stall} (hx : (s.region r.val).stalls = [x]) (hover : s.stallOver x = true) :
    exec (.holdEnd r) s = .next (s.withStalls r.val [{ x with ended := true }]).resumeStalls := by
  show execHoldEnd r s = _
  simp [execHoldEnd, hx, hover, State.withStalls, modRegion_eq]

theorem stallOver_of_done {s : State} {x : Stall} (h : ∀ q ∈ (Tab.get {} (s.core x.core).farq x.q : FarQ).entries,
    q.done = true ∨ x.count ≤ (q.tag - x.tag).toNat) : s.stallOver x = true := by
  refine List.all_eq_true.mpr fun q hq => ?_
  rcases h q hq with hdone | hfar
  · simp [hdone]
  · have huncovered : covers x.tag x.count q.tag = false := decide_eq_false (Nat.not_lt.mpr hfar)
    simp [huncovered]

/-- Settles O19: no other region has a stall to resume, and the ended one issues its bundle where its region may. -/
theorem holdEnds : Obligations.HoldEnds := by
  unfold Obligations.HoldEnds
  intro r s x hx hcore hothers hdone free
  have hexec := exec_holdEnd hx (stallOver_of_done hdone)
  rw [resumeStalls_eq] at hexec
  have hbefore : ∀ q < 16, q ≠ r.val → (s.withStalls r.val [{ x with ended := true }]).resumeAt q
      = s.withStalls r.val [{ x with ended := true }] := fun q hq hne => by
    refine resumeAt_held ?_
    rw [region_withStalls, if_neg hne]
    exact hothers q hq hne
  have hstalls : ((s.withStalls r.val [{ x with ended := true }]).region r.val).stalls = [{ x with ended := true }] := by
    rw [region_withStalls, if_pos rfl]
  refine ⟨fun hissue => ?_, fun hno => ?_⟩
  · obtain ⟨hissuing, sc, hbundle⟩ := issueBundle_eq hissue
    rw [hcore] at hissuing
    have hresume : (s.withStalls r.val [{ x with ended := true }]).resumeAt r.val = free.runIssue x.core x.bundle sc := by
      rw [State.resumeAt, issuing_endedStall, hstalls, if_pos ⟨hissuing, by simp⟩]
      have hfree : (s.withStalls r.val [{ x with ended := true }]).withStalls r.val [] = free := withStalls_withStalls s r.val _ []
      change State.each (State.withStalls _ r.val []) _ _ = _
      rw [hfree]
      exact hbundle
    have hkept (q : Nat) : ((free.runIssue x.core x.bundle sc).region q).stalls = ((s.withStalls r.val []).region q).stalls :=
      stalls_runIssue free x.core x.bundle sc q
    rw [each_range_once r.isLt hbefore fun q hq hne => ?_, hresume] at hexec
    · refine ⟨_, hexec, ?_, ?_, ?_⟩
      · rw [hkept, region_withStalls, if_pos rfl]
      · exact (congrArg Core.issued (core_runIssue free x.core x.bundle sc)).trans (issued_runBundle free x.core x.bundle sc)
      · exact congrArg (fun t : State => { t with regions := s.regions }) (runIssue_frame free x.core x.bundle sc).1
    · rw [hresume]
      refine resumeAt_held ?_
      rw [hkept, region_withStalls, if_neg hne]
      exact hothers q hq hne
  · have hresume : (s.withStalls r.val [{ x with ended := true }]).resumeAt r.val = s.withStalls r.val [{ x with ended := true }] := by
      refine if_neg ?_
      rw [issuing_endedStall]
      exact fun h => absurd h.1 (by rw [show (s.withStalls r.val []).issuing r.val = false from hno]; simp)
    rw [each_range_once r.isLt hbefore fun q hq hne => ?_, hresume] at hexec
    · exact hexec
    · rw [hresume]
      exact hbefore q hq hne

end Sys2Proof.Machine
end

section
/-! Frame boundaries that only begin a frame, and the sequence followed to its next RUN (R201 to R205, R274). -/

namespace Sys2Proof.Machine

/-! ## The frame that begins -/

/-- Nothing of network time, of a port that trains or of a commit waits for the boundary (R259, R274, R291, R295, R482). -/
def State.Calm (s : State) : Prop :=
  s.reg R.slewRemaining = 0 ∧ s.switchTo = none ∧ s.stepPending = none ∧ s.native = true ∧ s.commitDue = false
    ∧ (∀ d < 2, s.reg (R.role d) = 1 → s.reg R.frameReference = d)
    ∧ ∀ p < 32, (s.reg (R.linkState p) = 5 → s.reg (R.width p) ≠ 1) ∧ (s.reg (R.linkState p) = 6 → (s.port p).switchAt = none)

/-- The state with its next frame begun (R274). -/
def State.begun (s : State) : State :=
  let n := (s.frame + 1) % 2 ^ 48
  let t := (s.reg R.frameEpochNs + n * 5632) % 2 ^ 32
  { s with frame := n, slot := 0, subSlot := 0, nt32 := BitVec.ofNat 32 t, ntFrac := 0, latched := BitVec.ofNat 32 t
           wrapDue := s.wrapDue + if t < s.nt32.toNat then 1 else 0 }

/-- A fold whose every step leaves the state it meets. -/
theorem each_fixed {α : Type} {f : State → α → State} {l : List α} {s : State} (h : ∀ x ∈ l, f s x = s) : s.each l f = s :=
  each_of_keeps (P := (· = s)) (fun t x hx ht => by rw [ht, h x hx]) rfl

theorem gmFrame_calm {s : State} (h : ∀ d < 2, s.reg (R.role d) = 1 → s.reg R.frameReference = d) : s.gmFrame = s := by
  refine each_fixed fun d hd => if_pos ?_
  have hd2 : d < 2 := by simp at hd; omega
  by_cases hr : s.reg (R.role d) = 1
  · exact .inr (.inl (h d hd2 hr))
  · exact .inl hr

theorem slewFrame_calm {s : State} (h : s.reg R.slewRemaining = 0) : s.slewFrame = s := by
  have hx : s.sreg R.slewRemaining 64 = 0 := by rw [State.sreg, h]; rfl
  exact if_pos hx

theorem takeSwitch_calm {s : State} (h : s.switchTo = none) : s.takeSwitch = s := by unfold State.takeSwitch; rw [h]

theorem takeStep_calm {s : State} (h : s.stepPending = none) : s.takeStep = s := by unfold State.takeStep; rw [h]

theorem newFrame_calm {s : State} (h : s.Calm) : s.newFrame = s.begun := by
  obtain ⟨hslew, hswitch, hstep, -, -, hrole, -⟩ := h
  show (s.begun.gmFrame.slewFrame.takeSwitch).takeStep = s.begun
  rw [gmFrame_calm (s := s.begun) hrole, slewFrame_calm (s := s.begun) hslew, takeSwitch_calm (s := s.begun) hswitch,
    takeStep_calm (s := s.begun) hstep]

theorem rateSwitch_calm {s : State} (h : ∀ p < 32, (s.reg (R.linkState p) = 5 → s.reg (R.width p) ≠ 1)
    ∧ (s.reg (R.linkState p) = 6 → (s.port p).switchAt = none)) : s.rateSwitch = s := by
  refine each_fixed fun p hp => ?_
  obtain ⟨hrate, halign⟩ := h p (List.mem_range.mp hp)
  rw [if_neg fun hx => hrate hx.1 hx.2]
  split
  · next f w hsw =>
    refine if_neg fun hx => ?_
    rw [halign hx.1] at hsw
    exact absurd hsw (by simp)
  · rfl

theorem frameStep_calm {s : State} (h : s.Calm) : s.frameStep = s.begun.jobFrame := by
  obtain ⟨-, -, -, hnative, -, -, hports⟩ := id h
  unfold State.frameStep
  rw [newFrame_calm h, rateSwitch_calm (s := s.begun) hports]
  exact congrArg State.jobFrame (if_pos (c := s.begun.native = true) hnative)

/-- What a boundary leaves of the frame it has begun: its number, its slot, SRAM, and no commit that waits. -/
def State.place (s : State) : Nat × Nat × Memory × Bool := (s.frame, s.slot, s.sram, s.commitDue)

theorem place_eq {s t : State} (hframe : t.frame = s.frame) (hslot : t.slot = s.slot) (hsram : t.sram = s.sram)
    (hdue : t.commitDue = s.commitDue) : t.place = s.place := by unfold State.place; rw [hframe, hslot, hsram, hdue]

/-- FRAME_BOUNDARY takes a calm part to what its job or recovery run does in the frame that begins. -/
theorem exec_frameBoundary {s t : State} (ha : s.awake = true) (hc : s.Calm) (ht : s.begun.jobFrame = t) (hp : t.place = s.begun.place) :
    exec .frameBoundary s = .next t ∧ t.frame = (s.frame + 1) % 2 ^ 48 ∧ t.slot = 0 ∧ t.sram = s.sram := by
  have hdue : t.commitDue = false := (congrArg (·.2.2.2) hp).trans hc.2.2.2.2.1
  refine ⟨?_, congrArg (·.1) hp, congrArg (·.2.1) hp, congrArg (·.2.2.1) hp⟩
  show execFrameBoundary s = .next t
  rw [execFrameBoundary, if_pos (c := s.spineOn = true) ha, frameStep_calm hc, ht, State.dueCommit, if_pos (by simp [hdue])]

/-- A boundary whose frame's work is known (R202). -/
theorem boundary_of {s : State} {P : State → Prop} (ha : s.awake = true) (hc : s.Calm)
    (h : s.begun.jobFrame.place = s.begun.place ∧ P s.begun.jobFrame) :
    ∃ t, exec .frameBoundary s = .next t ∧ t.frame = (s.frame + 1) % 2 ^ 48 ∧ t.slot = 0 ∧ t.sram = s.sram ∧ P t := by
  obtain ⟨h1, h2, h3, h4⟩ := exec_frameBoundary ha hc rfl h.1
  exact ⟨_, h1, h2, h3, h4, h.2⟩

/-! ## One entry of the sequence (R201 to R204) -/

/-- The body of the innermost REPEAT does not end at the present position. -/
def State.Inside (s : State) : Prop := ∀ x ∈ s.reps.head?, x.2.1 ≠ s.seqPos

/-- The entry at the present position. -/
def State.entryAt (s : State) (i : Image) : BitVec 64 := i.seq.getD s.seqPos 0

/-- The state that has taken the RUN at its position. -/
def State.atRun (s : State) (i : Image) : State :=
  { ((s.setReg R.sequencePosition s.seqPos).setReg R.frameInClause 0).setReg R.activeClause (seqSlot (s.entryAt i)) with
    seqPos := s.seqPos + 1, runLeft := (s.activeHalf.getD (seqSlot (s.entryAt i)) ⟨0, [], [], []⟩).frames
    runMark := seqMark (s.entryAt i), sched := true }

/-- The sequence goes on to `u` by one entry, or by the end of a body. -/
def State.GoesOn (s : State) (i : Image) (u : State) : Prop := ∀ n, s.seqGo i (n + 1) = u.seqGo i n

section
variable {s : State} {i : Image}

theorem seqGo_inside (h : s.Inside) (n : Nat) :
    s.seqGo i (n + 1) = if (s.seqEntry i).2 then (s.seqEntry i).1 else (s.seqEntry i).1.seqGo i n := by
  unfold State.Inside at h
  cases hr : s.reps with
  | nil => simp only [State.seqGo, hr]
  | cons x l =>
    have hx : s.seqPos ≠ x.2.1 := fun he => h x (by simp [hr]) he.symm
    simp only [State.seqGo, hr, if_neg hx]

/-- An entry at which the sequence rests. -/
theorem seqGo_rests {u : State} (h : s.Inside) (he : s.seqEntry i = (u, true)) (n : Nat) : s.seqGo i (n + 1) = u := by
  rw [seqGo_inside h, he]
  rfl

/-- An entry at which it does not. -/
theorem goesOn_entry {u : State} (h : s.Inside) (he : s.seqEntry i = (u, false)) : s.GoesOn i u := fun n => by
  rw [seqGo_inside h, he]
  rfl

theorem seqEntry_run (h : seqOp (s.entryAt i) = 1) : s.seqEntry i = (s.atRun i, true) := by
  unfold State.entryAt at h
  simp only [State.seqEntry, h]
  rfl

theorem seqEntry_end (h : seqOp (s.entryAt i) = 5) : s.seqEntry i = (s.endJob 0, true) := by
  unfold State.entryAt at h
  simp only [State.seqEntry, h]

/-- The count of a REPEAT after one walk of its body (R203). -/
def walked (k : Nat) : Nat := if k = forever then k else k - 1

theorem walked_eq (k : Nat) : (if k = forever then forever else k - 1) = walked k := by
  unfold walked
  split
  · next h => exact h.symm
  · rfl

theorem goesOn_repeat_skip (h : s.Inside) (hop : seqOp (s.entryAt i) = 2) (hk : seqCount (s.entryAt i) = 0) :
    s.GoesOn i { s with seqPos := s.seqPos + 1 + seqArg (s.entryAt i) } := by
  refine goesOn_entry h ?_
  unfold State.entryAt at hop hk
  simp only [State.seqEntry, hop, hk, if_true]
  rfl

theorem goesOn_repeat (h : s.Inside) (hop : seqOp (s.entryAt i) = 2) (hk : seqCount (s.entryAt i) ≠ 0) :
    s.GoesOn i { s with seqPos := s.seqPos + 1
                        reps := (s.seqPos + 1, s.seqPos + 1 + seqArg (s.entryAt i), walked (seqCount (s.entryAt i))) :: s.reps } := by
  refine goesOn_entry h ?_
  unfold State.entryAt at hop hk ⊢
  simp only [State.seqEntry, hop, if_neg hk, walked_eq]

theorem goesOn_preload (h : s.Inside) (hop : seqOp (s.entryAt i) = 3) (hcopy : s.copy = none) :
    s.GoesOn i (({ s with seqPos := s.seqPos + 1 } : State).startCopy (seqArg (s.entryAt i)) s.idleHalf) := by
  refine goesOn_entry h ?_
  unfold State.entryAt at hop ⊢
  simp only [State.seqEntry, hop, hcopy, Option.isSome_none, Bool.false_eq_true, if_false]

theorem goesOn_preload_busy (h : s.Inside) (hop : seqOp (s.entryAt i) = 3) (hcopy : s.copy ≠ none) :
    s.GoesOn i (({ s with seqPos := s.seqPos + 1 } : State).jobFault 0x7002) := by
  refine goesOn_entry h ?_
  unfold State.entryAt at hop
  simp only [State.seqEntry, hop, Option.isSome_iff_ne_none.mpr hcopy, if_true]

theorem goesOn_swap (h : s.Inside) (hop : seqOp (s.entryAt i) = 4) (hcopy : s.copy = none) :
    s.GoesOn i ((({ s with seqPos := s.seqPos + 1 } : State).toHalf s.idleHalf).setReg R.preloadState 0) := by
  refine goesOn_entry h ?_
  unfold State.entryAt at hop
  simp only [State.seqEntry, hop, hcopy, Option.isSome_none, Bool.false_eq_true, if_false]

theorem seqEntry_swap_busy (hop : seqOp (s.entryAt i) = 4) (hcopy : s.copy ≠ none) :
    s.seqEntry i = (({ s.dropScheduled with runLeft := 0 } : State).jobFault 0x7002, true) := by
  unfold State.entryAt at hop
  simp only [State.seqEntry, hop, Option.isSome_iff_ne_none.mpr hcopy, if_true]

theorem goesOn_body_again {lo hi k : Nat} {l : List (Nat × Nat × Nat)} (hr : s.reps = (lo, hi, k) :: l) (hend : s.seqPos = hi) (hk : k ≠ 0) :
    s.GoesOn i { s with seqPos := lo, reps := (lo, hi, walked k) :: l } := fun n => by
  simp only [State.seqGo, hr, if_pos hend, if_neg hk, walked_eq]

theorem goesOn_body_ends {lo hi : Nat} {l : List (Nat × Nat × Nat)} (hr : s.reps = (lo, hi, 0) :: l) (hend : s.seqPos = hi) :
    s.GoesOn i { s with reps := l } := fun n => by
  simp only [State.seqGo, hr, if_pos hend, if_true]

/-! ## The next RUN -/

/-- A RUN stands at the present position. -/
def State.AtRun (s : State) (i : Image) : Prop := s.Inside ∧ seqOp (s.entryAt i) = 1

/-- The next RUN stands at the present position, or one entry or body's end before it does. -/
def State.Comes (s : State) (i : Image) (u : State) : Prop := u.AtRun i ∧ (s = u ∨ s.GoesOn i u)

theorem seqFuel_eq : ∃ n, seqFuel = n + 1 + 1 := ⟨2 ^ 192 - 2, by unfold seqFuel; norm_num⟩

theorem seqNext_of_rests {u : State} (hleg : i.legacy = false) (h : s.Inside) (he : s.seqEntry i = (u, true)) : s.seqNext i = u := by
  obtain ⟨n, hn⟩ := seqFuel_eq
  rw [State.seqNext, if_neg (by simp [hleg]), hn, seqGo_rests h he]

theorem seqNext_of_comes {u : State} (hleg : i.legacy = false) (h : s.Comes i u) : s.seqNext i = u.atRun i := by
  obtain ⟨⟨hin, hop⟩, rfl | hgo⟩ := h
  · exact seqNext_of_rests hleg hin (seqEntry_run hop)
  · obtain ⟨n, hn⟩ := seqFuel_eq
    rw [State.seqNext, if_neg (by simp [hleg]), hn, hgo, seqGo_rests hin (seqEntry_run hop)]

end

end Sys2Proof.Machine
end

section
/-! What a frame of a running job does: the frame counted, the next RUN taken, the clause picked, a step marked (R202 to R207, R212, R215). -/

namespace Sys2Proof.Machine

/-! ## Updates of one store -/

/-- An equation of states that hold the same regions is one up to the regions. -/
theorem eq_up_to_regions {s t : State} (h : ({ t with regions := [] } : State) = { s with regions := [] }) :
    t = { s with regions := t.regions } := congrArg (fun x : State => { x with regions := t.regions }) h

theorem eq_up_to_ports {s t : State} (h : ({ t with ports := [] } : State) = { s with ports := [] }) :
    t = { s with ports := t.ports } := congrArg (fun x : State => { x with ports := t.ports }) h

theorem eq_up_to_regs {s t : State} (h : ({ t with regs := [] } : State) = { s with regs := [] }) :
    t = { s with regs := t.regs } := congrArg (fun x : State => { x with regs := t.regs }) h

theorem markFrame_regions (s : State) : s.markFrame = { s with regions := s.markFrame.regions } := by
  refine eq_up_to_regions (each_keeps (fun t : State => ({ t with regions := [] } : State)) _ _ s fun t r _ => ?_)
  split <;> rfl

/-- A region without its frame marks. -/
def Region.unmarked (x : Region) : Region := { x with frameMarks := [] }

theorem Region.eq_of_unmarked {x y : Region} (h : x.unmarked = y.unmarked) : x = { y with frameMarks := x.frameMarks } :=
  congrArg (fun z : Region => { z with frameMarks := x.frameMarks }) h

/-- Of a region, only the frame marks change. -/
theorem region_markFrame (s : State) (q : Nat) : ∃ m, s.markFrame.region q = { s.region q with frameMarks := m } := by
  have h : (s.markFrame.region q).unmarked = (s.region q).unmarked :=
    each_keeps (fun t => (t.region q).unmarked) _ _ s fun t r _ => by
      split
      · rw [region_modRegion]
        split <;> rfl
      · rfl
  exact ⟨_, Region.eq_of_unmarked h⟩

theorem core_markFrame (s : State) (c : Nat) : s.markFrame.core c = s.core c := by
  obtain ⟨m, h⟩ := region_markFrame s (c / 64)
  unfold State.core
  rw [h]

theorem stopRegions_regions (s : State) : s.stopRegions = { s with regions := s.stopRegions.regions } := by
  refine eq_up_to_regions (each_keeps (fun t : State => ({ t with regions := [] } : State)) _ _ s fun t r _ => ?_)
  split <;> rfl

theorem freshDrift_ports (s : State) : s.freshDrift = { s with ports := s.freshDrift.ports } := by
  refine eq_up_to_ports (each_keeps (fun t : State => ({ t with ports := [] } : State)) _ _ s fun t p _ => ?_)
  split <;> rfl

/-! ## The clause of the frame (R199, R212) -/

theorem lt_of_mem_schedPorts {s : State} {p : Nat} (h : p ∈ s.schedPorts) : p < 32 := by
  unfold State.schedPorts at h
  split at h
  · split at h
    · exact List.mem_range.mp (List.mem_filter.mp h).1
    · simp at h
  · split at h
    · exact lt_of_mem_bitsSet h
    · simp at h

/-- With every port at full width the clause is the one its RUN names. -/
theorem pickClause_full {s : State} (hs : s.sched = true) (hw : ∀ p < 32, s.halfWidth p = false) (hv : s.reg R.variantPorts = 0) :
    s.pickClause = (s.setReg R.activeClause s.baseSlot).setReg R.variantPorts 0 := by
  have hnone : s.schedPorts.filter s.halfWidth = [] :=
    List.filter_eq_nil_iff.mpr fun p hp => by simp [hw p (lt_of_mem_schedPorts hp)]
  have hports : (if s.qrec.isSome ∧ s.reg R.runState ≠ 2 then bitsSet (s.reg R.variantPorts) 32 else s.schedPorts.filter s.halfWidth) = [] := by
    rw [hv, bitsSet_zero, hnone, ite_self]
  unfold State.pickClause
  rw [if_neg (by simp [hs])]
  dsimp only
  rw [hports]
  rfl

theorem baseSlot_job {s : State} {i : Image} (hi : s.image = some i) (hr : s.reg R.runState ≠ 2) :
    s.baseSlot = seqSlot (i.seq.getD (s.reg R.sequencePosition) 0) := by
  unfold State.baseSlot
  split
  · next h => exact absurd h hr
  · rw [hi]
    rfl

/-! ## The next RUN taken -/

/-- A part whose resident image is `i`, in LC1's format, with no recovery run and every port at full width. -/
structure State.Plays (s : State) (i : Image) : Prop where
  image : s.image = some i
  legacy : i.legacy = false
  runState : s.reg R.runState = 0
  width : ∀ p < 32, s.halfWidth p = false
  variants : s.reg R.variantPorts = 0

/-- What `Plays` reads is in `t` as it is in `s`. -/
theorem State.Plays.of_regs {s t : State} {i : Image} (h : s.Plays i) (hi : t.image = s.image)
    (hr : ∀ k, k = R.runState ∨ k = R.variantPorts ∨ (∃ p < 32, k = R.width p) → t.reg k = s.reg k) : t.Plays i where
  image := hi.trans h.image
  legacy := h.legacy
  runState := (hr _ (.inl rfl)).trans h.runState
  width p hp := by rw [State.halfWidth, hr _ (.inr (.inr ⟨p, hp, rfl⟩))]; exact h.width p hp
  variants := (hr _ (.inr (.inl rfl))).trans h.variants

/-- The registers that taking a RUN sets. -/
def takenRegs : List Nat := [R.sequencePosition, R.frameInClause, R.activeClause, R.variantPorts]

/-- The state that has taken its RUN, with the clause it names. -/
def State.taken (s : State) (i : Image) : State :=
  ((s.atRun i).setReg R.activeClause (seqSlot (s.entryAt i))).setReg R.variantPorts 0

theorem reg_taken (s : State) (i : Image) {k : Nat} (hk : k ∉ takenRegs) : (s.taken i).reg k = s.reg k := by
  simp only [takenRegs, List.mem_cons, List.not_mem_nil, or_false, not_or] at hk
  obtain ⟨h1, h2, h3, h4⟩ := hk
  have hrun : (s.atRun i).reg k
      = (((s.setReg R.sequencePosition s.seqPos).setReg R.frameInClause 0).setReg R.activeClause (seqSlot (s.entryAt i))).reg k := rfl
  simp only [State.taken, reg_setReg, hrun, h1, h2, h3, h4, if_false]

/-- The position, clause, frames and mark of a RUN taken in a running job. -/
def State.Takes (t : State) (i : Image) (p : Nat) : Prop :=
  t.seqPos = p + 1 ∧ t.reg R.sequencePosition = p ∧ t.reg R.frameInClause = 0 ∧ t.reg R.activeClause = seqSlot (i.seq.getD p 0)
    ∧ t.runMark = seqMark (i.seq.getD p 0) ∧ t.sched = true ∧ t.reg R.jobState = 2
    ∧ ∀ c, (t.half (t.reg R.activeHalf))[seqSlot (i.seq.getD p 0)]? = some c → t.runLeft = c.frames

/-- A state without what taking a RUN sets. -/
def State.untaken (s : State) : State :=
  { s with regs := [], regions := [], stepHist := [], seqPos := 0, runLeft := 0, runMark := false, sched := false }

/-- `t` is the running job's state `u` with the RUN at its position taken. -/
structure State.Took (i : Image) (u t : State) : Prop where
  place : t.place = u.place
  takes : t.Takes i u.seqPos
  reg : ∀ k, k ∉ takenRegs → t.reg k = u.reg k
  rest : t.untaken = u.untaken

theorem untaken_setReg (s : State) (k v : Nat) : (s.setReg k v).untaken = s.untaken := rfl

theorem untaken_taken (s : State) (i : Image) : (s.taken i).untaken = s.untaken := by
  have hrun : (s.atRun i).untaken
      = (((s.setReg R.sequencePosition s.seqPos).setReg R.frameInClause 0).setReg R.activeClause (seqSlot (s.entryAt i))).untaken := rfl
  rw [State.taken, untaken_setReg, untaken_setReg, hrun, untaken_setReg, untaken_setReg, untaken_setReg]

theorem took_taken {s : State} (i : Image) (hjob : s.reg R.jobState = 2) (rg : Tab Region) (sh : List (BitVec 64)) :
    State.Took i s { s.taken i with regions := rg, stepHist := sh } := by
  have hrun (k : Nat) : (s.atRun i).reg k
      = (((s.setReg R.sequencePosition s.seqPos).setReg R.frameInClause 0).setReg R.activeClause (seqSlot (s.entryAt i))).reg k := rfl
  have hreg (k : Nat) : ({ s.taken i with regions := rg, stepHist := sh } : State).reg k = (s.taken i).reg k := rfl
  refine ⟨place_eq rfl rfl rfl rfl, ⟨rfl, ?_, ?_, ?_, rfl, rfl, (reg_taken s i (by decide)).trans hjob, fun c hc => ?_⟩,
    fun k hk => reg_taken s i hk, ?_⟩
  · rw [hreg]
    simp +decide only [State.taken, reg_setReg, hrun, if_true, if_false]
  · rw [hreg]
    simp +decide only [State.taken, reg_setReg, hrun, if_true, if_false]
  · rw [hreg]
    simp +decide only [State.taken, reg_setReg, if_true, if_false]
    rfl
  · rw [hreg, reg_taken s i (by decide)] at hc
    have hc' : s.activeHalf[seqSlot (s.entryAt i)]? = some c := hc
    show (s.activeHalf.getD (seqSlot (s.entryAt i)) _).frames = _
    rw [List.getD_eq_getElem?_getD, hc']
    rfl
  · have hrest : ({ s.taken i with regions := rg, stepHist := sh } : State).untaken = (s.taken i).untaken := rfl
    rw [hrest, untaken_taken]

namespace State.Took

variable {i : Image} {u t : State} (h : u.Took i t)
include h

theorem reps : t.reps = u.reps := (congrArg State.reps h.rest :)
theorem copy : t.copy = u.copy := (congrArg State.copy h.rest :)
theorem qrec : t.qrec = u.qrec := (congrArg State.qrec h.rest :)
theorem restarts : t.restarts = u.restarts := (congrArg State.restarts h.rest :)
theorem frameIndex : t.frameIndex = u.frameIndex := (congrArg State.frameIndex h.rest :)
theorem jobFrame0 : t.jobFrame0 = u.jobFrame0 := (congrArg State.jobFrame0 h.rest :)
theorem replaying : t.replaying = u.replaying := (congrArg State.replaying h.rest :)
theorem log : t.log = u.log := (congrArg State.log h.rest :)

end State.Took

/-- The sequence taken up to its next RUN in a running job. -/
theorem enterFrame_comes {s u : State} {i : Image} (hp : u.Plays i) (hjob : u.reg R.jobState = 2) (h : s.Comes i u) :
    s.enterFrame i true = (u.taken i).markFrame := by
  have hrun (k : Nat) : (u.atRun i).reg k
      = (((u.setReg R.sequencePosition u.seqPos).setReg R.frameInClause 0).setReg R.activeClause (seqSlot (u.entryAt i))).reg k := rfl
  have hplays : (u.atRun i).Plays i := hp.of_regs rfl fun k hk => by
    have hne : k ≠ R.sequencePosition ∧ k ≠ R.frameInClause ∧ k ≠ R.activeClause := by
      rcases hk with rfl | rfl | ⟨p, hp, rfl⟩
      · decide
      · decide
      · simp only [R.width, R.sequencePosition, R.frameInClause, R.activeClause, regKey]; omega
    simp only [hrun, reg_setReg, hne, if_false]
  have hjob' : (u.atRun i).reg R.jobState = 2 := by
    rw [hrun]
    simp +decide only [reg_setReg, if_false]
    exact hjob
  have hbase : (u.atRun i).baseSlot = seqSlot (u.entryAt i) := by
    have hpos : (u.atRun i).reg R.sequencePosition = u.seqPos := by
      rw [hrun]
      simp +decide only [reg_setReg, if_true, if_false]
    rw [baseSlot_job hplays.image (by rw [hplays.runState]; decide), hpos]
    rfl
  unfold State.enterFrame
  simp only [if_true]
  rw [seqNext_of_comes hp.legacy h, if_pos hjob', pickClause_full rfl hplays.width hplays.variants, hbase]
  rfl

end Sys2Proof.Machine
end

section
/-! Boundaries of a running job without a step mark: the clause goes on, or the sequence goes to its next RUN (R202 to R204, R215). -/

namespace Sys2Proof.Machine

/-! ## The frame counted -/

theorem countFrame_regs (s : State) : s.countFrame = { s with regs := s.countFrame.regs } := by
  unfold State.countFrame
  split <;> rfl

/-- A running job's state with the frame that is past counted (R205, R215). -/
def State.pastFrame (s : State) : State :=
  { s with stepHist := (s.pushStep s.fabricStep).stepHist, regs := (s.pushStep s.fabricStep).countFrame.regs
           frameIndex := s.frameIndex + 1, runLeft := s.runLeft - 1 }

theorem pastFrame_eq (s : State) :
    ({ (s.pushStep s.fabricStep).countFrame with frameIndex := s.frameIndex + 1, runLeft := s.runLeft - 1 } : State) = s.pastFrame := by
  rw [countFrame_regs]
  rfl

theorem place_pastFrame (s : State) : s.pastFrame.place = s.place := place_eq rfl rfl rfl rfl

theorem reg_pastFrame (s : State) {k : Nat} (hk : k ≠ R.frameInClause) : s.pastFrame.reg k = s.reg k := by
  have h : s.pastFrame.reg k = (s.pushStep s.fabricStep).countFrame.reg k := by
    rw [countFrame_regs]
    rfl
  rw [h, State.countFrame]
  split
  · rw [reg_setReg, if_neg hk]
    rfl
  · rfl

/-- Whether the RUN's last frame is past, once its frames are counted to `x`. -/
def State.runEnded (s x : State) : Bool := s.sched && x.runLeft == 0

/-- Whether the job's quench takes effect at the boundary. -/
def State.quenchDue (s : State) : Bool := match s.qrec with
  | some q => decide (q.stop ≤ s.frame)
  | none => false

/-- A running job at a boundary past its step mark, if its RUN bears one, its frames counted to `x` (R205). -/
def State.pastMark (s x : State) : State :=
  if s.runEnded x ∧ s.runMark then { x.stepMark s.quenchDue with runMark := false } else x

/-- What a running job goes on with from `y`, where no quench takes effect: the step limit's end, or the next frame (R202, R493). -/
def State.onward (s x y : State) (i : Image) : State :=
  if s.runEnded x ∧ s.runMark ∧ y.limitReached then
    let t : State := y.seqNext i
    if t.reg R.jobState = 4 then t else y.endJob 1
  else (y.enterFrame i (s.runEnded x)).noteStep y.fabricStep

/-- The quench boundary of `y`'s record, where it has come, or what the job goes on with (R538). -/
def State.stopOr (s y go : State) : State := match y.qrec with
  | some q => if q.stop ≤ s.frame then y.quenchNow q else go
  | none => go

theorem stopOr_none {s y go : State} (h : y.qrec = none) : s.stopOr y go = go := by
  unfold State.stopOr
  rw [h]

theorem stopOr_later {s y go : State} {q : QRec} (h : y.qrec = some q) (hstop : s.frame < q.stop) : s.stopOr y go = go := by
  unfold State.stopOr
  rw [h]
  exact if_neg (Nat.not_le.mpr hstop)

theorem stopOr_due {s y go : State} {q : QRec} (h : y.qrec = some q) (hstop : q.stop ≤ s.frame) : s.stopOr y go = y.quenchNow q := by
  unfold State.stopOr
  rw [h]
  exact if_pos hstop

theorem runningFrame_eq (s : State) (i : Image) : s.runningFrame i
    = s.stopOr (s.pastMark s.pastFrame) (s.onward s.pastFrame (s.pastMark s.pastFrame) i) := by
  rw [← pastFrame_eq]
  rfl

/-- A job that runs its sequence with no quench in force. -/
structure State.Running (s : State) (i : Image) : Prop where
  plays : s.Plays i
  job : s.reg R.jobState = 2
  record : s.qrec = none
  sched : s.sched = true

theorem plays_pastFrame {s : State} {i : Image} (h : s.Plays i) : s.pastFrame.Plays i :=
  h.of_regs rfl fun k hk => reg_pastFrame s (by
    rcases hk with rfl | rfl | ⟨p, hp, rfl⟩
    · decide
    · decide
    · simp only [R.width, R.frameInClause, regKey]; omega)

section
variable {s : State} {i : Image} (h : s.Running i)
include h

theorem runEnded_pastFrame : s.runEnded s.pastFrame = (s.runLeft - 1 == 0) := by
  show (s.sched && s.runLeft - 1 == 0) = _
  rw [h.sched, Bool.true_and]

/-- Without a step mark to come the boundary takes up the frame. -/
theorem runningFrame_goes (hmark : s.runMark = false ∨ 1 < s.runLeft) :
    s.runningFrame i = (s.pastFrame.enterFrame i (s.runLeft - 1 == 0)).noteStep s.pastFrame.fabricStep := by
  have hno : ¬ ((s.runLeft - 1 == 0) = true ∧ s.runMark = true) := by
    rintro ⟨h1, h2⟩
    rcases hmark with hm | hm
    · simp [hm] at h2
    · simp at h1
      omega
  have hpast : s.pastMark s.pastFrame = s.pastFrame := by
    rw [State.pastMark, runEnded_pastFrame h, if_neg hno]
  have hrec : s.pastFrame.qrec = none := h.record
  rw [runningFrame_eq, hpast, stopOr_none hrec, State.onward, runEnded_pastFrame h, if_neg fun hx => hno ⟨hx.1, hx.2.1⟩]

/-- The clause's next frame. -/
theorem runningFrame_counts (hleft : 1 < s.runLeft) : ∃ rg sh, s.runningFrame i
    = { (s.pastFrame.setReg R.activeClause (seqSlot (i.seq.getD (s.reg R.sequencePosition) 0))).setReg R.variantPorts 0 with
        regions := rg, stepHist := sh } := by
  have hp := plays_pastFrame h.plays
  have hjob : s.pastFrame.reg R.jobState = 2 := (reg_pastFrame s (by decide)).trans h.job
  have hbase : s.pastFrame.baseSlot = seqSlot (i.seq.getD (s.reg R.sequencePosition) 0) := by
    rw [baseSlot_job hp.image (by rw [hp.runState]; decide), reg_pastFrame s (by decide)]
  have hsched : s.pastFrame.sched = true := h.sched
  have hend : (s.runLeft - 1 == 0) = false := by simp; omega
  rw [runningFrame_goes h (.inr hleft), hend]
  unfold State.enterFrame
  simp only [Bool.false_eq_true, if_false]
  rw [if_pos hjob, pickClause_full hsched hp.width hp.variants, hbase, markFrame_regions]
  exact ⟨_, _, rfl⟩

/-- What its boundary leaves. -/
theorem running_counts (hleft : 1 < s.runLeft) (hclause : s.reg R.activeClause < 8) : (s.runningFrame i).place = s.place
    ∧ (s.runningFrame i).runLeft = s.runLeft - 1 ∧ (s.runningFrame i).seqPos = s.seqPos ∧ (s.runningFrame i).sched = true
    ∧ (s.runningFrame i).reg R.frameInClause = s.reg R.frameInClause + 1 ∧ (s.runningFrame i).frameIndex = s.frameIndex + 1
    ∧ (s.runningFrame i).reg R.jobState = 2
    ∧ (s.runningFrame i).reg R.activeClause = seqSlot (i.seq.getD (s.reg R.sequencePosition) 0) := by
  have hframe : s.pastFrame.reg R.frameInClause = s.reg R.frameInClause + 1 := by
    have hcount : s.pastFrame.reg R.frameInClause = (s.pushStep s.fabricStep).countFrame.reg R.frameInClause := by
      rw [countFrame_regs]
      rfl
    rw [hcount, State.countFrame, if_pos (show (s.pushStep s.fabricStep).reg R.activeClause < 8 from hclause), reg_setReg, if_pos rfl]
    rfl
  have hjob : s.pastFrame.reg R.jobState = 2 := (reg_pastFrame s (by decide)).trans h.job
  obtain ⟨rg, sh, hrun⟩ := runningFrame_counts h hleft
  generalize seqSlot (i.seq.getD (s.reg R.sequencePosition) 0) = c at *
  have hreg (k : Nat) : (s.runningFrame i).reg k = if k = R.variantPorts then 0 else if k = R.activeClause then c else s.pastFrame.reg k := by
    rw [hrun]
    exact (reg_setReg (s.pastFrame.setReg R.activeClause c) R.variantPorts 0 k).trans (by rw [reg_setReg])
  refine ⟨?_, ?_, ?_, ?_, (hreg _).trans hframe, ?_, (hreg _).trans hjob, (hreg _).trans rfl⟩
  all_goals rw [hrun]
  · exact (place_eq rfl rfl rfl rfl).trans (place_pastFrame s)
  · rfl
  · rfl
  · exact h.sched
  · rfl

variable {u : State}

/-- The next RUN, one entry on at most. -/
theorem runningFrame_comes (hleft : s.runLeft = 1) (hmark : s.runMark = false) (hp : u.Plays i) (hjob : u.reg R.jobState = 2)
    (hc : s.pastFrame.Comes i u) : u.Took i (s.runningFrame i) := by
  have hend : (s.runLeft - 1 == 0) = true := by simp [hleft]
  rw [runningFrame_goes h (.inl hmark), hend, enterFrame_comes hp hjob hc, markFrame_regions]
  exact took_taken i hjob _ _

/-- An entry at which the sequence rests and scheduled traffic ends. -/
theorem runningFrame_rests (hleft : s.runLeft = 1) (hmark : s.runMark = false) (hin : s.Inside) (he : s.pastFrame.seqEntry i = (u, true)) :
    s.runningFrame i = (if u.reg R.jobState = 2 then u.pickClause.markFrame else u).noteStep s.pastFrame.fabricStep := by
  have hend : (s.runLeft - 1 == 0) = true := by simp [hleft]
  rw [runningFrame_goes h (.inl hmark), hend]
  unfold State.enterFrame
  simp only [if_true]
  rw [seqNext_of_rests h.plays.legacy (s := s.pastFrame) hin he]

end

/-! ## Entries -/

section
variable {s : State} {i : Image} (h : s.Running i) (hleft : s.runLeft = 1) (hmark : s.runMark = false)
include h hleft hmark

theorem running_run (hin : s.Inside) (hop : seqOp (s.entryAt i) = 1) :
    (s.runningFrame i).place = s.place ∧ (s.runningFrame i).Takes i s.seqPos ∧ (s.runningFrame i).reps = s.reps := by
  have hjob : s.pastFrame.reg R.jobState = 2 := (reg_pastFrame s (by decide)).trans h.job
  have ht := runningFrame_comes h hleft hmark (plays_pastFrame h.plays) hjob ⟨⟨hin, hop⟩, .inl rfl⟩
  exact ⟨ht.place.trans (place_pastFrame s), ht.takes, ht.reps⟩

/-- A move within the sequence, one entry or body's end before the next RUN. -/
theorem running_moves {p : Nat} {l : List (Nat × Nat × Nat)}
    (hgo : s.pastFrame.GoesOn i { s.pastFrame with seqPos := p, reps := l }) (hin : ∀ x ∈ l.head?, x.2.1 ≠ p) (hop : seqOp (i.seq.getD p 0) = 1) :
    (s.runningFrame i).place = s.place ∧ (s.runningFrame i).Takes i p ∧ (s.runningFrame i).reps = l := by
  have hjob : s.pastFrame.reg R.jobState = 2 := (reg_pastFrame s (by decide)).trans h.job
  have hp := plays_pastFrame h.plays
  have ht := runningFrame_comes h hleft hmark (u := { s.pastFrame with seqPos := p, reps := l })
    ⟨hp.image, hp.legacy, hp.runState, hp.width, hp.variants⟩ hjob ⟨⟨hin, hop⟩, .inr hgo⟩
  exact ⟨ht.place.trans (place_eq rfl rfl rfl rfl), ht.takes, ht.reps⟩

end

end Sys2Proof.Machine
end

section
/-! The faults a frame boundary raises in a job that runs (R163, R202, R206, R492). -/

namespace Sys2Proof.Machine

/-- The registers that a fault of a running job can change. -/
def quenchRegs : List Nat := logRegs ++ recordRegs ++ [R.lastFaultCause, R.lastCoreFault, R.lastFaultCore]

/-- `t` is the running job's state `s` with its step's first fault raised and quenched. -/
structure State.Faulted (s : State) (code : Nat) (t : State) : Prop where
  only : ∃ l, ({ s with firstFault := true, faultHist := l } : State).QuenchOnly t
  cause : t.reg R.lastFaultCause = code
  record : ∃ q, t.qrec = some q ∧ s.frame < q.stop
  reg : ∀ k, k ∉ quenchRegs → t.reg k = s.reg k

theorem not_mem_quenchRegs {k : Nat} (hk : k ∉ quenchRegs) : k ∉ logRegs ∧ k ∉ recordRegs ∧ k ≠ R.lastFaultCause
    ∧ k ≠ R.lastCoreFault ∧ k ≠ R.lastFaultCore := by
  simpa [quenchRegs, not_or, and_assoc] using hk

theorem causeKept_quenchOnly (s : State) (code unit detail : Nat) :
    ({ s with firstFault := true } : State).QuenchOnly (s.causeKept code unit detail) := by
  obtain ⟨l, r, g, n, h⟩ := causeKept_cases s code unit detail
  rw [h]
  exact ⟨_, _, _, _, _, _, _, _, _, _, _, _, _, rfl⟩

/-- The record of a quench originated in a running job takes effect at a later frame (R534). -/
theorem record_originate {s : State} (hs : s.unquenched) (cause : Nat) (isEnd held : Bool) :
    ∃ q, (s.originate cause isEnd held).qrec = some q ∧ s.frame < q.stop := by
  have hlogged (b : Bool) : (if b then s.logEntry 0x7072 2 0xFF noDetail else s).unquenched
      ∧ (if b then s.logEntry 0x7072 2 0xFF noDetail else s).frame = s.frame := by
    cases b
    · exact ⟨hs, rfl⟩
    · exact ⟨unquenched_logEntry hs _ _ _ _, frame_logEntry s _ _ _ _⟩
  have hsend {t : State} (ht : t.unquenched) {q : QRec} (hq : t.frame < q.q) (hstop : s.frame < q.stop) :
      ∃ r, (t.sendQuench q).qrec = some r ∧ s.frame < r.stop := by
    obtain ⟨po, st, n, seen, h⟩ := sendQuench_first ht.1 ht.2 hq
    rw [h, qrec_showRec]
    exact ⟨_, rfl, hstop⟩
  unfold State.originate
  dsimp only
  refine hsend (hlogged _).1 ?_ (frame_lt_quenchFrameNow s)
  rw [(hlogged _).2]
  exact frame_lt_quenchFrameNow s

/-- A quench originated for the cause that has been kept. -/
theorem faulted_originate {s x : State} {code unit detail : Nat} {l : List (Nat × Nat × Nat × BitVec 64 × Nat)} (hs : s.quiet)
    (hx : x = { s.causeKept code unit detail with faultHist := l }) : s.Faulted code (x.originate code false false) := by
  obtain ⟨hjob, hrec, -, -⟩ := hs
  have hreg (k : Nat) : x.reg k = (s.causeKept code unit detail).reg k := by rw [hx]; rfl
  obtain ⟨hqrec, hframe⟩ : x.qrec = none ∧ x.frame = s.frame := by
    obtain ⟨lo, r, g, n, h⟩ := causeKept_cases s code unit detail
    rw [hx, h]
    exact ⟨hrec, rfl⟩
  have hun : x.unquenched := ⟨((hreg _).trans (reg_causeKept s _ _ _ (by decide) (by decide))).trans hjob, hqrec⟩
  refine ⟨⟨l, .trans ?_ (quenchOnly_originate x _ _ _)⟩, ?_, hframe ▸ record_originate hun _ _ _, fun k hk => ?_⟩
  · obtain ⟨lo, r, g, n, h⟩ := causeKept_cases s code unit detail
    rw [hx, h]
    exact ⟨_, _, _, _, _, _, _, _, _, _, _, _, _, rfl⟩
  · rw [reg_originate_of_unquenched hun _ _ _ (by decide) (by decide), hreg, lastFaultCause_causeKept]
  · obtain ⟨hlog, hrecord, hcause, -, -⟩ := not_mem_quenchRegs hk
    rw [reg_originate_of_unquenched hun _ _ _ hlog hrecord, hreg, reg_causeKept s _ _ _ hlog hcause]

/-- The first fault of the step, by the part. -/
theorem faulted_replay {s : State} (hs : s.quiet) {code : Nat} (hact : faultAct code = .replay) (hcore : code / 256 ≠ 0x10)
    (unit detail : Nat) : s.Faulted code (s.raise code unit detail) := by
  rw [raise_first hs hact hcore unit detail]
  exact faulted_originate (l := s.faultHist) (unit := unit) (detail := detail) hs (by
    obtain ⟨lo, r, g, n, h⟩ := causeKept_cases s code unit detail
    show s.causeKept code unit detail = _
    rw [h])

/-- The first fault of a step that is not run again, at a core. -/
theorem faulted_core {s : State} (hs : s.quiet) (hrep : s.replaying = none) {code : Nat} (hact : faultAct code = .core)
    (hcore : code / 256 ≠ 0x10) (unit detail c pc : Nat) : s.Faulted code (s.raise code unit detail (some (c, pc))) := by
  have hraise : s.raise code unit detail (some (c, pc)) = (s.causeKept code unit detail).actOn code detail (some (c, pc)) 0 := by
    obtain ⟨hjob, -, hfirst, hrun⟩ := hs
    simp [State.raise, hrun, hjob, hfirst, State.causeKept, State.noteCoreFault, hcore, State.setReg]
  have hrep' : (s.causeKept code unit detail).replaying = none := by
    obtain ⟨lo, r, g, n, h⟩ := causeKept_cases s code unit detail
    rw [h]
    exact hrep
  have hfirst (st : BitVec 64) : (s.causeKept code unit detail).attemptFor st = 0 := by rw [State.attemptFor, hrep']
  rw [hraise]
  unfold State.actOn
  simp only [hact, hfirst]
  exact faulted_originate hs rfl

/-- A second fault of the step is logged. -/
theorem State.Faulted.raise {s t : State} {code : Nat} (h : s.Faulted code t) (hjob : s.reg R.jobState = 2) (hrun : s.reg R.runState ≠ 2)
    {code' : Nat} (hact : faultAct code' = .core) (hcore : code' / 256 ≠ 0x10) (unit detail : Nat) (at? : Option (Nat × Nat)) :
    s.Faulted code (t.raise code' unit detail at?) := by
  obtain ⟨⟨l, honly⟩, hcause, hrecord, hreg⟩ := h
  have hjob' : t.reg R.jobState = 2 := (hreg _ (by decide)).trans hjob
  have hrun' : t.reg R.runState ≠ 2 := by rwa [hreg _ (by decide)]
  have hfirst : t.firstFault = true := by
    obtain ⟨r, l, g, n, q, e, j, a, rm, po, st, fn, seen, rfl⟩ := honly
    rfl
  have hraise : t.raise code' unit detail at? = t.logEntry code' 2 unit detail := by
    simp [State.raise, hrun', hjob', hfirst, hact, State.noteCoreFault, hcore]
  have hlog (k : Nat) (hk : k ∉ logRegs) : (t.logEntry code' 2 unit detail).reg k = t.reg k :=
    reg_of_aside (aside_logEntry t _ _ _ _ hk)
  rw [hraise]
  refine ⟨⟨l, honly.trans (quenchOnly_logEntry t _ _ _ _)⟩, (hlog _ (by decide)).trans hcause, ?_,
    fun k hk => (hlog k (not_mem_quenchRegs hk).1).trans (hreg k hk)⟩
  obtain ⟨e, l, r, g, n, hl, -⟩ := logEntry_cases t code' 2 unit detail
  rw [hl]
  exact hrecord

namespace State.Faulted

theorem quenched {s t : State} {code : Nat} (h : s.Faulted code t) : t.qrec.isSome = true := by
  obtain ⟨q, hq, -⟩ := h.record
  rw [hq]
  rfl

variable {s t : State} {code : Nat} (h : s.Faulted code t)
include h

theorem place : t.place = s.place := by
  obtain ⟨l, r, lo, g, n, q, e, j, a, rm, po, st, fn, seen, rfl⟩ := h.only
  rfl

theorem sequence : t.seqPos = s.seqPos ∧ t.reps = s.reps ∧ t.copy = s.copy ∧ t.image = s.image ∧ t.sched = s.sched := by
  obtain ⟨l, r, lo, g, n, q, e, j, a, rm, po, st, fn, seen, rfl⟩ := h.only
  exact ⟨rfl, rfl, rfl, rfl, rfl⟩

theorem plays {i : Image} (hp : s.Plays i) : t.Plays i :=
  hp.of_regs h.sequence.2.2.2.1 fun k hk => h.reg k (by
    rcases hk with rfl | rfl | ⟨p, hp, rfl⟩
    · decide
    · decide
    · simp only [quenchRegs, logRegs, recordRegs, List.mem_append, List.mem_cons, List.not_mem_nil, or_false, R.width, R.logCount,
        R.logNextSeq, R.logOverwritten, R.eventsUnsent, R.replayStep, R.replayAttempt, R.quenchFrame, R.replayFrame, R.quenchOrigin,
        R.quenchCause, R.lastFaultCause, R.lastCoreFault, R.lastFaultCore, regKey]
      omega)

end State.Faulted

end Sys2Proof.Machine
end

section
/-! Boundaries of a running job at which copies, halves and the job's end are met: PRELOAD, SWAP and END (R201, R202, R204, R493). -/

namespace Sys2Proof.Machine

/-! ## Halves and copies -/

theorem activeHalf_eq (s : State) : s.activeHalf = s.half (s.reg R.activeHalf) := rfl

/-- The registers of the draws of the clauses (R455). -/
def peakRegs : List Nat := (List.range 8).map R.clausePeakW

theorem aside_setPeaks {k : Nat} (hk : k ∉ peakRegs) (s : State) (l : List Nat) : (s.setPeaks l).aside k = s.aside k :=
  aside_each (fun t c hc => aside_setReg (fun h => hk (by rw [h]; exact List.mem_map_of_mem hc)) t _) s

theorem setPeaks_regs (s : State) (l : List Nat) : s.setPeaks l = { s with regs := (s.setPeaks l).regs } :=
  eq_up_to_regs (each_keeps (fun t : State => ({ t with regs := [] } : State)) _ _ s fun _ _ _ => rfl)

theorem toHalf_keeps (s : State) (h : Nat) : s.toHalf h = { s with regs := (s.toHalf h).regs, idlePeaks := (s.toHalf h).idlePeaks } := by
  unfold State.toHalf
  split
  · rfl
  · rw [setPeaks_regs]
    rfl

theorem reg_toHalf (s : State) (h : Nat) {k : Nat} (hk : k ∉ peakRegs) :
    (s.toHalf h).reg k = if k = R.activeHalf then h else s.reg k := by
  unfold State.toHalf
  split
  · next hh =>
    split
    · next hk => rw [hk, ← hh]
    · rfl
  · show ((s.setReg R.activeHalf h).setPeaks s.idlePeaks).reg k = _
    rw [reg_of_aside (aside_setPeaks hk _ _), reg_setReg]

theorem plays_toHalf {s : State} {i : Image} (h : s.Plays i) (x : Nat) : (s.toHalf x).Plays i :=
  h.of_regs (by rw [toHalf_keeps]) fun k hk => by
    have hne : k ∉ peakRegs ∧ k ≠ R.activeHalf := by
      rcases hk with rfl | rfl | ⟨p, hp, rfl⟩
      · decide
      · decide
      · simp only [peakRegs, List.mem_map, List.mem_range, not_exists, not_and, R.clausePeakW, R.width, R.activeHalf, regKey]
        constructor
        · intros; omega
        · omega
    rw [reg_toHalf s x hne.1, if_neg hne.2]

theorem startCopy_keeps (s : State) (set half : Nat) : s.startCopy set half
    = { s with regs := Tab.set s.regs R.preloadState 1, halfSet := s.halfSet.set half 0xFFFF, copy := some { set := set, half := half }
               half0 := (s.startCopy set half).half0, half1 := (s.startCopy set half).half1 } := by
  unfold State.startCopy State.setHalf
  dsimp only
  split <;> rfl

theorem reg_startCopy (s : State) (set half k : Nat) : (s.startCopy set half).reg k = if k = R.preloadState then 1 else s.reg k := by
  rw [startCopy_keeps]
  exact reg_setReg s R.preloadState 1 k

theorem plays_startCopy {s : State} {i : Image} (h : s.Plays i) (set half : Nat) : (s.startCopy set half).Plays i :=
  h.of_regs (by rw [startCopy_keeps]) fun k hk => by
    rw [reg_startCopy, if_neg]
    rcases hk with rfl | rfl | ⟨p, hp, rfl⟩
    · decide
    · decide
    · simp only [R.width, R.preloadState, regKey]; omega

/-! ## Preloads and swaps -/

/-- A fold establishes what one of its steps does and no step undoes. -/
theorem each_establishes {α : Type} {P : State → Prop} {f : State → α → State} {l : List α} {x : α} (hx : x ∈ l)
    (hkeep : ∀ t, ∀ y ∈ l, P t → P (f t y)) (hset : ∀ t, P (f t x)) (s : State) : P (s.each l f) := by
  induction l generalizing s with
  | nil => simp at hx
  | cons y l ih =>
    show P ((f s y).each l f)
    rcases List.mem_cons.mp hx with rfl | hx
    · exact each_of_keeps (fun t z hz => hkeep t z (List.mem_cons_of_mem _ hz)) (hset s)
    · exact ih hx (fun t z hz => hkeep t z (List.mem_cons_of_mem _ hz)) (f s y)

/-- A running job's state with its frame counted and one entry of the sequence passed. -/
def State.passed (s : State) : State := { s.pastFrame with seqPos := s.seqPos + 1 }

theorem reg_passed (s : State) {k : Nat} (hk : k ≠ R.frameInClause) : s.passed.reg k = s.reg k := reg_pastFrame s hk

theorem plays_passed {s : State} {i : Image} (h : s.Plays i) : s.passed.Plays i := (plays_pastFrame h).of_regs rfl fun _ _ => rfl

theorem place_passed (s : State) : s.passed.place = s.place := place_eq rfl rfl rfl rfl

theorem idleHalf_pastFrame (s : State) : s.pastFrame.idleHalf = 1 - s.reg R.activeHalf := by
  rw [State.idleHalf, reg_pastFrame s (by decide)]

theorem quiet_passed {s : State} {i : Image} (h : s.Running i) (hfirst : s.firstFault = false) : s.passed.quiet :=
  ⟨(reg_passed s (by decide)).trans h.job, h.record, hfirst, by rw [reg_passed s (by decide), h.plays.runState]; decide⟩

section
variable {s : State} {i : Image} (h : s.Running i) (hleft : s.runLeft = 1) (hmark : s.runMark = false)
include h hleft hmark

section
variable (hnext : ∀ x ∈ s.reps.head?, x.2.1 ≠ s.seqPos + 1) (hop1 : seqOp (i.seq.getD (s.seqPos + 1) 0) = 1)
include hnext hop1

/-- The RUN that follows an entry which leaves the sequence's place alone. -/
theorem running_passes {u : State} (hgo : s.pastFrame.GoesOn i u) (hp : u.Plays i) (hjob : u.reg R.jobState = 2)
    (hpos : u.seqPos = s.seqPos + 1) (hreps : u.reps = s.reps) (hplace : u.place = s.place) :
    u.Took i (s.runningFrame i) ∧ (s.runningFrame i).place = s.place ∧ (s.runningFrame i).Takes i (s.seqPos + 1) := by
  have hrun : u.AtRun i := by
    rw [State.AtRun, State.Inside, State.entryAt, hreps, hpos]
    exact ⟨hnext, hop1⟩
  have ht := runningFrame_comes h hleft hmark hp hjob ⟨hrun, .inr hgo⟩
  exact ⟨ht, ht.place.trans hplace, hpos ▸ ht.takes⟩

variable (hin : s.Inside)
include hin

/-- A PRELOAD starts its copy into the inactive half. -/
theorem running_preload (hop : seqOp (s.entryAt i) = 3) (hcopy : s.copy = none) :
    (s.runningFrame i).place = s.place ∧ (s.runningFrame i).Takes i (s.seqPos + 1) ∧ (s.runningFrame i).reg R.preloadState = 1
      ∧ (s.runningFrame i).copy = some { set := seqArg (s.entryAt i), half := 1 - s.reg R.activeHalf } := by
  have hgo : s.pastFrame.GoesOn i (s.passed.startCopy (seqArg (s.entryAt i)) (1 - s.reg R.activeHalf)) := by
    rw [← idleHalf_pastFrame]
    exact goesOn_preload (s := s.pastFrame) hin hop hcopy
  have hset := startCopy_keeps s.passed (seqArg (s.entryAt i)) (1 - s.reg R.activeHalf)
  have hreg := reg_startCopy s.passed (seqArg (s.entryAt i)) (1 - s.reg R.activeHalf)
  obtain ⟨ht, hplace, htakes⟩ := running_passes h hleft hmark hnext hop1 hgo (plays_startCopy (plays_passed h.plays) _ _)
    ((hreg _).trans ((reg_passed s (by decide)).trans h.job)) (by rw [hset]; rfl) (by rw [hset]; rfl)
    (by rw [hset]; exact (place_eq rfl rfl rfl rfl).trans (place_passed s))
  exact ⟨hplace, htakes, (ht.reg _ (by decide)).trans (hreg _), ht.copy.trans (by rw [hset])⟩

/-- A PRELOAD while an earlier copy runs. -/
theorem running_preload_busy (hop : seqOp (s.entryAt i) = 3) (hcopy : s.copy ≠ none) (hfirst : s.firstFault = false) :
    (s.runningFrame i).place = s.place ∧ (s.runningFrame i).Takes i (s.seqPos + 1) ∧ (s.runningFrame i).copy = s.copy
      ∧ (s.runningFrame i).reg R.lastFaultCause = 0x7002 ∧ (s.runningFrame i).qrec.isSome = true := by
  have hgo : s.pastFrame.GoesOn i (s.passed.jobFault 0x7002) := goesOn_preload_busy (s := s.pastFrame) hin hop hcopy
  have hf : s.passed.Faulted 0x7002 (s.passed.jobFault 0x7002) := faulted_replay (quiet_passed h hfirst) (by decide) (by decide) _ _
  generalize s.passed.jobFault 0x7002 = u at *
  obtain ⟨hpos, hreps, hcopy', -, -⟩ := hf.sequence
  obtain ⟨ht, hplace, htakes⟩ := running_passes h hleft hmark hnext hop1 hgo (hf.plays (plays_passed h.plays))
    ((hf.reg _ (by decide)).trans ((reg_passed s (by decide)).trans h.job)) hpos hreps (hf.place.trans (place_passed s))
  exact ⟨hplace, htakes, ht.copy.trans hcopy', (ht.reg _ (by decide)).trans hf.cause, (congrArg Option.isSome ht.qrec).trans hf.quenched⟩

/-- A SWAP makes the inactive half the active one. -/
theorem running_swap (hop : seqOp (s.entryAt i) = 4) (hcopy : s.copy = none) :
    (s.runningFrame i).place = s.place ∧ (s.runningFrame i).Takes i (s.seqPos + 1)
      ∧ (s.runningFrame i).reg R.activeHalf = 1 - s.reg R.activeHalf ∧ (s.runningFrame i).reg R.preloadState = 0 := by
  have hgo : s.pastFrame.GoesOn i ((s.passed.toHalf (1 - s.reg R.activeHalf)).setReg R.preloadState 0) := by
    rw [← idleHalf_pastFrame]
    exact goesOn_swap (s := s.pastFrame) hin hop hcopy
  have hkeep := toHalf_keeps s.passed (1 - s.reg R.activeHalf)
  have hp := plays_toHalf (plays_passed h.plays) (1 - s.reg R.activeHalf)
  have hjob : (s.passed.toHalf (1 - s.reg R.activeHalf)).reg R.jobState = 2 := by
    rw [reg_toHalf _ _ (by decide), if_neg (by decide), reg_passed s (by decide), h.job]
  have hhalf : (s.passed.toHalf (1 - s.reg R.activeHalf)).reg R.activeHalf = 1 - s.reg R.activeHalf := by
    rw [reg_toHalf _ _ (by decide), if_pos rfl]
  have hseq : (s.passed.toHalf (1 - s.reg R.activeHalf)).seqPos = s.seqPos + 1 ∧ (s.passed.toHalf (1 - s.reg R.activeHalf)).reps = s.reps
      ∧ (s.passed.toHalf (1 - s.reg R.activeHalf)).place = s.place := by
    rw [hkeep]
    exact ⟨rfl, rfl, (place_eq rfl rfl rfl rfl).trans (place_passed s)⟩
  generalize s.passed.toHalf (1 - s.reg R.activeHalf) = u at *
  obtain ⟨hpos, hreps, hplace⟩ := hseq
  obtain ⟨ht, hplace', htakes⟩ := running_passes h hleft hmark hnext hop1 hgo
    (hp.of_regs rfl fun k hk => by
      rw [reg_setReg, if_neg]
      rcases hk with rfl | rfl | ⟨p, hp, rfl⟩
      · decide
      · decide
      · simp only [R.width, R.preloadState, regKey]; omega)
    (by rw [reg_setReg, if_neg (by decide)]; exact hjob) hpos hreps hplace
  refine ⟨hplace', htakes, (ht.reg _ (by decide)).trans ?_, (ht.reg _ (by decide)).trans ?_⟩
  · rw [reg_setReg, if_neg (by decide)]
    exact hhalf
  · rw [reg_setReg, if_pos rfl]

end

end

end Sys2Proof.Machine
end

section
/-! Boundaries at which scheduled traffic ends: a SWAP under a copy, and END (R202, R204, R209, R493). -/

namespace Sys2Proof.Machine

/-! ## Traffic dropped -/

/-- The landing buffers emptied. -/
def State.landingsGone (s : State) : State :=
  s.each (List.range 32) fun t p => if (t.port p).landing = [] then t else t.modPort p fun x => { x with landing := [] }

theorem landingsGone_ports (s : State) : s.landingsGone = { s with ports := s.landingsGone.ports } := by
  refine eq_up_to_ports (each_keeps (fun t : State => ({ t with ports := [] } : State)) _ _ s fun t p _ => ?_)
  split <;> rfl

/-- No clause and no variant runs, and no traffic is expected (R209, R215). -/
def State.unscheduled (s : State) : State :=
  { (s.setReg R.activeClause 0xFF).setReg R.variantPorts 0 with sched := false, uses := [], lateDebt := [] }

theorem dropScheduled_eq (s : State) : s.dropScheduled = s.landingsGone.unscheduled := rfl

theorem dropScheduled_keeps (s : State) : ∃ po, s.dropScheduled = { s.unscheduled with ports := po } := by
  obtain ⟨po, h⟩ : ∃ po, s.landingsGone = { s with ports := po } := ⟨_, landingsGone_ports s⟩
  refine ⟨po, ?_⟩
  rw [dropScheduled_eq, h]
  rfl

theorem reg_unscheduled (s : State) (k : Nat) :
    s.unscheduled.reg k = if k = R.variantPorts then 0 else if k = R.activeClause then 0xFF else s.reg k := by
  have h : s.unscheduled.reg k = ((s.setReg R.activeClause 0xFF).setReg R.variantPorts 0).reg k := rfl
  rw [h, reg_setReg, reg_setReg]

theorem reg_dropScheduled (s : State) (k : Nat) :
    s.dropScheduled.reg k = if k = R.variantPorts then 0 else if k = R.activeClause then 0xFF else s.reg k := by
  obtain ⟨po, h⟩ := dropScheduled_keeps s
  rw [← reg_unscheduled, h]
  rfl

/-- What dropping scheduled traffic leaves. -/
theorem dropScheduled_leaves (s : State) : s.dropScheduled.place = s.place ∧ s.dropScheduled.sched = false ∧ s.dropScheduled.uses = []
    ∧ s.dropScheduled.copy = s.copy ∧ s.dropScheduled.qrec = s.qrec ∧ s.dropScheduled.regions = s.regions
    ∧ s.dropScheduled.firstFault = s.firstFault := by
  obtain ⟨po, h⟩ := dropScheduled_keeps s
  rw [h]
  exact ⟨rfl, rfl, rfl, rfl, rfl, rfl, rfl⟩

theorem running_stopRegions (s : State) {r : Nat} (hr : r < 16) : (s.stopRegions.region r).running = false := by
  refine each_establishes (P := fun t => (t.region r).running = false) (List.mem_range.mpr hr) (fun t q _ ht => ?_) (fun t => ?_) s
  · split
    · rw [region_modRegion]
      split
      · rfl
      · exact ht
    · exact ht
  · split
    · rw [region_modRegion, if_pos rfl]
    · next hn => exact Bool.not_eq_true _ ▸ hn

theorem region_of_regions {s t : State} (h : t.regions = s.regions) (r : Nat) : t.region r = s.region r := by
  unfold State.region
  rw [h]

theorem place_stopRegions (s : State) : s.stopRegions.place = s.place := by
  obtain ⟨rg, h⟩ : ∃ rg, s.stopRegions = { s with regions := rg } := ⟨_, stopRegions_regions s⟩
  rw [h]
  exact place_eq rfl rfl rfl rfl

/-- A state at the end of its job, with units and ballast still to go (R493). -/
structure State.Ended (s : State) (cause : Nat) (t : State) : Prop where
  place : t.place = s.place
  job : t.reg R.jobState = 4
  pending : t.endPending = some cause
  record : t.qrec = none
  sched : t.sched = false
  uses : t.uses = []
  regions : ∀ r < 16, (t.region r).running = false

theorem State.Ended.setReg {s t : State} {cause : Nat} (h : s.Ended cause t) {k : Nat} (hk : k ≠ R.jobState) (v : Nat) :
    s.Ended cause (t.setReg k v) :=
  ⟨h.place, (reg_setReg _ _ _ _).trans ((if_neg hk.symm).trans h.job), h.pending, h.record, h.sched, h.uses, h.regions⟩

theorem State.Ended.showRec {s t : State} {cause : Nat} (h : s.Ended cause t) : s.Ended cause t.showRec := by
  have hjob : t.showRec.reg R.jobState = 4 := (reg_showRec_other _ (by decide)).trans h.job
  obtain ⟨r, hr⟩ := showRec_keeps t
  rw [hr] at hjob ⊢
  exact ⟨h.place, hjob, h.pending, h.record, h.sched, h.uses, h.regions⟩

theorem State.Ended.askUnits {s t : State} {cause : Nat} (h : s.Ended cause t) : s.Ended cause t.askUnits :=
  ⟨h.place, h.job, h.pending, h.record, h.sched, h.uses, h.regions⟩

theorem ended_endJob (s : State) (cause : Nat) (hb : s.reg R.ballastEnable = 1) : s.Ended cause (s.endJob cause) := by
  have hdrop : s.stopRegions.dropScheduled.place = s.place ∧ s.stopRegions.dropScheduled.sched = false
      ∧ s.stopRegions.dropScheduled.uses = [] ∧ ∀ r < 16, (s.stopRegions.dropScheduled.region r).running = false := by
    obtain ⟨hplace, hsched, huses, -, -, hregions, -⟩ := dropScheduled_leaves s.stopRegions
    refine ⟨hplace.trans (place_stopRegions s), hsched, huses, fun r hr => ?_⟩
    rw [region_of_regions hregions]
    exact running_stopRegions s hr
  unfold State.endJob
  rw [if_neg (by rw [hb]; decide)]
  generalize s.stopRegions.dropScheduled = u at *
  obtain ⟨hplace, hsched, huses, hregions⟩ := hdrop
  have h1 : s.Ended cause { u.setReg R.jobState 4 with endPending := some cause, qrec := none, replaying := none, joinWait := none } :=
    ⟨(place_eq rfl rfl rfl rfl).trans hplace, (reg_setReg u R.jobState 4 R.jobState).trans (if_pos rfl), rfl, rfl, hsched, huses, hregions⟩
  exact (((h1.showRec.setReg (by decide) _).setReg (by decide) _).setReg (by decide) _).askUnits

/-! ## At a RUN's last frame -/

/-- What the notes of a frame leave. -/
theorem noted_leaves (s : State) (st : BitVec 64) : (s.markFrame.noteStep st).place = s.place
    ∧ (∀ k, (s.markFrame.noteStep st).reg k = s.reg k) ∧ (s.markFrame.noteStep st).sched = s.sched
    ∧ (s.markFrame.noteStep st).copy = s.copy ∧ (s.markFrame.noteStep st).qrec = s.qrec := by
  obtain ⟨rg, h⟩ : ∃ rg, s.markFrame = { s with regions := rg } := ⟨_, markFrame_regions s⟩
  rw [h]
  exact ⟨place_eq rfl rfl rfl rfl, fun _ => rfl, rfl, rfl, rfl⟩

section
variable {s : State} {i : Image} (h : s.Running i) (hleft : s.runLeft = 1) (hmark : s.runMark = false) (hin : s.Inside)
include h hleft hmark hin

/-- A SWAP while a copy still runs. -/
theorem running_swap_busy (hop : seqOp (s.entryAt i) = 4) (hcopy : s.copy ≠ none) (hfirst : s.firstFault = false) :
    (s.runningFrame i).place = s.place ∧ (s.runningFrame i).reg R.activeHalf = s.reg R.activeHalf ∧ (s.runningFrame i).sched = false
      ∧ (s.runningFrame i).copy = s.copy ∧ (s.runningFrame i).reg R.lastFaultCause = 0x7002 ∧ (s.runningFrame i).qrec.isSome = true := by
  rw [runningFrame_rests h hleft hmark hin (seqEntry_swap_busy (s := s.pastFrame) hop hcopy)]
  have hdrop := dropScheduled_leaves s.pastFrame
  have hreg {k : Nat} (hk : k ≠ R.variantPorts ∧ k ≠ R.activeClause ∧ k ≠ R.frameInClause) : s.pastFrame.dropScheduled.reg k = s.reg k := by
    rw [reg_dropScheduled, if_neg hk.1, if_neg hk.2.1, reg_pastFrame s hk.2.2]
  generalize s.pastFrame.dropScheduled = d at *
  obtain ⟨hplace, hsched, -, hdcopy, hqrec, -, hff⟩ := hdrop
  obtain ⟨u, hu⟩ : ∃ u, u = ({ d with runLeft := 0 } : State) := ⟨_, rfl⟩
  have hquiet : u.quiet := by
    rw [hu]
    exact ⟨(hreg (by decide)).trans h.job, hqrec.trans h.record, hff.trans hfirst, (hreg (by decide)).trans_ne (by rw [h.plays.runState]; decide)⟩
  have hkeep : u.place = s.place ∧ u.sched = false ∧ u.copy = s.copy ∧ u.reg R.activeHalf = s.reg R.activeHalf := by
    rw [hu]
    exact ⟨(place_eq rfl rfl rfl rfl).trans (hplace.trans (place_pastFrame s)), hsched, hdcopy, hreg (by decide)⟩
  rw [← hu]
  clear hu
  obtain ⟨hplace, hsched, hcopy', hhalf⟩ := hkeep
  have hf : u.Faulted 0x7002 (u.jobFault 0x7002) := faulted_replay hquiet (by decide) (by decide) _ _
  generalize u.jobFault 0x7002 = v at *
  obtain ⟨-, -, hvcopy, -, hvsched⟩ := hf.sequence
  have hpick : v.pickClause = v := by
    unfold State.pickClause
    rw [if_pos (by simp [hvsched, hsched])]
  rw [if_pos ((hf.reg _ (by decide)).trans hquiet.1), hpick]
  obtain ⟨hwplace, hwreg, hwsched, hwcopy, hwqrec⟩ := noted_leaves v s.pastFrame.fabricStep
  generalize v.markFrame.noteStep s.pastFrame.fabricStep = w at *
  exact ⟨hwplace.trans (hf.place.trans hplace), (hwreg _).trans ((hf.reg _ (by decide)).trans hhalf), hwsched.trans (hvsched.trans hsched),
    hwcopy.trans (hvcopy.trans hcopy'), (hwreg _).trans hf.cause, (congrArg Option.isSome hwqrec).trans hf.quenched⟩

/-- END ends the job. -/
theorem running_end (hop : seqOp (s.entryAt i) = 5) (hb : s.reg R.ballastEnable = 1) : s.Ended 0 (s.runningFrame i) := by
  have he := ended_endJob s.pastFrame 0 ((reg_pastFrame s (by decide)).trans hb)
  rw [runningFrame_rests h hleft hmark hin (seqEntry_end (s := s.pastFrame) hop)]
  generalize s.pastFrame.endJob 0 = u at *
  rw [if_neg (by rw [he.job]; decide)]
  exact ⟨(place_eq rfl rfl rfl rfl : _ = u.place).trans (he.place.trans (place_pastFrame s)), he.job, he.pending, he.record, he.sched, he.uses, he.regions⟩

end

end Sys2Proof.Machine
end

section
/-! Boundaries with a step mark: the step counted, each core held to it, its restart point kept, the step limit (R205 to R207, R493). -/

namespace Sys2Proof.Machine

/-! ## The mark -/

/-- The beats held in the step cleared. -/
def State.heldClear (s : State) : State :=
  s.each (List.range 16) fun t r => if (t.region r).heldStep = 0 then t else t.modRegion r fun x => { x with heldStep := 0 }

theorem heldClear_regions (s : State) : s.heldClear = { s with regions := s.heldClear.regions } := by
  refine eq_up_to_regions (each_keeps (fun t : State => ({ t with regions := [] } : State)) _ _ s fun t r _ => ?_)
  split <;> rfl

theorem core_heldClear (s : State) (c : Nat) : s.heldClear.core c = s.core c :=
  each_keeps (fun t : State => t.core c) _ _ s fun t r _ => by
    split
    · rfl
    · exact core_modRegion_of_cores t r c _ fun _ => rfl

/-- The step's held beats shown and cleared, and its drift free to be logged again. -/
def State.stepNoted (s : State) : State :=
  ((s.setReg R.heldBeatsStep (((List.range 16).map fun r => (s.region r).heldStep).foldl max 0)).heldClear).freshDrift

/-- A step mark past its checks, from the state these leave (R205, R207). -/
def State.stepBegun (s : State) : State :=
  let t := s.stepNoted
  let past : Bool := match t.replaying with
    | some (st, _) => decide (st.toNat < t.reg R.fabricStepCounter)
    | none => false
  { t with restarts := (t.restartPoint :: t.restarts).take 8, firstFault := false, replaying := if past then none else t.replaying }

theorem stepMark_eq (s : State) : s.stepMark false = (s.strayCheck.bump R.fabricStepCounter 64).stepCheck.stepBegun := by
  unfold State.stepMark
  extract_lets s1 s2 s3 s4 s5 past
  have h2 : (s.strayCheck.bump R.fabricStepCounter 64).stepCheck = s2 := rfl
  have h5 : s2.stepNoted = s5 := rfl
  rw [h2]
  unfold State.stepBegun
  rw [h5] <;> (clear_value s5; rfl)

theorem restartPoint_of {s t : State} (hreg : ∀ k, k ≠ R.heldBeatsStep → t.reg k = s.reg k) (hcore : ∀ c, t.core c = s.core c)
    (himage : t.image = s.image) (hseq : t.seqPos = s.seqPos ∧ t.reps = s.reps) (hsets : t.wantedSets = s.wantedSets)
    (hframe : t.frameIndex = s.frameIndex) : t.restartPoint = s.restartPoint := by
  have hcores : t.jobCores = s.jobCores := by unfold State.jobCores; rw [himage]
  have hmap : (t.jobCores.map fun c => (c, (t.core c).restartPc, (t.core c).restartLoops))
      = s.jobCores.map fun c => (c, (s.core c).restartPc, (s.core c).restartLoops) := by
    rw [hcores]
    exact List.map_congr_left fun c _ => by rw [hcore]
  have hstep := hreg R.fabricStepCounter (by decide)
  have hhalf := hreg R.activeHalf (by decide)
  unfold State.restartPoint
  rw [hmap, hseq.1, hseq.2, hsets, hframe, hstep, hhalf]

/-- What a step that begins changes. -/
theorem stepBegun_cases {s : State} (hrep : s.replaying = none) : ∃ v rg po, s.stepBegun = { s.setReg R.heldBeatsStep v with
    regions := rg, ports := po, restarts := (s.restartPoint :: s.restarts).take 8, firstFault := false } := by
  have hnoted : ∃ v rg po, s.stepNoted = { s.setReg R.heldBeatsStep v with regions := rg, ports := po } ∧ ∀ c, s.stepNoted.core c = s.core c := by
    unfold State.stepNoted
    generalize ((List.range 16).map fun r => (s.region r).heldStep).foldl max 0 = v
    have hcore (c : Nat) : (s.setReg R.heldBeatsStep v).heldClear.core c = s.core c := core_heldClear _ c
    obtain ⟨rg, hrg⟩ : ∃ rg, (s.setReg R.heldBeatsStep v).heldClear = { s.setReg R.heldBeatsStep v with regions := rg } := ⟨_, heldClear_regions _⟩
    rw [hrg] at hcore ⊢
    obtain ⟨po, hpo⟩ : ∃ po, ({ s.setReg R.heldBeatsStep v with regions := rg } : State).freshDrift
      = { ({ s.setReg R.heldBeatsStep v with regions := rg } : State) with ports := po } := ⟨_, freshDrift_ports _⟩
    rw [hpo]
    exact ⟨v, rg, po, rfl, hcore⟩
  obtain ⟨v, rg, po, hnoted, hcore⟩ := hnoted
  unfold State.stepBegun
  rw [hnoted] at hcore ⊢
  dsimp only
  have hpoint : ({ s.setReg R.heldBeatsStep v with regions := rg, ports := po } : State).restartPoint = s.restartPoint :=
    restartPoint_of (fun k hk => (reg_setReg s R.heldBeatsStep v k).trans (if_neg hk)) hcore rfl ⟨rfl, rfl⟩ rfl rfl
  refine ⟨v, rg, po, ?_⟩
  rw [hpoint]
  have hrep' : (s.setReg R.heldBeatsStep v).replaying = none := hrep
  rw [hrep']
  rfl

/-! ## The checks (R188, R206) -/

/-- `t` is `s` but for what the faults of a step check change. -/
structure State.Checked (s t : State) : Prop where
  only : ∃ f l, ({ s with firstFault := f, faultHist := l } : State).QuenchOnly t
  reg : ∀ k, k ∉ quenchRegs → t.reg k = s.reg k

theorem State.Faulted.checked {s t : State} {code : Nat} (h : s.Faulted code t) : s.Checked t := by
  obtain ⟨l, ho⟩ := h.only
  exact ⟨⟨_, l, ho⟩, h.reg⟩

theorem State.Checked.refl (s : State) : s.Checked s := ⟨⟨s.firstFault, s.faultHist, .refl _⟩, fun _ _ => rfl⟩

theorem strayCheck_none {s : State} (huses : s.uses = []) (hland : ∀ p < 32, (s.port p).landing = []) : s.strayCheck = s := by
  have h : ((List.range 32).find? fun p => (s.port p).landing ≠ [] ∨ s.uses.any (fun u => u.input = p)) = none :=
    List.find?_eq_none.mpr fun p hp => by simp [huses, hland p (List.mem_range.mp hp)]
  unfold State.strayCheck
  rw [h]

/-- Every core of the job has issued its STEP, or has halted. -/
def State.StepsAgree (s : State) : Prop :=
  ∀ c ∈ s.jobCores, (s.core c).halted = true ∨ (s.core c).step = BitVec.ofNat 64 (s.reg R.fabricStepCounter)

theorem stepCheck_agree {s : State} (h : s.StepsAgree) : s.stepCheck = s := by
  have hnil : (s.jobCores.filter fun c => !(s.core c).halted && (s.core c).step ≠ BitVec.ofNat 64 (s.reg R.fabricStepCounter)) = [] :=
    List.filter_eq_nil_iff.mpr fun c hc => by rcases h c hc with hx | hx <;> simp [hx]
  unfold State.stepCheck
  dsimp only
  rw [hnil]
  rfl

theorem stepCheck_differs {s : State} (h : ¬ s.StepsAgree) (hq : s.quiet) (hrep : s.replaying = none) : s.Faulted 0x7001 s.stepCheck := by
  have hne : (s.jobCores.filter fun c => !(s.core c).halted && (s.core c).step ≠ BitVec.ofNat 64 (s.reg R.fabricStepCounter)) ≠ [] := by
    intro hnil
    refine h fun c hc => ?_
    have := List.filter_eq_nil_iff.mp hnil c hc
    simp only [Bool.and_eq_true, Bool.not_eq_true', decide_eq_true_eq, not_and, not_not] at this
    by_cases hh : (s.core c).halted = true
    · exact .inl hh
    · exact .inr (this (by simpa using hh))
  unfold State.stepCheck
  dsimp only
  generalize (s.jobCores.filter fun c => !(s.core c).halted && (s.core c).step ≠ BitVec.ofNat 64 (s.reg R.fabricStepCounter)) = l at *
  cases l with
  | nil => exact absurd rfl hne
  | cons c l =>
    have hfirst : s.Faulted 0x7001 (s.raise 0x7001 0xFF (jobDetail s.clauseNumber 0xFFFF (errDetail c 0xFFFF)) (some (c, (s.core c).pc))) :=
      faulted_core hq hrep (by decide) (by decide) _ _ _ _
    exact each_of_keeps (l := l) (P := fun t => s.Faulted 0x7001 t)
      (fun t c _ ht => ht.raise hq.1 hq.2.2.2 (by decide) (by decide) _ _ _) hfirst

/-! ## The job past its mark -/

/-- A running job's state with its frame and its step counted. -/
def State.counted (s : State) : State := s.pastFrame.bump R.fabricStepCounter 64

theorem reg_counted (s : State) {k : Nat} (hk : k ≠ R.frameInClause) :
    s.counted.reg k = if k = R.fabricStepCounter then (s.reg R.fabricStepCounter + 1) % 2 ^ 64 else s.reg k := by
  unfold State.counted State.bump
  rw [reg_setReg, reg_pastFrame s (by decide : R.fabricStepCounter ≠ R.frameInClause), reg_pastFrame s hk]

theorem stepsAgree_counted (s : State) : s.counted.StepsAgree ↔ ∀ c ∈ s.jobCores,
    (s.core c).halted = true ∨ (s.core c).step = BitVec.ofNat 64 ((s.reg R.fabricStepCounter + 1) % 2 ^ 64) := by
  have hm : s.counted.reg R.fabricStepCounter = (s.reg R.fabricStepCounter + 1) % 2 ^ 64 := (reg_counted s (by decide)).trans (if_pos rfl)
  unfold State.StepsAgree
  rw [hm]
  exact .rfl

/-- The step that a RUN with a step mark begins, once its checks have left `w`. -/
def State.marked (w : State) : State := { w.stepBegun with runMark := false }

theorem pastMark_marked {s : State} {i : Image} (h : s.Running i) (hleft : s.runLeft = 1) (hmark : s.runMark = true) (huses : s.uses = [])
    (hland : ∀ p < 32, (s.port p).landing = []) : s.pastMark s.pastFrame = s.counted.stepCheck.marked := by
  have hend : s.runEnded s.pastFrame = true := by rw [runEnded_pastFrame h]; simp [hleft]
  have hdue : s.quenchDue = false := by unfold State.quenchDue; rw [h.record]
  unfold State.pastMark
  rw [if_pos ⟨hend, hmark⟩, hdue, stepMark_eq, strayCheck_none (s := s.pastFrame) huses hland]
  rfl

/-- The registers that a step mark can change. -/
def markRegs : List Nat := [R.frameInClause, R.fabricStepCounter, R.heldBeatsStep] ++ quenchRegs

/-- `y` is the running job's state `s` past its step mark. -/
structure State.Marked (s : State) (i : Image) (y : State) : Prop where
  place : y.place = s.place
  seq : y.seqPos = s.seqPos ∧ y.reps = s.reps
  plays : y.Plays i
  counter : y.reg R.fabricStepCounter = (s.reg R.fabricStepCounter + 1) % 2 ^ 64
  reg : ∀ k, k ∉ markRegs → y.reg k = s.reg k
  restarts : ∃ r : Restart, y.restarts = (r :: s.restarts).take 8 ∧ r.step = BitVec.ofNat 64 ((s.reg R.fabricStepCounter + 1) % 2 ^ 64)
    ∧ r.pos = s.seqPos ∧ r.reps = s.reps ∧ r.active = s.reg R.activeHalf ∧ r.sets = s.wantedSets
    ∧ r.cores = s.jobCores.map fun c => (c, (s.core c).restartPc, (s.core c).restartLoops)

theorem not_mem_markRegs {k : Nat} (hk : k ∉ markRegs) : k ≠ R.frameInClause ∧ k ≠ R.fabricStepCounter ∧ k ≠ R.heldBeatsStep ∧ k ∉ quenchRegs := by
  simpa [markRegs, not_or, and_assoc] using hk

/-- What the step's begin leaves of the checks' outcome: the record and its cause. -/
theorem marked_keeps {w : State} (hrep : w.replaying = none) : w.marked.qrec = w.qrec ∧ w.marked.frame = w.frame
    ∧ ∀ k, k ≠ R.heldBeatsStep → w.marked.reg k = w.reg k := by
  obtain ⟨v, rg, po, h⟩ := stepBegun_cases hrep
  unfold State.marked
  rw [h]
  exact ⟨rfl, rfl, fun k hk => (reg_setReg w R.heldBeatsStep v k).trans (if_neg hk)⟩

/-- What the checks of a step mark leave of the running job. -/
theorem checked_keeps {s w : State} (h : s.counted.Checked w) : w.replaying = s.replaying ∧ w.place = s.place ∧ w.image = s.image
    ∧ w.seqPos = s.seqPos ∧ w.reps = s.reps ∧ w.wantedSets = s.wantedSets ∧ w.restarts = s.restarts ∧ w.regions = s.regions := by
  obtain ⟨f, l, r, lo, g, n, q, e, j, a, rm, po, st, fn, seen, rfl⟩ := h.only
  exact ⟨rfl, place_eq rfl rfl rfl rfl, rfl, rfl, rfl, rfl, rfl, rfl⟩

theorem marked_of {s w : State} {i : Image} (h : s.Running i) (hrep : s.replaying = none) (hw : s.counted.Checked w) :
    s.Marked i w.marked := by
  obtain ⟨hwrep, hplace, himage, hpos, hreps, hsets, hrestarts, hregions⟩ := checked_keeps hw
  have hcounted {k : Nat} (hk : k ∉ quenchRegs) (hf : k ≠ R.frameInClause) : w.reg k
      = if k = R.fabricStepCounter then (s.reg R.fabricStepCounter + 1) % 2 ^ 64 else s.reg k := (hw.reg k hk).trans (reg_counted s hf)
  have hstep : w.reg R.fabricStepCounter = (s.reg R.fabricStepCounter + 1) % 2 ^ 64 := (hcounted (by decide) (by decide)).trans (if_pos rfl)
  have hhalf : w.reg R.activeHalf = s.reg R.activeHalf := (hcounted (by decide) (by decide)).trans (if_neg (by decide))
  obtain ⟨-, -, hmarkedreg⟩ := marked_keeps (hwrep.trans hrep)
  have hreg {k : Nat} (hk : k ∉ markRegs) : w.marked.reg k = s.reg k := by
    obtain ⟨h1, h2, h3, h4⟩ := not_mem_markRegs hk
    rw [hmarkedreg k h3, hcounted h4 h1, if_neg h2]
  have hcores : (w.jobCores.map fun c => (c, (w.core c).restartPc, (w.core c).restartLoops))
      = s.jobCores.map fun c => (c, (s.core c).restartPc, (s.core c).restartLoops) := by
    unfold State.jobCores State.core
    rw [himage]
    exact List.map_congr_left fun c _ => by rw [region_of_regions hregions]
  have hseq : w.marked.image = s.image ∧ w.marked.place = s.place ∧ w.marked.seqPos = s.seqPos ∧ w.marked.reps = s.reps
      ∧ w.marked.restarts = (w.restartPoint :: s.restarts).take 8 := by
    obtain ⟨v, rg, po, hb⟩ := stepBegun_cases (hwrep.trans hrep)
    unfold State.marked
    rw [hb, ← hrestarts, ← himage, ← hpos, ← hreps, ← hplace]
    exact ⟨rfl, place_eq rfl rfl rfl rfl, rfl, rfl, rfl⟩
  obtain ⟨hmimage, hmplace, hmpos, hmreps, hmrestarts⟩ := hseq
  refine ⟨hmplace, ⟨hmpos, hmreps⟩, h.plays.of_regs hmimage fun k hk => hreg ?_, (hmarkedreg _ (by decide)).trans hstep, fun k hk => hreg hk,
    w.restartPoint, hmrestarts, congrArg (BitVec.ofNat 64) hstep, hpos, hreps, hhalf, hsets, hcores⟩
  rcases hk with rfl | rfl | ⟨p, hp, rfl⟩
  · decide
  · decide
  · simp only [markRegs, quenchRegs, logRegs, recordRegs, List.mem_append, List.mem_cons, List.not_mem_nil, or_false, R.width, R.logCount,
      R.logNextSeq, R.logOverwritten, R.eventsUnsent, R.replayStep, R.replayAttempt, R.quenchFrame, R.replayFrame, R.quenchOrigin,
      R.quenchCause, R.lastFaultCause, R.lastCoreFault, R.lastFaultCore, R.frameInClause, R.fabricStepCounter, R.heldBeatsStep, regKey]
    omega

/-! ## The boundary -/

section
variable {s : State} {i : Image} (h : s.Running i) (hleft : s.runLeft = 1) (hmark : s.runMark = true) (hin : s.Inside)
  (hop : seqOp (s.entryAt i) = 1) (huses : s.uses = []) (hland : ∀ p < 32, (s.port p).landing = []) (hfirst : s.firstFault = false)
  (hrep : s.replaying = none)

/-- The step counter that the mark reaches, and whether it is the step limit's. -/
def State.atLimit (s : State) : Prop :=
  s.reg R.stepLimit ≠ 0 ∧ (s.reg R.fabricStepCounter + 1) % 2 ^ 64 = (s.reg R.firstStep + s.reg R.stepLimit) % 2 ^ 64

theorem limitReached_marked {y : State} (hy : s.Marked i y) : y.limitReached = true ↔ s.atLimit := by
  unfold State.limitReached State.atLimit
  rw [hy.counter, hy.reg R.stepLimit (by decide), hy.reg R.firstStep (by decide)]
  simp

include h hleft

theorem onward_marked {y : State} (hy : s.Marked i y) (hlim : ¬ s.atLimit) :
    s.onward s.pastFrame y i = (y.enterFrame i true).noteStep y.fabricStep := by
  have hend : s.runEnded s.pastFrame = true := by rw [runEnded_pastFrame h]; simp [hleft]
  unfold State.onward
  rw [hend, if_neg fun hx => hlim ((limitReached_marked hy).mp hx.2.2)]

include hin hop in
/-- The RUN that follows the mark. -/
theorem took_marked {y : State} (hy : s.Marked i y) (hlim : ¬ s.atLimit) :
    y.Took i (s.onward s.pastFrame y i) ∧ (s.onward s.pastFrame y i).place = s.place ∧ (s.onward s.pastFrame y i).Takes i s.seqPos := by
  obtain ⟨hpos, hreps⟩ := hy.seq
  have hjob : y.reg R.jobState = 2 := (hy.reg _ (by decide)).trans h.job
  have hrun : y.AtRun i := by
    unfold State.AtRun State.Inside State.entryAt
    rw [hpos, hreps]
    exact ⟨hin, hop⟩
  have ht : y.Took i (s.onward s.pastFrame y i) := by
    rw [onward_marked h hleft hy hlim, enterFrame_comes hy.plays hjob ⟨hrun, .inl rfl⟩, markFrame_regions]
    exact took_taken i hjob _ _
  exact ⟨ht, ht.place.trans hy.place, hpos ▸ ht.takes⟩

include hmark huses hland

theorem runningFrame_marked : s.runningFrame i
    = s.stopOr s.counted.stepCheck.marked (s.onward s.pastFrame s.counted.stepCheck.marked i) := by
  rw [runningFrame_eq, pastMark_marked h hleft hmark huses hland]

include hrep

/-- With every core past its STEP the mark stands, and the sequence goes on. -/
theorem running_marked_agree (hagree : s.counted.StepsAgree) : s.Marked i s.counted.marked
    ∧ s.runningFrame i = s.onward s.pastFrame s.counted.marked i ∧ s.counted.marked.qrec = none := by
  have hk := marked_keeps (w := s.counted) hrep
  have hrec : s.counted.marked.qrec = none := hk.1.trans h.record
  refine ⟨marked_of h hrep (.refl _), ?_, hrec⟩
  rw [runningFrame_marked h hleft hmark huses hland, stepCheck_agree hagree, stopOr_none hrec]

include hin hop in
theorem running_mark (hagree : s.counted.StepsAgree) (hlim : ¬ s.atLimit) :
    (s.runningFrame i).place = s.place ∧ (s.runningFrame i).Takes i s.seqPos
      ∧ (s.runningFrame i).reg R.fabricStepCounter = (s.reg R.fabricStepCounter + 1) % 2 ^ 64 ∧ (s.runningFrame i).qrec = none
      ∧ ∃ r : Restart, (s.runningFrame i).restarts = (r :: s.restarts).take 8
        ∧ r.step = BitVec.ofNat 64 ((s.reg R.fabricStepCounter + 1) % 2 ^ 64) ∧ r.pos = s.seqPos ∧ r.reps = s.reps
        ∧ r.active = s.reg R.activeHalf ∧ r.sets = s.wantedSets
        ∧ r.cores = s.jobCores.map fun c => (c, (s.core c).restartPc, (s.core c).restartLoops) := by
  obtain ⟨hy, hrun, hrec⟩ := running_marked_agree h hleft hmark huses hland hrep hagree
  obtain ⟨ht, hplace, htakes⟩ := took_marked h hleft hin hop hy hlim
  rw [← hrun] at ht hplace htakes
  obtain ⟨r, hr, hrest⟩ := hy.restarts
  exact ⟨hplace, htakes, (ht.reg _ (by decide)).trans hy.counter, ht.qrec.trans hrec, r, ht.restarts.trans hr, hrest⟩

include hin hop in
/-- At the step limit the job ends. -/
theorem running_limit (hagree : s.counted.StepsAgree) (hlim : s.atLimit) (hb : s.reg R.ballastEnable = 1) :
    (s.runningFrame i).place = s.place ∧ (s.runningFrame i).reg R.jobState = 4 ∧ (s.runningFrame i).endPending = some 1
      ∧ (s.runningFrame i).sched = false := by
  obtain ⟨hy, hrun, -⟩ := running_marked_agree h hleft hmark huses hland hrep hagree
  rw [hrun]
  generalize s.counted.marked = y at *
  obtain ⟨hpos, hreps⟩ := hy.seq
  have hend : s.runEnded s.pastFrame = true := by rw [runEnded_pastFrame h]; simp [hleft]
  have hrun : y.AtRun i := by
    unfold State.AtRun State.Inside State.entryAt
    rw [hpos, hreps]
    exact ⟨hin, hop⟩
  have hjob : (y.atRun i).reg R.jobState = 2 := by
    have ht := reg_taken y i (k := R.jobState) (by decide)
    unfold State.taken at ht
    rw [reg_setReg, if_neg (by decide), reg_setReg, if_neg (by decide)] at ht
    exact ht.trans ((hy.reg _ (by decide)).trans h.job)
  have honward : s.onward s.pastFrame y i = y.endJob 1 := by
    unfold State.onward
    rw [if_pos ⟨hend, hmark, (limitReached_marked hy).mpr hlim⟩]
    dsimp only
    rw [seqNext_of_comes hy.plays.legacy ⟨hrun, .inl rfl⟩, if_neg (by rw [hjob]; decide)]
  have he := ended_endJob y 1 ((hy.reg _ (by decide)).trans hb)
  rw [honward]
  exact ⟨he.place.trans hy.place, he.job, he.pending, he.sched⟩

include hin hop hfirst in
/-- A core that has not issued its STEP. -/
theorem running_mismatch (hagree : ¬ s.counted.StepsAgree) (hlim : ¬ s.atLimit) :
    (s.runningFrame i).place = s.place ∧ (s.runningFrame i).reg R.fabricStepCounter = (s.reg R.fabricStepCounter + 1) % 2 ^ 64
      ∧ (s.runningFrame i).reg R.lastFaultCause = 0x7001 ∧ (s.runningFrame i).qrec.isSome = true := by
  have hq : s.counted.quiet := ⟨((reg_counted s (by decide)).trans (if_neg (by decide))).trans h.job, h.record, hfirst, by
    rw [reg_counted s (by decide), if_neg (by decide), h.plays.runState]
    decide⟩
  have hf := stepCheck_differs hagree hq hrep
  have hrun := runningFrame_marked h hleft hmark huses hland
  generalize s.counted.stepCheck = w at *
  have hy := marked_of h hrep hf.checked
  obtain ⟨hmrec, -, hmreg⟩ := marked_keeps ((checked_keeps hf.checked).1.trans hrep)
  obtain ⟨q, hrec, hstop⟩ := hf.record
  rw [stopOr_later (s := s) (hmrec.trans hrec) hstop] at hrun
  obtain ⟨ht, hplace, -⟩ := took_marked h hleft hin hop hy hlim
  rw [← hrun] at ht hplace
  refine ⟨hplace, (ht.reg _ (by decide)).trans hy.counter, (ht.reg _ (by decide)).trans ((hmreg _ (by decide)).trans hf.cause), ?_⟩
  rw [ht.qrec, hmrec, hrec]
  rfl

end

end Sys2Proof.Machine
end

section
/-! The first frame of a job (R202, R439, R492). -/

namespace Sys2Proof.Machine

/-- The clocks and ceilings at which the lit regions start noted, with the ceilings of `s`. -/
def State.clocksNoted (t s : State) : State := t.each (List.range 16) fun t r => t.modRegion r fun x =>
  { x with clock0 := x.clock, ceilLow := x.lit && decide (s.reg (R.ceilingKhz r) < 1050000) }

theorem clocksNoted_regions (t s : State) : t.clocksNoted s = { t with regions := (t.clocksNoted s).regions } :=
  eq_up_to_regions (each_keeps (fun t : State => ({ t with regions := [] } : State)) _ _ t fun _ _ _ => rfl)

theorem lit_clocksNoted (t s : State) (q : Nat) : ((t.clocksNoted s).region q).lit = (t.region q).lit :=
  each_keeps (fun t : State => (t.region q).lit) _ _ t fun t r _ => by
    rw [region_modRegion]
    split <;> rfl

/-- The state of a job's first frame before its regions start. -/
def State.firstNoted (s : State) : State :=
  ({ s.freshDrift with frameIndex := 0, jobFrame0 := s.frame, stepHist := [], firstFault := false } : State).clocksNoted s

theorem firstNoted_cases (s : State) : ∃ po rg, s.firstNoted = { s with
    ports := po, regions := rg, frameIndex := 0, jobFrame0 := s.frame, stepHist := [], firstFault := false }
    ∧ ∀ q, (s.firstNoted.region q).lit = (s.region q).lit := by
  unfold State.firstNoted
  obtain ⟨po, hpo⟩ : ∃ po, s.freshDrift = { s with ports := po } := ⟨_, freshDrift_ports s⟩
  rw [hpo]
  exact ⟨po, _, clocksNoted_regions _ s, lit_clocksNoted _ s⟩

/-- A part late at its job's first frame: H below the hold level, or the ramp abandoned (R37, R492). -/
def State.late (s : State) : Prop := s.h < s.reg R.jobHoldW * 1000 ∨ s.rampAbandoned = true

theorem late_iff (s : State) : (decide (s.h < s.reg R.jobHoldW * 1000) || s.rampAbandoned) = true ↔ s.late := by simp [State.late]

/-- The job's state as its regions start. -/
def State.jobStarted (s : State) : State :=
  (({ s.firstNoted with jobIssued := true, schedFrom := s.frame } : State).startRegions 0).setReg R.jobState 2

/-- The job's first frame taken up from `x`. -/
def State.firstGo (x : State) (s : State) (i : Image) : State :=
  let y : State := { x with restarts := [x.restartPoint] }
  let ok : Bool := i.legacy || s.halfSet.getD 0 0xFFFF == 0
  (if ok then y.enterFrame i true else (y.jobFault 0x7002).markFrame).pushStep y.fabricStep

theorem firstGo_eq {x s : State} {i : Image} (hset : s.halfSet.getD 0 0xFFFF = 0) :
    x.firstGo s i = (({ x with restarts := [x.restartPoint] } : State).enterFrame i true).pushStep x.fabricStep := by
  have hok : (i.legacy || s.halfSet.getD 0 0xFFFF == 0) = true := by rw [hset]; simp
  unfold State.firstGo
  rw [hok]
  rfl

/-- A late part's job stopped at its first frame. -/
def State.lateGo (x : State) (s : State) (late : Bool) : State :=
  let y : State := ({ x with restarts := [x.restartPoint] } : State).pushStep x.fabricStep
  match s.slowRegion with
  | some r => if late then y.raise 0x7040 0xFF (jobDetail 0xFFFF 0 0xFFFFFFFF) else y.raise 0x5021 r (s.reg (R.ceilingKhz r))
  | none => y.raise 0x7040 0xFF (jobDetail 0xFFFF 0 0xFFFFFFFF)

theorem lateGo_eq (x s : State) : ∃ r sh, x.lateGo s true
    = ({ x with restarts := r, stepHist := sh } : State).raise 0x7040 0xFF (jobDetail 0xFFFF 0 0xFFFFFFFF) := by
  refine ⟨[x.restartPoint], (x.fabricStep :: x.stepHist).take 4, ?_⟩
  unfold State.lateGo
  dsimp only
  split <;> rfl

theorem firstFrame_eq (s : State) (i : Image) : s.firstFrame i =
    if (decide (s.h < s.reg R.jobHoldW * 1000) || s.rampAbandoned) = true ∨ s.slowRegion.isSome = true then
      (s.firstNoted.setReg R.jobState 2).lateGo s (decide (s.h < s.reg R.jobHoldW * 1000) || s.rampAbandoned)
    else s.jobStarted.firstGo s i := by
  unfold State.firstFrame
  extract_lets +onlyGivenNames d s1 s2 late
  have h2 : s2 = s.firstNoted := rfl
  clear_value s2
  rw [h2]
  rfl

/-! ## Regions that start (R439, R546) -/

theorem startRegions_keeps (s : State) (k : Nat) : ∃ rg, s.startRegions k = { s with claimed := 0, lateDebt := [], regions := rg } := by
  refine ⟨(s.startRegions k).regions, eq_up_to_regions (s := ({ s with claimed := 0, lateDebt := [] } : State)) ?_⟩
  exact each_keeps (fun t : State => ({ t with regions := [] } : State)) _ _ ({ s with claimed := 0, lateDebt := [] } : State) fun _ _ _ => rfl

/-- A lit region of the image runs from the anchor of frame `k`. -/
theorem region_startRegions {s : State} {i : Image} (hi : s.image = some i) (k : Nat) {r : Nat} (hr : r < 16) (hbit : bit i.regions r = true)
    (hlit : (s.region r).lit = true) : ((s.startRegions k).region r).running = true
      ∧ ((s.startRegions k).region r).beat = if s.native then k * s.reg R.frameBeats else 0 := by
  unfold State.startRegions
  rw [hi]
  have hmem : r ∈ (bitsSet i.regions 16).filter fun r => (s.region r).lit :=
    List.mem_filter.mpr ⟨List.mem_filter.mpr ⟨List.mem_range.mpr hr, hbit⟩, hlit⟩
  refine each_establishes (P := fun t : State => (t.region r).running = true
    ∧ (t.region r).beat = if s.native then k * s.reg R.frameBeats else 0) hmem (fun t q _ ht => ?_) (fun t => ?_) _
  · rw [region_modRegion]
    split
    · exact ⟨rfl, rfl⟩
    · exact ht
  · rw [region_modRegion, if_pos rfl]
    exact ⟨rfl, rfl⟩

/-! ## The first frame -/

theorem region_pushStep (s : State) (st : BitVec 64) (r : Nat) : (s.pushStep st).region r = s.region r := rfl

/-- What the part shows as its regions start. -/
theorem jobStarted_keeps (s : State) : ∃ po rg, s.jobStarted = ({ s with
    ports := po, regions := rg, frameIndex := 0, jobFrame0 := s.frame, stepHist := [], firstFault := false, jobIssued := true
    schedFrom := s.frame, claimed := 0, lateDebt := [] } : State).setReg R.jobState 2 := by
  obtain ⟨po, rg, h, -⟩ := firstNoted_cases s
  unfold State.jobStarted
  rw [h]
  obtain ⟨rg', h'⟩ := startRegions_keeps ({ s with
    ports := po, regions := rg, frameIndex := 0, jobFrame0 := s.frame, stepHist := [], firstFault := false, jobIssued := true
    schedFrom := s.frame } : State) 0
  dsimp only at h' ⊢
  rw [h']
  exact ⟨po, rg', rfl⟩

theorem region_jobStarted {s : State} {i : Image} (hi : s.image = some i) {r : Nat} (hr : r < 16) (hbit : bit i.regions r = true)
    (hlit : (s.region r).lit = true) : (s.jobStarted.region r).running = true ∧ (s.jobStarted.region r).beat = 0 := by
  obtain ⟨po, rg, h, hl⟩ := firstNoted_cases s
  have himage : s.firstNoted.image = some i := by rw [h]; exact hi
  have hlit' := (hl r).trans hlit
  unfold State.jobStarted
  generalize s.firstNoted = x at *
  obtain ⟨hrun, hbeat⟩ := region_startRegions (s := { x with jobIssued := true, schedFrom := s.frame }) himage 0 hr hbit hlit'
  exact ⟨hrun, hbeat.trans (by rw [Nat.zero_mul, ite_self])⟩

/-- A job's first RUN taken, and its regions started. -/
theorem firstFrame_runs {s : State} {i : Image} (hp : s.Plays i) (hlate : ¬ s.late) (hslow : s.slowRegion = none)
    (hset : s.halfSet.getD 0 0xFFFF = 0) (hpos : s.seqPos = 0) (hreps : s.reps = []) (hop : seqOp (i.seq.getD 0 0) = 1) :
    (s.firstFrame i).place = s.place ∧ (s.firstFrame i).Takes i 0 ∧ (s.firstFrame i).jobFrame0 = s.frame ∧ (s.firstFrame i).frameIndex = 0
      ∧ (s.firstFrame i).restarts.length = 1 ∧ ∀ r < 16, bit i.regions r = true → (s.region r).lit = true →
        ((s.firstFrame i).region r).running = true ∧ ((s.firstFrame i).region r).beat = 0 := by
  have hl : ¬ ((decide (s.h < s.reg R.jobHoldW * 1000) || s.rampAbandoned) = true ∨ s.slowRegion.isSome = true) := by
    rw [late_iff, hslow]
    simpa using hlate
  have hregion (r : Nat) := region_jobStarted hp.image (r := r)
  rw [firstFrame_eq, if_neg hl, firstGo_eq hset]
  obtain ⟨po, rg, hx⟩ := jobStarted_keeps s
  have hreg (k : Nat) : s.jobStarted.reg k = if k = R.jobState then 2 else s.reg k := by
    rw [hx]
    exact reg_setReg s R.jobState 2 k
  have hkeep : s.jobStarted.place = s.place ∧ s.jobStarted.image = s.image ∧ s.jobStarted.seqPos = 0 ∧ s.jobStarted.reps = []
      ∧ s.jobStarted.jobFrame0 = s.frame ∧ s.jobStarted.frameIndex = 0 := by
    rw [hx]
    exact ⟨place_eq rfl rfl rfl rfl, rfl, hpos, hreps, rfl, rfl⟩
  clear hx
  generalize s.jobStarted = x at *
  obtain ⟨hxplace, hximage, hxpos, hxreps, hxframe, hxindex⟩ := hkeep
  obtain ⟨y, hy⟩ : ∃ y, y = ({ x with restarts := [x.restartPoint] } : State) := ⟨_, rfl⟩
  have hykeep : y.place = x.place ∧ y.regions = x.regions ∧ y.jobFrame0 = x.jobFrame0 ∧ y.frameIndex = x.frameIndex ∧ y.restarts.length = 1
      ∧ y.seqPos = x.seqPos ∧ y.reps = x.reps ∧ y.image = x.image ∧ ∀ k, y.reg k = x.reg k := by
    rw [hy]
    exact ⟨place_eq rfl rfl rfl rfl, rfl, rfl, rfl, rfl, rfl, rfl, rfl, fun _ => rfl⟩
  rw [← hy]
  clear hy
  obtain ⟨hyplace, hyregions, hyframe, hyindex, hyrestarts, hypos, hyreps, hyimage, hyreg⟩ := hykeep
  have hplays : y.Plays i := hp.of_regs (hyimage.trans hximage) fun k hk => by
    rw [hyreg, hreg, if_neg]
    rcases hk with rfl | rfl | ⟨p, hp, rfl⟩
    · decide
    · decide
    · simp only [R.width, R.jobState, regKey]; omega
  have hjob : y.reg R.jobState = 2 := by rw [hyreg, hreg, if_pos rfl]
  have hrun : y.AtRun i := by
    unfold State.AtRun State.Inside State.entryAt
    rw [hyreps, hxreps, hypos, hxpos]
    exact ⟨by simp, hop⟩
  have hmark (r : Nat) : ∃ m, (((y.taken i).markFrame).pushStep x.fabricStep).region r = { y.region r with frameMarks := m } := by
    obtain ⟨m, hm⟩ := region_markFrame (y.taken i) r
    have hpush : (((y.taken i).markFrame).pushStep x.fabricStep).region r = (y.taken i).markFrame.region r :=
      region_pushStep _ _ r
    have htaken : (y.taken i).region r = y.region r := region_of_regions rfl r
    exact ⟨m, by rw [hpush, hm, htaken]⟩
  rw [enterFrame_comes hplays hjob ⟨hrun, .inl rfl⟩]
  have ht : y.Took i (((y.taken i).markFrame).pushStep x.fabricStep) := by
    rw [markFrame_regions]
    exact took_taken i hjob _ _
  generalize ((y.taken i).markFrame).pushStep x.fabricStep = t at *
  refine ⟨(ht.place.trans hyplace).trans hxplace, (hypos.trans hxpos) ▸ ht.takes, ht.jobFrame0.trans (hyframe.trans hxframe),
    ht.frameIndex.trans (hyindex.trans hxindex), (congrArg List.length ht.restarts).trans hyrestarts, fun r hr hbit hlit => ?_⟩
  obtain ⟨m, hm⟩ := hmark r
  rw [hm, region_of_regions hyregions]
  exact hregion r hr hbit hlit

/-- A part that is late starts no region and raises START_LATE (R492). -/
theorem firstFrame_late {s : State} {i : Image} (hrun : s.reg R.runState = 0) (hrec : s.qrec = none) (hlate : s.late) :
    (s.firstFrame i).place = s.place ∧ (s.firstFrame i).reg R.jobState = 2 ∧ (s.firstFrame i).reg R.lastFaultCause = 0x7040
      ∧ (s.firstFrame i).qrec.isSome = true := by
  have hl : (decide (s.h < s.reg R.jobHoldW * 1000) || s.rampAbandoned) = true := (late_iff s).mpr hlate
  obtain ⟨po, rg, hx, -⟩ := firstNoted_cases s
  rw [firstFrame_eq, if_pos (.inl hl), hl, hx]
  obtain ⟨r, sh, h⟩ := lateGo_eq (({ s with
    ports := po, regions := rg, frameIndex := 0, jobFrame0 := s.frame, stepHist := [], firstFault := false } : State).setReg R.jobState 2) s
  rw [h]
  have hreg (k : Nat) : ((s.setReg R.jobState 2).reg k) = if k = R.jobState then 2 else s.reg k := reg_setReg s R.jobState 2 k
  obtain ⟨y, hy⟩ : ∃ y, y = ({ ({ s with
    ports := po, regions := rg, frameIndex := 0, jobFrame0 := s.frame, stepHist := [], firstFault := false } : State).setReg R.jobState 2 with
    restarts := r, stepHist := sh } : State) := ⟨_, rfl⟩
  have hq : y.quiet ∧ y.place = s.place := by
    rw [hy]
    exact ⟨⟨(hreg _).trans (if_pos rfl), hrec, rfl, by
      show (s.setReg R.jobState 2).reg R.runState ≠ 2
      rw [hreg, if_neg (by decide), hrun]
      decide⟩, place_eq rfl rfl rfl rfl⟩
  rw [← hy]
  clear hy h
  obtain ⟨hq, hplace⟩ := hq
  have hf : y.Faulted 0x7040 (y.raise 0x7040 0xFF (jobDetail 0xFFFF 0 0xFFFFFFFF)) := faulted_replay hq (by decide) (by decide) _ _
  exact ⟨hf.place.trans hplace, (hf.reg _ (by decide)).trans hq.1, hf.cause, hf.quenched⟩

end Sys2Proof.Machine
end

section
/-! The quench boundary (R209, R538, R539). -/

namespace Sys2Proof.Machine

/-! ## What it leaves -/

theorem recopy_cases (s : State) (sets : List Nat) : s.recopy sets = s ∨ ∃ set half, s.recopy sets = s.startCopy set half := by
  unfold State.recopy
  split
  · exact .inl rfl
  · split
    · exact .inr ⟨_, _, rfl⟩
    · exact .inl rfl

theorem nextCopy_cases (s : State) : s.nextCopy = s ∨ ∃ set half, s.nextCopy = s.startCopy set half := by
  unfold State.nextCopy
  split
  · split
    · exact .inr ⟨_, _, rfl⟩
    · exact .inl rfl
  · exact .inl rfl
  · split
    · exact recopy_cases _ _
    · split
      · exact recopy_cases _ _
      · exact .inl rfl
    · exact .inl rfl

/-- The part at its quench boundary: scheduled traffic gone, regions stopped, the record's stop this frame. -/
structure State.Quenched (s : State) (q : QRec) (t : State) : Prop where
  place : t.place = s.place
  job : t.reg R.jobState = 3
  epoch : t.epoch = s.epoch + 1
  sched : t.sched = false
  uses : t.uses = []
  record : t.qrec = some { q with stop := s.frame }
  regions : ∀ r < 16, (t.region r).running = false

namespace State.Quenched

variable {s t : State} {q : QRec} (h : s.Quenched q t)
include h

theorem startCopy (set half : Nat) : s.Quenched q (t.startCopy set half) := by
  have hjob : (t.startCopy set half).reg R.jobState = 3 := (reg_startCopy _ _ _ _).trans ((if_neg (by decide)).trans h.job)
  have hkeep := startCopy_keeps t set half
  generalize (t.startCopy set half) = u at *
  obtain ⟨r, hs, c, h0, h1, rfl⟩ : ∃ r hs c h0 h1, u = { t with regs := r, halfSet := hs, copy := c, half0 := h0, half1 := h1 } :=
    ⟨_, _, _, _, _, hkeep⟩
  exact ⟨h.place, hjob, h.epoch, h.sched, h.uses, h.record, h.regions⟩

theorem nextCopy : s.Quenched q t.nextCopy := by
  rcases nextCopy_cases t with h' | ⟨set, half, h'⟩ <;> rw [h']
  · exact h
  · exact h.startCopy set half

theorem noteStep (st : BitVec 64) : s.Quenched q (t.noteStep st) := ⟨h.place, h.job, h.epoch, h.sched, h.uses, h.record, h.regions⟩

theorem retune : s.Quenched q t.retune := by
  unfold State.retune
  split
  · exact h
  · dsimp only
    refine each_of_keeps (P := fun u => s.Quenched q u) (fun u r _ hu => ?_) ⟨h.place, h.job, h.epoch, h.sched, h.uses, h.record, h.regions⟩
    refine ⟨hu.place, hu.job, hu.epoch, hu.sched, hu.uses, hu.record, fun x hx => ?_⟩
    rw [region_modRegion]
    split
    · exact hu.regions x hx
    · exact hu.regions x hx

end State.Quenched

/-! ## The boundary -/

/-- A region none of whose cores waits for another part (R539). -/
def Region.alone (x : Region) : Region :=
  let drop (r : FarReq) : FarReq := if r.own || r.done then r else { r with stuck := true }
  { x with cores := x.cores.map fun c => (c.1, { c.2 with
      farq := c.2.farq.map fun f => (f.1, { f.2 with entries := f.2.entries.map drop }) }) }

theorem abandonRemote_eq (s : State) : s.abandonRemote = { s with regions := s.regions.map fun x => (x.1, x.2.alone) } := rfl

theorem running_abandonRemote (s : State) (r : Nat) : (s.abandonRemote.region r).running = (s.region r).running := by
  rw [abandonRemote_eq]
  unfold State.region
  dsimp only
  rw [tab_get_map _ Region.alone rfl]
  rfl

/-- The job's state as its record takes effect. -/
def State.stopped (s : State) (q : QRec) : State :=
  { ((s.stopRegions.dropScheduled).setReg R.jobState 3).abandonRemote with
    epoch := s.epoch + 1, runLeft := 0, quenchAt := some s.frame, qrec := some { q with stop := s.frame } }

theorem quenchNow_eq (s : State) (q : QRec) : s.quenchNow q = if q.isEnd then (s.stopped q).endJob q.cause
    else (((if s.reg R.ballastEnable = 0 then (s.stopped q).exempt else s.stopped q).nextCopy).noteStep q.s).retune := rfl

theorem quenched_stopped (s : State) (q : QRec) : s.Quenched q (s.stopped q) := by
  have hregions (r : Nat) (hr : r < 16) : ((s.stopRegions.dropScheduled.setReg R.jobState 3).abandonRemote.region r).running = false := by
    rw [running_abandonRemote, region_setReg, region_of_regions (dropScheduled_leaves s.stopRegions).2.2.2.2.2.1]
    exact running_stopRegions s hr
  obtain ⟨hplace, hsched, huses, -, -, -, -⟩ := dropScheduled_leaves s.stopRegions
  have hplace' := hplace.trans (place_stopRegions s)
  unfold State.stopped
  generalize s.stopRegions.dropScheduled = x at *
  rw [abandonRemote_eq] at hregions ⊢
  exact ⟨(place_eq rfl rfl rfl rfl).trans hplace', (reg_setReg x R.jobState 3 R.jobState).trans (if_pos rfl), rfl, hsched, huses, rfl, hregions⟩

/-- What the record's stop leaves of the ballast's enable. -/
theorem ballast_stopped (s : State) (q : QRec) : (s.stopped q).reg R.ballastEnable = s.reg R.ballastEnable := by
  have hdrop : s.stopRegions.dropScheduled.reg R.ballastEnable = s.reg R.ballastEnable := by
    obtain ⟨rg, h⟩ : ∃ rg, s.stopRegions = { s with regions := rg } := ⟨_, stopRegions_regions s⟩
    rw [reg_dropScheduled, if_neg (by decide), if_neg (by decide), h]
    rfl
  unfold State.stopped
  generalize s.stopRegions.dropScheduled = x at *
  rw [abandonRemote_eq]
  exact ((reg_setReg x R.jobState 3 R.ballastEnable).trans (if_neg (by decide))).trans hdrop

theorem quenchNow_quenched {s : State} {q : QRec} (hend : q.isEnd = false) (hb : s.reg R.ballastEnable = 1) : s.Quenched q (s.quenchNow q) := by
  rw [quenchNow_eq, if_neg (by simp [hend]), if_neg (by rw [hb]; decide)]
  exact ((quenched_stopped s q).nextCopy.noteStep q.s).retune

theorem quenchNow_ends {s : State} {q : QRec} (hend : q.isEnd = true) (hb : s.reg R.ballastEnable = 1) :
    (s.quenchNow q).place = s.place ∧ (s.quenchNow q).reg R.jobState = 4 ∧ (s.quenchNow q).endPending = some q.cause
      ∧ (s.quenchNow q).qrec = none ∧ (s.quenchNow q).sched = false := by
  have he := ended_endJob (s.stopped q) q.cause ((ballast_stopped s q).trans hb)
  rw [quenchNow_eq, if_pos hend]
  exact ⟨he.place.trans (quenched_stopped s q).place, he.job, he.pending, he.record, he.sched⟩

/-- A running job's boundary at which its record has come. -/
theorem runningFrame_stops {s : State} {i : Image} {q : QRec} (hq : s.qrec = some q) (hstop : q.stop ≤ s.frame) (hmark : s.runMark = false) :
    s.runningFrame i = s.pastFrame.quenchNow q := by
  have hpast : s.pastMark s.pastFrame = s.pastFrame := by
    unfold State.pastMark
    rw [if_neg fun h => by simp [hmark] at h]
  rw [runningFrame_eq, hpast, stopOr_due (y := s.pastFrame) hq hstop]

end Sys2Proof.Machine
end

section
/-! A replay's frame: the step run again, or quenched anew where the part is not ready (R543, R546, R547). -/

namespace Sys2Proof.Machine

/-! ## A new quench of the step -/

/-- A QUENCHED part takes a record of its step's next attempt, its stop unchanged (R540). -/
theorem takeRecord_next {s : State} (hjob : s.reg R.jobState = 3) {r m : QRec} (hrec : s.qrec = some r) (hs : m.s = r.s) (ha : m.a = r.a + 1)
    (ep : BitVec 2) : (s.takeRecord m ep).1 = ({ s with qrec := some { m with stop := r.stop }, epoch := ep } : State).showRec := by
  simp [State.takeRecord, hjob, hrec, hs, ha]

/-- A QUENCHED part's step quenched anew. -/
theorem sendQuench_next {s : State} (hjob : s.reg R.jobState = 3) {r m : QRec} (hrec : s.qrec = some r) (hs : m.s = r.s) (ha : m.a = r.a + 1) :
    ∃ po st n seen ep, s.sendQuench m = ({ s with ports := po, msgStamp := st, floodSeq := n, floodsSeen := seen, epoch := ep
                                                  qrec := some { m with origin := s.chip, stop := r.stop } } : State).showRec := by
  unfold State.sendQuench
  dsimp only
  generalize State.epochFromQ s { m with origin := s.chip } = ep
  obtain ⟨po, st, n, seen, h⟩ := flood_cases s [] 2 (({ m with origin := s.chip } : QRec).bytes ep)
  refine ⟨po, st, n, seen, ep, ?_⟩
  rw [h]
  exact takeRecord_next (s := { s with ports := po, msgStamp := st, floodSeq := n, floodsSeen := seen }) hjob hrec
    (m := { m with origin := s.chip }) hs ha ep

theorem place_event (s : State) (code unit detail : Nat) : (s.event code unit detail).place = s.place
    ∧ (s.event code unit detail).qrec = s.qrec := by
  obtain ⟨e, l, r, g, n, h, -⟩ := logEntry_cases s code 0 unit detail
  unfold State.event
  rw [h]
  exact ⟨place_eq rfl rfl rfl rfl, rfl⟩

/-- A replay's frame that finds the part unready, within the limit (R547). -/
theorem requench_next {s : State} {q : QRec} (hjob : s.reg R.jobState = 3) (hrec : s.qrec = some q) (hlim : q.a + 1 < s.reg R.replayLimit) :
    (s.requench q).place = s.place ∧ (s.requench q).reg R.jobState = 3 ∧ (s.requench q).logged 0x7076 0xFF noDetail
      ∧ ∃ u, (s.requench q).qrec = some u ∧ u.s = q.s ∧ u.a = q.a + 1 ∧ u.cause = q.cause := by
  have hno : decide (s.reg R.replayLimit ≤ q.a + 1) = false := decide_eq_false (by omega)
  have hlog := logged_event s 0x7076 0xFF noDetail
  obtain ⟨hplace, hqrec⟩ := place_event s 0x7076 0xFF noDetail
  have hjob' : (s.event 0x7076 0xFF noDetail).reg R.jobState = 3 := (reg_event _ _ _ _ _ (by decide)).trans hjob
  unfold State.requench
  dsimp only
  rw [hno]
  simp only [Bool.false_eq_true, if_false, Bool.or_false]
  generalize s.event 0x7076 0xFF noDetail = x at *
  obtain ⟨po, st, n, seen, ep, h⟩ := sendQuench_next hjob' (hqrec.trans hrec) (m := { q with
    a := q.a + 1, q := s.quenchFrameNow, p := s.quenchFrameNow + s.reg R.replayDelayFrames, isEnd := q.isEnd, defer := false, release := false })
    rfl rfl
  rw [h]
  obtain ⟨y, hy⟩ : ∃ y, y = ({ x with ports := po, msgStamp := st, floodSeq := n, floodsSeen := seen, epoch := ep
                                      qrec := some { q with
    a := q.a + 1, q := s.quenchFrameNow, p := s.quenchFrameNow + s.reg R.replayDelayFrames, isEnd := q.isEnd, defer := false, release := false
    origin := x.chip, stop := q.stop } } : State) := ⟨_, rfl⟩
  have hkeep : y.place = s.place ∧ y.reg R.jobState = 3 ∧ y.log = x.log ∧ ∃ u, y.qrec = some u ∧ u.s = q.s ∧ u.a = q.a + 1 ∧ u.cause = q.cause := by
    rw [hy]
    exact ⟨(place_eq rfl rfl rfl rfl).trans hplace, hjob', rfl, _, rfl, rfl, rfl, rfl⟩
  rw [← hy]
  clear hy h
  obtain ⟨hyplace, hyjob, hylog, hyrec⟩ := hkeep
  have hreg := reg_showRec_other y (k := R.jobState) (by decide)
  obtain ⟨r, hr⟩ := showRec_keeps y
  rw [hr] at hreg ⊢
  refine ⟨(place_eq rfl rfl rfl rfl).trans hyplace, hreg.trans hyjob, ?_, hyrec⟩
  unfold State.logged at hlog ⊢
  rw [← hylog] at hlog
  exact hlog

/-! ## Readiness and copies -/

theorem nextCopy_replay {s : State} {q : QRec} {r : Restart} (hrun : s.reg R.runState = 0) (hjob : s.reg R.jobState = 3)
    (hrec : s.qrec = some q) (hr : s.restartOf q.s = some r) : s.nextCopy = s.recopy r.sets := by
  unfold State.nextCopy
  split
  · next h _ => rw [hrun] at h; omega
  · next h => rw [hrun] at h; omega
  · split
    · next h _ => rw [hjob] at h; omega
    · next hq =>
      obtain rfl := Option.some.inj (hrec.symm.trans hq)
      rw [hr]
    · next h => exact absurd hrec (h q hjob)

/-- The halves hold what the restart point names: no copy is needed. -/
theorem recopy_ready {s : State} {r : Restart} (h : s.ready r = true) : s.recopy r.sets = s := by
  have hw : s.halvesWrong r.sets = [] := by
    simp only [State.ready, Bool.and_eq_true, List.isEmpty_iff] at h
    tauto
  have hnone : ([0, 1].find? fun h => r.sets.getD h 0xFFFF ≠ 0xFFFF ∧ s.halfSet.getD h 0xFFFF ≠ r.sets.getD h 0xFFFF) = none := by
    refine List.find?_eq_none.mpr fun x hx => ?_
    have := List.filter_eq_nil_iff.mp hw x hx
    simpa [bne_iff_ne] using this
  unfold State.recopy
  rw [hnone, ite_self]

/-- A copy that begins for an unready part leaves it unready. -/
theorem ready_recopy {s : State} {r : Restart} (h : s.ready r = false) : (s.recopy r.sets).ready r = false := by
  unfold State.recopy
  split
  · exact h
  · split
    · next x hx =>
      have hx' := List.find?_some hx
      have hmem := List.mem_of_find?_eq_some hx
      have hwrong : (s.startCopy (r.sets.getD x 0) x).halvesWrong r.sets ≠ [] := by
        refine List.ne_nil_of_mem (a := x) (List.mem_filter.mpr ⟨hmem, ?_⟩)
        have hset : (s.startCopy (r.sets.getD x 0) x).halfSet = s.halfSet.set x 0xFFFF := by rw [startCopy_keeps]
        have hget : (s.halfSet.set x 0xFFFF).getD x 0xFFFF = 0xFFFF := by
          rw [List.getD_eq_getElem?_getD, List.getElem?_set_self']
          cases s.halfSet[x]? <;> rfl
        have hne := (of_decide_eq_true hx').1
        rw [hset, hget, Bool.and_eq_true, bne_iff_ne, bne_iff_ne]
        exact ⟨hne, hne.symm⟩
      unfold State.ready
      rw [List.isEmpty_eq_false_iff.mpr hwrong]
      simp
    · exact h

/-! ## The step run again (R546) -/

/-- The bundle and open loops from which a core runs the step again. -/
def Restart.placeOf (r : Restart) (c : Nat) : Nat × List Loop := match r.cores.find? fun x => x.1 = c with
  | some x => x.2
  | none => (0, [])

/-- The sequence, the counter and the half taken back to a restart point. -/
def State.rewound (s : State) (r : Restart) (attempt : Nat) : State :=
  { (((s.freshDrift).setReg R.fabricStepCounter r.step.toNat).toHalf r.active).showPreload (s.reg R.activeHalf ≠ r.active) with
    seqPos := r.pos, reps := r.reps, runLeft := 0, runMark := false, frameIndex := r.frame, qrec := none
    replaying := some (r.step, attempt), firstFault := false, joinWait := none, jobIssued := true, schedFrom := s.frame
    restarts := (r :: s.restarts.filter fun x => x.step ≠ r.step).take 8 }

/-- The cores and regions of the step started. -/
def State.restarted (s : State) (r : Restart) : State :=
  ((s.freshCores r.step r.placeOf).startRegions r.frame).setReg R.jobState 2

/-- A replay counted and logged. -/
def State.replayNoted (s : State) : State := (s.showRec.bump R.replaysJob 32).event 0x7070 0xFF noDetail

theorem replayFrom_eq (s : State) (i : Image) (r : Restart) (attempt : Nat) : s.replayFrom i r attempt
    = ((((s.rewound r attempt).restarted r).replayNoted).enterFrame i true).noteStep r.step := by
  unfold State.replayFrom
  extract_lets +onlyGivenNames place
  have hplace : place = r.placeOf := rfl
  rw [hplace]
  rfl

theorem showPreload_regs (s : State) (b : Bool) : ∃ rg, s.showPreload b = { s with regs := rg } := by
  unfold State.showPreload
  split
  · exact ⟨_, rfl⟩
  · split <;> exact ⟨_, rfl⟩

theorem reg_showPreload (s : State) (b : Bool) {k : Nat} (hk : k ≠ R.preloadState) : (s.showPreload b).reg k = s.reg k := by
  unfold State.showPreload
  split
  · rw [reg_setReg, if_neg hk]
  · split
    · rw [reg_setReg, if_neg hk]
    · rfl

/-- The registers that a rewind sets. -/
def rewindRegs : List Nat := [R.fabricStepCounter, R.activeHalf, R.preloadState] ++ peakRegs

theorem rewound_cases (s : State) (r : Restart) (a : Nat) : ∃ po rg ip, s.rewound r a = { s with
      ports := po, regs := rg, idlePeaks := ip, seqPos := r.pos, reps := r.reps, runLeft := 0, runMark := false, frameIndex := r.frame
      qrec := none, replaying := some (r.step, a), firstFault := false, joinWait := none, jobIssued := true, schedFrom := s.frame
      restarts := (r :: s.restarts.filter fun x => x.step ≠ r.step).take 8 }
    ∧ (s.rewound r a).reg R.fabricStepCounter = r.step.toNat ∧ (s.rewound r a).reg R.activeHalf = r.active
    ∧ ∀ k, k ∉ rewindRegs → (s.rewound r a).reg k = s.reg k := by
  unfold State.rewound
  obtain ⟨po, hpo⟩ : ∃ po, s.freshDrift = { s with ports := po } := ⟨_, freshDrift_ports s⟩
  have hreg (k : Nat) : (s.freshDrift.setReg R.fabricStepCounter r.step.toNat).reg k = if k = R.fabricStepCounter then r.step.toNat else s.reg k := by
    rw [hpo]
    exact reg_setReg s R.fabricStepCounter r.step.toNat k
  rw [hpo] at hreg ⊢
  generalize decide (s.reg R.activeHalf ≠ r.active) = b
  obtain ⟨x, hx⟩ : ∃ x, x = ({ s with ports := po } : State).setReg R.fabricStepCounter r.step.toNat := ⟨_, rfl⟩
  rw [← hx] at hreg ⊢
  have hhalf {k : Nat} (hk : k ∉ peakRegs ∧ k ≠ R.preloadState) : ((x.toHalf r.active).showPreload b).reg k
      = if k = R.activeHalf then r.active else x.reg k := (reg_showPreload _ b hk.2).trans (reg_toHalf x r.active hk.1)
  obtain ⟨rg, hrg⟩ := showPreload_regs (x.toHalf r.active) b
  obtain ⟨rg', ip, hip⟩ : ∃ rg ip, x.toHalf r.active = { x with regs := rg, idlePeaks := ip } := ⟨_, _, toHalf_keeps x r.active⟩
  rw [hrg, hip] at hhalf
  rw [hrg, hip, hx]
  refine ⟨po, rg, ip, rfl, ?_⟩
  rw [hx] at hhalf hreg
  refine ⟨(hhalf (k := R.fabricStepCounter) (by decide)).trans ((if_neg (by decide)).trans ((hreg _).trans (if_pos rfl))),
    (hhalf (k := R.activeHalf) (by decide)).trans (if_pos rfl), fun k hk => ?_⟩
  simp only [rewindRegs, List.mem_append, List.mem_cons, List.not_mem_nil, or_false, not_or] at hk
  obtain ⟨⟨h1, h2, h3⟩, h4⟩ := hk
  exact (hhalf ⟨h4, h3⟩).trans ((if_neg h2).trans ((hreg _).trans (if_neg h1)))

end Sys2Proof.Machine
end

section
/-! A step run again at its frame (R439, R543, R546). -/

namespace Sys2Proof.Machine

/-! ## Cores that begin (R120) -/

theorem freshCores_regions (s : State) (step : BitVec 64) (place : Nat → Nat × List Loop) :
    ∃ rg, s.freshCores step place = { s with regions := rg } :=
  ⟨_, eq_up_to_regions (each_keeps (fun t : State => ({ t with regions := [] } : State)) _ _ s fun _ _ _ => rfl)⟩

theorem core_freshCores (s : State) (step : BitVec 64) (place : Nat → Nat × List Loop) {c : Nat} (hc : c ∈ s.jobCores) :
    (s.freshCores step place).core c = s.freshCore c step (place c).1 (place c).2 := by
  refine each_establishes (P := fun t : State => t.core c = s.freshCore c step (place c).1 (place c).2) hc (fun t d _ ht => ?_) (fun t => ?_) s
  · rw [core_setCore]
    split
    · next h => rw [h]
    · exact ht
  · rw [core_setCore, if_pos rfl]

theorem core_startRegions (s : State) (k c : Nat) : (s.startRegions k).core c = s.core c := by
  unfold State.startRegions
  exact each_keeps (fun t : State => t.core c) _ _ ({ s with claimed := 0, lateDebt := [] } : State) fun t r _ =>
    core_modRegion_of_cores t r c _ fun _ => rfl

/-- A core that begins at a step and a bundle, with empty vector and address registers. -/
theorem freshCore_begins (s : State) (c : Nat) (step : BitVec 64) (pc : Nat) (loops : List Loop) :
    (s.freshCore c step pc loops).step = step ∧ (s.freshCore c step pc loops).pc = pc ∧ (s.freshCore c step pc loops).loops = loops
      ∧ (s.freshCore c step pc loops).v = [] ∧ (s.freshCore c step pc loops).a = [] := by
  refine ⟨rfl, rfl, rfl, ?_, ?_⟩
  all_goals
    unfold State.freshCore State.loadedCore
    cases s.image <;> rfl

/-! ## The state from which the step runs -/

/-- What a step that begins again takes of the state: its place, its image, and where the sequence and the record stand. -/
structure Thread where
  place : Nat × Nat × Memory × Bool
  image : Option Image
  seqPos : Nat
  reps : List (Nat × Nat × Nat)
  qrec : Option QRec
  frameIndex : Nat
  replaying : Option (BitVec 64 × Nat)

/-- That projection of a state. -/
def State.thread (s : State) : Thread := ⟨s.place, s.image, s.seqPos, s.reps, s.qrec, s.frameIndex, s.replaying⟩

theorem thread_rewound (s : State) (r : Restart) (a : Nat) :
    (s.rewound r a).thread = ⟨s.place, s.image, r.pos, r.reps, none, r.frame, some (r.step, a)⟩ := by
  obtain ⟨po, rg, ip, h, -⟩ := rewound_cases s r a
  rw [h]
  rfl

theorem restarted_keeps (s : State) (r : Restart) : ∃ rg, s.restarted r = ({ s with claimed := 0, lateDebt := [], regions := rg } : State).setReg
    R.jobState 2 := by
  unfold State.restarted
  obtain ⟨rg, h⟩ := freshCores_regions s r.step r.placeOf
  rw [h]
  obtain ⟨rg', h'⟩ := startRegions_keeps ({ s with regions := rg } : State) r.frame
  rw [h']
  exact ⟨rg', rfl⟩

theorem thread_restarted (s : State) (r : Restart) : (s.restarted r).thread = s.thread := by
  obtain ⟨rg, h⟩ := restarted_keeps s r
  rw [h]
  rfl

theorem reg_restarted (s : State) (r : Restart) (k : Nat) : (s.restarted r).reg k = if k = R.jobState then 2 else s.reg k := by
  obtain ⟨rg, h⟩ := restarted_keeps s r
  rw [h]
  exact reg_setReg s R.jobState 2 k

theorem core_restarted (s : State) (r : Restart) {c : Nat} (hc : c ∈ s.jobCores) :
    (s.restarted r).core c = s.freshCore c r.step (r.placeOf c).1 (r.placeOf c).2 :=
  (core_startRegions _ r.frame c).trans (core_freshCores s r.step r.placeOf hc)

theorem thread_replayNoted (s : State) : s.replayNoted.thread = s.thread := by
  unfold State.replayNoted State.bump
  generalize (s.showRec.reg R.replaysJob + 1) % 2 ^ 32 = v
  obtain ⟨rg, h⟩ := showRec_keeps s
  rw [h]
  obtain ⟨e, l, lr, g, n, hev, -⟩ := logEntry_cases (({ s with regs := rg } : State).setReg R.replaysJob v) 0x7070 0 0xFF noDetail
  unfold State.event
  rw [hev]
  rfl

theorem core_replayNoted (s : State) (c : Nat) : s.replayNoted.core c = s.core c := by
  unfold State.replayNoted State.bump
  generalize (s.showRec.reg R.replaysJob + 1) % 2 ^ 32 = v
  obtain ⟨rg, h⟩ := showRec_keeps s
  rw [h]
  exact core_of_regions (congrArg Body.regions (body_event (({ s with regs := rg } : State).setReg R.replaysJob v) 0x7070 0xFF noDetail)) c

theorem reg_replayNoted (s : State) {k : Nat} (hlog : k ∉ logRegs) (hrec : k ∉ recordRegs) :
    s.replayNoted.reg k = if k = R.replaysJob then (s.reg R.replaysJob + 1) % 2 ^ 32 else s.reg k := by
  unfold State.replayNoted State.bump
  rw [reg_event _ _ _ _ _ hlog, reg_setReg, reg_showRec_other s (k := R.replaysJob) (by decide), reg_showRec_other s hrec]

/-- The part that runs a step again, its RUN still to be taken. -/
structure State.Restarts (s : State) (r : Restart) (a : Nat) (y : State) : Prop where
  thread : y.thread = ⟨s.place, s.image, r.pos, r.reps, none, r.frame, some (r.step, a)⟩
  job : y.reg R.jobState = 2
  counter : y.reg R.fabricStepCounter = r.step.toNat
  half : y.reg R.activeHalf = r.active
  replays : y.reg R.replaysJob = (s.reg R.replaysJob + 1) % 2 ^ 32
  logged : y.logged 0x7070 0xFF noDetail
  reg : ∀ k, k ∉ rewindRegs → k ∉ logRegs → k ∉ recordRegs → k ≠ R.jobState → k ≠ R.replaysJob → y.reg k = s.reg k
  cores : ∀ c ∈ s.jobCores, (y.core c).step = r.step ∧ (y.core c).v = [] ∧ (y.core c).a = [] ∧ (y.core c).pc = (r.placeOf c).1
    ∧ (y.core c).loops = (r.placeOf c).2

theorem restarts_replay (s : State) (r : Restart) (a : Nat) : s.Restarts r a ((s.rewound r a).restarted r).replayNoted := by
  obtain ⟨-, -, -, -, hcounter, hhalf, hreg⟩ := rewound_cases s r a
  have hthread := thread_rewound s r a
  generalize s.rewound r a = x at *
  have hjobcores : x.jobCores = s.jobCores := by
    have himage := congrArg Thread.image hthread
    unfold State.jobCores
    exact congrArg (fun i : Option Image => State.jobCores { s with image := i }) himage
  have hall {k : Nat} (hlog : k ∉ logRegs) (hrecord : k ∉ recordRegs) : ((x.restarted r).replayNoted).reg k
      = if k = R.replaysJob then (x.reg R.replaysJob + 1) % 2 ^ 32 else if k = R.jobState then 2 else x.reg k := by
    rw [reg_replayNoted _ hlog hrecord, reg_restarted, reg_restarted, if_neg (show ¬ R.replaysJob = R.jobState by decide)]
  refine ⟨(thread_replayNoted _).trans ((thread_restarted x r).trans hthread), hall (by decide) (by decide),
    (hall (by decide) (by decide)).trans hcounter, (hall (by decide) (by decide)).trans hhalf, ?_, logged_event _ _ _ _,
    fun k hk hlog hrecord hjob hrj => ?_, fun c hc => ?_⟩
  · rw [hall (by decide) (by decide), if_pos rfl, hreg _ (by decide)]
  · rw [hall hlog hrecord, if_neg hrj, if_neg hjob, hreg k hk]
  · rw [core_replayNoted, core_restarted x r (hjobcores ▸ hc)]
    obtain ⟨h1, h2, h3, h4, h5⟩ := freshCore_begins x c r.step (r.placeOf c).1 (r.placeOf c).2
    exact ⟨h1, h4, h5, h2, h3⟩

/-! ## A replay's frame -/

theorem step_of_restartOf {s : State} {st : BitVec 64} {r : Restart} (h : s.restartOf st = some r) : r.step = st :=
  of_decide_eq_true (List.find?_some h :)

section
variable {s : State} {i : Image} {q : QRec} {r : Restart} (hrun : s.reg R.runState = 0) (hjob : s.reg R.jobState = 3) (hrec : s.qrec = some q)
  (hend : q.isEnd = false) (hp : q.p ≤ s.frame) (hr : s.restartOf q.s = some r)
include hrun hjob hrec hend hp hr

theorem quenchedFrame_ready (hready : s.ready r = true) : s.quenchedFrame i q = (s.pushStep q.s).replayFrom i r q.a := by
  have hcopy : (s.pushStep q.s).nextCopy = s.pushStep q.s :=
    (nextCopy_replay (s := s.pushStep q.s) hrun hjob hrec hr).trans (recopy_ready (s := s.pushStep q.s) hready)
  have hr' : (s.pushStep q.s).restartOf q.s = some r := hr
  have hready' : (s.pushStep q.s).ready r = true := hready
  unfold State.quenchedFrame
  dsimp only
  rw [hcopy, if_neg (by simp [hend]), if_pos hp, hr']
  exact if_pos hready'

theorem quenchedFrame_unready (hready : s.ready r = false) : ∃ x : State, s.quenchedFrame i q = x.requench q ∧ x.place = s.place
    ∧ x.reg R.jobState = 3 ∧ x.qrec = some q ∧ x.reg R.replayLimit = s.reg R.replayLimit := by
  obtain ⟨x, hx⟩ : ∃ x, x = (s.pushStep q.s).nextCopy := ⟨_, rfl⟩
  have hready' : x.ready r = false := by
    rw [hx, nextCopy_replay (s := s.pushStep q.s) hrun hjob hrec hr]
    exact ready_recopy (s := s.pushStep q.s) hready
  have hkeep : x.place = s.place ∧ x.reg R.jobState = 3 ∧ x.qrec = some q ∧ x.reg R.replayLimit = s.reg R.replayLimit
      ∧ x.restartOf q.s = some r := by
    rcases nextCopy_cases (s.pushStep q.s) with h | ⟨set, half, h⟩
    · rw [hx, h]
      exact ⟨place_eq rfl rfl rfl rfl, hjob, hrec, rfl, hr⟩
    · have hreg (k : Nat) : x.reg k = if k = R.preloadState then 1 else s.reg k := by
        rw [hx, h]
        exact reg_startCopy (s.pushStep q.s) set half k
      refine ⟨?_, (hreg _).trans ((if_neg (by decide)).trans hjob), ?_, (hreg _).trans (if_neg (by decide)), ?_⟩
      all_goals rw [hx, h, startCopy_keeps]
      · exact place_eq rfl rfl rfl rfl
      · exact hrec
      · exact hr
  obtain ⟨hplace, hxjob, hxrec, hlimit, hxr⟩ := hkeep
  refine ⟨x, ?_, hplace, hxjob, hxrec, hlimit⟩
  unfold State.quenchedFrame
  dsimp only
  rw [← hx, if_neg (by simp [hend]), if_pos hp, hxr]
  exact if_neg (by simp [hready'])

end

theorem core_noteStep (s : State) (st : BitVec 64) (c : Nat) : (s.noteStep st).core c = s.core c := rfl

/-- A RUN taken as a step runs again. -/
theorem replayFrom_takes {s : State} {i : Image} {r : Restart} (a : Nat) (hp : s.Plays i) (hin : ∀ x ∈ r.reps.head?, x.2.1 ≠ r.pos)
    (hop : seqOp (i.seq.getD r.pos 0) = 1) : ∃ y, s.Restarts r a y ∧ y.Took i (s.replayFrom i r a) ∧ y.seqPos = r.pos
      ∧ ∀ c, (s.replayFrom i r a).core c = y.core c := by
  rw [replayFrom_eq]
  obtain ⟨y, hy⟩ : ∃ y, y = ((s.rewound r a).restarted r).replayNoted := ⟨_, rfl⟩
  have h : s.Restarts r a y := hy ▸ restarts_replay s r a
  rw [← hy]
  clear hy
  have hpos : y.seqPos = r.pos := (congrArg Thread.seqPos h.thread :)
  have hreps : y.reps = r.reps := (congrArg Thread.reps h.thread :)
  have hplays : y.Plays i := hp.of_regs (congrArg Thread.image h.thread) fun k hk => by
    have hne : k ∉ rewindRegs ∧ k ∉ logRegs ∧ k ∉ recordRegs ∧ k ≠ R.jobState ∧ k ≠ R.replaysJob := by
      rcases hk with rfl | rfl | ⟨p, hp, rfl⟩
      · decide
      · decide
      · simp only [rewindRegs, peakRegs, logRegs, recordRegs, List.mem_append, List.mem_map, List.mem_range, List.mem_cons, List.not_mem_nil,
          or_false, not_or, not_exists, not_and, R.width, R.fabricStepCounter, R.activeHalf, R.preloadState, R.clausePeakW, R.logCount,
          R.logNextSeq, R.logOverwritten, R.eventsUnsent, R.replayStep, R.replayAttempt, R.quenchFrame, R.replayFrame, R.quenchOrigin,
          R.quenchCause, R.jobState, R.replaysJob, regKey]
        refine ⟨⟨by omega, fun x _ => by omega⟩, by omega, by omega, by omega, by omega⟩
    obtain ⟨h1, h2, h3, h4, h5⟩ := hne
    exact h.reg k h1 h2 h3 h4 h5
  have hrun : y.AtRun i := by
    unfold State.AtRun State.Inside State.entryAt
    rw [hpos, hreps]
    exact ⟨hin, hop⟩
  rw [enterFrame_comes hplays h.job ⟨hrun, .inl rfl⟩]
  have htaken (c : Nat) : (y.taken i).core c = y.core c := core_of_regions rfl c
  refine ⟨y, h, ?_, hpos, fun c => (core_noteStep _ _ c).trans ((core_markFrame (y.taken i) c).trans (htaken c))⟩
  rw [markFrame_regions]
  exact took_taken i h.job _ _

end Sys2Proof.Machine
end

section
/-! Recovery runs at a frame boundary: begun, counted, ended (R555 to R557). -/

namespace Sys2Proof.Machine

/-! ## The end of a run -/

/-- A recovery run is over in state `st`. -/
structure State.RunOver (s : State) (st : Nat) (t : State) : Prop where
  place : t.place = s.place
  state : t.reg R.runState = st
  run : t.run = none
  job : t.reg R.jobState = s.reg R.jobState

/-- Its traffic is over. -/
def State.Still (t : State) : Prop := t.sched = false ∧ ∀ r < 16, (t.region r).running = false

/-- The traffic of a run that had begun stopped, and the half before it active again. -/
def State.runStopped (s : State) : State :=
  (((s.stopRegions.dropScheduled).toHalf s.idleHalf).setReg R.activeClause 0xFF).setReg R.variantPorts 0

/-- What a run's end leaves as its state. -/
def State.runClosed (s : State) (r : RunRec) (st : Nat) : State :=
  let t : State := { s.setReg R.runState st with run := none, runFailed := false, runLeft := 0 }
  let u := if r.onIdle then ((t.setReg R.regionLight r.formerLight).setReg R.stackActive r.formerStacks).askUnits else t
  if st = 3 then u.event 0x7077 0xFF noDetail else u

theorem endRun_begun (s : State) (r : RunRec) (st : Nat) : s.endRun r st true = s.runStopped.runClosed r st := rfl

theorem endRun_waiting (s : State) (r : RunRec) (st : Nat) : s.endRun r st false = s.runClosed r st := rfl

theorem stops_askUnits (s : State) : s.askUnits.place = s.place ∧ s.askUnits.run = s.run ∧ (s.Still → s.askUnits.Still)
    ∧ ∀ k, s.askUnits.reg k = s.reg k := ⟨place_eq rfl rfl rfl rfl, rfl, id, fun _ => rfl⟩

theorem runOver_closed (s : State) (r : RunRec) (st : Nat) : s.RunOver st (s.runClosed r st) ∧ (s.Still → (s.runClosed r st).Still)
    ∧ (st = 3 → (s.runClosed r st).logged 0x7077 0xFF noDetail) := by
  unfold State.runClosed
  obtain ⟨t, ht⟩ : ∃ t, t = ({ s.setReg R.runState st with run := none, runFailed := false, runLeft := 0 } : State) := ⟨_, rfl⟩
  have h : s.RunOver st t ∧ (s.Still → t.Still) := by
    rw [ht]
    exact ⟨⟨place_eq rfl rfl rfl rfl, (reg_setReg s R.runState st R.runState).trans (if_pos rfl), rfl,
      (reg_setReg s R.runState st R.jobState).trans (if_neg (by decide))⟩, id⟩
  obtain ⟨u, hu⟩ : ∃ u, u = if r.onIdle then ((t.setReg R.regionLight r.formerLight).setReg R.stackActive r.formerStacks).askUnits else t := ⟨_, rfl⟩
  have hu' : s.RunOver st u ∧ (s.Still → u.Still) := by
    rw [hu]
    split
    · obtain ⟨⟨hplace, hstate, hrun, hjob⟩, hstill⟩ := h
      obtain ⟨haplace, harun, hastill, hareg⟩ := stops_askUnits ((t.setReg R.regionLight r.formerLight).setReg R.stackActive r.formerStacks)
      refine ⟨⟨haplace.trans hplace, ?_, harun.trans hrun, ?_⟩, fun hs => hastill (hstill hs)⟩
      · rw [hareg, reg_setReg, if_neg (by decide), reg_setReg, if_neg (by decide), hstate]
      · rw [hareg, reg_setReg, if_neg (by decide), reg_setReg, if_neg (by decide), hjob]
    · exact h
  dsimp only
  rw [← ht, ← hu]
  clear hu ht
  obtain ⟨⟨hplace, hstate, hrun, hjob⟩, hstill⟩ := hu'
  by_cases h3 : st = 3
  · rw [if_pos h3]
    obtain ⟨e, l, lr, g, n, hev, -⟩ := logEntry_cases u 0x7077 0 0xFF noDetail
    have hreg {k : Nat} (hk : k ∉ logRegs) := reg_event u 0x7077 0xFF noDetail k hk
    have hlog := logged_event u 0x7077 0xFF noDetail
    have hkeep : (u.event 0x7077 0xFF noDetail).run = u.run ∧ (u.Still → (u.event 0x7077 0xFF noDetail).Still) := by
      unfold State.event
      rw [hev]
      exact ⟨rfl, id⟩
    exact ⟨⟨(place_event u _ _ _).1.trans hplace, (hreg (by decide)).trans hstate, hkeep.1.trans hrun, (hreg (by decide)).trans hjob⟩,
      fun hs => hkeep.2 (hstill hs), fun _ => hlog⟩
  · rw [if_neg h3]
    exact ⟨⟨hplace, hstate, hrun, hjob⟩, hstill, fun h => absurd h h3⟩

theorem runStopped_still (s : State) : s.runStopped.place = s.place ∧ s.runStopped.reg R.jobState = s.reg R.jobState ∧ s.runStopped.Still := by
  obtain ⟨hplace, hsched, -, -, -, hregions, -⟩ := dropScheduled_leaves s.stopRegions
  have hstill : s.stopRegions.dropScheduled.Still := ⟨hsched, fun r hr => by rw [region_of_regions hregions]; exact running_stopRegions s hr⟩
  have hreg : s.stopRegions.dropScheduled.reg R.jobState = s.reg R.jobState := by
    obtain ⟨rg, h⟩ : ∃ rg, s.stopRegions = { s with regions := rg } := ⟨_, stopRegions_regions s⟩
    rw [reg_dropScheduled, if_neg (by decide), if_neg (by decide), h]
    rfl
  have hplace' := hplace.trans (place_stopRegions s)
  unfold State.runStopped
  generalize s.stopRegions.dropScheduled = x at *
  obtain ⟨rg, ip, h⟩ : ∃ rg ip, x.toHalf s.idleHalf = { x with regs := rg, idlePeaks := ip } := ⟨_, _, toHalf_keeps x _⟩
  have htreg : (x.toHalf s.idleHalf).reg R.jobState = x.reg R.jobState := (reg_toHalf x _ (by decide)).trans (if_neg (by decide))
  refine ⟨?_, ?_, ?_⟩
  · rw [h]
    exact (place_eq rfl rfl rfl rfl).trans hplace'
  · rw [reg_setReg, if_neg (by decide), reg_setReg, if_neg (by decide), htreg, hreg]
  · rw [h]
    exact hstill

/-- A run that never began leaves nothing running. -/
theorem endRun_failed (s : State) (r : RunRec) : s.RunOver 4 (s.endRun r 4 false) := by
  rw [endRun_waiting]
  exact (runOver_closed s r 4).1

/-- One that had begun stops its traffic. -/
theorem endRun_stops (s : State) (r : RunRec) (st : Nat) : s.RunOver st (s.endRun r st true) ∧ (s.endRun r st true).Still
    ∧ (st = 3 → (s.endRun r st true).logged 0x7077 0xFF noDetail) := by
  obtain ⟨hplace, hjob, hstill⟩ := runStopped_still s
  rw [endRun_begun]
  generalize s.runStopped = x at *
  obtain ⟨⟨h1, h2, h3, h4⟩, h5, h6⟩ := runOver_closed x r st
  exact ⟨⟨h1.trans hplace, h2, h3, h4.trans hjob⟩, h5 hstill, h6⟩

/-! ## A run's frames -/

/-- A run's clause is the one its record names. -/
theorem pickClause_run {s : State} {r : RunRec} (hs : s.sched = true) (hstate : s.reg R.runState = 2) (hrun : s.run = some r)
    (hw : ∀ p < 32, s.halfWidth p = false) : s.pickClause = (s.setReg R.activeClause r.slot).setReg R.variantPorts 0 := by
  have hnone : s.schedPorts.filter s.halfWidth = [] :=
    List.filter_eq_nil_iff.mpr fun p hp => by simp [hw p (lt_of_mem_schedPorts hp)]
  have hbase : s.baseSlot = r.slot := by
    unfold State.baseSlot
    rw [hrun, hstate]
    rfl
  unfold State.pickClause
  rw [if_neg (by simp [hs])]
  dsimp only
  rw [if_neg (by rw [hstate]; simp), hnone, hbase]
  rfl

theorem runFrame_waiting {s : State} {r : RunRec} (i : Image) (hrun : s.run = some r) (hstate : s.reg R.runState = 1) (hf : r.frame ≤ s.frame) :
    s.runFrame i = if s.runReady i r then s.beginRun r else s.endRun r 4 false := by
  unfold State.runFrame
  rw [hrun, hstate]
  exact if_neg (Nat.not_lt.mpr hf)

theorem runFrame_running {s : State} {r : RunRec} (i : Image) (hrun : s.run = some r) (hstate : s.reg R.runState = 2) :
    s.runFrame i = if s.runFailed then s.endRun r 4 true else if r.left ≤ 1 then s.endRun r 3 true
      else (({ s with run := some { r with left := r.left - 1 }, frameIndex := s.frameIndex + 1 } : State).runCount r).pickClause.markFrame := by
  unfold State.runFrame
  rw [hrun, hstate]
  rfl

/-- A run's frame counted. -/
theorem runFrame_counts {s : State} {r : RunRec} (i : Image) (hrun : s.run = some r) (hstate : s.reg R.runState = 2)
    (hw : ∀ p < 32, s.halfWidth p = false) (hok : s.runFailed = false) (hleft : 1 < r.left) :
    (s.runFrame i).place = s.place ∧ (s.runFrame i).reg R.runState = 2 ∧ (s.runFrame i).run = some { r with left := r.left - 1 }
      ∧ (s.runFrame i).reg R.fabricStepCounter = s.reg R.fabricStepCounter := by
  rw [runFrame_running i hrun hstate, if_neg (by simp [hok]), if_neg (by omega)]
  obtain ⟨x, hx⟩ : ∃ x, x = ({ s with run := some { r with left := r.left - 1 }, frameIndex := s.frameIndex + 1 } : State).runCount r := ⟨_, rfl⟩
  have hcount : x.place = s.place ∧ x.run = some { r with left := r.left - 1 } ∧ ∀ k, k ≠ R.frameInClause → x.reg k = s.reg k := by
    rw [hx]
    unfold State.runCount
    split
    · exact ⟨place_eq rfl rfl rfl rfl, rfl, fun k hk => (reg_setReg _ _ _ k).trans (if_neg hk)⟩
    · exact ⟨place_eq rfl rfl rfl rfl, rfl, fun k _ => rfl⟩
  rw [← hx]
  clear hx
  obtain ⟨hplace, hxrun, hreg⟩ := hcount
  have hpick : x.pickClause.place = x.place ∧ x.pickClause.run = x.run
      ∧ ∀ k, k ≠ R.activeClause → k ≠ R.variantPorts → x.pickClause.reg k = x.reg k := by
    cases hs : x.sched with
    | false =>
      have h : x.pickClause = x := by
        unfold State.pickClause
        exact if_pos (by simp [hs])
      rw [h]
      exact ⟨rfl, rfl, fun _ _ _ => rfl⟩
    | true =>
      rw [pickClause_run hs ((hreg _ (by decide)).trans hstate) hxrun fun p hp => by
        rw [State.halfWidth, hreg _ (by simp only [R.width, R.frameInClause, regKey]; omega)]
        exact hw p hp]
      exact ⟨place_eq rfl rfl rfl rfl, rfl, fun k h1 h2 => by rw [reg_setReg, if_neg h2, reg_setReg, if_neg h1]⟩
  obtain ⟨hpplace, hprun, hpreg⟩ := hpick
  rw [markFrame_regions]
  generalize x.pickClause.markFrame.regions = rg
  generalize x.pickClause = y at *
  exact ⟨(place_eq rfl rfl rfl rfl).trans (hpplace.trans hplace), (hpreg _ (by decide) (by decide)).trans ((hreg _ (by decide)).trans hstate),
    hprun.trans hxrun, (hpreg _ (by decide) (by decide)).trans (hreg _ (by decide))⟩

/-! ## A run that begins (R555) -/

/-- The half of a run's clause made the active one, the run in state 2. -/
def State.runHalf (s : State) : State := ((s.freshDrift.toHalf s.idleHalf).setReg R.preloadState 0).setReg R.runState 2

/-- A run in its first frame, of `n` frames in all. -/
def State.runTaken (s : State) (r : RunRec) (n : Nat) : State :=
  { s.runHalf with run := some { r with left := n }, sched := true, schedFrom := s.frame, frameIndex := 0, runFailed := false }

/-- The cores and regions of a run started, and its clause shown. -/
def State.runStarted (s : State) (step : BitVec 64) (r : RunRec) : State :=
  (((s.freshCores step fun _ => (r.entry, [])).startRegions 0).setReg R.activeClause r.slot).setReg R.frameInClause 0

theorem beginRun_eq {s : State} {r : RunRec} {c : Clause} (hc : s.runHalf.clauseAt r.slot = some c) :
    s.beginRun r = ((s.runTaken r (r.count * c.frames)).runStarted (BitVec.ofNat 64 (s.reg R.firstStep)) r).pickClause.markFrame := by
  unfold State.beginRun
  extract_lets +onlyGivenNames s1
  have h : s1 = s.runHalf := rfl
  unfold State.runTaken
  rw [← h] at hc ⊢
  clear_value s1
  rw [hc]
  rfl

/-- The registers that a run's begin sets. -/
def runRegs : List Nat := [R.preloadState, R.runState, R.activeHalf, R.activeClause, R.frameInClause, R.variantPorts] ++ peakRegs

theorem runHalf_cases (s : State) : ∃ po rg ip, s.runHalf = { s with ports := po, regs := rg, idlePeaks := ip } ∧ s.runHalf.reg R.runState = 2
    ∧ s.runHalf.reg R.activeHalf = 1 - s.reg R.activeHalf ∧ ∀ k, k ∉ runRegs → s.runHalf.reg k = s.reg k := by
  unfold State.runHalf
  obtain ⟨po, hpo⟩ : ∃ po, s.freshDrift = { s with ports := po } := ⟨_, freshDrift_ports s⟩
  rw [hpo]
  obtain ⟨x, hx⟩ : ∃ x, x = ({ s with ports := po } : State) := ⟨_, rfl⟩
  have hxreg (k : Nat) : x.reg k = s.reg k := by rw [hx]; rfl
  rw [← hx]
  have hreg {k : Nat} (hk : k ∉ peakRegs) : (((x.toHalf s.idleHalf).setReg R.preloadState 0).setReg R.runState 2).reg k
      = if k = R.runState then 2 else if k = R.preloadState then 0 else if k = R.activeHalf then 1 - s.reg R.activeHalf else s.reg k := by
    rw [reg_setReg, reg_setReg, reg_toHalf x _ hk, hxreg]
    rfl
  obtain ⟨rg, ip, h⟩ : ∃ rg ip, x.toHalf s.idleHalf = { x with regs := rg, idlePeaks := ip } := ⟨_, _, toHalf_keeps x _⟩
  refine ⟨po, Tab.set (Tab.set rg R.preloadState 0) R.runState 2, ip, ?_, (hreg (by decide)).trans (if_pos rfl), (hreg (by decide)).trans ((if_neg (by decide)).trans
    ((if_neg (by decide)).trans (if_pos rfl))), fun k hk => ?_⟩
  · rw [h, hx]
    rfl
  · simp only [runRegs, List.mem_append, List.mem_cons, List.not_mem_nil, or_false, not_or] at hk
    obtain ⟨⟨h1, h2, h3, h4, h5, h6⟩, h7⟩ := hk
    rw [hreg h7, if_neg h2, if_neg h1, if_neg h3]

theorem runStarted_keeps (s : State) (step : BitVec 64) (r : RunRec) : ∃ rg, s.runStarted step r
    = (({ s with claimed := 0, lateDebt := [], regions := rg } : State).setReg R.activeClause r.slot).setReg R.frameInClause 0 := by
  unfold State.runStarted
  obtain ⟨rg, h⟩ := freshCores_regions s step fun _ => (r.entry, [])
  rw [h]
  obtain ⟨rg', h'⟩ := startRegions_keeps ({ s with regions := rg } : State) 0
  rw [h']
  exact ⟨rg', rfl⟩

theorem core_runStarted (s : State) (step : BitVec 64) (r : RunRec) {c : Nat} (hc : c ∈ s.jobCores) :
    (s.runStarted step r).core c = s.freshCore c step r.entry [] :=
  (core_startRegions _ 0 c).trans (core_freshCores s step (fun _ => (r.entry, [])) hc)

/-- A run's first frame. -/
theorem beginRun_begins {s : State} {r : RunRec} {c : Clause} (hw : ∀ p < 32, s.halfWidth p = false)
    (hc : (s.half (1 - s.reg R.activeHalf))[r.slot]? = some c) :
    (s.beginRun r).place = s.place ∧ (s.beginRun r).reg R.runState = 2 ∧ (s.beginRun r).reg R.activeHalf = 1 - s.reg R.activeHalf
      ∧ (s.beginRun r).reg R.activeClause = r.slot ∧ (s.beginRun r).sched = true
      ∧ (∀ k, k ∉ runRegs → (s.beginRun r).reg k = s.reg k) ∧ (s.beginRun r).run = some { r with left := r.count * c.frames }
      ∧ ∀ d ∈ s.jobCores, ((s.beginRun r).core d).pc = r.entry ∧ ((s.beginRun r).core d).step = BitVec.ofNat 64 (s.reg R.firstStep)
        ∧ ((s.beginRun r).core d).loops = [] := by
  obtain ⟨po, rg, ip, hhalf, hstate, hactive, hreg⟩ := runHalf_cases s
  have hclause : s.runHalf.clauseAt r.slot = some c := by
    have h : s.runHalf.half (s.runHalf.reg R.activeHalf) = s.half (1 - s.reg R.activeHalf) := by
      rw [hactive, hhalf]
      rfl
    rw [State.clauseAt, activeHalf_eq, h, hc]
  rw [beginRun_eq hclause]
  have htaken : (s.runTaken r (r.count * c.frames)).place = s.place ∧ (s.runTaken r (r.count * c.frames)).jobCores = s.jobCores
      ∧ (s.runTaken r (r.count * c.frames)).run = some { r with left := r.count * c.frames } ∧ (s.runTaken r (r.count * c.frames)).sched = true
      ∧ ∀ k, (s.runTaken r (r.count * c.frames)).reg k = s.runHalf.reg k := by
    unfold State.runTaken
    refine ⟨?_, ?_, rfl, rfl, fun _ => rfl⟩
    all_goals rw [hhalf]
    · exact place_eq rfl rfl rfl rfl
    · rfl
  generalize s.runTaken r (r.count * c.frames) = x at *
  clear hhalf hclause
  generalize s.runHalf = y at *
  obtain ⟨hxplace, hxcores, hxrun, hxsched, hxreg⟩ := htaken
  have hcores (d : Nat) (hd : d ∈ s.jobCores) := core_runStarted x (BitVec.ofNat 64 (s.reg R.firstStep)) r (hxcores.symm ▸ hd)
  obtain ⟨rg', h'⟩ := runStarted_keeps x (BitVec.ofNat 64 (s.reg R.firstStep)) r
  have hstarted : (x.runStarted (BitVec.ofNat 64 (s.reg R.firstStep)) r).place = x.place
      ∧ (x.runStarted (BitVec.ofNat 64 (s.reg R.firstStep)) r).run = x.run ∧ (x.runStarted (BitVec.ofNat 64 (s.reg R.firstStep)) r).sched = x.sched
      ∧ ∀ k, k ≠ R.activeClause → k ≠ R.frameInClause → (x.runStarted (BitVec.ofNat 64 (s.reg R.firstStep)) r).reg k = x.reg k := by
    rw [h']
    exact ⟨place_eq rfl rfl rfl rfl, rfl, rfl, fun k h1 h2 => by rw [reg_setReg, if_neg h2, reg_setReg, if_neg h1]; rfl⟩
  clear h'
  generalize x.runStarted (BitVec.ofNat 64 (s.reg R.firstStep)) r = z at *
  obtain ⟨hzplace, hzrun, hzsched, hzreg⟩ := hstarted
  have hz {k : Nat} (hk : k ≠ R.activeClause ∧ k ≠ R.frameInClause) : z.reg k = y.reg k := (hzreg k hk.1 hk.2).trans (hxreg k)
  have hcore (d : Nat) := core_markFrame ((z.setReg R.activeClause r.slot).setReg R.variantPorts 0) d
  rw [pickClause_run (r := { r with left := r.count * c.frames }) (hzsched.trans hxsched) ((hz (by decide)).trans hstate) (hzrun.trans hxrun)
    fun p hp => by
      rw [State.halfWidth, hz (by simp only [R.width, R.activeClause, R.frameInClause, regKey]; omega), hreg _ (by
        simp only [runRegs, peakRegs, List.mem_append, List.mem_map, List.mem_range, List.mem_cons, List.not_mem_nil, or_false, not_or, not_exists,
          not_and, R.width, R.preloadState, R.runState, R.activeHalf, R.activeClause, R.frameInClause, R.variantPorts, R.clausePeakW, regKey]
        exact ⟨by omega, fun x _ => by omega⟩)]
      exact hw p hp]
  obtain ⟨rg'', hm⟩ : ∃ rg, ((z.setReg R.activeClause r.slot).setReg R.variantPorts 0).markFrame
    = { (z.setReg R.activeClause r.slot).setReg R.variantPorts 0 with regions := rg } := ⟨_, markFrame_regions _⟩
  have hall (k : Nat) : ((z.setReg R.activeClause r.slot).setReg R.variantPorts 0).markFrame.reg k
      = if k = R.variantPorts then 0 else if k = R.activeClause then r.slot else z.reg k := by
    rw [hm]
    exact ((reg_setReg (z.setReg R.activeClause r.slot) R.variantPorts 0 k)).trans (by rw [reg_setReg])
  have hend : ((z.setReg R.activeClause r.slot).setReg R.variantPorts 0).markFrame.place = z.place
      ∧ ((z.setReg R.activeClause r.slot).setReg R.variantPorts 0).markFrame.run = z.run
      ∧ ((z.setReg R.activeClause r.slot).setReg R.variantPorts 0).markFrame.sched = z.sched := by
    rw [hm]
    exact ⟨place_eq rfl rfl rfl rfl, rfl, rfl⟩
  clear hm
  refine ⟨hend.1.trans (hzplace.trans hxplace), ?_, ?_, ?_, hend.2.2.trans (hzsched.trans hxsched), fun k hk => ?_,
    hend.2.1.trans (hzrun.trans hxrun), fun d hd => ?_⟩
  · rw [hall, if_neg (by decide), if_neg (by decide), hz (by decide), hstate]
  · rw [hall, if_neg (by decide), if_neg (by decide), hz (by decide), hactive]
  · rw [hall, if_neg (by decide), if_pos rfl]
  · have hk' := hk
    simp only [runRegs, List.mem_append, List.mem_cons, List.not_mem_nil, or_false, not_or] at hk'
    obtain ⟨⟨-, -, -, h4, h5, h6⟩, -⟩ := hk'
    rw [hall, if_neg h6, if_neg h4, hz ⟨h4, h5⟩, hreg k hk]
  · obtain ⟨h1, h2, h3, -, -⟩ := freshCore_begins x d (BitVec.ofNat 64 (s.reg R.firstStep)) r.entry []
    rw [hcore d]
    have hset : ((z.setReg R.activeClause r.slot).setReg R.variantPorts 0).core d = z.core d := rfl
    rw [hset, hcores d hd]
    exact ⟨h2, h1, h3⟩

end Sys2Proof.Machine
end

section
/-! The frame boundaries' effects put together (R201 to R207, R272, R492, R493, R538, R546, R555). -/

namespace Sys2Proof.Machine

/-! ## Copies and wraps (R204, R272) -/

theorem half_setHalf (s : State) {h : Nat} (hh : h < 2) (set : Nat) (l : List Clause) :
    (s.setHalf h set l).half h = l ∧ (s.setHalf h set l).half (1 - h) = s.half (1 - h) ∧ (s.setHalf h set l).halfSet = s.halfSet.set h set
      ∧ ∀ k, (s.setHalf h set l).reg k = s.reg k := by
  obtain rfl | rfl : h = 0 ∨ h = 1 := by omega
  · exact ⟨rfl, rfl, rfl, fun _ => rfl⟩
  · exact ⟨rfl, rfl, rfl, fun _ => rfl⟩

theorem clearHalfPeaks_keeps (s : State) (h : Nat) : (∃ rg ip, s.clearHalfPeaks h = { s with regs := rg, idlePeaks := ip })
    ∧ ∀ k, k ∉ peakRegs → (s.clearHalfPeaks h).reg k = s.reg k := by
  unfold State.clearHalfPeaks
  split
  · exact ⟨⟨_, _, setPeaks_regs s []⟩, fun k hk => reg_of_aside (aside_setPeaks hk s [])⟩
  · exact ⟨⟨_, _, rfl⟩, fun _ _ => rfl⟩

/-- A running job needs no further copy. -/
theorem nextCopy_running {s : State} (hrun : s.reg R.runState = 0) (hjob : s.reg R.jobState = 2) : s.nextCopy = s := by
  unfold State.nextCopy
  split
  · next h _ => rw [hrun] at h; omega
  · rfl
  · split
    · next h _ => rw [hjob] at h; omega
    · next h _ => rw [hjob] at h; omega
    · rfl

theorem exec_clauseCopyComplete {s : State} {c : CopyJob} {i : Image} (hc : s.copy = some c) (hi : s.image = some i) (hjob : s.reg R.jobState = 2)
    (hrun : s.reg R.runState = 0) (hh : c.half < 2) : ∃ t, exec .clauseCopyComplete s = .next t ∧ t.copy = none ∧ t.half c.half = i.setOf c.set
      ∧ t.half (1 - c.half) = s.half (1 - c.half) ∧ t.halfSet = s.halfSet.set c.half c.set
      ∧ t.reg R.preloadState = if c.half = 1 - s.reg R.activeHalf then 2 else 0 := by
  obtain ⟨h1, h2, h3, h4⟩ := half_setHalf s hh c.set (i.setOf c.set)
  obtain ⟨x, hx⟩ : ∃ x, x = ({ s.setHalf c.half c.set (i.setOf c.set) with copy := none } : State) := ⟨_, rfl⟩
  have hkeep : x.copy = none ∧ x.half c.half = i.setOf c.set ∧ x.half (1 - c.half) = s.half (1 - c.half) ∧ x.halfSet = s.halfSet.set c.half c.set
      ∧ ∀ k, x.reg k = s.reg k := by
    rw [hx]
    exact ⟨rfl, h1, h2, h3, h4⟩
  have hexec : exec .clauseCopyComplete s
      = .next (((x.setReg R.preloadState (if c.half = x.idleHalf then 2 else 0)).clearHalfPeaks c.half).nextCopy) := by
    rw [hx]
    show execClauseCopyComplete s = _
    unfold execClauseCopyComplete
    rw [hc, hi]
  clear hx
  obtain ⟨hxcopy, hxhalf, hxother, hxset, hxreg⟩ := hkeep
  have hidle : x.idleHalf = 1 - s.reg R.activeHalf := by rw [State.idleHalf, hxreg]
  rw [hidle] at hexec
  generalize (if c.half = 1 - s.reg R.activeHalf then 2 else 0) = v at *
  obtain ⟨⟨rg, ip, hp⟩, hpreg⟩ := clearHalfPeaks_keeps (x.setReg R.preloadState v) c.half
  have hreg {k : Nat} (hk : k ∉ peakRegs) : ((x.setReg R.preloadState v).clearHalfPeaks c.half).reg k = if k = R.preloadState then v else s.reg k := by
    rw [hpreg k hk, reg_setReg, hxreg]
  rw [nextCopy_running ((hreg (by decide)).trans ((if_neg (by decide)).trans hrun)) ((hreg (by decide)).trans ((if_neg (by decide)).trans hjob))]
    at hexec
  refine ⟨_, hexec, ?_, ?_, ?_, ?_, (hreg (by decide)).trans (if_pos rfl)⟩
  all_goals rw [hp]
  · exact hxcopy
  · exact hxhalf
  · exact hxother
  · exact hxset

theorem exec_wrapEvent {s : State} (h : 0 < s.wrapDue) : exec .wrapEvent s
    = .next (({ s with wrapDue := s.wrapDue - 1 } : State).setReg R.wrapCount ((s.reg R.wrapCount + 1) % 2 ^ 32)) := by
  show execWrapEvent s = _
  unfold execWrapEvent
  rw [if_pos h]
  rfl

/-! ## Boundaries -/

theorem reg_begun (s : State) (k : Nat) : s.begun.reg k = s.reg k := rfl

theorem plays_begun {s : State} {i : Image} (h : s.Plays i) : s.begun.Plays i := h.of_regs rfl fun k _ => reg_begun s k

theorem running_begun {s : State} {i : Image} (h : s.Running i) : s.begun.Running i :=
  ⟨plays_begun h.plays, h.job, h.record, h.sched⟩

/-- What FRAME_BOUNDARY takes a part to. -/
def State.Boundary (s : State) (P : State → Prop) : Prop :=
  ∃ t, exec .frameBoundary s = .next t ∧ t.frame = (s.frame + 1) % 2 ^ 48 ∧ t.slot = 0 ∧ t.sram = s.sram ∧ P t

section
variable {s : State} {i : Image} {P : State → Prop} (ha : s.awake = true) (hc : s.Calm) (hi : s.image = some i)
include ha hc hi

theorem boundary_running (hjob : s.reg R.jobState = 2) (h : (s.begun.runningFrame i).place = s.begun.place ∧ P (s.begun.runningFrame i)) :
    s.Boundary P := by
  have hframe : s.begun.jobFrame = s.begun.runningFrame i := by
    have hi' : s.begun.image = some i := hi
    unfold State.jobFrame
    rw [hi', reg_begun, hjob]
    rfl
  rw [← hframe] at h
  exact boundary_of ha hc h

theorem boundary_starting (hjob : s.reg R.jobState = 1) (hjoin : s.joinWait = none) (hstart : s.reg R.startFrame ≤ (s.frame + 1) % 2 ^ 48)
    (h : (s.begun.firstFrame i).place = s.begun.place ∧ P (s.begun.firstFrame i)) : s.Boundary P := by
  have hframe : s.begun.jobFrame = s.begun.firstFrame i := by
    have hi' : s.begun.image = some i := hi
    have hjoin' : s.begun.joinWait = none := hjoin
    have hstart' : ¬ s.begun.frame < s.reg R.startFrame := Nat.not_lt.mpr hstart
    unfold State.jobFrame
    rw [hi', reg_begun, hjob]
    show s.begun.startingFrame i = _
    unfold State.startingFrame
    rw [reg_begun, if_neg hstart', hjoin']
  rw [← hframe] at h
  exact boundary_of ha hc h

theorem boundary_quenched {q : QRec} (hjob : s.reg R.jobState = 3) (hq : s.qrec = some q) (hrun : s.run = none)
    (h : (s.begun.quenchedFrame i q).place = s.begun.place ∧ P (s.begun.quenchedFrame i q)) : s.Boundary P := by
  have hrunFrame : s.begun.runFrame i = s.begun := by
    have hrun' : s.begun.run = none := hrun
    unfold State.runFrame
    rw [hrun']
  have hframe : s.begun.jobFrame = s.begun.quenchedFrame i q := by
    have hi' : s.begun.image = some i := hi
    have hq' : s.begun.qrec = some q := hq
    unfold State.jobFrame
    rw [hi', reg_begun, hjob, hq']
    exact congrArg (fun x : State => x.quenchedFrame i q) hrunFrame
  rw [← hframe] at h
  exact boundary_of ha hc h

theorem boundary_idle (hjob : s.reg R.jobState = 0) (h : (s.begun.runFrame i).place = s.begun.place ∧ P (s.begun.runFrame i)) : s.Boundary P := by
  have hframe : s.begun.jobFrame = s.begun.runFrame i := by
    have hi' : s.begun.image = some i := hi
    unfold State.jobFrame
    rw [hi', reg_begun, hjob]
    rfl
  rw [← hframe] at h
  exact boundary_of ha hc h

end

end Sys2Proof.Machine
end

section
/-! A running job's repeats, a replay and a recovery run at a boundary, and the boundaries put together (R203, R546, R555). -/

namespace Sys2Proof.Machine

/-! ## Repeats (R203) -/

section
variable {s : State} {i : Image} (h : s.Running i) (hleft : s.runLeft = 1) (hmark : s.runMark = false)
include h hleft hmark

/-- A REPEAT of no walks is passed over. -/
theorem running_repeat_skip (hin : s.Inside) (hop : seqOp (s.entryAt i) = 2) (hk : seqCount (s.entryAt i) = 0)
    (hout : ∀ x ∈ s.reps.head?, x.2.1 ≠ s.seqPos + 1 + seqArg (s.entryAt i))
    (hnext : seqOp (i.seq.getD (s.seqPos + 1 + seqArg (s.entryAt i)) 0) = 1) :
    (s.runningFrame i).place = s.place ∧ (s.runningFrame i).Takes i (s.seqPos + 1 + seqArg (s.entryAt i)) ∧ (s.runningFrame i).reps = s.reps :=
  running_moves h hleft hmark (goesOn_repeat_skip (s := s.pastFrame) hin hop hk) hout hnext

/-- The body of a REPEAT begins. -/
theorem running_repeat (hin : s.Inside) (hop : seqOp (s.entryAt i) = 2) (hk : seqCount (s.entryAt i) ≠ 0)
    (hbody : s.seqPos + 1 < s.seqPos + 1 + seqArg (s.entryAt i)) (hnext : seqOp (i.seq.getD (s.seqPos + 1) 0) = 1) :
    (s.runningFrame i).place = s.place ∧ (s.runningFrame i).Takes i (s.seqPos + 1) ∧ (s.runningFrame i).reps
      = (s.seqPos + 1, s.seqPos + 1 + seqArg (s.entryAt i), walked (seqCount (s.entryAt i))) :: s.reps :=
  running_moves h hleft hmark (goesOn_repeat (s := s.pastFrame) hin hop hk) (by simpa using by omega) hnext

/-- It is walked again. -/
theorem running_body_again {lo hi k : Nat} {l : List (Nat × Nat × Nat)} (hr : s.reps = (lo, hi, k) :: l) (hend : s.seqPos = hi) (hlt : lo < hi)
    (hk : k ≠ 0) (hnext : seqOp (i.seq.getD lo 0) = 1) : (s.runningFrame i).place = s.place ∧ (s.runningFrame i).Takes i lo
      ∧ (s.runningFrame i).reps = (lo, hi, walked k) :: l :=
  running_moves h hleft hmark (goesOn_body_again (s := s.pastFrame) hr hend hk) (by simpa using by omega) hnext

/-- Its last walk is over. -/
theorem running_body_ends {lo hi : Nat} {l : List (Nat × Nat × Nat)} (hr : s.reps = (lo, hi, 0) :: l) (hend : s.seqPos = hi)
    (hout : ∀ x ∈ l.head?, x.2.1 ≠ hi) (hnext : seqOp (i.seq.getD hi 0) = 1) : (s.runningFrame i).place = s.place
      ∧ (s.runningFrame i).Takes i hi ∧ (s.runningFrame i).reps = l := by
  subst hend
  exact running_moves h hleft hmark (goesOn_body_ends (s := s.pastFrame) hr rfl) hout hnext

end

/-! ## Replays and recovery runs -/

/-- A step run again from the restart point of its record. -/
theorem quenched_replays {s : State} {i : Image} {q : QRec} {r : Restart} (hp : s.Plays i) (hjob : s.reg R.jobState = 3) (hrec : s.qrec = some q)
    (hend : q.isEnd = false) (hq : q.p ≤ s.frame) (hr : s.restartOf q.s = some r) (hready : s.ready r = true)
    (hout : ∀ x ∈ r.reps.head?, x.2.1 ≠ r.pos) (hop : seqOp (i.seq.getD r.pos 0) = 1) :
    (s.quenchedFrame i q).place = s.place ∧ (s.quenchedFrame i q).Takes i r.pos ∧ (s.quenchedFrame i q).qrec = none
      ∧ (s.quenchedFrame i q).reg R.fabricStepCounter = q.s.toNat ∧ (s.quenchedFrame i q).reg R.activeHalf = r.active
      ∧ (s.quenchedFrame i q).frameIndex = r.frame ∧ (s.quenchedFrame i q).reg R.replaysJob = (s.reg R.replaysJob + 1) % 2 ^ 32
      ∧ (s.quenchedFrame i q).logged 0x7070 0xFF noDetail ∧ (s.quenchedFrame i q).replaying = some (q.s, q.a)
      ∧ ∀ c ∈ s.jobCores, ((s.quenchedFrame i q).core c).step = q.s ∧ ((s.quenchedFrame i q).core c).v = []
        ∧ ((s.quenchedFrame i q).core c).a = [] ∧ ∀ x, (r.cores.find? fun y => y.1 = c) = some x →
          ((s.quenchedFrame i q).core c).pc = x.2.1 ∧ ((s.quenchedFrame i q).core c).loops = x.2.2 := by
  have hstep := step_of_restartOf hr
  have hp' : (s.pushStep q.s).Plays i := ⟨hp.image, hp.legacy, hp.runState, hp.width, hp.variants⟩
  rw [quenchedFrame_ready (i := i) hp.runState hjob hrec hend hq hr hready]
  obtain ⟨y, hy, ht, hpos, hcore⟩ := replayFrom_takes q.a hp' hout hop
  generalize (s.pushStep q.s).replayFrom i r q.a = t at *
  have hthread {α : Type} (f : Thread → α) := congrArg f hy.thread
  refine ⟨ht.place.trans (hthread Thread.place), hpos ▸ ht.takes, ht.qrec.trans (hthread Thread.qrec),
    (ht.reg _ (by decide)).trans (hy.counter.trans (by rw [hstep])), (ht.reg _ (by decide)).trans hy.half,
    ht.frameIndex.trans (hthread Thread.frameIndex), (ht.reg _ (by decide)).trans hy.replays, ?_,
    (ht.replaying.trans (hthread Thread.replaying)).trans (by rw [hstep]), fun c hc => ?_⟩
  · have hlog := hy.logged
    unfold State.logged at hlog ⊢
    rwa [← ht.log] at hlog
  · obtain ⟨h1, h2, h3, h4, h5⟩ := hy.cores c hc
    rw [hcore c]
    refine ⟨h1.trans hstep, h2, h3, fun x hx => ?_⟩
    have hplace : r.placeOf c = x.2 := by
      unfold Restart.placeOf
      rw [hx]
    exact ⟨h4.trans (congrArg Prod.fst hplace), h5.trans (congrArg Prod.snd hplace)⟩

/-- A step quenched anew. -/
theorem quenched_again {s : State} {i : Image} {q : QRec} {r : Restart} (hrun : s.reg R.runState = 0) (hjob : s.reg R.jobState = 3)
    (hrec : s.qrec = some q) (hend : q.isEnd = false) (hq : q.p ≤ s.frame) (hr : s.restartOf q.s = some r) (hready : s.ready r = false)
    (hlim : q.a + 1 < s.reg R.replayLimit) : (s.quenchedFrame i q).place = s.place ∧ (s.quenchedFrame i q).reg R.jobState = 3
      ∧ (s.quenchedFrame i q).logged 0x7076 0xFF noDetail
      ∧ ∃ u, (s.quenchedFrame i q).qrec = some u ∧ u.s = q.s ∧ u.a = q.a + 1 ∧ u.cause = q.cause := by
  obtain ⟨x, hx, hplace, hxjob, hxrec, hxlim⟩ := quenchedFrame_unready (i := i) hrun hjob hrec hend hq hr hready
  obtain ⟨h1, h2⟩ := requench_next hxjob hxrec (hxlim.symm ▸ hlim)
  rw [hx]
  exact ⟨h1.trans hplace, h2⟩

/-- A recovery run's end at a boundary. -/
theorem runFrame_ends {s : State} {r : RunRec} (i : Image) (hrun : s.run = some r) (hstate : s.reg R.runState = 2) (hjob : s.reg R.jobState = 0)
    (hover : s.runFailed = true ∨ r.left ≤ 1) : (s.runFrame i).place = s.place ∧ (s.runFrame i).run = none ∧ (s.runFrame i).sched = false
      ∧ (s.runFrame i).reg R.jobState = 0 ∧ (∀ q < 16, ((s.runFrame i).region q).running = false)
      ∧ if s.runFailed = true then (s.runFrame i).reg R.runState = 4
        else (s.runFrame i).reg R.runState = 3 ∧ (s.runFrame i).logged 0x7077 0xFF noDetail := by
  rw [runFrame_running i hrun hstate]
  by_cases hf : s.runFailed = true
  · obtain ⟨⟨h1, h2, h3, h4⟩, ⟨h5, h6⟩, -⟩ := endRun_stops s r 4
    rw [if_pos hf, if_pos hf]
    exact ⟨h1, h3, h5, h4.trans hjob, h6, h2⟩
  · obtain ⟨⟨h1, h2, h3, h4⟩, ⟨h5, h6⟩, h7⟩ := endRun_stops s r 3
    rw [if_neg hf, if_neg hf, if_pos (hover.resolve_left hf)]
    exact ⟨h1, h3, h5, h4.trans hjob, h6, h2, h7 rfl⟩

/-- Settles O47: each boundary's frame is what the job, the record or the run of the frame does, followed to the next RUN, to the quench or to the
end. -/
theorem frameBoundaries : Obligations.FrameBoundaries := by
  unfold Obligations.FrameBoundaries
  intro s ha n nt calm boundary forever
  refine ⟨fun hc hi => ?_, fun i hc hi hleg hrs hrun hw _ _ hvar => ?_, fun i r hc hi hjob hr hw _ => ?_,
    fun c i hcopy hi hjob hrun hh _ => exec_clauseCopyComplete hcopy hi hjob hrun hh, exec_wrapEvent⟩
  · have hframe : s.begun.jobFrame = s.begun := by
      have hi' : s.begun.image = none := hi
      unfold State.jobFrame
      rw [hi']
    exact (exec_frameBoundary ha hc hframe rfl).1
  · have hp : s.begun.Plays i := ⟨hi, hleg, hrs, hw, hvar⟩
    intro entry outside takes
    refine ⟨fun hjob hrec hsched => ?_, fun hjob hjoin hstart hrec => ?_, fun q hjob hrec hstop hmark hball => ?_,
      fun q r hjob hrec hend hq hr => ?_⟩
    · have h : s.begun.Running i := ⟨hp, hjob, hrec, hsched⟩
      have hbd {P : State → Prop} (h : (s.begun.runningFrame i).place = s.begun.place ∧ P (s.begun.runningFrame i)) : boundary P :=
        boundary_running ha hc hi hjob h
      refine ⟨fun hleft hact => hbd (running_counts h hleft hact), fun hleft hmark => ⟨fun hin => ⟨fun hop => hbd (running_run h hleft hmark hin hop),
        fun hop hball => hbd ?_, fun hop => ?_, fun hnext => ⟨fun hop hop1 => ⟨fun hcopy => hbd ?_, fun hcopy hfirst => hbd ?_⟩,
          fun hop => ⟨fun hcopy hop1 => hbd ?_, fun hcopy hfirst => hbd ?_⟩⟩⟩, fun lo hi k l hreps hend hlt => ⟨fun hk hop => hbd ?_, fun hk hout hop => hbd ?_⟩⟩,
        fun hleft hmark hin hop huses hland hfirst hrep => ⟨fun hagree hlim => hbd ?_, fun hagree hlim hball => hbd ?_, fun hagree hlim => hbd ?_⟩⟩
      · have he := running_end h hleft hmark hin hop hball
        exact ⟨he.place, he.job, he.pending, he.sched, he.uses, he.regions⟩
      · exact ⟨fun hk hout hop1 => hbd (running_repeat_skip h hleft hmark hin hop hk hout hop1),
          fun hk hlt hop1 => hbd (running_repeat h hleft hmark hin hop hk hlt hop1)⟩
      · exact running_preload h hleft hmark hnext hop1 hin hop hcopy
      · exact running_preload_busy h hleft hmark hnext hop1 hin hop hcopy hfirst
      · exact running_swap h hleft hmark hnext hop1 hin hop hcopy
      · exact running_swap_busy h hleft hmark hin hop hcopy hfirst
      · exact running_body_again h hleft hmark hreps hend hlt hk hop
      · subst hk
        exact running_body_ends h hleft hmark hreps hend hout hop
      · exact running_mark h hleft hmark hin hop huses hland hrep ((stepsAgree_counted s.begun).mpr hagree) hlim
      · exact running_limit h hleft hmark hin hop huses hland hrep ((stepsAgree_counted s.begun).mpr hagree) hlim hball
      · exact running_mismatch h hleft hmark hin hop huses hland hfirst hrep (mt (stepsAgree_counted s.begun).mp hagree) hlim
    · have hbd {P : State → Prop} (h : (s.begun.firstFrame i).place = s.begun.place ∧ P (s.begun.firstFrame i)) : boundary P :=
        boundary_starting ha hc hi hjob hjoin hstart h
      refine ⟨fun hh hramp hslow hset _ hpos hreps hop => hbd ?_, fun hlate => hbd ?_⟩
      · have hlate : ¬ s.begun.late := by
          rintro (hx | hx)
          · exact absurd hh (Nat.not_le.mpr hx)
          · exact absurd (hx.symm.trans hramp) (by decide)
        exact firstFrame_runs hp hlate hslow hset hpos hreps hop
      · exact firstFrame_late hrs hrec hlate
    · have hbd {P : State → Prop} (h : (s.begun.runningFrame i).place = s.begun.place ∧ P (s.begun.runningFrame i)) : boundary P :=
        boundary_running ha hc hi hjob h
      have hpast : s.begun.pastFrame.reg R.ballastEnable = 1 := (reg_pastFrame s.begun (by decide)).trans hball
      refine ⟨fun hend => hbd ?_, fun hend => hbd ?_⟩ <;> rw [runningFrame_stops (s := s.begun) hrec hstop hmark]
      · have hx := quenchNow_quenched (s := s.begun.pastFrame) hend hpast
        exact ⟨hx.place.trans (place_pastFrame s.begun), hx.job, hx.epoch, hx.sched, hx.uses, hx.record, hx.regions⟩
      · obtain ⟨h1, h2⟩ := quenchNow_ends (s := s.begun.pastFrame) hend hpast
        exact ⟨h1.trans (place_pastFrame s.begun), h2⟩
    · have hbd {P : State → Prop} (h : (s.begun.quenchedFrame i q).place = s.begun.place ∧ P (s.begun.quenchedFrame i q)) : boundary P :=
        boundary_quenched ha hc hi hjob hrec hrun h
      refine ⟨fun hready _ hout hop _ => hbd ?_, fun hready hlim => hbd ?_⟩
      · exact quenched_replays hp hjob hrec hend hq hr hready hout hop
      · exact quenched_again (s := s.begun) hrs hjob hrec hend hq hr hready hlim
  · have hbd {P : State → Prop} (h : (s.begun.runFrame i).place = s.begun.place ∧ P (s.begun.runFrame i)) : boundary P :=
      boundary_idle ha hc hi hjob h
    refine ⟨fun hstate hframe => ⟨fun (hready : s.begun.runReady i r = true) hclause => hbd ?_, fun (hready : s.begun.runReady i r = false) => hbd ?_⟩,
      fun hstate => ⟨fun hok hleft => hbd (runFrame_counts (s := s.begun) i hr hstate hw hok hleft),
        fun hover => hbd (runFrame_ends (s := s.begun) i hr hstate hjob hover)⟩⟩
    · obtain ⟨c, hclause⟩ := hclause
      obtain ⟨h1, h2, h3, h4, h5, h6, h7, h8⟩ := beginRun_begins (s := s.begun) (r := r) hw hclause
      rw [runFrame_waiting (s := s.begun) i hr hstate hframe, if_pos hready]
      exact ⟨h1, h2, h3, h4, h5, h6 _ (by decide), (h6 _ (by decide)).trans hjob,
        fun d hd => by rw [h7, Option.some.inj (hclause.symm.trans hd)], h8⟩
    · have hx := endRun_failed s.begun r
      rw [runFrame_waiting (s := s.begun) i hr hstate hframe, if_neg (by simp [hready])]
      exact ⟨hx.place, hx.state, hx.run, hx.job.trans hjob⟩

end Sys2Proof.Machine
end

section
/-! A transmitted flit read back: its payload and its header's fields (R224, R225, R233, R235, R248). -/

namespace Sys2Proof.Machine

/-! ## A sealed flit -/

/-- A flit's header and payload joined and sealed. -/
def sealedFlit (lo : Nat) (v : Vec) : BitVec 2176 := withCrc (BitVec.ofNat 2176 lo ||| (v.setWidth 2176 <<< 128))

theorem crcOk_sealed (lo : Nat) (v : Vec) : crcOk (sealedFlit lo v) = true := crcOk_withCrc _

theorem payload_sealed {lo : Nat} (hlo : lo < 2 ^ 128) (v : Vec) : flitPayload (sealedFlit lo v) = v := by
  unfold sealedFlit
  rw [flitPayload_withCrc]
  apply BitVec.eq_of_getLsbD_eq
  intro i hi
  have hl : Nat.testBit lo (128 + i) = false := Nat.testBit_eq_false_of_lt (hlo.trans_le (Nat.pow_le_pow_right (by decide) (by omega)))
  have hv (j : Nat) (hj : j = 128 + i) : (BitVec.setWidth 2176 v <<< 128).getLsbD j = v.getLsbD i := by
    subst hj
    rw [BitVec.getLsbD_shiftLeft, BitVec.getLsbD_setWidth, Nat.add_sub_cancel_left, decide_eq_true (by omega : 128 + i < 2176),
      decide_eq_false (by omega : ¬ 128 + i < 128), decide_eq_true (by omega : i < 2176)]
    simp
  unfold flitPayload
  rw [BitVec.getLsbD_setWidth, decide_eq_true hi, BitVec.getLsbD_ushiftRight, BitVec.getLsbD_or, hv _ rfl, BitVec.getLsbD_ofNat, hl]
  simp

theorem fh_sealed (lo : Nat) (v : Vec) {a : Nat} (b : Nat) (ha : a < 96) : fh (sealedFlit lo v) a b = bits lo a b := by
  unfold sealedFlit
  rw [fh_withCrc _ _ _ ha]
  apply Nat.eq_of_testBit_eq
  intro i
  simp only [fh, testBit_bits]
  by_cases hb : i < a + 1 - b
  · have hlo : (BitVec.ofNat 2176 lo).getLsbD (b + i) = lo.testBit (b + i) := by
      rw [BitVec.getLsbD_ofNat, decide_eq_true (by omega : b + i < 2176), Bool.true_and]
    have hhi : (BitVec.setWidth 2176 v <<< 128).getLsbD (b + i) = false := by
      rw [BitVec.getLsbD_shiftLeft, decide_eq_true (by omega : b + i < 128), Bool.not_true, Bool.and_false, Bool.false_and]
    have hor : (BitVec.ofNat 2176 lo ||| BitVec.setWidth 2176 v <<< 128).getLsbD (b + i) = lo.testBit (b + i) := by
      rw [BitVec.getLsbD_or, hlo, hhi, Bool.or_false]
    exact congrArg (decide (i < a + 1 - b) && ·) hor
  · simp [hb]

/-! ## The header -/

/-- The header's bits as the port transmits them (R224). -/
def Port.header (x : Port) (h : FlitHdr) : Nat :=
  h.type + h.vc * 2 ^ 4 + h.period.toNat * 2 ^ 7 + h.seq.toNat * 2 ^ 8 + x.control x.creditPick
    + h.txSlot % 4096 * 2 ^ 34 + h.frameLo % 16 * 2 ^ 46 + h.late.toNat * 2 ^ 70

theorem flit_eq (x : Port) (h : FlitHdr) (v : Vec) : x.flit h v = sealedFlit (x.header h) v := rfl

theorem creditPick_lt (x : Port) : x.creditPick < 14 := by
  unfold Port.creditPick
  dsimp only
  cases hf : ((List.range 14).map fun i => (x.rotation + i) % 14).find? fun i => Tab.get 0 x.grantOut i ≠ Tab.get 0 x.returned i with
  | none => exact Nat.mod_lt _ (by decide)
  | some i =>
    obtain ⟨j, -, rfl⟩ := List.mem_map.mp (List.mem_of_find?_eq_some hf)
    exact Nat.mod_lt _ (by decide)

/-- The control bits in their fields: an acknowledgement, the gap, a count, and which count it is. -/
theorem control_cases (x : Port) : ∃ a g n c d, a < 4096 ∧ g < 2 ∧ n < 65536 ∧ c < 8 ∧ d < 2
    ∧ x.control x.creditPick = a * 2 ^ 20 + 2 ^ 32 + g * 2 ^ 33 + n * 2 ^ 50 + c * 2 ^ 66 + d * 2 ^ 69 := by
  have hi := creditPick_lt x
  refine ⟨(x.rxE - 1).toNat, x.gap.toNat, (Tab.get 0 x.grantOut x.creditPick).toNat, x.creditPick / 2 + 1, x.creditPick % 2, BitVec.isLt _,
    ?_, BitVec.isLt _, by omega, by omega, rfl⟩
  cases x.gap <;> decide

theorem header_fields (x : Port) {h : FlitHdr} (ht : h.type < 16) (hv : h.vc < 8) : x.header h < 2 ^ 128 ∧ bits (x.header h) 3 0 = h.type
    ∧ bits (x.header h) 6 4 = h.vc ∧ bits (x.header h) 7 7 = h.period.toNat ∧ bits (x.header h) 19 8 = h.seq.toNat
    ∧ bits (x.header h) 45 34 = h.txSlot % 4096 ∧ bits (x.header h) 49 46 = h.frameLo % 16 ∧ bits (x.header h) 70 70 = h.late.toNat := by
  obtain ⟨a, g, n, c, d, ha, hg, hn, hc, hd, hctl⟩ := control_cases x
  have hp : h.period.toNat < 2 := by cases h.period <;> decide
  have hl : h.late.toNat < 2 := by cases h.late <;> decide
  have hs : h.seq.toNat < 4096 := BitVec.isLt _
  unfold Port.header
  rw [hctl]
  simp only [bits]
  generalize h.period.toNat = p at *
  generalize h.late.toNat = l at *
  generalize h.seq.toNat = s at *
  generalize h.txSlot = u
  generalize h.frameLo = w
  generalize h.type = t at *
  generalize h.vc = v at *
  refine ⟨?_, ?_, ?_, ?_, ?_, ?_, ?_, ?_⟩ <;> omega

/-! ## Flits sent -/

/-- What a port's slot stream changes of it. -/
theorem feed_keeps (x : Port) (pos : Nat) (l : List Byte) (hdr : Nat → Nat) : ∃ w st, x.feed pos l hdr = { x with word := w, stream := st } := by
  unfold Port.feed
  split
  dsimp only
  split <;> exact ⟨_, _, rfl⟩

/-- `t` is `s` but for port `p`. -/
structure State.PortOnly (s : State) (p : Nat) (t : State) : Prop where
  rest : t = { s with ports := t.ports }
  other : ∀ q, q ≠ p → t.port q = s.port q

theorem State.PortOnly.refl (s : State) (p : Nat) : s.PortOnly p s := ⟨rfl, fun _ _ => rfl⟩

theorem State.PortOnly.trans {s t u : State} {p : Nat} (h : s.PortOnly p t) (h' : t.PortOnly p u) : s.PortOnly p u := by
  refine ⟨?_, fun q hq => (h'.other q hq).trans (h.other q hq)⟩
  rw [h'.rest, h.rest]

theorem portOnly_modPort (s : State) (p : Nat) (f : Port → Port) : s.PortOnly p (s.modPort p f) :=
  ⟨rfl, fun _ hq => (port_setPort _ _ _ _).trans (if_neg hq)⟩

theorem port_modPort (s : State) (p : Nat) (f : Port → Port) : (s.modPort p f).port p = f (s.port p) :=
  (port_setPort _ _ _ _).trans (if_pos rfl)

/-- A flit on a port's wire and in its slot stream. -/
theorem onWire_port (s : State) (p : Nat) (f : BitVec 2176) : s.PortOnly p (s.onWire p f) ∧ ∃ w st, (s.onWire p f).port p
    = { s.port p with word := w, stream := st, wire := f, sentAt := some s.now } := by
  obtain ⟨w, st, h⟩ := feed_keeps (s.port p) (275 * (s.slot / slotStride (s.reg (R.width p)))) (slotBytes s.slot s.frame f)
    (fun i => headerWord i s.frame (s.switchNext p))
  refine ⟨portOnly_modPort _ _ _, w, st, ?_⟩
  rw [State.onWire, port_modPort, h]

/-- The header returns a credit count. -/
theorem putWire_port (s : State) (p : Nat) (f : BitVec 2176) : s.PortOnly p (s.putWire p f) ∧ ∃ w st rot ret, (s.putWire p f).port p
    = { s.port p with word := w, stream := st, wire := f, sentAt := some s.now, rotation := rot, returned := ret } := by
  obtain ⟨hp, w, st, h⟩ := onWire_port s p f
  refine ⟨hp.trans (portOnly_modPort _ _ _), w, st, ?_⟩
  rw [State.putWire, port_modPort, h]
  exact ⟨_, _, rfl⟩

/-- A flit sent for the first time (R233, R237). -/
theorem sendNew_port (s : State) (p : Nat) (h : FlitHdr) (v : Vec) : s.PortOnly p (s.sendNew p h v) ∧ ∃ w st rot ret tm ack f,
    f = sealedFlit ((s.port p).header { h with seq := (s.port p).seqTx }) v ∧ (s.sendNew p h v).port p
      = { s.port p with word := w, stream := st, wire := f, sentAt := some s.now, rotation := rot, returned := ret
                        replay := (s.port p).replay ++ [⟨(s.port p).seqTx, f⟩], seqTx := (s.port p).seqTx + 1, timer := tm, ackAt := ack } := by
  obtain ⟨hp, w, st, rot, ret, hx⟩ := putWire_port s p (sealedFlit ((s.port p).header { h with seq := (s.port p).seqTx }) v)
  unfold State.sendNew
  dsimp only
  refine ⟨hp.trans (portOnly_modPort _ _ _), w, st, rot, ret, ?_⟩
  rw [port_modPort, flit_eq, hx]
  exact ⟨_, _, _, rfl, rfl⟩

end Sys2Proof.Machine
end

section
/-! The pending uses of the scheduled fabric one by one: deadlines, landings and forwards (R183 to R191). -/

namespace Sys2Proof.Machine

/-! ## Deadlines -/

/-- The first fault of a quiet state is in the log. -/
theorem logged_replay {s : State} (hs : s.quiet) {code : Nat} (hact : faultAct code = .replay) (hcore : code / 256 ≠ 0x10)
    (unit detail : Nat) : (s.raise code unit detail).logged code unit detail := by
  rw [raise_first hs hact hcore]
  obtain ⟨e, l, r, g, n, h, hcode, -, hunit, hdetail, -⟩ := logEntry_cases s code 1 unit detail
  obtain ⟨x, hx⟩ : ∃ x : State, x = { (s.logEntry code 1 unit detail).setReg R.lastFaultCause code with firstFault := true } := ⟨_, rfl⟩
  have hlog : x.log = l ++ [e] := by rw [hx, h]; rfl
  rw [← hx]
  exact ⟨e, (tells_originate x code false false).logged (by decide) hlog, hcode, hunit, hdetail⟩

/-- A use past its deadline, noted. -/
def State.missNoted (s : State) (u : FUse) : State := { s with uses := [{ u with late := true }] }.bump R.deadlineMisses 32

theorem missDeadlines_one {s : State} {u : FUse} (huses : s.uses = [u]) (hdue : u.deadline < s.now) (hlate : u.late = false) :
    s.missDeadlines = (s.missNoted u).raise 0x2010 (u.ports.head?.getD u.input) (fabDetail (u.slot % 4096) u.clause) := by
  simp [State.missDeadlines, State.missNoted, State.each, huses, hdue, hlate]

theorem missDeadlines_none {s : State} (huses : s.uses = []) : s.missDeadlines = s := by
  simp [State.missDeadlines, State.each, huses]

theorem exec_deadlineMiss {s : State} {u : FUse} (huses : s.uses = [u]) (hdue : u.deadline < s.now) (hlate : u.late = false) (hs : s.quiet) :
    ∃ t, exec .deadlineMiss s = .next t ∧ t.uses = [{ u with late := true }]
      ∧ t.reg R.deadlineMisses = (s.reg R.deadlineMisses + 1) % 2 ^ 32 ∧ t.reg R.lastFaultCause = 0x2010
      ∧ t.logged 0x2010 (u.ports.head?.getD u.input) (u.slot % 4096 + u.clause % 65536 * 4096) := by
  have hnoted : (s.missNoted u).uses = [{ u with late := true }] := rfl
  have hcount : (s.missNoted u).reg R.deadlineMisses = (s.reg R.deadlineMisses + 1) % 2 ^ 32 :=
    (reg_setReg _ _ _ _).trans (if_pos rfl)
  have hother {k : Nat} (hk : k ≠ R.deadlineMisses) : (s.missNoted u).reg k = s.reg k := (reg_setReg _ _ _ _).trans (if_neg hk)
  have hquiet : (s.missNoted u).quiet := by
    obtain ⟨hjob, hrec, hfirst, hrun⟩ := hs
    exact ⟨(hother (by decide)).trans hjob, hrec, hfirst, (hother (by decide)).trans_ne hrun⟩
  refine ⟨s.missDeadlines, rfl, ?_⟩
  rw [missDeadlines_one huses hdue hlate]
  generalize s.missNoted u = x at *
  have hfault := faulted_replay hquiet (code := 0x2010) (by decide) (by decide) (u.ports.head?.getD u.input) (fabDetail (u.slot % 4096) u.clause)
  have hlogged := logged_replay hquiet (code := 0x2010) (by decide) (by decide) (u.ports.head?.getD u.input) (fabDetail (u.slot % 4096) u.clause)
  have hdetail : fabDetail (u.slot % 4096) u.clause = u.slot % 4096 + u.clause % 65536 * 4096 := by simp [fabDetail]
  rw [hdetail] at hfault hlogged ⊢
  generalize x.raise 0x2010 _ _ = t at *
  refine ⟨?_, (hfault.reg _ (by decide)).trans hcount, hfault.cause, hlogged⟩
  obtain ⟨l, r, lo, g, n, q, e, j, a, rm, po, st, fn, seen, rfl⟩ := hfault.only
  exact hnoted

/-! ## A single use -/

theorem noteWait_reg (s : State) (u : FUse) : ∃ v, s.noteWait u = s ∨ s.noteWait u = s.setReg R.pendingWaitMax v := by
  unfold State.noteWait
  split
  · exact ⟨0, .inl rfl⟩
  · exact ⟨_, .inr rfl⟩

/-- Noting a wait changes registers alone. -/
theorem noteWait_keeps (s : State) (u : FUse) : ∃ rg, s.noteWait u = { s with regs := rg } := by
  obtain ⟨v, h | h⟩ := noteWait_reg s u
  · exact ⟨s.regs, h⟩
  · exact ⟨_, h⟩

theorem reg_noteWait (s : State) (u : FUse) {k : Nat} (hk : k ≠ R.pendingWaitMax) : (s.noteWait u).reg k = s.reg k := by
  obtain ⟨v, h | h⟩ := noteWait_reg s u
  · rw [h]
  · rw [h, reg_setReg, if_neg hk]

/-- The landing buffer without a use's flit. -/
def Port.freed (x : Port) (u : FUse) : Port :=
  { x with landing := x.landing.filter fun f => ¬ (f.txSlot = u.txSlot ∧ f.frameLo = u.frameLo) }

/-- The only use, done: it gives up its flit. -/
theorem putUse_done {s : State} {u v : FUse} (huses : s.uses = [u]) (hports : v.ports = []) (hland : v.land = none) :
    s.putUse u v = ({ s with uses := [] } : State).modPort v.input fun x => x.freed v := by
  have hone : ({ s with uses := s.uses.map fun x => if x = u then v else x } : State) = { s with uses := [v] } := by simp [huses]
  unfold State.putUse
  rw [hone]
  unfold State.settleUse
  rw [if_pos ⟨hports, by rw [hland]; rfl⟩]
  simp [Port.freed]

theorem mem_freed {x : Port} {u : FUse} {f : Landed} (h : f ∈ (x.freed u).landing) : ¬ (f.txSlot = u.txSlot ∧ f.frameLo = u.frameLo) := by
  simpa only [decide_eq_true_eq] using (List.mem_filter.mp h).2

/-- A flit that landed alone leaves the buffer empty. -/
theorem freed_one {x : Port} {u : FUse} {g : Landed} (h : x.landing = [g]) (hslot : g.txSlot = u.txSlot) (hframe : g.frameLo = u.frameLo) :
    (x.freed u).landing = [] := by
  simp [Port.freed, h, hslot, hframe]

theorem landTurn_one {s : State} {u : FUse} (huses : s.uses = [u]) (f : Landed) : s.landTurn u f = true := by
  have hself : landsBefore u u = false := by simp [landsBefore]
  simp [State.landTurn, huses, hself]

/-- The flit of a landing as it enters the spine bridge. -/
def Landed.intoBridge (f : Landed) (c st now : Nat) : BFlit := { core := c, stream := st, payload := f.payload, ready := now + 4 }

/-- A landing with nothing before it enters the spine bridge. -/
theorem tryLand_one {s : State} {u : FUse} {c st : Nat} {f : Landed} (huses : s.uses = [u]) (hports : u.ports = []) (hland : u.land = some (c, st))
    (hflit : s.flitFor u = some f) (hroom : s.bridgeRoom (c / 64) = true) : s.tryLand u
      = ({ (s.noteWait u).modRegion (c / 64) fun x => { x with spineIn := x.spineIn ++ [f.intoBridge c st s.now] } with uses := [] } : State).modPort
          u.input fun x => x.freed u := by
  have huses' : ((s.noteWait u).modRegion (c / 64) fun x => { x with spineIn := x.spineIn ++ [f.intoBridge c st s.now] }).uses = [u] := by
    obtain ⟨rg, h⟩ := noteWait_keeps s u
    rw [h]
    exact huses
  unfold State.tryLand
  rw [hland, hflit]
  dsimp only
  rw [if_pos ⟨landTurn_one huses f, hroom⟩]
  exact putUse_done (v := { u with land := none }) huses' hports rfl

/-- What a landing of a lone use leaves. -/
theorem tryLand_lands {s : State} {u : FUse} {c st : Nat} {f : Landed} (huses : s.uses = [u]) (hports : u.ports = []) (hland : u.land = some (c, st))
    (hflit : s.flitFor u = some f) (hroom : s.bridgeRoom (c / 64) = true) : ∃ rg rgs po, s.tryLand u
        = { s with regs := rg, regions := rgs, uses := [], ports := po }
      ∧ (s.tryLand u).region (c / 64) = { s.region (c / 64) with spineIn := (s.region (c / 64)).spineIn ++ [f.intoBridge c st s.now] }
      ∧ (s.tryLand u).port u.input = (s.port u.input).freed u ∧ ∀ k, k ≠ R.pendingWaitMax → (s.tryLand u).reg k = s.reg k := by
  rw [tryLand_one huses hports hland hflit hroom]
  obtain ⟨rg, h⟩ := noteWait_keeps s u
  have hreg (k : Nat) (hk : k ≠ R.pendingWaitMax) := reg_noteWait s u hk
  rw [h] at hreg ⊢
  refine ⟨rg, _, _, rfl, ?_, ?_, hreg⟩
  · generalize f.intoBridge c st s.now = b
    exact (region_modRegion s _ (fun x => { x with spineIn := x.spineIn ++ [b] }) _).trans (if_pos rfl)
  · generalize f.intoBridge c st s.now = b
    exact port_modPort _ _ _

theorem sortUses_one (u : FUse) : sortUses [u] = [u] := List.mergeSort_singleton u

theorem landAll_one {s : State} {u : FUse} (huses : s.uses = [u]) (hland : u.land.isSome = true) {only : Option Nat}
    (honly : only = none ∨ only = some u.input) : s.landAll only = s.tryLand u := by
  unfold State.landAll
  rw [huses, sortUses_one, List.filter_cons_of_pos (by simpa [hland] using honly)]
  rfl

theorem landAll_none {s : State} (huses : s.uses = []) (only : Option Nat) : s.landAll only = s := by
  simp [State.landAll, huses, sortUses, State.each]

theorem exec_pendingLanding {port : PortId} {s : State} {u : FUse} {c st : Nat} {f : Landed} (huses : s.uses = [u]) (hinput : u.input = port.val)
    (hports : u.ports = []) (hland : u.land = some (c, st)) (hflit : s.flitFor u = some f) (hroom : s.bridgeRoom (c / 64) = true) :
    ∃ t, exec (.pendingLanding port) s = .next t ∧ t.uses = []
      ∧ (t.region (c / 64)).spineIn = (s.region (c / 64)).spineIn
          ++ [{ core := c, stream := st, payload := f.payload, ready := s.frame * 4096 + s.slot + 4 }]
      ∧ (∀ x ∈ (t.port port.val).landing, ¬ (x.txSlot = u.txSlot ∧ x.frameLo = u.frameLo)) ∧ t.sram = s.sram := by
  obtain ⟨rg, rgs, po, h, hregion, hport, -⟩ := tryLand_lands huses hports hland hflit hroom
  refine ⟨s.landAll (some port.val), rfl, ?_⟩
  rw [landAll_one huses (by rw [hland]; rfl) (.inr (by rw [hinput]))]
  refine ⟨by rw [h], by rw [hregion]; rfl, fun x hx => ?_, by rw [h]⟩
  rw [← hinput, hport] at hx
  exact mem_freed hx

/-! ## A forward that waited -/

/-- `y` is the port `x` with a flit sent for the first time. -/
structure Port.Transmits (x : Port) (h : FlitHdr) (v : Vec) (y : Port) : Prop where
  wire : y.wire = sealedFlit (x.header { h with seq := x.seqTx }) v
  seqTx : y.seqTx = x.seqTx + 1
  replay : y.replay.map (·.seq) = x.replay.map (·.seq) ++ [x.seqTx]

theorem Port.Transmits.carries {x y : Port} {h : FlitHdr} {v : Vec} (ht : x.Transmits h v y) (htype : h.type < 16) (hvc : h.vc < 8) :
    flitPayload y.wire = v ∧ flitType y.wire = h.type ∧ fh y.wire 6 4 = h.vc ∧ fh y.wire 7 7 = h.period.toNat
      ∧ fh y.wire 45 34 = h.txSlot % 4096 ∧ fh y.wire 49 46 = h.frameLo % 16 ∧ fh y.wire 70 70 = h.late.toNat ∧ crcOk y.wire = true := by
  obtain ⟨hlt, h1, h2, h3, -, h4, h5, h6⟩ := header_fields x (h := { h with seq := x.seqTx }) htype hvc
  rw [ht.wire]
  exact ⟨payload_sealed hlt v, (fh_sealed _ _ _ (by decide)).trans h1, (fh_sealed _ _ _ (by decide)).trans h2,
    (fh_sealed _ _ _ (by decide)).trans h3, (fh_sealed _ _ _ (by decide)).trans h4, (fh_sealed _ _ _ (by decide)).trans h5,
    (fh_sealed _ _ _ (by decide)).trans h6, crcOk_sealed _ _⟩

theorem Port.Transmits.freed {x y : Port} {h : FlitHdr} {v : Vec} (ht : x.Transmits h v y) (u : FUse) : x.Transmits h v (y.freed u) :=
  ⟨ht.wire, ht.seqTx, ht.replay⟩

theorem sendNew_transmits (s : State) (p : Nat) (h : FlitHdr) (v : Vec) : (s.port p).Transmits h v ((s.sendNew p h v).port p) := by
  obtain ⟨-, w, st, rot, ret, tm, ack, f, hf, hx⟩ := sendNew_port s p h v
  rw [hx, hf]
  exact ⟨rfl, rfl, List.map_append⟩

/-- The header of a pending forward: its entry's slot, and late (R183). -/
def FUse.lateHdr (u : FUse) (f : Landed) : FlitHdr :=
  { type := 1, period := f.period, txSlot := u.slot % 4096, frameLo := u.slot / 4096, late := true }

theorem sendPending_one {s : State} {p : Nat} {u : FUse} {f : Landed} (hroom : (s.port p).outstanding < 512) (hcarries : s.carriesSched p = true)
    (hfor : s.pendingFor p = some (u, f)) (huses : s.uses = [u]) (hports : u.ports = [p]) (hland : u.land = none) : s.sendPending p
      = some (({ (s.noteWait u).sendNew p (u.lateHdr f) f.payload with uses := [] } : State).modPort u.input fun x =>
          x.freed { u with ports := [] }) := by
  have huses' : ((s.noteWait u).sendNew p (u.lateHdr f) f.payload).uses = [u] := by
    rw [(sendNew_port (s.noteWait u) p (u.lateHdr f) f.payload).1.rest]
    obtain ⟨rg, h⟩ := noteWait_keeps s u
    rw [h]
    exact huses
  have hleft : u.ports.filter (· ≠ p) = [] := by simp [hports]
  unfold State.sendPending
  rw [if_neg (by simp [hcarries, hroom]), hfor]
  dsimp only
  rw [hleft]
  exact congrArg some (putUse_done (v := { u with ports := [] }) huses' rfl hland)

theorem exec_pendingForward {port : PortId} {s : State} {c : Clause} {u : FUse} {f : Landed} (hawake : s.awake = true) (hsched : s.sched = true)
    (hc : s.runningClause = some c) (hvalid : (s.entryNow c port.val).valid = true) (hkind : (s.entryNow c port.val).kind = 4)
    (hsend : s.canSend port.val = true) (hcarries : s.carriesSched port.val = true) (hresend : (s.port port.val).resend = none)
    (hroom : (s.port port.val).outstanding < 512) (hfor : s.pendingFor port.val = some (u, f)) (huses : s.uses = [u])
    (hports : u.ports = [port.val]) (hland : u.land = none) :
    ∃ t, exec (.pendingForward port) s = .next t ∧ t.uses = [] ∧ flitPayload (t.port port.val).wire = f.payload
      ∧ flitType (t.port port.val).wire = 1 ∧ fh (t.port port.val).wire 45 34 = u.slot % 4096
      ∧ fh (t.port port.val).wire 49 46 = u.slot / 4096 % 16 ∧ fh (t.port port.val).wire 70 70 = 1
      ∧ crcOk (t.port port.val).wire = true ∧ (t.port port.val).seqTx = (s.port port.val).seqTx + 1
      ∧ (t.port port.val).replay.map (·.seq) = (s.port port.val).replay.map (·.seq) ++ [(s.port port.val).seqTx]
      ∧ t.sram = s.sram ∧ t.dram = s.dram := by
  have hsent := sendPending_one hroom hcarries hfor huses hports hland
  obtain ⟨rg, hnote⟩ := noteWait_keeps s u
  have hport : (s.noteWait u).port port.val = s.port port.val := by rw [hnote]; rfl
  have hmem : (s.noteWait u).sram = s.sram ∧ (s.noteWait u).dram = s.dram := by rw [hnote]; exact ⟨rfl, rfl⟩
  have htransmits : (s.port port.val).Transmits (u.lateHdr f) f.payload
      (((s.noteWait u).sendNew port.val (u.lateHdr f) f.payload).port port.val) := by
    rw [← hport]
    exact sendNew_transmits (s.noteWait u) port.val (u.lateHdr f) f.payload
  have honly := (sendNew_port (s.noteWait u) port.val (u.lateHdr f) f.payload).1.rest
  clear hnote hport
  generalize s.noteWait u = x at *
  generalize x.sendNew port.val (u.lateHdr f) f.payload = y at *
  refine ⟨({ y with uses := [] } : State).modPort u.input fun x => x.freed { u with ports := [] }, ?_, rfl, ?_⟩
  · show execPendingForward port s = _
    unfold execPendingForward
    dsimp only
    rw [hc, hsent]
    dsimp only
    rw [if_pos ⟨hawake, hsched, by simp [hvalid, hkind], hsend, by rw [hresend]; rfl⟩]
  · have hwire : (s.port port.val).Transmits (u.lateHdr f) f.payload
        ((({ y with uses := [] } : State).modPort u.input fun x => x.freed { u with ports := [] }).port port.val) := by
      rw [State.modPort, port_setPort]
      split
      · rename_i heq
        rw [← heq]
        exact htransmits.freed _
      · exact htransmits
    have hsame : (({ y with uses := [] } : State).modPort u.input fun x => x.freed { u with ports := [] }).sram = s.sram
        ∧ (({ y with uses := [] } : State).modPort u.input fun x => x.freed { u with ports := [] }).dram = s.dram := by
      rw [honly]
      exact hmem
    generalize State.modPort _ _ _ = t at *
    obtain ⟨h1, h2, -, -, h3, h4, h5, h6⟩ := hwire.carries (by decide : 1 < 16) (by decide : 0 < 8)
    exact ⟨h1, h2, h3.trans (Nat.mod_mod _ _), h4, h5, h6, hwire.seqTx, hwire.replay, hsame⟩

/-! ## Arrival in a landing stream -/

/-- The region with its spine bridge empty. -/
def Region.bridgeTaken (x : Region) : Region := { x with spineIn := [] }

/-- The core with a landed flit in its stream. -/
def Core.landed (k : Core) (f : BFlit) (beat : Nat) : Core :=
  { k with land := Tab.set k.land f.stream (Tab.get [] k.land f.stream ++ [{ payload := f.payload, ready := beat }]) }

theorem arrive_none {s : State} {r : Nat} (h : (s.region r).spineIn = []) (n : Nat) : s.arrive r n = s := by
  cases n with
  | zero => rfl
  | succ n =>
    unfold State.arrive
    rw [h]

theorem arrive_one {s : State} {r : Nat} {f : BFlit} (h : (s.region r).spineIn = [f]) (hr : f.core / 64 = r) (hready : f.ready ≤ s.now)
    (hroom : (Tab.get [] (s.core f.core).land f.stream).length < 8) (n : Nat) : s.arrive r (n + 1)
      = (s.modRegion r Region.bridgeTaken).modCore f.core fun k => k.landed f (s.region r).beat := by
  have hcore : (s.modRegion r Region.bridgeTaken).core f.core = s.core f.core := by
    rw [State.core, region_modRegion, if_pos hr]
    rfl
  have hempty : (((s.modRegion r Region.bridgeTaken).modCore f.core fun k => k.landed f (s.region r).beat).region r).spineIn = [] := by
    rw [modCore_eq, region_setCore, if_pos hr.symm, region_modRegion, if_pos rfl]
    rfl
  have hstep : s.arrive r (n + 1)
      = ((s.modRegion r Region.bridgeTaken).modCore f.core fun k => k.landed f (s.region r).beat).arrive r n := by
    conv_lhs => unfold State.arrive
    rw [h]
    dsimp only
    rw [if_neg (by omega)]
    show ((s.modRegion r Region.bridgeTaken).modCore f.core fun k =>
      { k with land := Tab.set k.land f.stream (Tab.get [] (s.core f.core).land f.stream ++ [⟨f.payload, (s.region r).beat⟩]) }).arrive r n = _
    rw [modCore_eq, modCore_eq, hcore]
    rfl
  rw [hstep, arrive_none hempty]

theorem exec_landingStreamArrival {r : RegionId} {s : State} {f : BFlit} (h : (s.region r.val).spineIn = [f]) (hr : f.core / 64 = r.val)
    (hready : f.ready ≤ s.frame * 4096 + s.slot) (hroom : (Tab.get [] (s.core f.core).land f.stream).length < 8) :
    ∃ t, exec (.landingStreamArrival r) s = .next t ∧ (t.region r.val).spineIn = []
      ∧ Tab.get [] (t.core f.core).land f.stream
        = Tab.get [] (s.core f.core).land f.stream ++ [{ payload := f.payload, ready := (s.region r.val).beat }]
      ∧ { t with regions := s.regions } = s := by
  refine ⟨s.arrive r.val 64, rfl, ?_⟩
  rw [arrive_one h hr hready hroom]
  refine ⟨?_, ?_, rfl⟩
  · rw [modCore_eq, region_setCore, if_pos hr.symm, region_modRegion, if_pos rfl]
    rfl
  · have hcore : (s.modRegion r.val Region.bridgeTaken).core f.core = s.core f.core := by
      rw [State.core, region_modRegion, if_pos hr]
      rfl
    rw [core_modCore, if_pos rfl, hcore]
    simp [Core.landed]

end Sys2Proof.Machine
end

section
/-! What a port's slot leaves alone: every other port, the landing buffers, and all that is no port (R172, R189). -/

namespace Sys2Proof.Machine

/-! ## One port -/

/-- `t` is `s` but for what port `p` sends. -/
structure State.SendsAt (s : State) (p : Nat) (t : State) : Prop extends s.PortOnly p t where
  landing : (t.port p).landing = (s.port p).landing

/-- `t` is `s` but for its ports, whose landing buffers are as they were. -/
structure State.Sends (s t : State) : Prop where
  rest : t = { s with ports := t.ports }
  landing : ∀ q, (t.port q).landing = (s.port q).landing

theorem State.SendsAt.refl (s : State) (p : Nat) : s.SendsAt p s := ⟨.refl s p, rfl⟩

theorem State.SendsAt.trans {s t u : State} {p : Nat} (h : s.SendsAt p t) (h' : t.SendsAt p u) : s.SendsAt p u :=
  ⟨h.toPortOnly.trans h'.toPortOnly, h'.landing.trans h.landing⟩

theorem State.SendsAt.sends {s t : State} {p : Nat} (h : s.SendsAt p t) : s.Sends t := by
  refine ⟨h.rest, fun q => ?_⟩
  by_cases hq : q = p
  · rw [hq, h.landing]
  · rw [h.other q hq]

theorem State.Sends.refl (s : State) : s.Sends s := ⟨rfl, fun _ => rfl⟩

theorem State.Sends.trans {s t u : State} (h : s.Sends t) (h' : t.Sends u) : s.Sends u := by
  refine ⟨?_, fun q => (h'.landing q).trans (h.landing q)⟩
  rw [h'.rest, h.rest]

theorem sendsAt_modPort (s : State) (p : Nat) {f : Port → Port} (hf : ∀ x, (f x).landing = x.landing) : s.SendsAt p (s.modPort p f) :=
  ⟨portOnly_modPort s p f, by rw [port_modPort, hf]⟩

theorem State.SendsAt.modPort {s t : State} {p : Nat} {f : Port → Port} (h : s.SendsAt p t) (hf : ∀ x, (f x).landing = x.landing) :
    s.SendsAt p (t.modPort p f) := h.trans (sendsAt_modPort t p hf)

theorem sendsAt_sendNew (s : State) (p : Nat) (h : FlitHdr) (v : Vec) : s.SendsAt p (s.sendNew p h v) := by
  obtain ⟨hp, w, st, rot, ret, tm, ack, f, -, hx⟩ := sendNew_port s p h v
  exact ⟨hp, by rw [hx]⟩

theorem sendsAt_onWire (s : State) (p : Nat) (f : BitVec 2176) : s.SendsAt p (s.onWire p f) := by
  obtain ⟨hp, w, st, hx⟩ := onWire_port s p f
  exact ⟨hp, by rw [hx]⟩

theorem sendsAt_putWire (s : State) (p : Nat) (f : BitVec 2176) : s.SendsAt p (s.putWire p f) :=
  (sendsAt_onWire s p f).trans (sendsAt_modPort _ _ fun _ => rfl)

theorem sendsAt_sendIdle (s : State) (p : Nat) : s.SendsAt p (s.sendIdle p) := by
  unfold State.sendIdle
  refine (sendsAt_putWire s p _).modPort ?_
  exact fun _ => rfl

theorem sendsAt_sendOp (s : State) (p op half : Nat) : s.SendsAt p (s.sendOp p op half) := by
  unfold State.sendOp
  refine (sendsAt_putWire s p _).modPort ?_
  intro x
  split <;> rfl

theorem sendsAt_sendLast (s : State) (p : Nat) : s.SendsAt p (s.sendLast p) := by
  unfold State.sendLast
  split
  · exact sendsAt_sendOp _ _ _ _
  · exact sendsAt_sendIdle _ _

theorem sendsAt_sendTraining (s : State) (p : Nat) : s.SendsAt p (s.sendTraining p) := sendsAt_onWire _ _ _

theorem sendsAt_sendPlace (s : State) (p : Nat) : s.SendsAt p (s.sendPlace p) := by
  unfold State.sendPlace
  split
  · exact (sendsAt_sendLast s p).trans (sendsAt_modPort _ _ fun _ => rfl)
  · exact sendsAt_sendLast s p

theorem sendsAt_sendQuenchFlit {s t : State} {p : Nat} (h : s.sendQuenchFlit p = some t) : s.SendsAt p t := by
  unfold State.sendQuenchFlit at h
  split at h
  · split at h
    · obtain rfl := Option.some.inj h
      refine (sendsAt_sendNew s p _ _).modPort ?_
      exact fun _ => rfl
    · cases h
  · cases h

/-! ## The credit classes -/

theorem sends_left (s : State) (q : TxMsg) : s.Sends (s.left q) := by
  unfold State.left State.freeHeld
  split
  · split
    · exact .refl s
    · refine (sendsAt_modPort s _ ?_).sends
      exact fun _ => rfl
  · exact .refl s

theorem sends_sendContin (s : State) (p : Nat) (q : TxMsg) (f : Vec) (rest : List Vec) : s.Sends (s.sendContin p q f rest) := by
  have h (g : Port → Port) (hg : ∀ x, (g x).landing = x.landing) : s.Sends ((s.sendNew p (s.classHdr 3 q.msg) f).modPort p g) :=
    ((sendsAt_sendNew s p _ f).modPort hg).sends
  unfold State.sendContin
  dsimp only
  split
  · refine (h _ ?_).trans (sends_left _ _)
    exact fun _ => rfl
  · refine h _ ?_
    exact fun _ => rfl

theorem sends_sendMsg (s : State) (p : Nat) (q : TxMsg) : s.Sends (s.sendMsg p q) := by
  have h (f : Vec) (g : Port → Port) (hg : ∀ x, (g x).landing = x.landing) : s.Sends ((s.sendNew p (s.classHdr 2 q.msg) f).modPort p g) :=
    ((sendsAt_sendNew s p _ f).modPort hg).sends
  unfold State.sendMsg
  dsimp only
  split
  · exact .refl s
  · split
    · refine (h _ _ ?_).trans (sends_left _ _)
      exact fun _ => rfl
    · refine h _ _ ?_
      exact fun _ => rfl

theorem sends_sendCredit (s : State) (p : Nat) : s.Sends (s.sendCredit p) := by
  unfold State.sendCredit
  dsimp only
  split
  · split
    · exact sends_sendContin _ _ _ _ _
    · exact (sendsAt_sendPlace s p).sends
  · split
    · exact (sendsAt_sendPlace s p).sends
    · split
      · split
        · exact sends_sendMsg _ _ _
        · exact (sendsAt_sendPlace s p).sends
      · exact (sendsAt_sendPlace s p).sends

/-! ## A slot's fill -/

/-- A port whose entry is invalid sends its last place, a QUENCH, or what training asks of it. -/
theorem sendsAt_fillSlot_gap {s : State} {c : Clause} {p : Nat} (h : (s.entryNow c p).valid = false) : s.SendsAt p (s.fillSlot (some c) p) := by
  unfold State.fillSlot
  dsimp only
  split
  · split
    · exact sendsAt_sendTraining s p
    · exact .refl s p
  · split
    · exact .refl s p
    · split
      · rename_i hq
        exact sendsAt_sendQuenchFlit hq
      · rename_i hn
        cases hn
      · rename_i c' hc
        obtain rfl := Option.some.inj hc
        rw [if_pos (by simp [h])]
        exact sendsAt_sendLast s p

/-- A port with an entry that is no slack slot sends no scheduled flit of its own. -/
theorem sends_fillSlot {s : State} {c : Clause} {p : Nat} (h : (s.entryNow c p).kind ≠ 4) : s.Sends (s.fillSlot (some c) p) := by
  unfold State.fillSlot
  dsimp only
  split
  · split
    · exact (sendsAt_sendTraining s p).sends
    · exact .refl s
  · split
    · exact .refl s
    · split
      · rename_i hq
        exact (sendsAt_sendQuenchFlit hq).sends
      · rename_i hn
        cases hn
      · rename_i c' hc
        obtain rfl := Option.some.inj hc
        rw [if_neg h]
        split
        · exact (sendsAt_sendLast s p).sends
        · exact sends_sendCredit s p

/-- A port that cannot transmit and is not in training sends nothing. -/
theorem fillSlot_silent {s : State} {p : Nat} (htrain : s.training p = false) (hsend : s.canSend p = false) (c : Option Clause) :
    s.fillSlot c p = s := by
  unfold State.fillSlot
  rw [if_neg (by simp [htrain]), if_pos (by simp [hsend])]

/-- A port that cannot transmit sends its identity block at most. -/
theorem fillSlot_training {s : State} {p : Nat} (hsend : s.canSend p = false) (c : Option Clause) :
    s.fillSlot c p = s ∨ s.fillSlot c p = s.sendTraining p := by
  unfold State.fillSlot
  split
  · split
    · exact .inr rfl
    · exact .inl rfl
  · rw [if_pos (by simp [hsend])]
    exact .inl rfl

theorem sends_quenchSlots (s : State) : s.Sends s.quenchSlots := by
  unfold State.quenchSlots
  refine each_of_keeps (P := s.Sends) (fun t p _ ht => ?_) (.refl s)
  split
  · split
    · rename_i hq
      exact ht.trans (sendsAt_sendQuenchFlit hq).sends
    · exact ht
  · exact ht

theorem quenchSlots_none {s : State} (h : ∀ q < 32, (s.port q).quenchTx = []) : s.quenchSlots = s := by
  unfold State.quenchSlots
  refine each_fixed fun p hp => ?_
  have hnone : s.sendQuenchFlit p = none := by
    unfold State.sendQuenchFlit
    rw [h p (List.mem_range.mp hp)]
  rw [hnone]
  split <;> rfl

end Sys2Proof.Machine
end

section
/-! A slot in which nothing but ports moves, phase by phase (R165, R176). -/

namespace Sys2Proof.Machine

/-- A walk that changes something at one place alone. -/
theorem each_only {f : State → Nat → State} {n p : Nat} (hp : p < n) {s : State} (hbefore : ∀ q < n, q ≠ p → f s q = s)
    (hafter : ∀ q < n, q ≠ p → f (f s p) q = f s p) : s.each (List.range n) f = f s p := by
  obtain ⟨a, b, hab⟩ := List.append_of_mem (List.mem_range.mpr hp)
  have hnodup : (a ++ p :: b).Nodup := hab ▸ List.nodup_range
  have hlt (q : Nat) (hq : q ∈ a ++ p :: b) : q < n := List.mem_range.mp (hab ▸ hq)
  have hne (q : Nat) (hq : q ∈ a ++ b) : q ≠ p := fun h => (List.nodup_middle.mp hnodup).notMem (h ▸ hq)
  have ha : s.each a f = s := each_fixed fun q hq => hbefore q (hlt q (by simp [hq])) (hne q (by simp [hq]))
  have hb : (f s p).each b f = f s p := each_fixed fun q hq => hafter q (hlt q (by simp [hq])) (hne q (by simp [hq]))
  calc s.each (List.range n) f = ((s.each a f).each (p :: b) f) := by rw [hab]; exact List.foldl_append
    _ = (f s p).each b f := by rw [ha]; rfl
    _ = f s p := hb

/-! ## What holds of such a slot -/

section
variable {s : State} (h : s.stillSlot)
include h

theorem State.stillSlot.slot_lt : s.slot < 4088 := h.2.2.1
theorem State.stillSlot.uses : s.uses = [] := h.2.2.2.1
theorem State.stillSlot.waiting : s.waiting = [] := h.2.2.2.2.1

theorem State.stillSlot.quenchTx {q : Nat} (hq : q < 32) : (s.port q).quenchTx = [] := by
  obtain ⟨-, -, -, -, -, -, -, -, hquench, -⟩ := h
  exact hquench q hq

end

section
variable {s : State} {c : Clause} {p : Nat} (h : s.onlyPort c p)
include h

theorem State.onlyPort.still : s.stillSlot := h.1
theorem State.onlyPort.running : s.runningClause = some c := h.2.1
theorem State.onlyPort.other {q : Nat} (hq : q < 32) (hne : q ≠ p) : (s.entryNow c q).valid = false := h.2.2.2 q hq hne

end

/-! ## The phases -/

/-- The slot's arrivals. -/
def State.slotArrivals (s : State) : State := s.each (List.range 16) fun t r =>
  if (t.region r).cores = [] then t
  else ((t.modRegion r fun x => { x with spineCtr := 0 }).moveStreams r).arrive r 64

/-- The state in which the slot's entries are performed. -/
def State.slotReady (s : State) (next : Option Clause) : State :=
  ((s.slotArrivals.claimSends s.slotArrivals.runningClause next).missDeadlines.landAll none).quenchSlots

/-- The entries of a slot, where a clause runs. -/
def State.slotEntries (s : State) (c : Option Clause) : State := match c with
  | some c => s.doEntries c
  | none => s

/-- The slot's entries with the landings and messages that follow them. -/
def State.slotWork (s : State) (c : Option Clause) : State := ((s.slotEntries c).landAll none).retryWaiting

/-- What every port transmits. -/
def State.slotFill (s : State) (c : Option Clause) : State := s.each (List.range 32) fun t p => t.fillSlot c p

/-- The slot's end. -/
def State.slotEnd (s : State) (slot : Nat) : State := ({ s with slot := slot } : State).advanceTime

theorem slotStep_eq (s : State) (next : Option Clause) : s.slotStep next
    = (((s.slotReady next).slotWork (s.slotReady next).runningClause).slotFill (s.slotReady next).runningClause).slotEnd (s.slot + 1) := by
  unfold State.slotStep
  extract_lets +onlyGivenNames s0 s1
  have h0 : s.slotArrivals = s0 := rfl
  have h1 : s.slotReady next = s1 := rfl
  clear_value s0
  rw [h1]
  clear_value s1
  rfl

theorem retryWaiting_none {s : State} (h : s.waiting = []) : s.retryWaiting = s := by
  have hsame : ({ s with waiting := [] } : State) = s := by rw [← h]
  unfold State.retryWaiting
  rw [hsame, h]
  rfl

theorem dmaPumps_none {s : State} (h : ∀ x ∈ s.chans, x.2.busy = false) : s.dmaPumps = s := by
  have hnext : s.dmaNext = none := by
    have hbusy : s.chans.filter (fun x => x.2.busy) = [] := List.filter_eq_nil_iff.mpr fun x hx => by simp [h x hx]
    simp [State.dmaNext, hbusy]
  unfold State.dmaPumps
  rw [hnext]

theorem svcPumps_none {s : State} (hrepair : s.repairDue = false) (hpush : s.pushQueue = []) : s.svcPumps = s := by
  have hpieces : s.pushPieces = s := by
    unfold State.pushPieces
    rw [hpush]
    rfl
  unfold State.svcPumps
  simp only [hrepair, hpieces]

/-- What the DMA channels and the management processor look at in a slot. -/
def State.pumps (s : State) : Tab Chan × Bool × List (Nat × Nat) := (s.chans, s.repairDue, s.pushQueue)

/-- A slot in which no channel and no push runs. -/
theorem exec_slot {s x y : State} {c : Option Clause} (h : s.stillSlot) (hx : s.slotReady none = x) (hc : x.runningClause = c)
    (hy : (x.slotWork c).slotFill c = y) (hpumps : y.pumps = s.pumps) : exec .slotTick s = .next (y.slotEnd (s.slot + 1)) := by
  obtain ⟨hawake, hsettles, hslot, -, -, hpush, hrepair, hchans, -, -⟩ := h
  have hstep : s.slotStep none = y.slotEnd (s.slot + 1) := by rw [slotStep_eq, hx, hc, hy]
  have hsame : (y.slotEnd (s.slot + 1)).pumps = s.pumps := hpumps
  show s.settled (slotTickNow s) = _
  rw [settled_of_settles hsettles]
  unfold slotTickNow
  dsimp only
  have hnext : (if s.sched ∧ 4088 ≤ s.slot then s.frameStep.runningClause else none) = none := if_neg (by omega)
  rw [hnext, if_pos ⟨hawake, by omega⟩, hstep]
  generalize y.slotEnd (s.slot + 1) = z at *
  obtain ⟨hz1, hz⟩ := Prod.mk.inj hsame
  obtain ⟨hz2, hz3⟩ := Prod.mk.inj hz
  rw [dmaPumps_none (by rw [hz1]; exact hchans), svcPumps_none (hz2.trans hrepair) (hz3.trans hpush)]

/-! ## The arrivals -/

/-- `t` is `s` but for the counts of the flits that entered the spine bridges. -/
structure State.Recounted (s t : State) : Prop where
  rest : t = { s with regions := t.regions }
  region : ∀ r, ∃ n, t.region r = { s.region r with spineCtr := n }

theorem State.Recounted.refl (s : State) : s.Recounted s := ⟨rfl, fun r => ⟨(s.region r).spineCtr, rfl⟩⟩

/-- A slot's counts start anew. -/
theorem State.Recounted.anew {s t : State} (h : s.Recounted t) (r : Nat) : s.Recounted (t.modRegion r fun x => { x with spineCtr := 0 }) := by
  refine ⟨?_, fun q => ?_⟩
  · rw [h.rest]
    rfl
  · obtain ⟨n, hn⟩ := h.region q
    rw [region_modRegion, hn]
    split
    · exact ⟨0, rfl⟩
    · exact ⟨n, rfl⟩

/-- With nothing on its way no stream moves. -/
theorem moveStreams_none {s : State} {r : Nat} (hsend : ∀ k ∈ (s.region r).cores, ∀ x ∈ k.2.send, x.2 = [])
    (hbridge : ∀ x ∈ (s.region r).bridgeIn, x.2 = []) : s.moveStreams r = s := by
  have hcores : (s.each (s.region r).cores fun t k => t.each k.2.send fun t x =>
      if x.2 = [] then t else (t.bridgeMove (64 * r + k.1) x.1).spineEnter (64 * r + k.1) x.1) = s :=
    each_fixed fun k hk => each_fixed fun x hx => if_pos (hsend k hk x hx)
  unfold State.moveStreams
  dsimp only
  rw [hcores]
  exact each_fixed fun x hx => if_pos (hbridge x hx)

theorem recounted_slotArrivals {s : State} (h : s.stillSlot) : s.Recounted s.slotArrivals := by
  obtain ⟨-, -, -, -, -, -, -, -, -, hstill⟩ := h
  unfold State.slotArrivals
  refine each_of_keeps (P := s.Recounted) (fun t r hr ht => ?_) (.refl s)
  obtain ⟨hin, hbridge, hsend⟩ := hstill r (List.mem_range.mp hr)
  split
  · exact ht
  · have hu := ht.anew r
    generalize t.modRegion r _ = u at *
    obtain ⟨n, hn⟩ := hu.region r
    rw [moveStreams_none (by rw [hn]; exact hsend) (by rw [hn]; exact hbridge), arrive_none (by rw [hn]; exact hin)]
    exact hu

/-! ## The deadlines of local sends -/

/-- With the slots up to 7 ahead looked at, only the slot 8 ahead may come into question. -/
theorem claimSends_still {s : State} (c : Clause) (hslot : s.slot < 4088) (hclaimed : s.now + 8 ≤ s.claimed) : s.claimSends (some c) none
    = { (if s.claimed = s.now + 8 then s.claimSlot c (s.now + 8) else s) with claimed := s.now + 9 } := by
  have hlast : min (s.now + 8) (s.frame * 4096 + 4095) = s.now + 8 := by unfold State.now; omega
  have hstart : max s.claimed s.now = s.claimed := by omega
  have hrange : (List.range 9).map (s.claimed + ·) = (s.claimed + 0) :: (List.range' 1 8).map (s.claimed + ·) := rfl
  have hframe : (s.now + 8) / 4096 = s.frame := by unfold State.now; omega
  have hlater (t : State) (f : State → Nat → State) : (t.each ((List.range' 1 8).map (s.claimed + ·)) fun t a =>
      if s.now + 8 < a then t else f t a) = t := by
    refine each_fixed fun a ha => if_pos ?_
    obtain ⟨i, hi, rfl⟩ := List.mem_map.mp ha
    have := List.mem_range'_1.mp hi
    omega
  unfold State.claimSends
  dsimp only
  rw [hlast, hstart, hrange]
  have hcons (f : State → Nat → State) (a : Nat) (l : List Nat) : s.each (a :: l) f = (f s a).each l f := rfl
  rw [hcons, hlater, Nat.add_zero]
  by_cases heq : s.claimed = s.now + 8
  · rw [heq, if_neg (Nat.lt_irrefl _), if_pos hframe, if_pos rfl]
  · rw [if_pos (by omega), if_neg heq]

theorem claimSlot_none {s : State} {c : Clause} (hslot : s.slot < 4088) (h : s.noSendDue c) : s.claimSlot c (s.now + 8) = s := by
  have hnext : (s.now + 8) % 4096 = s.slot + 8 := by unfold State.now; omega
  unfold State.claimSlot
  rw [hnext]
  exact each_fixed fun q hq => if_neg fun hx => h q (List.mem_range.mp hq) hx.1 hx.2.1

end Sys2Proof.Machine
end

section
/-! A slot of a running clause in which one port alone may have an entry (R169, R172, R176). -/

namespace Sys2Proof.Machine

/-! ## Ready for the entries -/

/-- `t` is `s` but for the counts of the spine bridges and for the slots looked at. -/
structure State.Ready (s t : State) : Prop where
  rest : t = { s with regions := t.regions, claimed := t.claimed }
  region : ∀ r, ∃ n, t.region r = { s.region r with spineCtr := n }

theorem State.Recounted.ready {s t : State} (h : s.Recounted t) (n : Nat) : s.Ready { t with claimed := n } :=
  ⟨by rw [h.rest], h.region⟩

theorem State.Recounted.unclaimed {s t : State} (h : s.Recounted t) : s.Ready t := h.ready t.claimed

/-- With nothing in use and no QUENCH to send, the claims are all that the slot's first phases do. -/
theorem slotReady_of_claims {s x : State} (hx : s.slotArrivals.claimSends s.slotArrivals.runningClause none = x) (huses : x.uses = [])
    (hquench : ∀ q < 32, (x.port q).quenchTx = []) : s.slotReady none = x := by
  unfold State.slotReady
  rw [hx, missDeadlines_none huses, landAll_none huses, quenchSlots_none hquench]

theorem State.Recounted.shape {s t : State} (h : s.Recounted t) : ∃ rg, t = { s with regions := rg } := ⟨_, h.rest⟩

theorem State.Ready.shape {s t : State} (h : s.Ready t) : ∃ rg n, t = { s with regions := rg, claimed := n } := ⟨_, _, h.rest⟩

theorem ready_none {s : State} (h : s.stillSlot) (hc : s.runningClause = none) : s.Ready (s.slotReady none) := by
  have hrec := recounted_slotArrivals h
  obtain ⟨-, -, -, huses, -, -, -, -, hquench, -⟩ := h
  have hready : s.slotReady none = s.slotArrivals := by
    obtain ⟨rg, hrg⟩ := hrec.shape
    have hrun : s.slotArrivals.runningClause = none := by rw [hrg]; exact hc
    refine slotReady_of_claims ?_ (by rw [hrg]; exact huses) (by rw [hrg]; exact hquench)
    rw [hrun]
    rfl
  rw [hready]
  exact hrec.unclaimed

/-- The claims of a slot of the running clause. -/
theorem slotArrivals_claims {s : State} {c : Clause} {p : Nat} (h : s.onlyPort c p) : s.slotArrivals.claimSends s.slotArrivals.runningClause none
    = { (if s.claimed = s.now + 8 then s.slotArrivals.claimSlot c (s.now + 8) else s.slotArrivals) with claimed := s.now + 9 } := by
  obtain ⟨hstill, hc, hclaimed, -⟩ := h
  obtain ⟨rg, hrg⟩ := (recounted_slotArrivals hstill).shape
  obtain ⟨-, -, hslot, -⟩ := hstill
  rw [hrg]
  exact (congrArg (State.claimSends _ · none) hc).trans (claimSends_still (s := { s with regions := rg }) c hslot hclaimed)

theorem ready_clause {s : State} {c : Clause} {p : Nat} (h : s.onlyPort c p) (hdue : s.noSendDue c) : s.Ready (s.slotReady none) := by
  have hclaims := slotArrivals_claims h
  obtain ⟨hstill, -⟩ := h
  have hrec := recounted_slotArrivals hstill
  obtain ⟨rg, hrg⟩ := hrec.shape
  obtain ⟨-, -, hslot, huses, -, -, -, -, hquench, -⟩ := hstill
  have hslotless : s.slotArrivals.claimSlot c (s.now + 8) = s.slotArrivals := by
    rw [hrg]
    exact claimSlot_none (s := { s with regions := rg }) hslot hdue
  rw [hslotless, ite_self] at hclaims
  rw [slotReady_of_claims hclaims (by rw [hrg]; exact huses) (by rw [hrg]; exact hquench)]
  exact hrec.ready _

/-! ## The only port's entry -/

/-- The scheduled operation of one port's entry. -/
def State.doEntry (s : State) (c : Clause) (p : Nat) : State :=
  let e := s.entryNow c p
  if ¬ e.valid ∨ ¬ performsAt e p then s
  else match e.kind with
    | 1 => s.doSend c e
    | 2 | 3 => s.doUse c e
    | _ => s

theorem doEntries_eq (s : State) (c : Clause) : s.doEntries c = s.each (List.range 32) fun t p => t.doEntry c p := rfl

theorem doEntry_invalid {s : State} {c : Clause} {p : Nat} (h : (s.entryNow c p).valid = false) : s.doEntry c p = s := by
  unfold State.doEntry
  rw [if_pos (.inl (by simp [h]))]

theorem doEntry_slack {s : State} {c : Clause} {p : Nat} (h : (s.entryNow c p).kind = 4) : s.doEntry c p = s := by
  unfold State.doEntry
  dsimp only
  rw [h]
  split <;> rfl

theorem doEntry_send {s : State} {c : Clause} {p : Nat} (hvalid : (s.entryNow c p).valid = true) (hperforms : performsAt (s.entryNow c p) p = true)
    (hkind : (s.entryNow c p).kind = 1) : s.doEntry c p = s.doSend c (s.entryNow c p) := by
  unfold State.doEntry
  rw [if_neg (by simp [hvalid, hperforms])]
  simp only [hkind]

theorem doEntry_use {s : State} {c : Clause} {p : Nat} (hvalid : (s.entryNow c p).valid = true) (hperforms : performsAt (s.entryNow c p) p = true)
    (hkind : (s.entryNow c p).kind = 2 ∨ (s.entryNow c p).kind = 3) : s.doEntry c p = s.doUse c (s.entryNow c p) := by
  unfold State.doEntry
  rw [if_neg (by simp [hvalid, hperforms])]
  rcases hkind with h | h <;> simp only [h]

/-- The entries of a slot in which one port alone has one. -/
theorem doEntries_at {s : State} {c : Clause} {p : Nat} (hp : p < 32) (hother : ∀ q < 32, q ≠ p → (s.entryNow c q).valid = false)
    (hslot : (s.doEntry c p).slot = s.slot) : s.doEntries c = s.doEntry c p := by
  rw [doEntries_eq]
  refine each_only (f := fun t p => t.doEntry c p) hp (fun q hq hne => doEntry_invalid (hother q hq hne)) fun q hq hne => doEntry_invalid ?_
  rw [State.entryNow, hslot]
  exact hother q hq hne

/-- A slot in which one port alone may have an entry. -/
theorem exec_entry {s x v : State} {c : Clause} {p : Nat} (h : s.onlyPort c p) (hp : p < 32) (hx : s.slotReady none = x) (hready : s.Ready x)
    (hslot : (x.doEntry c p).slot = s.slot) (hv : (x.doEntry c p).landAll none = v) (hwait : v.waiting = []) (hpumps : v.pumps = s.pumps)
    (hfill : v.Sends (v.slotFill (some c))) : exec .slotTick s = .next ((v.slotFill (some c)).slotEnd (s.slot + 1)) := by
  obtain ⟨hstill, hc, -, hother⟩ := h
  obtain ⟨rg, n, hshape⟩ := hready.shape
  have hentries : x.doEntries c = x.doEntry c p := by
    refine doEntries_at hp ?_ (hslot.trans (by rw [hshape]))
    rw [hshape]
    exact hother
  refine exec_slot hstill hx (c := some c) (by rw [hshape]; exact hc) ?_ ?_
  · show (((x.doEntries c).landAll none).retryWaiting).slotFill (some c) = _
    rw [hentries, hv, retryWaiting_none hwait]
  · obtain ⟨po, hpo⟩ : ∃ po, v.slotFill (some c) = { v with ports := po } := ⟨_, hfill.rest⟩
    rw [hpo]
    exact hpumps

/-! ## What the ports send after the entry -/

/-- Ports with no slack slot send, and no more. -/
theorem slotFill_sends {u : State} {c : Clause} (h : ∀ q < 32, (u.entryNow c q).valid = false ∨ (u.entryNow c q).kind ≠ 4) :
    u.Sends (u.slotFill (some c)) := by
  unfold State.slotFill
  refine each_of_keeps (P := u.Sends) (fun t q hq ht => ?_) (.refl u)
  obtain ⟨po, rfl⟩ : ∃ po, t = { u with ports := po } := ⟨_, ht.rest⟩
  refine ht.trans ?_
  rcases h q (List.mem_range.mp hq) with hgap | hkind
  · exact (sendsAt_fillSlot_gap (s := { u with ports := po }) hgap).sends
  · exact sends_fillSlot (s := { u with ports := po }) hkind

/-- A port that has sent its entry's flit keeps it on its wire. -/
theorem slotFill_sent {u : State} {c : Clause} {p : Nat} (hother : ∀ q < 32, q ≠ p → (u.entryNow c q).valid = false)
    (hstate : u.reg (R.linkState p) = 7) (hsent : (u.port p).sentAt = some u.now) :
    u.Sends (u.slotFill (some c)) ∧ (u.slotFill (some c)).port p = u.port p := by
  unfold State.slotFill
  refine each_of_keeps (P := fun t => u.Sends t ∧ t.port p = u.port p) (fun t q hq ht => ?_) ⟨.refl u, rfl⟩
  obtain ⟨ht, hport⟩ := ht
  obtain ⟨po, rfl⟩ : ∃ po, t = { u with ports := po } := ⟨_, ht.rest⟩
  by_cases hqp : q = p
  · subst hqp
    have hsilent : ({ u with ports := po } : State).canSend q = false := by
      unfold State.canSend
      rw [hport, hsent]
      simp [State.now]
    have htrain : ({ u with ports := po } : State).training q = false := by
      unfold State.training
      rw [show ({ u with ports := po } : State).reg (R.linkState q) = 7 from hstate]
      decide
    rw [fillSlot_silent htrain hsilent]
    exact ⟨ht, hport⟩
  · have hfill := sendsAt_fillSlot_gap (s := { u with ports := po }) (c := c) (p := q) (hother q (List.mem_range.mp hq) hqp)
    exact ⟨ht.trans hfill.sends, (hfill.other p (Ne.symm hqp)).trans hport⟩

end Sys2Proof.Machine
end

section
/-! The entry of a slot: a local send, a forward, a landing, and a use whose flit is not there (R173, R177, R178, R183). -/

namespace Sys2Proof.Machine

/-! ## Local sends -/

/-- The header of a flit sent in its place. -/
def State.timelyHdr (s : State) (period : Bool) : FlitHdr := { type := 1, period := period, txSlot := s.slot, frameLo := s.frame, late := false }

/-- The region with a flit gone from its bridge. -/
def Region.flitGone (x : Region) (f : BFlit) : Region := { x with bridgeOut := x.bridgeOut.erase f }

theorem takeSpine_one {s : State} {c st : Nat} {f : BFlit} (hout : (s.region (c / 64)).bridgeOut = [f]) (hcore : f.core = c)
    (hstream : f.stream = st) (hclaim : f.claim = some s.now) :
    s.takeSpine c st = some (f.payload, s.modRegion (c / 64) fun x => x.flitGone f) := by
  unfold State.takeSpine
  rw [hout, List.find?_cons_of_pos (by simp [hcore, hstream, hclaim])]
  rfl

theorem replayFull_one {s : State} {p : Nat} (h : (s.port p).outstanding < 512) : s.replayFull [p] = none := by
  simp [State.replayFull, h]

theorem doSend_one {s : State} {c : Clause} {e : SlotEntry} {p : Nat} {f : BFlit} (houts : e.outs = [p]) (hsend : s.canSend p = true)
    (hcarries : s.carriesSched p = true) (hroom : (s.port p).outstanding < 512)
    (hflit : (s.region ((mapEntry c.sendMap e.number).1 / 64)).bridgeOut = [f]) (hcore : f.core = (mapEntry c.sendMap e.number).1)
    (hstream : f.stream = (mapEntry c.sendMap e.number).2) (hclaim : f.claim = some s.now) : s.doSend c e
      = (s.modRegion ((mapEntry c.sendMap e.number).1 / 64) fun x => x.flitGone f).sendNew p (s.timelyHdr e.period) f.payload := by
  have htake := takeSpine_one hflit hcore hstream hclaim
  unfold State.doSend
  generalize mapEntry c.sendMap e.number = k at *
  obtain ⟨core, st⟩ := k
  dsimp only at htake ⊢
  rw [htake]
  dsimp only
  rw [houts, replayFull_one (s := s.modRegion (core / 64) fun x => x.flitGone f) hroom]
  exact if_pos ⟨hsend, hcarries⟩

/-! ## Uses -/

/-- The use that a forward or landing entry becomes. -/
def State.entryUse (s : State) (c : Clause) (e : SlotEntry) : FUse :=
  let m := useOf s.now e.hold (s.reg (R.readyOffsetAssumed e.input))
  { slot := s.now, input := e.input, txSlot := m.1, frameLo := m.2, ports := e.outs
    land := if bit e.mask 32 then some (mapEntry c.landMap e.number) else none, deadline := s.now + c.deadline, clause := c.number, late := false }

/-- The state with one use more. -/
def State.withUse (s : State) (u : FUse) : State := { s with uses := s.uses ++ [u] }

theorem doUse_waits {s : State} {c : Clause} {e : SlotEntry} (h : s.flitFor (s.entryUse c e) = none) :
    s.doUse c e = (s.withUse { s.entryUse c e with pended := true }).bump R.pendingUses 32 := by
  obtain ⟨u, hu⟩ : ∃ u, u = s.entryUse c e := ⟨_, rfl⟩
  rw [← hu] at h ⊢
  have hnone : (s.withUse u).flitFor u = none := h
  unfold State.entryUse at hu
  unfold State.withUse at hnone
  unfold State.doUse
  dsimp only at hu ⊢
  rw [← hu, hnone]
  subst hu
  rfl

theorem doUse_ready {s : State} {c : Clause} {e : SlotEntry} {g : Landed} (h : s.flitFor (s.entryUse c e) = some g)
    (hroom : s.replayFull e.outs = none) : s.doUse c e = ((s.withUse (s.entryUse c e)).each e.outs fun t q =>
      if t.canSend q ∧ t.carriesSched q then t.sendSched q s.slot s.frame g.period false g.payload else t).putUse (s.entryUse c e)
        { s.entryUse c e with ports := [] } := by
  obtain ⟨u, hu⟩ : ∃ u, u = s.entryUse c e := ⟨_, rfl⟩
  rw [← hu] at h ⊢
  have hsome : (s.withUse u).flitFor u = some g := h
  have hfull : (s.withUse u).replayFull e.outs = none := hroom
  unfold State.entryUse at hu
  unfold State.withUse at hsome hfull
  unfold State.doUse
  dsimp only at hu ⊢
  rw [← hu, hsome]
  dsimp only
  rw [hfull]
  subst hu
  rfl

/-- A forward whose flit is there goes out at once. -/
theorem doUse_forwards {s : State} {c : Clause} {e : SlotEntry} {p : Nat} {g : Landed} (huses : s.uses = [])
    (h : s.flitFor (s.entryUse c e) = some g) (houts : e.outs = [p]) (hsend : s.canSend p = true) (hcarries : s.carriesSched p = true)
    (hroom : (s.port p).outstanding < 512) (hland : bit e.mask 32 = false) : s.doUse c e
      = ({ (s.withUse (s.entryUse c e)).sendNew p (s.timelyHdr g.period) g.payload with uses := [] } : State).modPort e.input fun x =>
          x.freed (s.entryUse c e) := by
  have hone : (s.withUse (s.entryUse c e)).uses = [s.entryUse c e] := by simp [State.withUse, huses]
  have hkept : ((s.withUse (s.entryUse c e)).sendNew p (s.timelyHdr g.period) g.payload).uses = [s.entryUse c e] :=
    (congrArg State.uses (sendNew_port (s.withUse (s.entryUse c e)) p (s.timelyHdr g.period) g.payload).1.rest :).trans hone
  have hnone : (s.entryUse c e).land = none := if_neg (by simp [hland])
  have hinput : (s.entryUse c e).input = e.input := rfl
  rw [doUse_ready h (by rw [houts]; exact replayFull_one hroom), houts]
  have heach : (s.withUse (s.entryUse c e)).each [p] (fun t q => if t.canSend q ∧ t.carriesSched q
      then t.sendSched q s.slot s.frame g.period false g.payload else t)
        = (s.withUse (s.entryUse c e)).sendNew p (s.timelyHdr g.period) g.payload := if_pos ⟨hsend, hcarries⟩
  rw [heach]
  generalize s.entryUse c e = u at *
  generalize State.sendNew _ _ _ _ = y at *
  rw [putUse_done (v := { u with ports := [] }) hkept rfl hnone]
  rw [← hinput]
  rfl

/-- A landing whose flit is there waits for its turn. -/
theorem doUse_lands {s : State} {c : Clause} {e : SlotEntry} {g : Landed} (huses : s.uses = [])
    (h : s.flitFor (s.entryUse c e) = some g) (houts : e.outs = []) (hland : bit e.mask 32 = true) : s.doUse c e = s.withUse (s.entryUse c e) := by
  have hports : (s.entryUse c e).ports = [] := houts
  have hsome : (s.entryUse c e).land.isNone = false := by
    show (if bit e.mask 32 = true then some (mapEntry c.landMap e.number) else none).isNone = false
    rw [if_pos hland]
    rfl
  rw [doUse_ready h (by rw [houts]; rfl), houts]
  generalize s.entryUse c e = u at *
  have hsame : ({ u with ports := [] } : FUse) = u := by rw [← hports]
  rw [hsame]
  have hmap : ({ s.withUse u with uses := (s.withUse u).uses.map fun x => if x = u then u else x } : State) = s.withUse u := by
    simp [State.withUse, huses]
  show (s.withUse u).putUse u u = s.withUse u
  unfold State.putUse
  rw [hmap]
  unfold State.settleUse
  rw [if_neg (by simp [hsome])]

/-- The flit that landed alone is the one waited for. -/
theorem flitFor_one {s : State} {u : FUse} {g : Landed} (h : (s.port u.input).landing = [g]) (hslot : g.txSlot = u.txSlot)
    (hframe : g.frameLo = u.frameLo) (hready : g.ready ≤ s.now) : s.flitFor u = some g := by
  unfold State.flitFor
  rw [h, List.find?_cons_of_pos (by simp [hslot, hframe, hready])]

end Sys2Proof.Machine
end

section
/-! A slot with one entry, whole: what it sends, lands and leaves waiting (R165, R173, R177, R178, R183, R185). -/

namespace Sys2Proof.Machine

/-- `u` is `s` but for what a slot's one entry may change of it. -/
structure State.EntryOnly (s u : State) : Prop where
  shape : ∃ rs rg n po us, u = { s with regs := rs, regions := rg, claimed := n, ports := po, uses := us }

/-- What the rest of the slot looks at is the same. -/
theorem State.EntryOnly.keeps {s u : State} (h : s.EntryOnly u) : u.slot = s.slot ∧ u.now = s.now ∧ u.waiting = s.waiting ∧ u.pumps = s.pumps := by
  obtain ⟨rs, rg, n, po, us, rfl⟩ := h.shape
  exact ⟨rfl, rfl, rfl, rfl⟩

theorem State.EntryOnly.entryNow {s u : State} (h : s.EntryOnly u) (c : Clause) (q : Nat) : u.entryNow c q = s.entryNow c q := by
  obtain ⟨rs, rg, n, po, us, rfl⟩ := h.shape
  rfl

theorem State.Ready.entryOnly {s t : State} (h : s.Ready t) : s.EntryOnly t := by
  obtain ⟨rg, n, rfl⟩ := h.shape
  exact ⟨_, _, _, _, _, rfl⟩

theorem State.EntryOnly.trans {s t u : State} (h : s.EntryOnly t) (h' : t.EntryOnly u) : s.EntryOnly u := by
  obtain ⟨rs, rg, n, po, us, rfl⟩ := h.shape
  obtain ⟨rs, rg, n, po, us, rfl⟩ := h'.shape
  exact ⟨_, _, _, _, _, rfl⟩

/-- An entry that is not in a slack slot, and the landings after it: the ports send, and the slot ends. -/
theorem exec_entry_sends {s x v : State} {c : Clause} {p : Nat} (h : s.onlyPort c p) (hp : p < 32) (hx : s.slotReady none = x) (hready : s.Ready x)
    (hslot : (x.doEntry c p).slot = s.slot) (hv : (x.doEntry c p).landAll none = v) (honly : s.EntryOnly v)
    (hfill : v.Sends (v.slotFill (some c))) : exec .slotTick s = .next ((v.slotFill (some c)).slotEnd (s.slot + 1)) := by
  obtain ⟨-, -, hwait, hpumps⟩ := honly.keeps
  exact exec_entry h hp hx hready hslot hv (hwait.trans h.still.waiting) hpumps hfill

/-- What the end of the slot leaves of the ports' work. -/
theorem slotEnd_after {v y : State} (h : v.Sends y) (n : Nat) : (y.slotEnd n).uses = v.uses ∧ (y.slotEnd n).regions = v.regions
    ∧ (∀ k, (y.slotEnd n).reg k = v.reg k) ∧ (∀ q, (y.slotEnd n).port q = y.port q) ∧ ∀ q, ((y.slotEnd n).port q).landing = (v.port q).landing := by
  refine ⟨(congrArg State.uses h.rest :), (congrArg State.regions h.rest :), fun k => (congrArg (State.reg · k) h.rest :), fun _ => rfl, h.landing⟩

/-- An entry whose flit has gone out: nothing else touches the port's wire in the slot. -/
theorem exec_sent {s x u : State} {c : Clause} {p : Nat} (h : s.onlyPort c p) (hp : p < 32) (hx : s.slotReady none = x) (hready : s.Ready x)
    (hu : x.doEntry c p = u) (honly : s.EntryOnly u) (huses : u.uses = []) (hstate : u.reg (R.linkState p) = 7)
    (hsent : (u.port p).sentAt = some s.now) : ∃ t, exec .slotTick s = .next t ∧ t.uses = [] ∧ t.port p = u.port p
      ∧ t.regions = u.regions ∧ ∀ q, (t.port q).landing = (u.port q).landing := by
  obtain ⟨hslot, hnow, -, -⟩ := honly.keeps
  obtain ⟨hfill, hport⟩ := slotFill_sent (u := u) (c := c) (fun q hq hne => by rw [honly.entryNow]; exact h.other hq hne) hstate (by rw [hnow]; exact hsent)
  refine ⟨_, exec_entry_sends h hp hx hready (by rw [hu]; exact hslot) (by rw [hu]; exact landAll_none huses none) honly hfill, ?_⟩
  obtain ⟨huses', hregions, -, hports, hlanding⟩ := slotEnd_after hfill (s.slot + 1)
  exact ⟨huses'.trans huses, (hports p).trans hport, hregions, hlanding⟩

/-- A port that can transmit is in its last link state. -/
theorem linkState_of_canSend {s : State} {p : Nat} (h : s.canSend p = true) : s.reg (R.linkState p) = 7 := by
  unfold State.canSend at h
  simp only [Bool.and_eq_true] at h
  obtain ⟨⟨hstate, -⟩, -⟩ := h
  exact of_decide_eq_true hstate

theorem sendNew_sentAt (s : State) (p : Nat) (h : FlitHdr) (v : Vec) : ((s.sendNew p h v).port p).sentAt = some s.now := by
  obtain ⟨-, w, st, rot, ret, tm, ack, f, -, hx⟩ := sendNew_port s p h v
  rw [hx]

/-- An entry that does no more than send a flit, after a change to the regions. -/
theorem exec_transmits {s x y : State} {c : Clause} {p : Nat} {hdr : FlitHdr} {v : Vec} (h : s.onlyPort c p) (hp : p < 32)
    (hx : s.slotReady none = x) (hready : s.Ready x) (hdo : x.doEntry c p = y.sendNew p hdr v) (honly : s.EntryOnly y)
    (hport : y.port p = s.port p) (huses : y.uses = []) (hstate : y.reg (R.linkState p) = 7) : ∃ t, exec .slotTick s = .next t
      ∧ (s.port p).Transmits hdr v (t.port p) ∧ t.regions = y.regions := by
  have htransmits := sendNew_transmits y p hdr v
  have hsent := sendNew_sentAt y p hdr v
  have hrest := (sendNew_port y p hdr v).1.rest
  obtain ⟨-, hnow, -⟩ := honly.keeps
  generalize y.sendNew p hdr v = u at *
  obtain ⟨huuses, hustate, hregions⟩ : u.uses = [] ∧ u.reg (R.linkState p) = 7 ∧ u.regions = y.regions := by
    rw [hrest]
    exact ⟨huses, hstate, rfl⟩
  obtain ⟨t, ht, -, hwire, hregions', -⟩ := exec_sent h hp hx hready hdo (honly.trans ⟨_, _, _, _, _, hrest⟩) huuses hustate (by rw [hsent, hnow])
  exact ⟨t, ht, by rw [hwire, ← hport]; exact htransmits, hregions'.trans hregions⟩

/-- A landing map names a core of one of the 16 regions. -/
theorem mapEntry_region (l : List (BitVec 32)) (n : Nat) : (mapEntry l n).1 / 64 < 16 := by
  simp only [mapEntry, bits]
  omega

/-- A lone use whose flit is not there does not land. -/
theorem landAll_waiting {s : State} {u : FUse} (huses : s.uses = [u]) (hflit : s.flitFor u = none) : s.landAll none = s := by
  unfold State.landAll
  rw [huses, sortUses_one]
  refine each_fixed fun w hw => ?_
  obtain rfl : w = u := List.mem_singleton.mp (List.mem_filter.mp hw).1
  unfold State.tryLand
  rw [hflit]
  split
  · rename_i hsome
    cases hsome
  · rfl

/-! ## The cases -/

section
variable {s : State} {c : Clause} {p : Nat} (h : s.onlyPort c p) (hp : p < 32) (hdue : s.noSendDue c) (hvalid : (s.entryNow c p).valid = true)
include h hp hdue hvalid

/-- A local send takes its flit from the spine bridge. -/
theorem slot_send {f : BFlit} (hkind : (s.entryNow c p).kind = 1) (houts : (s.entryNow c p).outs = [p]) (hsend : s.canSend p = true)
    (hcarries : s.carriesSched p = true) (hroom : (s.port p).outstanding < 512)
    (hflit : (s.region ((mapEntry c.sendMap (s.entryNow c p).number).1 / 64)).bridgeOut = [f])
    (hcore : f.core = (mapEntry c.sendMap (s.entryNow c p).number).1) (hstream : f.stream = (mapEntry c.sendMap (s.entryNow c p).number).2)
    (hclaim : f.claim = some s.now) : ∃ t, exec .slotTick s = .next t
      ∧ (s.port p).Transmits (s.timelyHdr (s.entryNow c p).period) f.payload (t.port p)
      ∧ (t.region ((mapEntry c.sendMap (s.entryNow c p).number).1 / 64)).bridgeOut = [] := by
  obtain ⟨x, hx⟩ : ∃ x, s.slotReady none = x := ⟨_, rfl⟩
  have hready := hx ▸ ready_clause h hdue
  obtain ⟨m, hm⟩ := hready.region ((mapEntry c.sendMap (s.entryNow c p).number).1 / 64)
  obtain ⟨rg, n, hshape⟩ := hready.shape
  obtain ⟨hentry, hnow, hsendx, hcarriesx, hport, husesx, hstate, hhdr⟩ : x.entryNow c p = s.entryNow c p ∧ x.now = s.now ∧ x.canSend p = true
      ∧ x.carriesSched p = true ∧ x.port p = s.port p ∧ x.uses = [] ∧ x.reg (R.linkState p) = 7
      ∧ x.timelyHdr (s.entryNow c p).period = s.timelyHdr (s.entryNow c p).period := by
    rw [hshape]
    exact ⟨rfl, rfl, hsend, hcarries, rfl, h.still.uses, linkState_of_canSend hsend, rfl⟩
  clear hshape
  have hdo : x.doEntry c p = (x.modRegion ((mapEntry c.sendMap (s.entryNow c p).number).1 / 64) fun y => y.flitGone f).sendNew p
      (s.timelyHdr (s.entryNow c p).period) f.payload := by
    rw [← hentry] at hvalid hkind houts hflit hcore hstream hm
    rw [doEntry_send hvalid (by simp [performsAt, hkind, houts]) hkind, ← hhdr, ← hentry]
    exact doSend_one houts hsendx hcarriesx (by rw [hport]; exact hroom) (by rw [hm]; exact hflit) hcore hstream (by rw [hnow]; exact hclaim)
  have hempty : ((x.modRegion ((mapEntry c.sendMap (s.entryNow c p).number).1 / 64) fun y => y.flitGone f).region
      ((mapEntry c.sendMap (s.entryNow c p).number).1 / 64)).bridgeOut = [] := by
    rw [region_modRegion, if_pos rfl, hm]
    show List.erase _ f = []
    rw [hflit]
    simp
  obtain ⟨y, hy⟩ : ∃ y, y = x.modRegion ((mapEntry c.sendMap (s.entryNow c p).number).1 / 64) fun y => y.flitGone f := ⟨_, rfl⟩
  rw [← hy] at hdo hempty
  have honly : s.EntryOnly y := hready.entryOnly.trans ⟨_, _, _, _, _, hy⟩
  obtain ⟨hyport, hyuses, hystate⟩ : y.port p = s.port p ∧ y.uses = [] ∧ y.reg (R.linkState p) = 7 := by
    rw [hy]
    exact ⟨hport, husesx, hstate⟩
  obtain ⟨t, ht, htransmits, hregions⟩ := exec_transmits h hp hx hready hdo honly hyport hyuses hystate
  exact ⟨t, ht, htransmits, by rw [region_of_regions hregions]; exact hempty⟩

/-- A forward whose flit is there takes it out of its landing buffer. -/
theorem slot_forward {g : Landed} (hkind : (s.entryNow c p).kind = 2) (houts : (s.entryNow c p).outs = [p]) (hsend : s.canSend p = true)
    (hcarries : s.carriesSched p = true) (hroom : (s.port p).outstanding < 512) (hland : bit (s.entryNow c p).mask 32 = false)
    (hlanded : (s.port (s.entryNow c p).input).landing = [g]) (hslot : g.txSlot = (s.entryUse c (s.entryNow c p)).txSlot)
    (hframe : g.frameLo = (s.entryUse c (s.entryNow c p)).frameLo) (hready : g.ready ≤ s.now) : ∃ t, exec .slotTick s = .next t
      ∧ (s.port p).Transmits (s.timelyHdr g.period) g.payload (t.port p) ∧ t.uses = [] ∧ (t.port (s.entryNow c p).input).landing = [] := by
  obtain ⟨x, hx⟩ : ∃ x, s.slotReady none = x := ⟨_, rfl⟩
  have hxready := hx ▸ ready_clause h hdue
  obtain ⟨rg, n, hshape⟩ := hxready.shape
  obtain ⟨hentry, huse, hsendx, hcarriesx, hport, husesx, hstate, hhdr, hflit, hnow⟩ : x.entryNow c p = s.entryNow c p
      ∧ x.entryUse c (s.entryNow c p) = s.entryUse c (s.entryNow c p) ∧ x.canSend p = true
      ∧ x.carriesSched p = true ∧ (∀ q, x.port q = s.port q) ∧ x.uses = [] ∧ x.reg (R.linkState p) = 7
      ∧ x.timelyHdr g.period = s.timelyHdr g.period ∧ x.flitFor (s.entryUse c (s.entryNow c p)) = some g ∧ x.now = s.now := by
    rw [hshape]
    exact ⟨rfl, rfl, hsend, hcarries, fun _ => rfl, h.still.uses, linkState_of_canSend hsend, rfl, flitFor_one hlanded hslot hframe hready, rfl⟩
  clear hshape
  have hdo : x.doEntry c p = ({ (x.withUse (s.entryUse c (s.entryNow c p))).sendNew p (s.timelyHdr g.period) g.payload with uses := [] } : State).modPort
      (s.entryNow c p).input fun y => y.freed (s.entryUse c (s.entryNow c p)) := by
    rw [← hentry] at hvalid hkind
    rw [doEntry_use hvalid (by simp [performsAt, hentry, houts]) (.inl hkind), hentry, ← hhdr, ← huse]
    exact doUse_forwards husesx (by rw [huse]; exact hflit) houts hsendx hcarriesx (by rw [hport]; exact hroom) hland
  generalize s.entryUse c (s.entryNow c p) = u at *
  obtain ⟨y, hy⟩ : ∃ y, y = x.withUse u := ⟨_, rfl⟩
  rw [← hy] at hdo
  have honly : s.EntryOnly y := hxready.entryOnly.trans ⟨_, _, _, _, _, hy⟩
  obtain ⟨hyport, hynow, hystate⟩ : (∀ q, y.port q = s.port q) ∧ y.now = s.now ∧ y.reg (R.linkState p) = 7 := by
    rw [hy]
    exact ⟨hport, hnow, hstate⟩
  have htransmits := sendNew_transmits y p (s.timelyHdr g.period) g.payload
  have hsent := sendNew_sentAt y p (s.timelyHdr g.period) g.payload
  have hsends := sendsAt_sendNew y p (s.timelyHdr g.period) g.payload
  clear hy
  generalize y.sendNew p _ g.payload = z at *
  obtain ⟨v, hv⟩ : ∃ v, v = ({ z with uses := [] } : State).modPort (s.entryNow c p).input fun y => y.freed u := ⟨_, rfl⟩
  rw [← hv] at hdo
  have hvport (q : Nat) : v.port q = if q = (s.entryNow c p).input then (z.port q).freed u else z.port q := by
    rw [hv, State.modPort, port_setPort]
    split
    · rename_i heq
      rw [heq]
      rfl
    · rfl
  have hvp : (s.port p).Transmits (s.timelyHdr g.period) g.payload (v.port p) ∧ (v.port p).sentAt = some s.now := by
    rw [hvport, ← hyport, ← hynow]
    split
    · exact ⟨htransmits.freed u, hsent⟩
    · exact ⟨htransmits, hsent⟩
  have hvonly : s.EntryOnly v := honly.trans (.trans ⟨_, _, _, _, _, hsends.rest⟩ ⟨_, _, _, _, _, hv⟩)
  have hvstate : v.uses = [] ∧ v.reg (R.linkState p) = 7 := by
    rw [hv]
    exact ⟨rfl, (congrArg (State.reg · (R.linkState p)) hsends.rest :).trans hystate⟩
  obtain ⟨t, ht, huses, hwire, -, hlanding⟩ := exec_sent h hp hx hxready hdo hvonly hvstate.1 hvstate.2 hvp.2
  refine ⟨t, ht, by rw [hwire]; exact hvp.1, huses, ?_⟩
  rw [hlanding, hvport, if_pos rfl]
  exact freed_one (by rw [hsends.sends.landing, hyport]; exact hlanded) hslot hframe

/-- A landing whose flit is there enters the spine bridge. -/
theorem slot_landing {g : Landed} (hkind : (s.entryNow c p).kind = 3) (houts : (s.entryNow c p).outs = [])
    (hland : bit (s.entryNow c p).mask 32 = true)
    (hlanded : (s.port (s.entryNow c p).input).landing = [g]) (hslot : g.txSlot = (s.entryUse c (s.entryNow c p)).txSlot)
    (hframe : g.frameLo = (s.entryUse c (s.entryNow c p)).frameLo) (hready : g.ready ≤ s.now) : ∃ t, exec .slotTick s = .next t
      ∧ t.uses = [] ∧ (t.port (s.entryNow c p).input).landing = []
      ∧ (t.region ((mapEntry c.landMap (s.entryNow c p).number).1 / 64)).spineIn
        = [g.intoBridge (mapEntry c.landMap (s.entryNow c p).number).1 (mapEntry c.landMap (s.entryNow c p).number).2 s.now] := by
  obtain ⟨x, hx⟩ : ∃ x, s.slotReady none = x := ⟨_, rfl⟩
  have hxready := hx ▸ ready_clause h hdue
  obtain ⟨rg, n, hshape⟩ := hxready.shape
  have hbridge : (x.region ((mapEntry c.landMap (s.entryNow c p).number).1 / 64)).spineIn = [] := by
    obtain ⟨m, hm⟩ := hxready.region ((mapEntry c.landMap (s.entryNow c p).number).1 / 64)
    obtain ⟨⟨-, -, -, -, -, -, -, -, -, hstill⟩, -⟩ := h
    rw [hm]
    exact (hstill _ (mapEntry_region _ _)).1
  obtain ⟨hentry, huse, hport, husesx, hflit, hnow⟩ : x.entryNow c p = s.entryNow c p
      ∧ x.entryUse c (s.entryNow c p) = s.entryUse c (s.entryNow c p) ∧ (∀ q, x.port q = s.port q) ∧ x.uses = []
      ∧ x.flitFor (s.entryUse c (s.entryNow c p)) = some g ∧ x.now = s.now := by
    rw [hshape]
    exact ⟨rfl, rfl, fun _ => rfl, h.still.uses, flitFor_one hlanded hslot hframe hready, rfl⟩
  clear hshape
  have hdo : x.doEntry c p = x.withUse (s.entryUse c (s.entryNow c p)) := by
    rw [← hentry] at hvalid hkind
    rw [doEntry_use hvalid (by simp [performsAt, hkind]) (.inr hkind), hentry, ← huse]
    exact doUse_lands husesx (by rw [huse]; exact hflit) houts hland
  have hplace : (s.entryUse c (s.entryNow c p)).land
      = some ((mapEntry c.landMap (s.entryNow c p).number).1, (mapEntry c.landMap (s.entryNow c p).number).2) := if_pos hland
  have hports : (s.entryUse c (s.entryNow c p)).ports = [] := houts
  have hinput : (s.entryUse c (s.entryNow c p)).input = (s.entryNow c p).input := rfl
  generalize s.entryUse c (s.entryNow c p) = u at *
  generalize mapEntry c.landMap (s.entryNow c p).number = k at *
  obtain ⟨y, hy⟩ : ∃ y, y = x.withUse u := ⟨_, rfl⟩
  rw [← hy] at hdo
  have honly : s.EntryOnly y := hxready.entryOnly.trans ⟨_, _, _, _, _, hy⟩
  obtain ⟨hyport, hynow, hyuses, hyflit, hybridge⟩ : (∀ q, y.port q = s.port q) ∧ y.now = s.now ∧ y.uses = [u] ∧ y.flitFor u = some g
      ∧ (y.region (k.1 / 64)).spineIn = [] := by
    rw [hy]
    exact ⟨hport, hnow, by simp [State.withUse, husesx], hflit, hbridge⟩
  clear hy
  have hroom : y.bridgeRoom (k.1 / 64) = true := by simp [State.bridgeRoom, hybridge]
  obtain ⟨rs, rg, po, hshape, hregion, hfreed, -⟩ := tryLand_lands hyuses hports hplace hyflit hroom
  have hlands := landAll_one (only := none) hyuses (by rw [hplace]; rfl) (.inl rfl)
  rw [← hlands] at hshape hregion hfreed
  obtain ⟨v, hv⟩ : ∃ v, y.landAll none = v := ⟨_, rfl⟩
  rw [hv] at hshape hregion hfreed
  have hvonly : s.EntryOnly v := honly.trans ⟨_, _, _, _, _, hshape⟩
  have hfill : v.Sends (v.slotFill (some c)) := slotFill_sends fun q hq => by
    rw [hvonly.entryNow]
    by_cases hqp : q = p
    · exact .inr (by rw [hqp, hkind]; decide)
    · exact .inl (h.other hq hqp)
  refine ⟨_, exec_entry_sends h hp hx hxready (by rw [hdo]; exact honly.keeps.1) (by rw [hdo]; exact hv) hvonly hfill, ?_⟩
  obtain ⟨huses, hregions, -, -, hlanding⟩ := slotEnd_after hfill (s.slot + 1)
  refine ⟨huses.trans (by rw [hshape]), ?_, ?_⟩
  · rw [hlanding, ← hinput, hfreed]
    exact freed_one (by rw [hyport, hinput]; exact hlanded) hslot hframe
  · rw [region_of_regions hregions, hregion]
    show _ ++ _ = _
    rw [hybridge, hynow]
    rfl

/-- A use whose flit is not there waits. -/
theorem slot_waits (hkind : (s.entryNow c p).kind = 2 ∧ (s.entryNow c p).outs.head? = some p ∨ (s.entryNow c p).kind = 3)
    (hflit : s.flitFor (s.entryUse c (s.entryNow c p)) = none) : ∃ t, exec .slotTick s = .next t
      ∧ t.uses = [{ s.entryUse c (s.entryNow c p) with pended := true }] ∧ t.reg R.pendingUses = (s.reg R.pendingUses + 1) % 2 ^ 32 := by
  obtain ⟨x, hx⟩ : ∃ x, s.slotReady none = x := ⟨_, rfl⟩
  have hxready := hx ▸ ready_clause h hdue
  obtain ⟨rg, n, hshape⟩ := hxready.shape
  obtain ⟨hentry, huse, husesx, hflitx, hcount⟩ : x.entryNow c p = s.entryNow c p
      ∧ x.entryUse c (s.entryNow c p) = s.entryUse c (s.entryNow c p) ∧ x.uses = []
      ∧ x.flitFor (s.entryUse c (s.entryNow c p)) = none ∧ x.reg R.pendingUses = s.reg R.pendingUses := by
    rw [hshape]
    exact ⟨rfl, rfl, h.still.uses, hflit, rfl⟩
  clear hshape
  have hperforms : performsAt (s.entryNow c p) p = true := by
    rcases hkind with ⟨-, hhead⟩ | hland
    · simp [performsAt, hhead]
    · simp [performsAt, hland]
  have hkind' : (s.entryNow c p).kind = 2 ∨ (s.entryNow c p).kind = 3 := hkind.imp_left And.left
  have hdo : x.doEntry c p = (x.withUse { s.entryUse c (s.entryNow c p) with pended := true }).bump R.pendingUses 32 := by
    rw [← hentry] at hvalid hperforms hkind'
    rw [doEntry_use hvalid hperforms hkind', hentry, ← huse]
    exact doUse_waits (by rw [huse]; exact hflitx)
  have hlate : x.flitFor { s.entryUse c (s.entryNow c p) with pended := true } = none := hflitx
  generalize ({ s.entryUse c (s.entryNow c p) with pended := true } : FUse) = u at *
  obtain ⟨v, hv⟩ : ∃ v, v = (x.withUse u).bump R.pendingUses 32 := ⟨_, rfl⟩
  rw [← hv] at hdo
  obtain ⟨hvuses, hvcount, hvflit⟩ : v.uses = [u] ∧ v.reg R.pendingUses = (s.reg R.pendingUses + 1) % 2 ^ 32 ∧ v.flitFor u = none := by
    rw [hv]
    refine ⟨by simp [State.withUse, State.bump, husesx], ?_, hlate⟩
    rw [← hcount]
    exact (reg_setReg _ _ _ _).trans (if_pos rfl)
  have hvonly : s.EntryOnly v := hxready.entryOnly.trans ⟨_, _, _, _, _, hv⟩
  have hlands : v.landAll none = v := landAll_waiting hvuses hvflit
  have hfill : v.Sends (v.slotFill (some c)) := slotFill_sends fun q hq => by
    rw [hvonly.entryNow]
    by_cases hqp : q = p
    · exact .inr (by rcases hkind' with hk | hk <;> rw [hqp, hk] <;> decide)
    · exact .inl (h.other hq hqp)
  refine ⟨_, exec_entry_sends h hp hx hxready (by rw [hdo]; exact hvonly.keeps.1) (by rw [hdo]; exact hlands) hvonly hfill, ?_⟩
  obtain ⟨huses, -, hregs, -, -⟩ := slotEnd_after hfill (s.slot + 1)
  exact ⟨huses.trans hvuses, (hregs _).trans hvcount⟩

end

end Sys2Proof.Machine
end

section
/-! A slack slot, or one outside a clause: a flit sent again, or a message begun (R189, R226, R238, R247). -/

namespace Sys2Proof.Machine

/-- A walk split at one of its places. -/
theorem each_split {f : State → Nat → State} {n p : Nat} (hp : p < n) (s : State) : ∃ a b, (∀ q ∈ a ++ b, q < n ∧ q ≠ p)
    ∧ s.each (List.range n) f = (f (s.each a f) p).each b f := by
  obtain ⟨a, b, hab⟩ := List.append_of_mem (List.mem_range.mpr hp)
  have hnodup : (a ++ p :: b).Nodup := hab ▸ List.nodup_range
  refine ⟨a, b, fun q hq => ⟨List.mem_range.mp (hab ▸ ?_), fun h => (List.nodup_middle.mp hnodup).notMem (h ▸ hq)⟩, ?_⟩
  · rcases List.mem_append.mp hq with h | h <;> simp [h]
  · rw [hab]
    exact List.foldl_append

/-! ## Training elsewhere -/

/-- A port that has been sent on at training. -/
theorem sendTraining_port (s : State) (p : Nat) : ∃ w st f, (s.sendTraining p).port p
    = { s.port p with word := w, stream := st, wire := f, sentAt := some s.now } := by
  obtain ⟨-, w, st, h⟩ := onWire_port s p _
  exact ⟨w, st, _, h⟩

/-- Whether a port holds a message before `q` of its flow. -/
def Port.holdsBefore (x : Port) (q : TxMsg) : Bool := x.txq.any (fun y => decide (y.stamp < q.stamp) && sameFlow y.msg q.msg)
  || x.held.any (fun y => decide (y.1 < q.stamp) && sameFlow y.2 q.msg)
  || x.continOf.toList.any fun y => decide (y.stamp < q.stamp) && sameFlow y.msg q.msg

theorem behind_eq (s : State) (q : TxMsg) : s.behind q = (s.waiting.any (fun y => decide (y.stamp < q.stamp) && sameFlow y.msg q.msg)
    || s.mgmtQueue.any (fun y => decide (y.1 < q.stamp) && sameFlow y.2 q.msg) || s.ports.any fun x => x.2.holdsBefore q) := rfl

theorem behind_setPort {s : State} {p : Nat} {x : Port} {q : TxMsg} (h : x.holdsBefore q = (s.port p).holdsBefore q) :
    (s.setPort p x).behind q = s.behind q := by
  rw [behind_eq, behind_eq]
  congr 1
  exact any_tab_set (f := fun y : Port => y.holdsBefore q) rfl h

/-- `t` is `s` with other ports than `p` sent on at training, and the slot begun. -/
structure State.Trained (s : State) (p : Nat) (t : State) : Prop where
  shape : ∃ rg n po, t = { s with regions := rg, claimed := n, ports := po }
  port : t.port p = s.port p
  behind : ∀ q, t.behind q = s.behind q

theorem State.Ready.trained {s t : State} (h : s.Ready t) (p : Nat) : s.Trained p t := by
  obtain ⟨rg, n, rfl⟩ := h.shape
  exact ⟨⟨_, _, _, rfl⟩, rfl, fun _ => rfl⟩

theorem State.Trained.sendTraining {s t : State} {p q : Nat} (h : s.Trained p t) (hq : q ≠ p) : s.Trained p (t.sendTraining q) := by
  obtain ⟨hshape, hport, hbehind⟩ := h
  have hat := sendsAt_sendTraining t q
  refine ⟨?_, (hat.other p (Ne.symm hq)).trans hport, fun m => ?_⟩
  · obtain ⟨po, hpo⟩ : ∃ po, t.sendTraining q = { t with ports := po } := ⟨_, hat.rest⟩
    obtain ⟨rg, n, po', rfl⟩ := hshape
    exact ⟨rg, n, po, hpo⟩
  · rw [← hbehind]
    obtain ⟨w, st, f, hx⟩ := sendTraining_port t q
    have hset : t.sendTraining q = t.setPort q ((t.sendTraining q).port q) := by
      rw [show (t.sendTraining q).port q = _ from port_modPort _ _ _]
      rfl
    rw [hset, hx]
    exact behind_setPort rfl

/-! ## The slot -/

/-- What sending in a slack slot leaves to the rest of the slot. -/
def State.SlackKeeps (u z : State) : Prop := z.pumps = u.pumps ∧ ∀ q < 32, z.reg (R.linkState q) = u.reg (R.linkState q)

theorem fillSlot_slack {s : State} {p : Nat} {c : Option Clause} (hsend : s.canSend p = true) (hquench : (s.port p).quenchTx = [])
    (hc : c = none ∨ ∃ d, c = some d ∧ (s.entryNow d p).valid = true ∧ (s.entryNow d p).kind = 4) : s.fillSlot c p = s.sendSlack p := by
  have htrain : s.training p = false := by
    unfold State.training
    rw [linkState_of_canSend hsend]
    decide
  have hnone : s.sendQuenchFlit p = none := by
    unfold State.sendQuenchFlit
    rw [hquench]
  unfold State.fillSlot
  rw [if_neg (by simp [htrain]), if_neg (by simp [hsend]), hnone]
  rcases hc with rfl | ⟨d, rfl, hvalid, hkind⟩
  · rfl
  · dsimp only
    rw [if_neg (by simp [hvalid]), if_pos hkind]

theorem canSend_down {s : State} {p : Nat} (h : s.reg (R.linkState p) ≠ 7) : s.canSend p = false := by
  simp [State.canSend, h]

/-- The ports that come before the sending port in the slot. -/
theorem trained_before {s y : State} {p : Nat} {c : Option Clause} {a : List Nat} (hy : s.Ready y)
    (hdown : ∀ q ∈ a, q ≠ p ∧ s.reg (R.linkState q) ≠ 7) : s.Trained p (y.each a fun t q => t.fillSlot c q) := by
  refine each_of_keeps (P := s.Trained p) (fun t q hq ht => ?_) (hy.trained p)
  obtain ⟨hne, hstate⟩ := hdown q hq
  have hstate' : t.reg (R.linkState q) ≠ 7 := by
    obtain ⟨rg, n, po, rfl⟩ := ht.shape
    exact hstate
  rcases fillSlot_training (canSend_down hstate') c with h | h <;> rw [h]
  · exact ht
  · exact ht.sendTraining hne

/-- Those that come after it. -/
theorem sent_after {z : State} {p : Nat} {c : Option Clause} {b : List Nat} (hdown : ∀ q ∈ b, q ≠ p ∧ z.reg (R.linkState q) ≠ 7) :
    z.Sends (z.each b fun t q => t.fillSlot c q) ∧ (z.each b fun t q => t.fillSlot c q).port p = z.port p := by
  refine each_of_keeps (P := fun t => z.Sends t ∧ t.port p = z.port p) (fun t q hq ht => ?_) ⟨.refl z, rfl⟩
  obtain ⟨ht, hport⟩ := ht
  obtain ⟨hne, hstate⟩ := hdown q hq
  have hstate' : t.reg (R.linkState q) ≠ 7 := by
    rw [ht.rest]
    exact hstate
  rcases fillSlot_training (canSend_down hstate') c with h | h <;> rw [h]
  · exact ⟨ht, hport⟩
  · have hat := sendsAt_sendTraining t q
    exact ⟨ht.trans hat.sends, (hat.other p (Ne.symm hne)).trans hport⟩

/-- The slot is outside every clause, or port `p` alone has an entry in it, a slack slot. -/
def State.slackSlot (s : State) (p : Nat) : Prop := s.runningClause = none
  ∨ ∃ c, s.onlyPort c p ∧ s.noSendDue c ∧ (s.entryNow c p).valid = true ∧ (s.entryNow c p).kind = 4

theorem ready_slack {s : State} {p : Nat} (h : s.stillSlot) (hc : s.slackSlot p) : s.Ready (s.slotReady none) := by
  rcases hc with hnone | ⟨c, honly, hdue, -, -⟩
  · exact ready_none h hnone
  · exact ready_clause honly hdue

/-- No scheduled operation takes place in a slack slot. -/
theorem slotWork_slack {s y : State} {p : Nat} (hp : p < 32) (h : s.stillSlot) (hc : s.slackSlot p) (hy : s.Ready y) :
    y.slotWork s.runningClause = y := by
  obtain ⟨-, -, -, huses, hwait, -⟩ := h
  obtain ⟨rg, n, rfl⟩ := hy.shape
  have hentries : ({ s with regions := rg, claimed := n } : State).slotEntries s.runningClause = { s with regions := rg, claimed := n } := by
    rcases hc with hnone | ⟨c, ⟨-, hrun, -, hother⟩, -, -, hkind⟩
    · rw [hnone]
      rfl
    · have hslack := doEntry_slack (s := { s with regions := rg, claimed := n }) (c := c) (p := p) hkind
      rw [hrun]
      exact (doEntries_at (s := { s with regions := rg, claimed := n }) hp hother (by rw [hslack])).trans hslack
  unfold State.slotWork
  rw [hentries, landAll_none (s := { s with regions := rg, claimed := n }) huses, retryWaiting_none (s := { s with regions := rg, claimed := n }) hwait]

/-- In a slack slot the port sends what R189 names, and no other port transmits. -/
theorem exec_slack {s : State} {p : Nat} (h : s.stillSlot) (hp : p < 32) (hc : s.slackSlot p) (hsend : s.canSend p = true)
    (hdown : ∀ q < 32, q ≠ p → s.reg (R.linkState q) ≠ 7) : ∃ u, s.Trained p u ∧ (u.SlackKeeps (u.sendSlack p) →
      ∃ t, exec .slotTick s = .next t ∧ t.port p = (u.sendSlack p).port p ∧ ∀ k, t.reg k = (u.sendSlack p).reg k) := by
  obtain ⟨y, hy⟩ : ∃ y, s.slotReady none = y := ⟨_, rfl⟩
  have hready := hy ▸ ready_slack h hc
  have hwork := slotWork_slack hp h hc hready
  have hrun : y.runningClause = s.runningClause := by
    obtain ⟨rg, n, rfl⟩ := hready.shape
    rfl
  obtain ⟨a, b, hab, hsplit⟩ := each_split (f := fun t q => t.fillSlot s.runningClause q) hp y
  have hdown' (q : Nat) (hq : q ∈ a ++ b) : q ≠ p ∧ s.reg (R.linkState q) ≠ 7 := ⟨(hab q hq).2, hdown q (hab q hq).1 (hab q hq).2⟩
  have hu := trained_before (c := s.runningClause) hready fun q hq => hdown' q (List.mem_append_left b hq)
  obtain ⟨u, hueq⟩ : ∃ u, y.each a (fun t q => t.fillSlot s.runningClause q) = u := ⟨_, rfl⟩
  rw [hueq] at hu hsplit
  refine ⟨u, hu, fun hkeeps => ?_⟩
  obtain ⟨hpumps, hlinks⟩ := hkeeps
  obtain ⟨hsendu, husame⟩ : u.canSend p = true ∧ u.pumps = s.pumps ∧ (∀ k, u.reg k = s.reg k) ∧ ∀ d q, u.entryNow d q = s.entryNow d q := by
    obtain ⟨⟨rg, n, po, hshape⟩, hport, -⟩ := hu
    have hsendu : u.canSend p = true := by
      unfold State.canSend at hsend ⊢
      rw [hport, hshape]
      exact hsend
    refine ⟨hsendu, ?_⟩
    rw [hshape]
    exact ⟨rfl, fun _ => rfl, fun _ _ => rfl⟩
  obtain ⟨hupumps, hureg, huentry⟩ := husame
  have hfill : u.fillSlot s.runningClause p = u.sendSlack p := by
    refine fillSlot_slack hsendu (by rw [hu.port]; exact h.quenchTx hp) ?_
    rcases hc with hnone | ⟨c, ⟨-, hc, -⟩, -, hvalid, hkind⟩
    · exact .inl hnone
    · exact .inr ⟨c, hc, by rw [huentry]; exact hvalid, by rw [huentry]; exact hkind⟩
  rw [hfill] at hsplit
  generalize u.sendSlack p = z at *
  have hafter := sent_after (z := z) (p := p) (c := s.runningClause) (b := b) fun q hq => ⟨(hdown' q (List.mem_append_right a hq)).1, by
    rw [hlinks q (hab q (List.mem_append_right a hq)).1, hureg]
    exact (hdown' q (List.mem_append_right a hq)).2⟩
  obtain ⟨w, hw⟩ : ∃ w, z.each b (fun t q => t.fillSlot s.runningClause q) = w := ⟨_, rfl⟩
  rw [hw] at hafter hsplit
  obtain ⟨hsends, hport⟩ := hafter
  have hwsame : w.pumps = z.pumps ∧ ∀ k, w.reg k = z.reg k := by
    obtain ⟨po, hpo⟩ : ∃ po, w = { z with ports := po } := ⟨_, hsends.rest⟩
    rw [hpo]
    exact ⟨rfl, fun _ => rfl⟩
  refine ⟨w.slotEnd (s.slot + 1), exec_slot h hy hrun (by rw [hwork]; exact hsplit) (hwsame.1.trans (hpumps.trans hupumps)), hport, hwsame.2⟩

end Sys2Proof.Machine
end

section
/-! What a slack slot sends: a flit of the replay buffer again, or the first flit of a message (R226, R238, R247). -/

namespace Sys2Proof.Machine

/-! ## A replay -/

/-- The header of a flit sent again: its sequence and slot fields, late, and the port's present control fields (R226, R238). -/
def Port.againHeader (x : Port) (f : BitVec 2176) : Nat :=
  bits f.toNat 19 0 + bits f.toNat 49 34 * 2 ^ 34 + 2 ^ 70 + x.control x.creditPick

theorem againHeader_fields (x : Port) (f : BitVec 2176) : x.againHeader f < 2 ^ 128 ∧ bits (x.againHeader f) 19 8 = fh f 19 8
    ∧ bits (x.againHeader f) 45 34 = fh f 45 34 ∧ bits (x.againHeader f) 70 70 = 1 := by
  obtain ⟨a, g, n, c, d, ha, hg, hn, hc, hd, hctl⟩ := control_cases x
  unfold Port.againHeader fh
  rw [hctl]
  generalize f.toNat = m
  simp only [bits]
  refine ⟨?_, ?_, ?_, ?_⟩ <;> omega

/-- The flit at the resend pointer goes again. -/
theorem sendReplay_port {s : State} {p : Nat} {n : BitVec 12} {e : ReplayEntry} (hresend : (s.port p).resend = some n)
    (hfind : ((s.port p).replay.find? fun y => y.seq = n) = some e) : ∃ t, s.sendReplay p = some t
      ∧ (t.port p).wire = sealedFlit ((s.port p).againHeader e.flit) (flitPayload e.flit) ∧ (t.port p).seqTx = (s.port p).seqTx
      ∧ (∃ po, t = ({ s with ports := po } : State).bump R.slackReplays 32) := by
  obtain ⟨hp, w, st, rot, ret, hx⟩ := putWire_port s p (sealedFlit ((s.port p).againHeader e.flit) (flitPayload e.flit))
  have key (g : Port → Port) (hg : ∀ y, (g y).wire = y.wire ∧ (g y).seqTx = y.seqTx) :
      ∃ t, some (((s.putWire p (sealedFlit ((s.port p).againHeader e.flit) (flitPayload e.flit))).modPort p g).bump R.slackReplays 32) = some t
        ∧ (t.port p).wire = sealedFlit ((s.port p).againHeader e.flit) (flitPayload e.flit) ∧ (t.port p).seqTx = (s.port p).seqTx
        ∧ (∃ po, t = ({ s with ports := po } : State).bump R.slackReplays 32) := by
    obtain ⟨po, hpo⟩ : ∃ po, s.putWire p (sealedFlit ((s.port p).againHeader e.flit) (flitPayload e.flit)) = { s with ports := po } := ⟨_, hp.rest⟩
    generalize s.putWire p _ = y at *
    have hport : ((y.modPort p g).bump R.slackReplays 32).port p = g (y.port p) := port_modPort y p g
    refine ⟨_, rfl, ?_, ?_, ?_⟩
    · rw [hport, (hg _).1, hx]
    · rw [hport, (hg _).2, hx]
    · rw [hpo]
      exact ⟨_, rfl⟩
  unfold State.sendReplay
  dsimp only
  rw [hresend]
  dsimp only
  rw [hfind]
  exact key _ fun _ => ⟨rfl, rfl⟩

theorem linkState_ne_slackReplays (p : Nat) (hp : p < 32) : R.linkState p ≠ R.slackReplays := by
  simp only [R.linkState, R.slackReplays, regKey]
  omega

theorem slackKeeps_replay {s t : State} (h : ∃ po, t = ({ s with ports := po } : State).bump R.slackReplays 32) : s.SlackKeeps t
    ∧ t.reg R.slackReplays = (s.reg R.slackReplays + 1) % 2 ^ 32 := by
  obtain ⟨po, rfl⟩ := h
  refine ⟨⟨rfl, fun q hq => (reg_setReg _ _ _ _).trans (if_neg (linkState_ne_slackReplays q hq))⟩, (reg_setReg _ _ _ _).trans (if_pos rfl)⟩

section
variable {s : State} {p : Nat} (h : s.stillSlot) (hp : p < 32) (hc : s.slackSlot p) (hsend : s.canSend p = true)
  (hdown : ∀ q < 32, q ≠ p → s.reg (R.linkState q) ≠ 7)
include h hp hc hsend hdown

/-- A slack slot sends the flit at the resend pointer again. -/
theorem slot_replays {n : BitVec 12} {e : ReplayEntry} (hresend : (s.port p).resend = some n)
    (hfind : ((s.port p).replay.find? fun y => y.seq = n) = some e) (hseq : fh e.flit 19 8 = n.toNat) : ∃ t, exec .slotTick s = .next t
      ∧ flitPayload (t.port p).wire = flitPayload e.flit ∧ fh (t.port p).wire 19 8 = n.toNat
      ∧ fh (t.port p).wire 45 34 = fh e.flit 45 34 ∧ fh (t.port p).wire 70 70 = 1 ∧ crcOk (t.port p).wire = true
      ∧ (t.port p).seqTx = (s.port p).seqTx ∧ t.reg R.slackReplays = (s.reg R.slackReplays + 1) % 2 ^ 32 := by
  obtain ⟨u, hu, hslot⟩ := exec_slack h hp hc hsend hdown
  obtain ⟨z, hz, hwire, hseqTx, honly⟩ := sendReplay_port (s := u) (p := p) (by rw [hu.port]; exact hresend) (by rw [hu.port]; exact hfind)
  have hslack : u.sendSlack p = z := by
    unfold State.sendSlack
    rw [hz]
  obtain ⟨hkeeps, hcount⟩ := slackKeeps_replay honly
  rw [hslack] at hslot
  obtain ⟨t, ht, hport, hreg⟩ := hslot hkeeps
  obtain ⟨hlt, h1, h2, h3⟩ := againHeader_fields (u.port p) e.flit
  have hureg : u.reg R.slackReplays = s.reg R.slackReplays := by
    obtain ⟨rg, m, po, hshape⟩ := hu.shape
    rw [hshape]
    rfl
  refine ⟨t, ht, ?_⟩
  rw [hport, hwire, hseqTx, hreg, hcount, hureg, hu.port] at *
  exact ⟨payload_sealed hlt _, (fh_sealed _ _ _ (by decide)).trans (h1.trans hseq), (fh_sealed _ _ _ (by decide)).trans h2,
    (fh_sealed _ _ _ (by decide)).trans h3, crcOk_sealed _ _, rfl, rfl⟩

end

/-! ## A message -/

/-- A message that leaves the part frees its place in a class buffer, and no more. -/
theorem left_port (s : State) (q : TxMsg) (p : Nat) : ∃ hd gr rh rd, (s.left q).port p
    = { s.port p with held := hd, grantOut := gr, rxHdr := rh, rxData := rd } := by
  have hsame : ∃ hd gr rh rd, s.port p = { s.port p with held := hd, grantOut := gr, rxHdr := rh, rxData := rd } :=
    ⟨(s.port p).held, (s.port p).grantOut, (s.port p).rxHdr, (s.port p).rxData, rfl⟩
  unfold State.left State.freeHeld
  split
  · split
    · exact hsame
    · rw [State.modPort, port_setPort]
      split
      · rename_i heq
        rw [heq]
        exact ⟨_, _, _, _, rfl⟩
      · exact hsame
  · exact hsame

/-- The credit counts of a port that has started message `m` (R247). -/
def Port.usedAfter (x : Port) (m : Msg) : Tab (BitVec 16) :=
  Tab.set (Tab.set x.used (2 * (m.vc - 1)) (Tab.get 0 x.used (2 * (m.vc - 1)) + 1)) (2 * (m.vc - 1) + 1)
    (Tab.get 0 x.used (2 * (m.vc - 1) + 1) + BitVec.ofNat 16 m.units.length)

theorem usedAfter_counts (x : Port) (m : Msg) : Tab.get 0 (x.usedAfter m) (2 * (m.vc - 1)) = Tab.get 0 x.used (2 * (m.vc - 1)) + 1
    ∧ Tab.get 0 (x.usedAfter m) (2 * (m.vc - 1) + 1) = Tab.get 0 x.used (2 * (m.vc - 1) + 1) + BitVec.ofNat 16 m.units.length := by
  simp [Port.usedAfter]

/-- `y` is a port that has started message `q`, the port `x` before. -/
structure Port.Starts (x : Port) (q : TxMsg) (h : FlitHdr) (y : Port) : Prop where
  sent : x.Transmits h ((msgFlits q.msg).headD 0) y
  contin : y.contin = (msgFlits q.msg).tail
  taken : ∀ z ∈ y.txq, z.stamp ≠ q.stamp
  used : y.used = x.usedAfter q.msg

theorem Port.Starts.held {x y : Port} {q : TxMsg} {h : FlitHdr} (hs : x.Starts q h y) (hd gr rh rd) :
    x.Starts q h { y with held := hd, grantOut := gr, rxHdr := rh, rxData := rd } :=
  ⟨⟨hs.sent.wire, hs.sent.seqTx, hs.sent.replay⟩, hs.contin, hs.taken, hs.used⟩

theorem sendMsg_port (s : State) (p : Nat) (q : TxMsg) : (s.port p).Starts q (s.classHdr 2 q.msg) ((s.sendMsg p q).port p) := by
  obtain ⟨f, rest, hflits⟩ : ∃ f rest, msgFlits q.msg = f :: rest := ⟨_, _, rfl⟩
  have hsent := sendNew_transmits s p (s.classHdr 2 q.msg) f
  have hused : ((s.sendNew p (s.classHdr 2 q.msg) f).port p).used = (s.port p).used := by
    obtain ⟨-, w, st, rot, ret, tm, ack, g, -, hx⟩ := sendNew_port s p (s.classHdr 2 q.msg) f
    rw [hx]
  have hstarts (g : Port → Port) (hg : ∀ y, (g y).wire = y.wire ∧ (g y).seqTx = y.seqTx ∧ (g y).replay = y.replay ∧ (g y).contin = rest
      ∧ (g y).txq = (y.txq.filter fun z => z.stamp ≠ q.stamp) ∧ (g y).used = y.usedAfter q.msg) :
      (s.port p).Starts q (s.classHdr 2 q.msg) (((s.sendNew p (s.classHdr 2 q.msg) f).modPort p g).port p) := by
    rw [port_modPort]
    generalize (s.sendNew p (s.classHdr 2 q.msg) f).port p = y at *
    obtain ⟨hwire, hseq, hreplay, hcontin, htxq, hused'⟩ := hg y
    refine ⟨⟨?_, hseq.trans hsent.seqTx, hreplay ▸ hsent.replay⟩, ?_, fun z hz => ?_, ?_⟩
    · rw [hwire, hsent.wire, hflits]
      rfl
    · rw [hcontin, hflits]
      rfl
    · rw [htxq] at hz
      exact of_decide_eq_true (List.mem_filter.mp hz).2
    · rw [hused', Port.usedAfter, hused]
      rfl
  unfold State.sendMsg
  dsimp only
  rw [hflits]
  dsimp only
  split
  · obtain ⟨hd, gr, rh, rd, hleft⟩ := left_port ((s.sendNew p (s.classHdr 2 q.msg) f).modPort p _) q p
    rw [hleft]
    refine (hstarts _ ?_).held hd gr rh rd
    exact fun _ => ⟨rfl, rfl, rfl, rfl, rfl, rfl⟩
  · refine hstarts _ ?_
    exact fun _ => ⟨rfl, rfl, rfl, rfl, rfl, rfl⟩

/-- The message a port would start is of a class that messages have. -/
theorem nextMsg_vc {s : State} {p : Nat} {q : TxMsg} (h : s.nextMsg p = some q) : (s.port p).resend = none ∧ 1 ≤ q.msg.vc ∧ q.msg.vc ≤ 7 := by
  unfold State.nextMsg at h
  dsimp only at h
  split at h
  · cases h
  · rename_i hres
    obtain ⟨vc, hvc, hfind⟩ := List.exists_of_findSome?_eq_some h
    have hmem := List.mem_of_find?_eq_some hfind
    have heq : q.msg.vc = vc := by simpa using (List.mem_filter.mp hmem).2
    refine ⟨by simpa using hres, ?_⟩
    rw [heq]
    simp only [List.mem_append, List.mem_cons, List.not_mem_nil, or_false, List.mem_map] at hvc
    rcases hvc with (rfl | rfl) | ⟨i, -, rfl⟩ <;> omega

theorem nextMsg_trained {s u : State} {p : Nat} (h : s.Trained p u) : u.nextMsg p = s.nextMsg p := by
  have hcarries (vc : Nat) : u.carries p vc = s.carries p vc := by
    obtain ⟨rg, n, po, hshape⟩ := h.shape
    rw [hshape]
    rfl
  unfold State.nextMsg
  simp only [h.port, h.behind, hcarries]

/-- With nothing to send again, no use and no message begun, the port starts the message whose turn it is. -/
theorem sendSlack_starts {u : State} {p : Nat} {q : TxMsg} (hresend : (u.port p).resend = none) (huses : u.uses = [])
    (hcontin : (u.port p).continOf = none) (hop : u.opDue p = false) (hnext : u.nextMsg p = some q) (hroom : (u.port p).outstanding < 512) :
    u.sendSlack p = u.sendMsg p q := by
  have hreplay : u.sendReplay p = none := by
    unfold State.sendReplay
    dsimp only
    rw [hresend]
  have hpending : u.sendPending p = none := by
    have hfor : u.pendingFor p = none := by simp [State.pendingFor, huses, sortUses]
    unfold State.sendPending
    rw [hfor]
    exact ite_self _
  unfold State.sendSlack
  rw [hreplay, hpending]
  show u.sendCredit p = _
  unfold State.sendCredit
  dsimp only
  rw [hcontin, hop, hnext, decide_eq_true hroom]
  rfl

/-- A slack slot with nothing to send again starts a message of the credit classes. -/
theorem slot_starts {s : State} {p : Nat} (h : s.stillSlot) (hp : p < 32) (hc : s.slackSlot p) (hsend : s.canSend p = true)
    (hdown : ∀ q < 32, q ≠ p → s.reg (R.linkState q) ≠ 7) {q : TxMsg} (hcontin : (s.port p).continOf = none)
    (hop : s.opDue p = false) (hnext : s.nextMsg p = some q) (hroom : (s.port p).outstanding < 512) : ∃ t, exec .slotTick s = .next t
      ∧ (s.port p).Starts q (s.classHdr 2 q.msg) (t.port p) := by
  obtain ⟨u, hu, hslot⟩ := exec_slack h hp hc hsend hdown
  obtain ⟨hresend, -⟩ := nextMsg_vc hnext
  obtain ⟨huses, hophdr⟩ : u.uses = [] ∧ u.opDue p = s.opDue p ∧ u.classHdr 2 q.msg = s.classHdr 2 q.msg := by
    obtain ⟨⟨rg, n, po, hshape⟩, hport, -⟩ := hu
    have hdue : u.opDue p = s.opDue p := by
      unfold State.opDue
      rw [hport, hshape]
      rfl
    refine ⟨?_, hdue, ?_⟩
    · rw [hshape]
      exact h.uses
    · rw [hshape]
      rfl
  obtain ⟨hopu, hhdr⟩ := hophdr
  have hslack := sendSlack_starts (u := u) (p := p) (q := q) (by rw [hu.port]; exact hresend) huses (by rw [hu.port]; exact hcontin)
    (hopu.trans hop) ((nextMsg_trained hu).trans hnext) (by rw [hu.port]; exact hroom)
  have hkeeps : u.SlackKeeps (u.sendMsg p q) := by
    obtain ⟨po, hpo⟩ : ∃ po, u.sendMsg p q = { u with ports := po } := ⟨_, (sends_sendMsg u p q).rest⟩
    rw [hpo]
    exact ⟨rfl, fun _ _ => rfl⟩
  have hstarts := sendMsg_port u p q
  rw [hu.port, hhdr] at hstarts
  rw [hslack] at hslot
  obtain ⟨t, ht, hport, -⟩ := hslot hkeeps
  exact ⟨t, ht, by rw [hport]; exact hstarts⟩

end Sys2Proof.Machine
end

section
/-! The deadline of a local send 8 slots ahead: its flit taken, or SLOT_LATE (R163, R176, R177). -/

namespace Sys2Proof.Machine

theorem mem_replace_of_mem {α : Type} [BEq α] [LawfulBEq α] {l : List α} {a : α} (b : α) (h : a ∈ l) : b ∈ l.replace a b := by
  obtain ⟨as, bs, rfl, hnot⟩ := List.eq_append_cons_of_mem h
  rw [List.replace_append_right hnot, List.replace_cons_self]
  simp

/-! ## A slot without entries -/

/-- The claims of a slot in which no port has an entry are all that happens, but for the ports. -/
theorem exec_gap {s z : State} {c : Clause} {p : Nat} (h : s.onlyPort c p) (hgap : (s.entryNow c p).valid = false)
    (hz : s.slotArrivals.claimSends s.slotArrivals.runningClause none = z) (huses : z.uses = []) (hwait : z.waiting = [])
    (hpumps : z.pumps = s.pumps) (hslot : z.slot = s.slot) (hrun : z.runningClause = some c) :
    ∃ w : State, z.Sends w ∧ exec .slotTick s = .next (w.slotEnd (s.slot + 1)) := by
  have hready : s.slotReady none = z.quenchSlots := by
    unfold State.slotReady
    rw [hz, missDeadlines_none huses, landAll_none huses]
  have hsends := sends_quenchSlots z
  obtain ⟨y, hy⟩ : ∃ y, z.quenchSlots = y := ⟨_, rfl⟩
  rw [hy] at hready hsends
  obtain ⟨po, hpo⟩ : ∃ po, y = { z with ports := po } := ⟨_, hsends.rest⟩
  obtain ⟨hyuses, hywait, hypumps, hyrun⟩ : y.uses = [] ∧ y.waiting = [] ∧ y.pumps = s.pumps ∧ y.runningClause = some c := by
    rw [hpo]
    exact ⟨huses, hwait, hpumps, hrun⟩
  have hinvalid (q : Nat) (hq : q < 32) : (y.entryNow c q).valid = false := by
    have hentry : y.entryNow c q = s.entryNow c q := by
      unfold State.entryNow
      rw [hpo, ← hslot]
    rw [hentry]
    by_cases hqp : q = p
    · rw [hqp]
      exact hgap
    · exact h.other hq hqp
  have hentries : y.doEntries c = y := by
    rw [doEntries_eq]
    exact each_fixed fun q hq => doEntry_invalid (hinvalid q (List.mem_range.mp hq))
  have hwork : y.slotWork (some c) = y := by
    show (y.doEntries c |>.landAll none).retryWaiting = y
    rw [hentries, landAll_none hyuses, retryWaiting_none hywait]
  have hfill : y.Sends (y.slotFill (some c)) := slotFill_sends fun q hq => .inl (hinvalid q hq)
  refine ⟨y.slotFill (some c), hsends.trans hfill, exec_slot h.still hready hyrun (by rw [hwork]) ?_⟩
  obtain ⟨po', hpo'⟩ : ∃ po, y.slotFill (some c) = { y with ports := po } := ⟨_, hfill.rest⟩
  rw [hpo']
  exact hypumps

/-! ## The claim -/

/-- The entry 8 slots ahead at a port. -/
def State.entryAhead (s : State) (c : Clause) (p : Nat) : SlotEntry := entryFields (c.entry p (s.slot + 8))

theorem claimSlot_at {s : State} {c : Clause} {p : Nat} (hp : p < 32) (hslot : s.slot < 4088)
    (hother : ∀ q < 32, q ≠ p → (s.entryAhead c q).valid = true → (s.entryAhead c q).kind ≠ 1) (hvalid : (s.entryAhead c p).valid = true)
    (hkind : (s.entryAhead c p).kind = 1) (hhead : (s.entryAhead c p).outs.head? = some p) :
    s.claimSlot c (s.now + 8) = s.claimSend c (s.entryAhead c p) (s.now + 8) := by
  have hahead : (s.now + 8) % 4096 = s.slot + 8 := by unfold State.now; omega
  have hclaims : performsAt (s.entryAhead c p) p = true := by simp [performsAt, hkind, hhead]
  unfold State.claimSlot
  rw [hahead]
  refine (each_only (f := fun t q => if (s.entryAhead c q).valid ∧ (s.entryAhead c q).kind = 1 ∧ performsAt (s.entryAhead c q) q
    then t.claimSend c (s.entryAhead c q) (s.now + 8) else t) hp ?_ ?_).trans (if_pos ⟨hvalid, hkind, hclaims⟩)
  · exact fun q hq hne => if_neg fun hx => hother q hq hne hx.1 hx.2.1
  · exact fun q hq hne => if_neg fun hx => hother q hq hne hx.1 hx.2.1

/-- The region with a flit of its bridge taken for absolute slot `a`. -/
def Region.flitClaimed (x : Region) (f : BFlit) (a : Nat) : Region := { x with bridgeOut := x.bridgeOut.replace f { f with claim := some a } }

theorem claimSend_takes {s : State} {c : Clause} {e : SlotEntry} {a : Nat} {f : BFlit}
    (hopen : s.openFlit (mapEntry c.sendMap e.number).1 (mapEntry c.sendMap e.number).2 = some f) (hready : f.ready + 8 ≤ a) :
    s.claimSend c e a = s.modRegion ((mapEntry c.sendMap e.number).1 / 64) fun x => x.flitClaimed f a := by
  unfold State.claimSend
  generalize mapEntry c.sendMap e.number = k at *
  obtain ⟨core, st⟩ := k
  dsimp only at hopen ⊢
  rw [hopen]
  exact if_pos hready

theorem claimSend_late {s : State} {c : Clause} {e : SlotEntry} {a : Nat}
    (hopen : s.openFlit (mapEntry c.sendMap e.number).1 (mapEntry c.sendMap e.number).2 = none) :
    s.claimSend c e a = s.slotLate (mapEntry c.sendMap e.number).1 (mapEntry c.sendMap e.number).2 := by
  unfold State.claimSend
  generalize mapEntry c.sendMap e.number = k at *
  obtain ⟨core, st⟩ := k
  dsimp only at hopen ⊢
  rw [hopen]

section
variable {s : State} {c : Clause} {p : Nat} (h : s.onlyPort c p) (hp : p < 32) (hclaimed : s.claimed = s.now + 8)
  (hother : ∀ q < 32, q ≠ p → (s.entryAhead c q).valid = true → (s.entryAhead c q).kind ≠ 1) (hvalid : (s.entryAhead c p).valid = true)
  (hkind : (s.entryAhead c p).kind = 1) (hhead : (s.entryAhead c p).outs.head? = some p)
include h hp hclaimed hother hvalid hkind hhead

/-- The state in which the send 8 slots ahead is looked at, and what is made of it. -/
theorem claims_ahead : ∃ y, s.Recounted y ∧ s.slotArrivals.claimSends s.slotArrivals.runningClause none
    = { y.claimSend c (s.entryAhead c p) (s.now + 8) with claimed := s.now + 9 } := by
  have hrec := recounted_slotArrivals h.still
  have hclaims := slotArrivals_claims h
  rw [if_pos hclaimed] at hclaims
  generalize s.slotArrivals = y at *
  refine ⟨y, hrec, hclaims.trans ?_⟩
  obtain ⟨rg, rfl⟩ := hrec.shape
  have hat := claimSlot_at (s := { s with regions := rg }) (c := c) hp h.still.slot_lt hother hvalid hkind hhead
  rw [show ({ s with regions := rg } : State).now = s.now from rfl] at hat
  rw [hat]
  rfl

end

end Sys2Proof.Machine
end

section
/-! What comes of a local send 8 slots ahead (R163, R176, R177). -/

namespace Sys2Proof.Machine

/-! ## SLOT_LATE -/

/-- What the first fault of a step that leads to a replay and names a core leaves alone, and its log entry. -/
theorem raise_replay_atCore_keeps {s : State} (hs : s.quiet) {code : Nat} (hact : faultAct code = .replay) (hcore : code / 256 = 0x10)
    (unit detail c pc : Nat) : ({ s with firstFault := true } : State).QuenchOnly (s.raise code unit detail (some (c, pc)))
      ∧ (∀ k, k ∉ quenchRegs → (s.raise code unit detail (some (c, pc))).reg k = s.reg k)
      ∧ (s.raise code unit detail (some (c, pc))).logged code unit detail := by
  obtain ⟨hun, -⟩ := causeKept_quiet hs code unit detail (some (c, pc)) c
  have hkept := causeKept_quenchOnly s code unit detail
  have hreg (k : Nat) (h1 : k ∉ logRegs) (h2 : k ≠ R.lastFaultCause) := reg_causeKept s code unit detail h1 h2
  have hlogged : ∃ e l, (s.causeKept code unit detail).log = l ++ [e] ∧ e.code = code ∧ e.unit = unit % 256 ∧ e.detail = BitVec.ofNat 64 detail := by
    obtain ⟨e, l, r, g, n, h, hcode, -, hunit, hdetail, -⟩ := logEntry_cases s code 1 unit detail
    refine ⟨e, l, ?_, hcode, hunit, hdetail⟩
    show (s.logEntry code 1 unit detail).log = _
    rw [h]
  have hact' (t : State) : t.actOn code detail (some (c, pc)) 0 = t.originate code false false := by simp only [State.actOn, hact]
  rw [raise_atCore hs hcore, hact']
  generalize s.causeKept code unit detail = u at *
  have hnote := quenchOnly_noteCoreFault u code (some (c, pc))
  have htells := (tells_originate (u.noteCoreFault code (some (c, pc))) code false false).after (tells_noteCoreFault u code (some (c, pc)))
  refine ⟨(hkept.trans hnote).trans (quenchOnly_originate _ _ _ _), fun k hk => ?_, ?_⟩
  · obtain ⟨hlog, hrecord, hcause, hfault, hfaultCore⟩ := not_mem_quenchRegs hk
    rw [reg_originate_of_unquenched hun _ _ _ hlog hrecord, noteCoreFault_core u hcore, reg_coreNoted_other u code c hfaultCore hfault]
    exact hreg k hlog hcause
  · obtain ⟨e, l, hl, hcode, hunit, hdetail⟩ := hlogged
    exact ⟨e, htells.logged (by decide) hl, hcode, hunit, hdetail⟩

/-- The region stops after the beat, or at once where it issues nothing. -/
def Region.lateStop (x : Region) (issues : Bool) : Region :=
  if issues then { x with stopping := true } else { x with stopped := true, frameHeld := false }

theorem lateStop_stops (x : Region) (issues : Bool) :
    if issues = true then (x.lateStop issues).stopping = true else (x.lateStop issues).stopped = true := by
  cases issues <;> rfl

/-- The flit that is still to come is owed. -/
def State.owing (s : State) (c st : Nat) : State :=
  { s with lateDebt := Tab.set s.lateDebt (8 * c + st) (Tab.get 0 s.lateDebt (8 * c + st) + 1) }

/-- The detail of SLOT_LATE: the core that owns the stream, slot C and its present bundle. -/
def State.lateDetail (s : State) (c : Nat) : Nat :=
  coreDetail c (72 * (c / 64) + (s.region (c / 64)).map.getD (c % 64) 0) 3 (s.core c).pc (s.region (c / 64)).beat

theorem slotLate_owes {s : State} {c st : Nat} (h : s.openFlit c st = none) : s.slotLate c st
    = ((s.owing c st).raise 0x1003 (c / 64) (s.lateDetail c) (some (c, (s.core c).pc))).modRegion (c / 64)
        fun x => x.lateStop (s.issuing (c / 64)) := by
  unfold State.slotLate
  dsimp only
  rw [h]
  rfl

/-- `t` is `s` with a stream's flit late and no flit of it in the bridge. -/
structure State.Late (s : State) (c st : Nat) (t : State) : Prop where
  uses : t.uses = s.uses
  waiting : t.waiting = s.waiting
  pumps : t.pumps = s.pumps
  slot : t.slot = s.slot
  running : t.runningClause = s.runningClause
  debt : t.lateDebt = (s.owing c st).lateDebt
  cause : t.reg R.lastFaultCause = 0x1003
  logged : t.logged 0x1003 (c / 64) (s.lateDetail c)
  stopped : ∃ x : Region, t.region (c / 64) = x.lateStop (s.issuing (c / 64))

theorem late_slotLate {s : State} {c st : Nat} (hopen : s.openFlit c st = none) (hq : s.quiet) : s.Late c st (s.slotLate c st) := by
  have hoq : (s.owing c st).quiet := hq
  rw [slotLate_owes hopen]
  obtain ⟨hcause, -, -⟩ := raise_replay_atCore hoq (code := 0x1003) (by decide) (by decide) (c / 64) (s.lateDetail c) c (s.core c).pc
  obtain ⟨honly, hreg, hlogged⟩ := raise_replay_atCore_keeps hoq (code := 0x1003) (by decide) (by decide) (c / 64) (s.lateDetail c) c (s.core c).pc
  generalize (s.owing c st).raise 0x1003 (c / 64) (s.lateDetail c) (some (c, (s.core c).pc)) = x at *
  obtain ⟨huses, hwait, hpumps, hslot, hdebt, hsched, hhalf0, hhalf1⟩ : x.uses = s.uses ∧ x.waiting = s.waiting ∧ x.pumps = s.pumps
      ∧ x.slot = s.slot ∧ x.lateDebt = (s.owing c st).lateDebt ∧ x.sched = s.sched ∧ x.half0 = s.half0 ∧ x.half1 = s.half1 := by
    obtain ⟨r, l, g, n, q, e, j, a, rm, po, st, fn, seen, hshape⟩ := honly
    rw [hshape]
    exact ⟨rfl, rfl, rfl, rfl, rfl, rfl, rfl, rfl⟩
  have hrun : x.runningClause = s.runningClause := by
    have hclause : x.reg R.activeClause = s.reg R.activeClause := hreg _ (by decide)
    have hhalf : x.reg R.activeHalf = s.reg R.activeHalf := hreg _ (by decide)
    unfold State.runningClause State.clauseAt State.activeHalf
    rw [hsched, hclause, hhalf, hhalf0, hhalf1]
  exact ⟨huses, hwait, hpumps, hslot, hrun, hdebt, hcause, hlogged, x.region (c / 64), (region_modRegion _ _ _ _).trans (if_pos rfl)⟩

/-! ## After a recount -/

theorem openFlit_recounted {s y : State} (h : s.Recounted y) (c st : Nat) : y.openFlit c st = s.openFlit c st := by
  obtain ⟨n, hn⟩ := h.region (c / 64)
  unfold State.openFlit
  rw [hn]

theorem core_recounted {s y : State} (h : s.Recounted y) (c : Nat) : y.core c = s.core c := by
  obtain ⟨n, hn⟩ := h.region (c / 64)
  unfold State.core
  rw [hn]

theorem issuing_recounted {s y : State} (h : s.Recounted y) (r : Nat) : y.issuing r = s.issuing r := by
  have hnative : y.native = s.native := by
    obtain ⟨rg, rfl⟩ := h.shape
    rfl
  have hheld : y.held r = s.held r := by
    obtain ⟨n, hn⟩ := h.region r
    have hstalls (q : Nat) : (y.region q).stalls = (s.region q).stalls := by
      obtain ⟨m, hm⟩ := h.region q
      rw [hm]
    unfold State.held
    simp only [hstalls, hnative]
    rw [hn]
  obtain ⟨n, hn⟩ := h.region r
  unfold State.issuing
  rw [hheld, hn]
  rfl

theorem lateDetail_recounted {s y : State} (h : s.Recounted y) (c : Nat) : y.lateDetail c = s.lateDetail c := by
  obtain ⟨n, hn⟩ := h.region (c / 64)
  unfold State.lateDetail
  rw [core_recounted h, hn]

theorem late_recounted {s y t : State} {c st : Nat} (h : s.Recounted y) (hl : y.Late c st t) : s.Late c st t := by
  have hdetail := lateDetail_recounted h c
  have hissues := issuing_recounted h (c / 64)
  obtain ⟨rg, rfl⟩ := h.shape
  exact ⟨hl.uses, hl.waiting, hl.pumps, hl.slot, hl.running, hl.debt, hl.cause, hdetail ▸ hl.logged, hissues ▸ hl.stopped⟩

/-- What the ports' work and the end of the slot leave alone. -/
theorem slotEnd_keeps {z w : State} (h : z.Sends w) (n : Nat) : (w.slotEnd n).regions = z.regions ∧ (w.slotEnd n).lateDebt = z.lateDebt
    ∧ (w.slotEnd n).log = z.log ∧ ∀ k, (w.slotEnd n).reg k = z.reg k :=
  ⟨(congrArg State.regions h.rest :), (congrArg State.lateDebt h.rest :), (congrArg State.log h.rest :),
    fun k => (congrArg (State.reg · k) h.rest :)⟩

/-! ## The cases -/

section
variable {s : State} {c : Clause} {p : Nat} (h : s.onlyPort c p) (hp : p < 32) (hgap : (s.entryNow c p).valid = false)
  (hclaimed : s.claimed = s.now + 8)
  (hother : ∀ q < 32, q ≠ p → (s.entryAhead c q).valid = true → (s.entryAhead c q).kind ≠ 1) (hvalid : (s.entryAhead c p).valid = true)
  (hkind : (s.entryAhead c p).kind = 1) (hhead : (s.entryAhead c p).outs.head? = some p)
include h hp hgap hclaimed hother hvalid hkind hhead

/-- A flit that is in the bridge in time is taken. -/
theorem slot_claims {f : BFlit}
    (hopen : s.openFlit (mapEntry c.sendMap (s.entryAhead c p).number).1 (mapEntry c.sendMap (s.entryAhead c p).number).2 = some f)
    (hready : f.ready ≤ s.now) : ∃ t, exec .slotTick s = .next t
      ∧ { f with claim := some (s.now + 8) } ∈ (t.region ((mapEntry c.sendMap (s.entryAhead c p).number).1 / 64)).bridgeOut
      ∧ t.lateDebt = s.lateDebt ∧ t.reg R.lastFaultCause = s.reg R.lastFaultCause := by
  obtain ⟨y, hrec, hclaims⟩ := claims_ahead h hp hclaimed hother hvalid hkind hhead
  rw [claimSend_takes (by rw [openFlit_recounted hrec]; exact hopen) (by omega)] at hclaims
  have hmem : f ∈ (y.region ((mapEntry c.sendMap (s.entryAhead c p).number).1 / 64)).bridgeOut := by
    obtain ⟨n, hn⟩ := hrec.region ((mapEntry c.sendMap (s.entryAhead c p).number).1 / 64)
    rw [hn]
    exact List.mem_of_find?_eq_some hopen
  have hregion : { f with claim := some (s.now + 8) } ∈ ((y.modRegion ((mapEntry c.sendMap (s.entryAhead c p).number).1 / 64)
      fun x => x.flitClaimed f (s.now + 8)).region ((mapEntry c.sendMap (s.entryAhead c p).number).1 / 64)).bridgeOut := by
    rw [region_modRegion, if_pos rfl]
    exact mem_replace_of_mem _ hmem
  generalize (mapEntry c.sendMap (s.entryAhead c p).number).1 / 64 = r at *
  obtain ⟨z, hz⟩ : ∃ z, z = ({ y.modRegion r fun x => x.flitClaimed f (s.now + 8) with claimed := s.now + 9 } : State) := ⟨_, rfl⟩
  rw [← hz] at hclaims
  obtain ⟨rg, hrg⟩ := hrec.shape
  obtain ⟨huses, hwait, hpumps, hslot, hrun, hdebt, hreg⟩ : z.uses = [] ∧ z.waiting = [] ∧ z.pumps = s.pumps ∧ z.slot = s.slot
      ∧ z.runningClause = some c ∧ z.lateDebt = s.lateDebt ∧ z.reg R.lastFaultCause = s.reg R.lastFaultCause := by
    rw [hz, hrg]
    exact ⟨h.still.uses, h.still.waiting, rfl, rfl, h.running, rfl, rfl⟩
  have hmem' : { f with claim := some (s.now + 8) } ∈ (z.region r).bridgeOut := by
    rw [hz]
    exact hregion
  obtain ⟨w, hsends, hexec⟩ := exec_gap h hgap hclaims huses hwait hpumps hslot hrun
  obtain ⟨hregions, hdebt', -, hreg'⟩ := slotEnd_keeps hsends (s.slot + 1)
  exact ⟨_, hexec, by rw [region_of_regions hregions]; exact hmem', hdebt'.trans hdebt, (hreg' _).trans hreg⟩

/-- A stream with no flit in the bridge is late: its core's region stops. -/
theorem slot_late
    (hopen : s.openFlit (mapEntry c.sendMap (s.entryAhead c p).number).1 (mapEntry c.sendMap (s.entryAhead c p).number).2 = none)
    (hq : s.quiet) : ∃ t, exec .slotTick s = .next t ∧ t.reg R.lastFaultCause = 0x1003
      ∧ t.logged 0x1003 ((mapEntry c.sendMap (s.entryAhead c p).number).1 / 64) (s.lateDetail (mapEntry c.sendMap (s.entryAhead c p).number).1)
      ∧ t.lateDebt = (s.owing (mapEntry c.sendMap (s.entryAhead c p).number).1 (mapEntry c.sendMap (s.entryAhead c p).number).2).lateDebt
      ∧ ∃ x : Region, t.region ((mapEntry c.sendMap (s.entryAhead c p).number).1 / 64)
        = x.lateStop (s.issuing ((mapEntry c.sendMap (s.entryAhead c p).number).1 / 64)) := by
  obtain ⟨y, hrec, hclaims⟩ := claims_ahead h hp hclaimed hother hvalid hkind hhead
  have hyopen := hopen
  rw [← openFlit_recounted hrec] at hyopen
  rw [claimSend_late hyopen] at hclaims
  have hyq : y.quiet := by
    obtain ⟨rg, rfl⟩ := hrec.shape
    exact hq
  have hlate := late_recounted hrec (late_slotLate hyopen hyq)
  generalize mapEntry c.sendMap (s.entryAhead c p).number = k at *
  generalize y.slotLate k.1 k.2 = x at *
  obtain ⟨w, hsends, hexec⟩ := exec_gap h hgap hclaims (hlate.uses.trans h.still.uses) (hlate.waiting.trans h.still.waiting) hlate.pumps hlate.slot
    (hlate.running.trans h.running)
  obtain ⟨hregions, hdebt, hlog, hreg⟩ := slotEnd_keeps hsends (s.slot + 1)
  obtain ⟨e, he, hcode, hunit, hdetail⟩ := hlate.logged
  obtain ⟨r, hr⟩ := hlate.stopped
  exact ⟨_, hexec, (hreg _).trans hlate.cause, ⟨e, by rw [hlog]; exact he, hcode, hunit, hdetail⟩, hdebt.trans hlate.debt, r,
    (region_of_regions hregions _).trans hr⟩

end

end Sys2Proof.Machine
end

section
/-! The frame, the slot and network time, which faults and messages leave alone (R165). -/

namespace Sys2Proof.Machine

/-- The frame, the slot and network time. -/
structure Clock where
  frame : Nat
  slot : Nat
  subSlot : Nat
  nt32 : BitVec 32
  ntFrac : BitVec 16
  wrapDue : Nat

/-- That projection of a state. -/
def State.clock (s : State) : Clock := ⟨s.frame, s.slot, s.subSlot, s.nt32, s.ntFrac, s.wrapDue⟩

theorem clock_ite {c : Prop} [Decidable c] {s t u : State} (ht : t.clock = s.clock) (hu : u.clock = s.clock) :
    (if c then t else u).clock = s.clock := by
  split
  · exact ht
  · exact hu

theorem clock_each {α : Type} {f : State → α → State} (h : ∀ t x, (f t x).clock = t.clock) (s : State) (l : List α) :
    (s.each l f).clock = s.clock := each_keeps State.clock f l s fun t x _ => h t x

theorem clock_setReg (s : State) (k v : Nat) : (s.setReg k v).clock = s.clock := rfl
theorem clock_bump (s : State) (k w n : Nat) : (s.bump k w n).clock = s.clock := rfl
theorem clock_modPort (s : State) (p : Nat) (f : Port → Port) : (s.modPort p f).clock = s.clock := rfl
theorem clock_modRegion (s : State) (r : Nat) (f : Region → Region) : (s.modRegion r f).clock = s.clock := rfl
theorem clock_modCore (s : State) (c : Nat) (f : Core → Core) : (s.modCore c f).clock = s.clock := rfl
theorem clock_modChan (s : State) (c : Nat) (f : Chan → Chan) : (s.modChan c f).clock = s.clock := rfl

/-! ## Faults -/

theorem State.QuenchOnly.clock {s t : State} (h : s.QuenchOnly t) : t.clock = s.clock := by
  obtain ⟨r, l, g, n, q, e, j, a, rm, po, st, fn, seen, rfl⟩ := h
  rfl

theorem State.Counted.clock {s t : State} (h : s.Counted t) : t.clock = s.clock := by
  obtain ⟨r, l, g, n, e, rfl⟩ := h.only
  rfl

theorem State.Sends.clock {s t : State} (h : s.Sends t) : t.clock = s.clock := (congrArg State.clock h.rest :)

theorem clock_logEntry (s : State) (code kind unit detail : Nat) : (s.logEntry code kind unit detail).clock = s.clock :=
  (counted_logEntry s code kind unit detail).clock

theorem clock_event (s : State) (code unit detail : Nat) : (s.event code unit detail).clock = s.clock := clock_logEntry s code 0 unit detail

theorem clock_noteCoreFault (s : State) (code : Nat) (at? : Option (Nat × Nat)) : (s.noteCoreFault code at?).clock = s.clock :=
  (quenchOnly_noteCoreFault s code at?).clock

theorem clock_originate (s : State) (cause : Nat) (isEnd held : Bool) : (s.originate cause isEnd held).clock = s.clock :=
  (quenchOnly_originate s cause isEnd held).clock

theorem clock_sendQuench (s : State) (q : QRec) : (s.sendQuench q).clock = s.clock := by
  unfold State.sendQuench
  dsimp only
  obtain ⟨po, st, n, seen, h⟩ := flood_cases s [] 2 (({ q with origin := s.chip } : QRec).bytes (s.epochFromQ { q with origin := s.chip }))
  rw [h]
  exact (quenchOnly_takeRecord _ _ _).clock

theorem clock_holdRecord (s : State) : s.holdRecord.clock = s.clock := by
  unfold State.holdRecord
  split
  · exact clock_sendQuench _ _
  · rfl

/-! ## Messages on their way -/

theorem clock_newTx (s : State) (m : Msg) : (s.newTx m).2.clock = s.clock := rfl

theorem clock_reserve (s : State) (x : ReplySlot) : (s.reserve x).clock = s.clock := rfl

theorem clock_offerMsg {s t : State} {q : TxMsg} (h : s.offerMsg q = some t) : t.clock = s.clock := by
  unfold State.offerMsg at h
  split at h
  · cases h
  · dsimp only at h
    split at h
    · cases h
    · split at h <;> obtain rfl := Option.some.inj h <;> rfl

theorem clock_noteDrop (s : State) (q : TxMsg) : (s.noteDrop q).clock = s.clock := by
  have hleft : (((s.bump R.routeDrops 32).setReg R.routeDropLast (mf q.msg 2 2 % 4096)).left q).clock = s.clock := (sends_left _ q).clock
  unfold State.noteDrop
  extract_lets dest s1
  have h1 : s1.clock = s.clock := hleft
  clear_value s1
  exact clock_ite h1 ((clock_event _ _ _ _).trans h1)

theorem clock_askTwin (s : State) (off : Nat) : (s.askTwin off).2.clock = s.clock := by
  unfold State.askTwin
  dsimp only
  split
  · rfl
  · split
    · exact clock_ite rfl rfl
    · split
      · rfl
      · split
        · next h => exact (rfl : State.clock _ = _).trans ((clock_offerMsg h).trans rfl)
        · exact (clock_noteDrop _ _).trans rfl

/-- A repair that is asked for, or refused, leaves the clock to what follows. -/
theorem clock_asked {s t : State} {off : Nat} {ok : Bool} (h : s.askTwin off = (ok, t)) : t.clock = s.clock := by
  have hask := clock_askTwin s off
  rwa [h] at hask

theorem clock_nextRepair (s : State) : s.nextRepair.clock = s.clock := by
  unfold State.nextRepair
  split
  · rfl
  · split
    · next h => exact (clock_asked h).trans rfl
    · next h => exact (clock_holdRecord _).trans ((clock_asked h).trans rfl)

theorem clock_repairFail (s : State) : s.repairFail.clock = s.clock := by
  unfold State.repairFail
  split
  · exact (clock_nextRepair _).trans ((clock_holdRecord _).trans rfl)
  · rfl

/-! ## Faults acted on -/

theorem clock_spare {s t : State} {c : Nat} (h : s.spare c = some t) : t.clock = s.clock := by
  unfold State.spare at h
  dsimp only at h
  split at h
  · cases h
  · obtain rfl := Option.some.inj h
    exact (clock_event _ _ _ _).trans rfl

theorem clock_secondMem (s : State) (code addr : Nat) : (s.secondMem code addr).clock = s.clock := by
  unfold State.secondMem
  dsimp only
  split
  · split
    · next h => exact (clock_asked h).trans rfl
    · next h => exact (clock_originate _ _ _ _).trans ((clock_asked h).trans rfl)
  · rfl

theorem clock_actOn (s : State) (code detail : Nat) (at? : Option (Nat × Nat)) (addr : Nat) : (s.actOn code detail at? addr).clock = s.clock := by
  unfold State.actOn
  split
  · rfl
  · exact clock_originate _ _ _ _
  · exact clock_originate _ _ _ _
  · exact clock_originate _ _ _ _
  · dsimp only
    split
    · exact (clock_originate _ _ _ _).trans ((clock_askTwin _ _).trans rfl)
    · exact (clock_originate _ _ _ _).trans rfl
  · split
    · exact clock_originate _ _ _ _
    · dsimp only
      split
      · exact (clock_originate _ _ _ _).trans rfl
      · split
        · split
          · next h => exact (clock_originate _ _ _ _).trans ((clock_spare h).trans rfl)
          · exact (clock_originate _ _ _ _).trans ((clock_noteCoreFault _ _ _).trans ((clock_logEntry _ _ _ _ _).trans rfl))
        · exact (clock_originate _ _ _ _).trans rfl

theorem clock_raise (s : State) (code unit detail : Nat) (at? : Option (Nat × Nat)) (addr : Nat) :
    (s.raise code unit detail at? addr).clock = s.clock := by
  have hlog (kind : Nat) : ((s.logEntry code kind unit detail).noteCoreFault code at?).clock = s.clock :=
    (clock_noteCoreFault _ _ _).trans (clock_logEntry _ _ _ _ _)
  have hcause : (((s.logEntry code 1 unit detail).setReg R.lastFaultCause code).noteCoreFault code at?).clock = s.clock :=
    (clock_noteCoreFault _ _ _).trans ((clock_setReg _ _ _).trans (clock_logEntry _ _ _ _ _))
  unfold State.raise
  split
  · split
    · exact hlog 2
    · exact (rfl : State.clock _ = _).trans hcause
  · split
    · exact hlog 0
    · dsimp only
      split
      · split
        · exact (clock_actOn _ _ _ _ _).trans (hlog 2)
        · split
          · exact (clock_secondMem _ _ _).trans (hlog 2)
          · exact hlog 2
      · exact (clock_actOn _ _ _ _ _).trans hcause

theorem clock_raiseBad (s : State) (space off : Nat) : (s.raiseBad space off).clock = s.clock := clock_raise _ _ _ _ _ _

end Sys2Proof.Machine
end

section
/-! Replies, memory and the DMA channels leave the frame, the slot and network time alone (R165, R421). -/

namespace Sys2Proof.Machine

/-! ## Replies -/

theorem clock_writeWord (s : State) (space off : Nat) (d : List Byte) : (s.writeWord space off d).clock = s.clock := by
  unfold State.writeWord
  exact clock_ite rfl rfl

theorem clock_bgPush (s : State) (off : Nat) (d : List Byte) : (s.bgPush off d).clock = s.clock := rfl

theorem clock_bgWrite (s : State) (space off : Nat) (d : List Byte) : (s.bgWrite space off d).clock = s.clock := by
  unfold State.bgWrite
  exact clock_ite (clock_writeWord _ _ _ _) rfl

theorem clock_pushWords (l : List (BitVec 512)) (s : State) (loc : Nat) (undef : Bool) : (s.pushWords loc undef l).clock = s.clock := by
  induction l generalizing s loc with
  | nil => rfl
  | cons w l ih =>
    unfold State.pushWords
    cases undef
    · exact (ih _ _).trans rfl
    · exact (ih _ _).trans rfl

theorem clock_dmaAnswer (s : State) (x : ReplySlot) (reason : Nat) : (s.dmaAnswer x reason).clock = s.clock := rfl

theorem clock_edgeIn (s : State) (x : ReplySlot) (status : Nat) (l : List (BitVec 512)) : (s.edgeIn x status l).clock = s.clock := rfl

theorem clock_repairWord (s : State) (d : List Byte) : (s.repairWord d).clock = s.clock := by
  unfold State.repairWord
  split
  · rfl
  · exact (clock_nextRepair _).trans ((clock_event _ _ _ _).trans ((rfl : State.clock _ = _).trans (clock_bgWrite _ _ _ _)))

theorem clock_replyIn (s : State) (port : Nat) (m : Msg) : (s.replyIn port m).clock = s.clock := by
  unfold State.replyIn
  dsimp only
  split
  · rfl
  · rename_i x _
    obtain ⟨sl, hsl⟩ : ∃ sl, sl = (if (decide (mf m 9 1 = 0 ∧ (x.kind = 0 ∨ x.kind = 3))) = true
      then s.slots.replace x { x with answered := true } else s.slots.erase x) := ⟨_, rfl⟩
    rw [← hsl]
    obtain ⟨s1, hs1⟩ : ∃ s1, s1 = ({ s with slots := sl } : State) := ⟨_, rfl⟩
    have h1 : s1.clock = s.clock := by rw [hs1]; rfl
    rw [← hs1]
    split
    · split
      · rfl
      · have h2 (b : Bool) (l : List (BitVec 512)) : (if mf m 9 1 = 0 ∧ x.kind = 0 then s1.pushWords x.loc b l else s1).clock = s.clock :=
          clock_ite ((clock_pushWords _ _ _ _).trans h1) h1
        split
        · exact (rfl : State.clock _ = _).trans (h2 _ _)
        · exact (clock_raise _ _ _ _ _ _).trans ((rfl : State.clock _ = _).trans (h2 _ _))
    · split
      · split
        · exact (rfl : State.clock _ = _).trans h1
        · exact (clock_dmaAnswer _ _ _).trans h1
      · split
        · exact (clock_dmaAnswer _ _ _).trans h1
        · split
          · exact (clock_edgeIn _ _ _ _).trans h1
          · split
            · split
              · exact (clock_repairWord _ _).trans h1
              · exact (clock_repairFail _).trans h1
            · rfl

theorem clock_reply (s : State) (port : Nat) (req : Msg) (status : Nat) (units : List (BitVec 512)) :
    (s.reply port req status units).clock = s.clock := by
  unfold State.reply
  dsimp only
  split
  · exact clock_replyIn _ _ _
  · split
    · next h => exact (clock_offerMsg h).trans rfl
    · exact (clock_noteDrop _ _).trans rfl

theorem clock_routeMsg (s : State) (q : TxMsg) : (s.routeMsg q).clock = s.clock := by
  unfold State.routeMsg
  split
  · next h => exact clock_offerMsg h
  · exact clock_ite ((clock_reply _ _ _ _ _).trans (clock_noteDrop _ _)) (clock_noteDrop _ _)

theorem clock_retryWaiting (s : State) : s.retryWaiting.clock = s.clock := clock_each clock_routeMsg _ _

/-! ## Memory read and written -/

theorem clock_touchStack (s : State) (k : Nat) : (s.touchStack k).clock = s.clock := by
  unfold State.touchStack
  dsimp only
  split
  · rfl
  · split <;> rfl

theorem clock_touchStacks (s : State) (space off n : Nat) : (s.touchStacks space off n).clock = s.clock := by
  unfold State.touchStacks
  exact clock_ite rfl (clock_each clock_touchStack _ _)

theorem clock_readRange (s : State) (a n : Nat) : (s.readRange a n).2.2.clock = s.clock := by
  unfold State.readRange
  dsimp only
  split
  · exact (counted_readSram s _ _).clock
  · exact (counted_readDramWords _ _ _).clock.trans (clock_touchStacks _ _ _ _)
  · rfl

theorem clock_transferBytes (s : State) (d : Desc) (o n : Nat) : (s.transferBytes d o n).2.2.clock = s.clock := by
  unfold State.transferBytes
  split
  · rfl
  · exact clock_readRange _ _ _

theorem clock_freeWhere (s : State) (x : Chan) (d : Desc) (o : Nat) (l : List Byte) : (s.freeWhere x d o l).2.clock = s.clock := by
  unfold State.freeWhere
  split <;> rfl

theorem clock_markClash (s : State) (x : List (Nat × Nat × Nat × Bool)) : (s.markClash x).clock = s.clock := rfl

theorem clock_writeRange (s : State) (space off : Nat) (d : List Byte) : (s.writeRange space off d).1.clock = s.clock :=
  writeRange_keeps State.clock (fun t _ w en _ => writePart_keeps State.clock (fun t d => clock_writeWord t _ _ d) (fun _ _ _ => rfl)
    (fun t => (counted_readStack t _).clock) (fun _ _ => rfl) (fun _ t => clock_raiseBad t _ _) t w en) s

theorem clock_bgTry (s : State) (key l : List Nat) : (s.bgTry key l).1.clock = s.clock := by
  obtain ⟨b, ok, h⟩ := bgTry_cases s key l
  rw [h]
  rfl

/-! ## Local transfers -/

theorem clock_putSegment (s : State) (c : Nat) (d : Desc) (o : Nat) (l : List Byte) (bad : Nat → Bool) (fails : Bool) :
    (s.putSegment c d o l bad fails).1.clock = s.clock := by
  have hfree := clock_freeWhere s (s.chan c) d o l
  have hfold (f : State → Nat → State) (hf : ∀ t u, (f t u).clock = t.clock) (u : List Nat) (t : State) (ht : t.clock = s.clock) :
      (u.foldl f t).clock = s.clock := (clock_each hf t u).trans ht
  unfold State.putSegment
  dsimp only
  generalize s.freeWhere (s.chan c) d o l = r at *
  split
  · exact (clock_writeRange _ _ _ _).trans ((clock_modChan _ _ _).trans ((clock_markClash _ _).trans hfree))
  · refine hfold _ (fun t u => ?_) _ _ ((clock_modChan _ _ _).trans ((clock_markClash _ _).trans hfree))
    split
    · rfl
    · exact clock_ite ((clock_writeRange _ _ _ _).trans rfl) rfl

theorem clock_undoSegment (s : State) (c : Nat) (d : Desc) (i : Nat) : (s.undoSegment c d i).clock = s.clock := by
  unfold State.undoSegment
  exact (clock_modChan _ _ _).trans (clock_each (fun t g => clock_putSegment _ _ _ _ _ _ _) _ _)

theorem clock_movePiece (s : State) (c : Nat) (d : Desc) (o n reason : Nat) : (s.movePiece c d o n reason).1.clock = s.clock := by
  have hread := clock_transferBytes s d o n
  unfold State.movePiece
  dsimp only
  generalize s.transferBytes d o n = r at *
  exact (clock_putSegment _ _ _ _ _ _ _).trans ((clock_touchStacks _ _ _ _).trans hread)

theorem clock_localTurn (s : State) (c : Nat) : (s.localTurn c).clock = s.clock := by
  unfold State.localTurn
  dsimp only
  generalize descFields (s.chan c).desc = d
  split
  · rfl
  · split
    · rfl
    · have htry (l : List Nat) := clock_bgTry s [3, c] l
      split
      · exact htry _
      · split
        · exact (clock_modChan _ _ _).trans ((clock_movePiece _ _ _ _ _ _).trans (htry _))
        · exact (clock_modChan _ _ _).trans ((clock_undoSegment _ _ _ _).trans
            ((clock_modChan _ _ _).trans ((clock_movePiece _ _ _ _ _ _).trans (htry _))))

/-! ## Remote transfers -/

theorem clock_dmaSend (s : State) (c i far units n kind : Nat) (data : List (BitVec 512)) :
    (s.dmaSend c i far units n kind data).clock = s.clock := by
  unfold State.dmaSend
  dsimp only
  exact (clock_routeMsg _ _).trans rfl

theorem clock_dmaPush (s : State) (c i far n : Nat) : (s.dmaPush c i far n).clock = s.clock := by
  unfold State.dmaPush
  dsimp only
  split
  · split
    · rfl
    · exact (clock_modChan _ _ _).trans (clock_dmaSend _ _ _ _ _ _ _ _)
  · split
    · rfl
    · have htry := clock_bgTry s [3, c] ((descFields (s.chan c).desc).words (s.chan c).sent n)
      generalize s.bgTry [3, c] ((descFields (s.chan c).desc).words (s.chan c).sent n) = b at *
      split
      · exact htry
      · have hread := (clock_transferBytes b.1 (descFields (s.chan c).desc) (s.chan c).sent n).trans htry
        generalize b.1.transferBytes (descFields (s.chan c).desc) (s.chan c).sent n = r at *
        have hbytes := (clock_freeWhere r.2.2 (s.chan c) (descFields (s.chan c).desc) (s.chan c).sent r.1).trans hread
        generalize r.2.2.freeWhere (s.chan c) (descFields (s.chan c).desc) (s.chan c).sent r.1 = f at *
        split
        · exact (clock_modChan _ _ _).trans ((clock_modChan _ _ _).trans hbytes)
        · exact (clock_modChan _ _ _).trans ((clock_dmaSend _ _ _ _ _ _ _ _).trans hbytes)

theorem clock_dmaPump (s : State) (c : Nat) : (s.dmaPump c).clock = s.clock := by
  unfold State.dmaPump
  dsimp only
  split
  · rfl
  · split
    · rfl
    · split
      · exact clock_dmaPush _ _ _ _ _
      · exact (clock_modChan _ _ _).trans (clock_dmaSend _ _ _ _ _ _ _ _)

theorem clock_dmaPumps (s : State) : s.dmaPumps.clock = s.clock := by
  unfold State.dmaPumps
  split
  · rfl
  · exact (rfl : State.clock _ = _).trans ((clock_localTurn _ _).trans (clock_dmaPump _ _))

/-! ## The management processor's requests -/

theorem clock_readWords (n : Nat) (s : State) (space off : Nat) : (s.readWords space off n).2.2.clock = s.clock := by
  induction n generalizing s off with
  | zero => rfl
  | succ n ih => exact (ih _ _).trans (counted_readWord s space off).clock

theorem clock_pushPiece (s : State) (x : Nat × Nat) : (s.pushPiece x).clock = s.clock := by
  have hread := clock_readWords x.2 s 0 x.1
  unfold State.pushPiece
  dsimp only
  generalize s.readWords 0 x.1 x.2 = r at *
  exact (clock_routeMsg _ _).trans ((rfl : State.clock _ = _).trans hread)

theorem clock_svcPumps (s : State) : s.svcPumps.clock = s.clock := by
  have hpieces (t : State) : t.pushPieces.clock = t.clock := by
    unfold State.pushPieces
    refine clock_each (fun u x => ?_) _ _
    split
    · rfl
    · exact (clock_pushPiece _ _).trans rfl
  unfold State.svcPumps
  dsimp only
  refine (hpieces _).trans ?_
  split
  · split
    · rfl
    · split
      · next h => exact (clock_asked h).trans rfl
      · next h => exact (clock_nextRepair _).trans ((clock_holdRecord _).trans ((clock_asked h).trans rfl))
  · rfl

end Sys2Proof.Machine
end

section
/-! A slot from its arrivals to what its ports transmit leaves the frame, the slot and network time alone (R165). -/

namespace Sys2Proof.Machine

/-! ## Streams -/

theorem clock_bridgeMove (s : State) (c st : Nat) : (s.bridgeMove c st).clock = s.clock := by
  unfold State.bridgeMove
  dsimp only
  split
  · rfl
  · split
    · exact (clock_modRegion _ _ _).trans ((clock_modRegion _ _ _).trans (clock_modCore _ _ _))
    · rfl

theorem clock_spineEnter (s : State) (c st : Nat) : (s.spineEnter c st).clock = s.clock := by
  unfold State.spineEnter
  dsimp only
  split
  · rfl
  · split
    · split
      · rfl
      · exact (clock_modRegion _ _ _).trans ((clock_modRegion _ _ _).trans (clock_modCore _ _ _))
    · rfl

theorem clock_bridgeDeliver (r t n : Nat) (s : State) : (s.bridgeDeliver r t n).clock = s.clock := by
  induction n generalizing s with
  | zero => rfl
  | succ n ih =>
    unfold State.bridgeDeliver
    split
    · rfl
    · exact clock_ite rfl ((ih _).trans ((clock_modCore _ _ _).trans (clock_modRegion _ _ _)))

theorem clock_moveStreams (s : State) (r : Nat) : (s.moveStreams r).clock = s.clock := by
  have hsend (c : Nat) (t : State) (x : Nat × List SFlit) :
      (if x.2 = [] then t else (t.bridgeMove c x.1).spineEnter c x.1).clock = t.clock :=
    clock_ite rfl ((clock_spineEnter _ _ _).trans (clock_bridgeMove _ _ _))
  unfold State.moveStreams
  dsimp only
  refine (clock_each (fun t x => clock_ite rfl (clock_bridgeDeliver _ _ _ _)) _ _).trans ?_
  exact clock_each (fun t k => clock_each (hsend _) _ _) _ _

theorem clock_arrive (r n : Nat) (s : State) : (s.arrive r n).clock = s.clock := by
  induction n generalizing s with
  | zero => rfl
  | succ n ih =>
    unfold State.arrive
    split
    · rfl
    · exact clock_ite rfl ((ih _).trans ((clock_modCore _ _ _).trans (clock_modRegion _ _ _)))

theorem clock_slotArrivals (s : State) : s.slotArrivals.clock = s.clock :=
  clock_each (fun _ _ => clock_ite rfl ((clock_arrive _ _ _).trans ((clock_moveStreams _ _).trans (clock_modRegion _ _ _)))) _ _

/-! ## Claims and deadlines -/

theorem clock_slotLate (s : State) (c st : Nat) : (s.slotLate c st).clock = s.clock := by
  unfold State.slotLate
  dsimp only
  refine (clock_modRegion _ _ _).trans ((clock_raise _ _ _ _ _ _).trans ?_)
  split <;> rfl

theorem clock_claimSend (s : State) (c : Clause) (e : SlotEntry) (a : Nat) : (s.claimSend c e a).clock = s.clock := by
  unfold State.claimSend
  dsimp only
  split
  · exact clock_ite (clock_modRegion _ _ _) (clock_slotLate _ _ _)
  · exact clock_slotLate _ _ _

theorem clock_claimSlot (s : State) (c : Clause) (a : Nat) : (s.claimSlot c a).clock = s.clock :=
  clock_each (fun _ _ => clock_ite (clock_claimSend _ _ _ _) rfl) _ _

theorem clock_claimSends (s : State) (c next : Option Clause) : (s.claimSends c next).clock = s.clock := by
  unfold State.claimSends
  split
  · rfl
  · refine (rfl : State.clock _ = _).trans (clock_each (fun t a => clock_ite rfl (clock_ite (clock_claimSlot _ _ _) ?_)) _ _)
    split
    · exact clock_claimSlot _ _ _
    · rfl

theorem clock_missDeadlines (s : State) : s.missDeadlines.clock = s.clock := by
  unfold State.missDeadlines
  refine clock_each (fun t u => ?_) _ _
  exact (clock_raise _ _ _ _ _ _).trans (clock_bump _ _ _ _)

/-! ## Landings -/

theorem clock_noteWait (s : State) (u : FUse) : (s.noteWait u).clock = s.clock := by
  obtain ⟨rg, h⟩ := noteWait_keeps s u
  rw [h]
  rfl

theorem clock_putUse (s : State) (u v : FUse) : (s.putUse u v).clock = s.clock := by
  unfold State.putUse State.settleUse
  exact clock_ite (clock_modPort _ _ _) rfl

theorem clock_tryLand (s : State) (u : FUse) : (s.tryLand u).clock = s.clock := by
  unfold State.tryLand
  split
  · exact clock_ite ((clock_putUse _ _ _).trans ((clock_modRegion _ _ _).trans (clock_noteWait _ _))) rfl
  · rfl

theorem clock_landAll (s : State) (only : Option Nat) : (s.landAll only).clock = s.clock := clock_each clock_tryLand _ _

/-! ## Entries -/

theorem clock_sendLasts (s : State) (l : List Nat) : (s.each l fun t q => if t.canSend q then t.sendLast q else t).clock = s.clock :=
  clock_each (fun t q => clock_ite (sendsAt_sendLast t q).sends.clock rfl) _ _

theorem clock_sendScheds (s : State) (l : List Nat) (a b : Nat) (period : Bool) (v : Vec) : (s.each l fun t q =>
    if t.canSend q ∧ t.carriesSched q then t.sendSched q a b period false v else t).clock = s.clock :=
  clock_each (fun t q => clock_ite (sendsAt_sendNew t q _ v).sends.clock rfl) _ _

theorem clock_takeSpine {s t : State} {c st : Nat} {v : Vec} (h : s.takeSpine c st = some (v, t)) : t.clock = s.clock := by
  unfold State.takeSpine at h
  split at h
  · obtain ⟨-, rfl⟩ := Prod.mk.inj (Option.some.inj h)
    rfl
  · cases h

theorem clock_doSend (s : State) (c : Clause) (e : SlotEntry) : (s.doSend c e).clock = s.clock := by
  unfold State.doSend
  dsimp only
  split
  · exact clock_sendLasts _ _
  · next h =>
    split
    · exact (clock_sendLasts _ _).trans ((clock_raise _ _ _ _ _ _).trans (clock_takeSpine h))
    · exact (clock_sendScheds _ _ _ _ _ _).trans (clock_takeSpine h)

theorem clock_doUse (s : State) (c : Clause) (e : SlotEntry) : (s.doUse c e).clock = s.clock := by
  unfold State.doUse
  dsimp only
  split
  · rfl
  · split
    · exact (clock_sendLasts _ _).trans ((clock_raise _ _ _ _ _ _).trans rfl)
    · exact (clock_putUse _ _ _).trans ((clock_sendScheds _ _ _ _ _ _).trans rfl)

theorem clock_doEntry (s : State) (c : Clause) (p : Nat) : (s.doEntry c p).clock = s.clock := by
  unfold State.doEntry
  dsimp only
  refine clock_ite rfl ?_
  split
  · exact clock_doSend _ _ _
  · exact clock_doUse _ _ _
  · exact clock_doUse _ _ _
  · rfl

theorem clock_slotEntries (s : State) (c : Option Clause) : (s.slotEntries c).clock = s.clock := by
  cases c with
  | none => rfl
  | some c => exact clock_each (fun t p => clock_doEntry t c p) s (List.range 32)

/-! ## What the ports transmit -/

theorem clock_sendReplay {s t : State} {p : Nat} (h : s.sendReplay p = some t) : t.clock = s.clock := by
  unfold State.sendReplay at h
  dsimp only at h
  split at h
  · cases h
  · split at h
    · cases h
    · obtain rfl := Option.some.inj h
      exact (clock_bump _ _ _ _).trans ((clock_modPort _ _ _).trans (sendsAt_putWire _ _ _).sends.clock)

theorem clock_sendPending {s t : State} {p : Nat} (h : s.sendPending p = some t) : t.clock = s.clock := by
  unfold State.sendPending at h
  split at h
  · cases h
  · split at h
    · cases h
    · obtain rfl := Option.some.inj h
      exact (clock_putUse _ _ _).trans ((sendsAt_sendNew _ _ _ _).sends.clock.trans (clock_noteWait _ _))

theorem clock_sendSlack (s : State) (p : Nat) : (s.sendSlack p).clock = s.clock := by
  unfold State.sendSlack
  split
  · next h => exact clock_sendReplay h
  · split
    · next h => exact clock_sendPending h
    · exact (sends_sendCredit s p).clock

theorem clock_fillSlot (s : State) (c : Option Clause) (p : Nat) : (s.fillSlot c p).clock = s.clock := by
  unfold State.fillSlot
  refine clock_ite (clock_ite (sendsAt_sendTraining s p).sends.clock rfl) (clock_ite rfl ?_)
  split
  · next h => exact (sendsAt_sendQuenchFlit h).sends.clock
  · exact clock_sendSlack s p
  · exact clock_ite (sendsAt_sendLast s p).sends.clock (clock_ite (clock_sendSlack s p) (sends_sendCredit s p).clock)

/-! ## The slot -/

theorem clock_slotReady (s : State) (next : Option Clause) : (s.slotReady next).clock = s.clock :=
  calc (s.slotReady next).clock
    _ = ((s.slotArrivals.claimSends s.slotArrivals.runningClause next).missDeadlines.landAll none).clock := (sends_quenchSlots _).clock
    _ = (s.slotArrivals.claimSends s.slotArrivals.runningClause next).clock := (clock_landAll _ _).trans (clock_missDeadlines _)
    _ = s.clock := (clock_claimSends _ _ _).trans (clock_slotArrivals s)

theorem clock_slotWork (s : State) (c : Option Clause) : (s.slotWork c).clock = s.clock :=
  (clock_retryWaiting _).trans ((clock_landAll _ _).trans (clock_slotEntries s c))

theorem clock_slotFill (s : State) (c : Option Clause) : (s.slotFill c).clock = s.clock := clock_each (fun t p => clock_fillSlot t c p) _ _

end Sys2Proof.Machine
end

section
/-! The time of a slot, and the obligation on the fabric's slots. -/

namespace Sys2Proof.Machine

/-! ## Network time (R165) -/

/-- Network time at the end of a slot, in 2^-16 ns. -/
def Clock.slotEnd (k : Clock) : Nat := k.nt32.toNat * 65536 + k.ntFrac.toNat + (90112 - k.subSlot)

/-- The clock after a slot. -/
def Clock.next (k : Clock) (slot : Nat) : Clock where
  frame := k.frame
  slot := slot
  subSlot := 0
  nt32 := BitVec.ofNat 32 (k.slotEnd / 65536)
  ntFrac := BitVec.ofNat 16 k.slotEnd
  wrapDue := k.wrapDue + if 2 ^ 48 ≤ k.slotEnd then 1 else 0

theorem clock_slotEnd (s : State) (slot : Nat) : (s.slotEnd slot).clock = s.clock.next slot := rfl

theorem clock_slotStep (s : State) (next : Option Clause) : (s.slotStep next).clock = s.clock.next (s.slot + 1) := by
  rw [slotStep_eq, clock_slotEnd, clock_slotFill, clock_slotWork, clock_slotReady]

theorem Clock.next_time (k : Clock) (slot : Nat) : (k.next slot).nt32.toNat * 65536 + (k.next slot).ntFrac.toNat = k.slotEnd % 2 ^ 48 := by
  show (BitVec.ofNat 32 (k.slotEnd / 65536)).toNat * 65536 + (BitVec.ofNat 16 k.slotEnd).toNat = _
  rw [BitVec.toNat_ofNat, BitVec.toNat_ofNat]
  generalize k.slotEnd = n
  omega

/-- A slot takes its time. -/
theorem exec_slotTick {s : State} (hawake : s.awake = true) (hslot : s.slot < 4096) (hsettles : s.settles) :
    ∃ t, exec .slotTick s = .next t ∧ t.clock = s.clock.next (s.slot + 1) := by
  obtain ⟨next, hnext⟩ : ∃ next, next = if s.sched ∧ 4088 ≤ s.slot then s.frameStep.runningClause else none := ⟨_, rfl⟩
  refine ⟨(s.slotStep next).dmaPumps.svcPumps, ?_, (clock_svcPumps _).trans ((clock_dmaPumps _).trans (clock_slotStep s next))⟩
  show s.settled (slotTickNow s) = _
  rw [settled_of_settles hsettles]
  unfold slotTickNow
  dsimp only
  rw [← hnext]
  exact if_pos ⟨hawake, hslot⟩

/-! ## The obligation -/

/-- Settles O48: the clock is kept by all that a slot does but its end; in a slot in which one port alone has an entry the phases before
and after that entry are known, and each kind of entry is followed through; the four commands act on one use or one flit. -/
theorem fabricSlots : Obligations.FabricSlots := by
  unfold Obligations.FabricSlots
  intro s
  refine ⟨fun hawake hslot hsettles => ?_, fun port c h hdue hvalid => ?_, fun port c h hgap hclaimed hother => ?_, fun port hstill => ?_,
    fun port c u f hawake hsched hc hvalid hkind hsend hcarries hresend hroom hfor huses hports hland =>
      exec_pendingForward hawake hsched hc hvalid hkind hsend hcarries hresend hroom hfor huses hports hland,
    fun port u core st f huses hinput hports hland hflit hroom => exec_pendingLanding huses hinput hports hland hflit hroom,
    fun r f h hr hready hroom => exec_landingStreamArrival h hr hready hroom,
    fun u huses hdue hlate hq => exec_deadlineMiss huses hdue hlate hq⟩
  case refine_1 =>
    obtain ⟨t, ht, hclock⟩ := exec_slotTick hawake hslot hsettles
    refine ⟨t, ht, (congrArg Clock.slot hclock :), (congrArg Clock.frame hclock :), (congrArg Clock.subSlot hclock :), ?_,
      (congrArg Clock.wrapDue hclock :)⟩
    have htime := s.clock.next_time (s.slot + 1)
    rw [← hclock] at htime
    exact htime
  case refine_2 =>
    intro p x e k l m use sent free
    have hsent {t : State} {v : Vec} {period : Bool} (ht : x.Transmits (s.timelyHdr period) v (t.port p)) : sent t v period := by
      obtain ⟨h1, h2, -, h3, h4, h5, h6, h7⟩ := ht.carries (by decide : 1 < 16) (by decide : 0 < 8)
      exact ⟨h1, h2, h4.trans (Nat.mod_eq_of_lt (h.still.slot_lt.trans (by decide))), h5, h3, h6, h7, ht.seqTx, ht.replay⟩
    refine ⟨fun f hkind hfree hout hcore hstream hclaim => ?_, fun g hkind hfree hland hlanded hslot hframe hready => ?_,
      fun g hkind houts hland hlanded hslot hframe hready => ?_, fun hkind hflit => ?_⟩
    · obtain ⟨houts, hsend, hcarries, hroom⟩ := hfree
      obtain ⟨t, ht, htrans, hempty⟩ := slot_send h port.isLt hdue hvalid hkind houts hsend hcarries hroom hout hcore hstream hclaim
      exact ⟨t, ht, hsent htrans, hempty⟩
    · obtain ⟨houts, hsend, hcarries, hroom⟩ := hfree
      obtain ⟨t, ht, htrans, hrest⟩ := slot_forward h port.isLt hdue hvalid hkind houts hsend hcarries hroom hland hlanded hslot hframe hready
      exact ⟨t, ht, hsent htrans, hrest⟩
    · exact slot_landing h port.isLt hdue hvalid hkind houts hland hlanded hslot hframe hready
    · exact slot_waits h port.isLt hdue hvalid hkind hflit
  case refine_3 =>
    intro e k r hvalid hkind hhead
    refine ⟨fun f hopen hready => slot_claims h port.isLt hgap hclaimed hother hvalid hkind hhead hopen hready, fun hopen hq => ?_⟩
    obtain ⟨t, ht, hcause, hlogged, hdebt, x, hx⟩ := slot_late h port.isLt hgap hclaimed hother hvalid hkind hhead hopen hq
    refine ⟨t, ht, hcause, hlogged, ?_, ?_⟩
    · rw [hdebt]
      exact (tab_get_set _ _ _ _ _).trans (if_pos rfl)
    · have hregion : t.region r = x.lateStop (s.issuing r) := hx
      rw [hregion]
      exact lateStop_stops x (s.issuing r)
  case refine_4 =>
    intro p x hslack hsend hdown
    refine ⟨fun n e hresend hfind hseq => slot_replays hstill port.isLt hslack hsend hdown hresend hfind hseq,
      fun q hcontin hop hnext hroom => ?_⟩
    obtain ⟨t, ht, hstarts⟩ := slot_starts hstill port.isLt hslack hsend hdown hcontin hop hnext hroom
    obtain ⟨-, hlow, hhigh⟩ := nextMsg_vc hnext
    obtain ⟨h1, h2, h3, -, -, -, -, h4⟩ := hstarts.sent.carries (by decide : 2 < 16) (show q.msg.vc < 8 by omega)
    have hused := usedAfter_counts x q.msg
    rw [← hstarts.used] at hused
    exact ⟨t, ht, h2, h3, h1, h4, hstarts.contin, hstarts.sent.seqTx, hstarts.taken, hused⟩

end Sys2Proof.Machine
end
